-- ==== Sys2Proof/Word.lean ====
section
/-! DEFINITION. The word types of the model: bit vectors for what the manual treats as bits, and the type of sparse maps. -/

namespace Sys2Proof

/-- A 64-bit register or memory doubleword (02 R30). -/
abbrev W64 := BitVec 64
/-- A 32-bit register of a register block, an instruction word, a lane-page word (01 R22, 03 R74). -/
abbrev W32 := BitVec 32
/-- One byte. -/
abbrev Byte := BitVec 8
/-- A 64-byte line of DRAM or of a cache; byte i is bits [8i+7:8i] (08 R230). -/
abbrev Line := BitVec 512
/-- A line number, PA[47:6] (08 R242). -/
abbrev LineNo := BitVec 42
/-- A physical 4 KiB page number, PA[47:12]. -/
abbrev PageNo := BitVec 36
/-- A virtual core number (00 R1). -/
abbrev Vc := BitVec 6
/-- A Gatehouse lane number (13 R402). -/
abbrev LaneNo := BitVec 6
/-- A pavilion number, its VMID (10 R299). -/
abbrev Pav := BitVec 8
/-- An Arbor session number (11 R335). -/
abbrev Ses := BitVec 14
/-- A timer channel number (16 R493). -/
abbrev TmrNo := BitVec 5
/-- A cluster or home-slice or DRAM-channel number, 0 to 7 (08 R232). -/
abbrev Oct := BitVec 3
/-- A fabric agent id (08 R232). -/
abbrev Agent := BitVec 5
/-- A sequencer thread: 0 MST, 1 SLV, 2 ARB, 3 MON (12 R379). -/
abbrev Thread := BitVec 2
/-- An allocation or owner class: 0 to 255 a pavilion, 0x100 the hypervisor class, 0x101 the device class, 0xFFFF none (13 R416, 17 R515). -/
abbrev ClassId := BitVec 16

/-- The hypervisor class (13 R416). -/
abbrev hypClass : ClassId := 0x100#16
/-- The device class (08 R240). -/
abbrev devClass : ClassId := 0x101#16
/-- No owner (13 R416). -/
abbrev noClass : ClassId := 0xFFFF#16

/-- A sparse map: key and value pairs, keys strictly rising; a key not listed holds the value that its reader names. -/
abbrev SMap (α : Type) := List (Nat × α)

end Sys2Proof
end

