-- ==== Sys2Proof/Events.lean ====
section
/-! DEFINITION. The types of the commands' operands that are not bit vectors: what the outside world or a detector reports with a command. -/

namespace Sys2Proof

/-- What an on-chip array's check finds at a word (15 R453, R454, R461). -/
inductive Chk where
  | clean | corrected | uncorrectable
  deriving DecidableEq, Repr

/-- What the Reed-Solomon decoder finds in one codeword of a DRAM burst: no error, an error in the symbol of one device, or more than it can correct (09 R274). -/
inductive Codeword where
  | clean
  | symbol (dev : Fin 10)
  | beyond
  deriving DecidableEq, Repr

/-- A DRAM burst as its codewords decode: eight for BL16, four for BC8; a codeword not listed is clean (09 R274). -/
structure Burst where
  /-- The channel that sent it, for an access that reads several: a reconstruction (09 R295). -/
  chan : Oct := 0
  words : List Codeword := []
  deriving DecidableEq, Repr, Inhabited

/-- A stripe row whose group of writes is served, and the burst that the group's reads find (09 R275, R281). -/
structure RowBurst where
  row : BitVec 32
  burst : Burst := {}
  deriving DecidableEq, Repr

/-- Checks of a core (15 R454). -/
inductive CoreCheck where
  | stall | residue3 | residue7 | secded | parity
  deriving DecidableEq, Repr

/-- The island in which a check fails or a handshake stalls (15 R454, R456). -/
inductive Island where
  /-- A virtual core's core, by the check that failed. -/
  | core (vc : Vc) (check : CoreCheck)
  /-- The translator of a cluster. -/
  | translator (k : Oct)
  /-- The active spine copy. -/
  | spine
  /-- A cluster island, a home slice, a memory controller, a fabric stop (01, the islands of the die). -/
  | cluster (k : Oct)
  | slice (k : Oct)
  | controller (c : Oct)
  | stop (n : BitVec 4)
  /-- An Arbor engine, a half of a Belvedere pair or of the Gatehouse, which its fellow then differs from; the trace funnel. -/
  | arbor
  | belvedere (second : Bool)
  | gatehouse
  | funnel
  deriving DecidableEq, Repr

/-- The word that a background scrub reads (15 R461; 08 R230, R231). -/
inductive ScrubArr where
  | l1d (vc : Vc) (line : LineNo)
  | l2 (clu : Oct) (line : LineNo)
  | sysCache (slice : Oct) (line : LineNo)
  | directory (slice : Oct) (line : LineNo)
  | course (vc : Vc) (va : W64)
  | folly (vc : Vc) (i : BitVec 4)
  /-- A tag line in the tag cache of a channel's controller. -/
  | tagCache (chan : Oct) (line : LineNo)
  /-- A small array of a core (08 R231). -/
  | small (vc : Vc)
  /-- A core's L2 TLB, walk cache, direction counters or hot table (08 R230). -/
  | coreTable (vc : Vc)
  /-- A cluster's miss queue; a fabric stop's buffers (08 R231). -/
  | missQueue (clu : Oct)
  | stopBuf (stop : BitVec 4)
  /-- Arbor's session state and window CAM; a Belvedere pair's memory; the Gatehouse's; the trace buffer (08 R230). -/
  | arbor
  | belvedere (second : Bool)
  | gatehouse
  | funnel
  deriving DecidableEq, Repr

/-- What an accepted outbound access does (11 R341, R344, R356). -/
inductive OutKind where
  | load | store
  | atomic (op : BitVec 4)
  | mover (toMem : Bool) (ipa : BitVec 48) (block : Bool)
  deriving DecidableEq, Repr

/-- The write phase of an inbound read-modify-write cycle: its data, none where the cycle ends without one, and whether their parity holds (11 R350, R355). -/
structure RmwWrite where
  data : Option W64
  parityOk : Bool
  deriving DecidableEq, Repr

/-- The slave's answer to an outbound cycle (11 R361). -/
inductive BusResp where
  | ack | busError | retry | parityError
  deriving DecidableEq, Repr

/-- A fault that cannot be hidden (15 R456, the classes that name BELVEDERE). -/
inductive BlvCause where
  | lostData | noSpare | dramLoss | gatehouse | arbor | supply | cluster | slices | mirror
  deriving DecidableEq, Repr

/-- What a migration finds: the architectural state of the failed core can be read; how many of the spares chosen in turn fail their check at step 4 or 6 (15 R460). -/
structure MigObs where
  readable : Bool
  badSpares : Nat := 0
  deriving DecidableEq, Repr

/-- A periodic attempt to restore a link: the width that it reaches, and whether the partner advertises Upconfigure Capability (15 R470). -/
structure UpTry where
  width : BitVec 5
  capable : Bool := true
  deriving DecidableEq, Repr

/-- What COLD observes of its surroundings (14 R437, R438; 15 R466; 09 R290; 18 R536): the results of authentication, training and self-test, the fuse record and the straps. -/
structure BootObs where
  /-- The image of slot A, of slot B, authenticates (14 R438). -/
  authA : Bool
  authB : Bool
  /-- The bytes of slot A, of slot B, where the board has written the flash since the device last used it; none: as the device left it. A byte not listed is 0. -/
  flashA : Option (SMap Byte)
  flashB : Option (SMap Byte)
  /-- The lowest channel whose fitted devices differ from the others' or from the memory configuration block, and the block's field that they break, by its offset in the slot header (09 R272). -/
  misfit : Option (Oct × Nat)
  /-- Channels whose training fails (09 R290, R292). -/
  trainFail : BitVec 8
  /-- Home slices that fail the self-test (15 R466). -/
  sliceFail : BitVec 8
  /-- Fabric stops and memory controllers that fail the self-test. -/
  stopFail : BitVec 16 := 0
  memFail : BitVec 8 := 0
  /-- Fabric links that fail the self-test, as UNIT_STATUS indexes them. -/
  linkFail : BitVec 24
  /-- Belvedere pairs A (bit 0) and B (bit 1) that fail the self-test. -/
  blvFail : BitVec 2
  /-- Spare cores that fail the self-test, bit pc. -/
  coreFail : BitVec 72
  /-- The fuse record: cores fused off, bit pc (00 R5). -/
  fused : BitVec 72
  /-- MGMT_ADDR[1:0] (18 R536). -/
  strap : BitVec 2
  deriving DecidableEq, Repr

end Sys2Proof
end

