-- ==== Sys2Proof/Syntax.lean ====
section
/-! DEFINITION. The commands: one constructor for each row of opcode_table.json, in the order of the table, with the operands of the event. -/

namespace Sys2Proof

/-- One command of the table (95_what_each_step_holds): each is a whole, indivisible step of the device. -/
inductive Instr where
  /-- ALU_OP (R79): Executes an ALU group instruction (major opcode 0x01) on two 64-bit operands. -/
  | aluOp (vc : Vc) (w : W32)
  /-- ALU2_OP (R80): Executes an ALU2 group instruction (major opcode 0x03), including ADC and SBC in F-style. -/
  | alu2Op (vc : Vc) (w : W32)
  /-- MULDIV_OP (R81): Issues a MULDIV group multiply or divide as a long operation with a ticket. -/
  | muldivOp (vc : Vc) (w : W32)
  /-- RI_INTEGER_OP (R83): Executes an RI integer instruction: ADDI, ANDI, ORI, XORI, SLTI, SLTUI, ADDPC or INSH. -/
  | riIntegerOp (vc : Vc) (w : W32)
  /-- LOAD (R84): Executes a load (RI or LSX form): translation, checks, forwarding and the access to the memory type found. -/
  | load (vc : Vc) (w : W32) (err : Chk)
  /-- STORE (R84): Executes a store into the store buffer after translation and checks, including the code-seen case of R161. -/
  | store (vc : Vc) (w : W32)
  /-- ATOMIC (R88): Executes an ATOM group read-modify-write where its target places it: L1D, home slice, spine, Arbor or PCIe. -/
  | atomic (vc : Vc) (w : W32)
  /-- BR_COMPARE (R41): C-style or H-level BR: branches on a comparison of two registers. -/
  | brCompare (vc : Vc) (w : W32)
  /-- BRI (R89): C-style BRI: branches on a comparison of ra with imm5, or on a bit test of ra. -/
  | bri (vc : Vc) (w : W32)
  /-- BR_FLAGS (R42): F-style FB branch: branches on a condition of CF. -/
  | brFlags (vc : Vc) (w : W32)
  /-- J (R91): Jumps to a PC-relative target. -/
  | j (vc : Vc) (w : W32)
  /-- CALL (R45): Pushes the pair-masked frame and transfers control to a relative target, as one instruction. -/
  | call (vc : Vc) (w : W32)
  /-- CALLR (R45): As CALL, with the target taken from ra. -/
  | callr (vc : Vc) (w : W32)
  /-- JR (R91): Jumps to the address held in ra. -/
  | jr (vc : Vc) (w : W32)
  /-- RET (R46): Pops the frame at g31, restores the masked pairs and returns to RA. -/
  | ret (vc : Vc) (w : W32)
  /-- FP_OP (R92): Issues an FP group operation with its rounding, flags and NaN rules. -/
  | fpOp (vc : Vc) (w : W32)
  /-- FMA_OP (R94): Issues a fused multiply-add variant with a single rounding in FCSR.RM. -/
  | fmaOp (vc : Vc) (w : W32)
  /-- FOLLY (R167): Executes a folly index's microcode sequence as one architectural instruction between two commit points. -/
  | folly (vc : Vc) (w : W32) (err : Chk)
  /-- SYNC (R66): Orders every earlier access before every later access, with respect to every observer. -/
  | sync (vc : Vc) (w : W32)
  /-- SYNC_D (R67): As SYNC, and also completes only when every older DEVICE access has completed at its target. -/
  | syncD (vc : Vc) (w : W32)
  /-- SYNC_T (R221): Completes only when every earlier TLBI of the core has completed on every holder. -/
  | syncT (vc : Vc) (w : W32)
  /-- SYNC_I (R69): Acts as a plain SYS-group barrier and has no other effect. -/
  | syncI (vc : Vc) (w : W32)
  /-- WFE (R60): Suspends the vCPU until an interrupt is pending or a routed timer event occurs. -/
  | wfe (vc : Vc) (w : W32)
  /-- ERET (R53): Returns from an exception after checking the saved level and the target address. -/
  | eret (vc : Vc) (w : W32)
  /-- TRAP_S (R96): Raises class 0x05 to S, carrying the 16-bit code. -/
  | trapS (vc : Vc) (w : W32)
  /-- TRAP_H (R96): Raises class 0x06 to H, carrying the 16-bit code. -/
  | trapH (vc : Vc) (w : W32)
  /-- TRAP_B (R96): Raises the breakpoint exception, class 0x07. -/
  | trapB (vc : Vc) (w : W32)
  /-- MFS (R34): Reads a system register named by number, with level checks. -/
  | mfs (vc : Vc) (w : W32)
  /-- MTS (R34): Writes a system register named by number, with level checks. -/
  | mts (vc : Vc) (w : W32)
  /-- VCPU_H_WRITE (R306): An MTS to VCPU_H spills the pending latch into PEND and loads the new vCPU's PEND into the latch, or refuses. -/
  | vcpuHWrite (vc : Vc) (w : W32)
  /-- VMID_H_WRITE (R199): An MTS to VMID_H loads VTB for the named pavilion and clears RUN after spilling the latch. -/
  | vmidHWrite (vc : Vc) (w : W32)
  /-- TLBI_VA (R218): Invalidates one page of one ASID in every TLB, course store and inbound cache. -/
  | tlbiVa (vc : Vc) (w : W32)
  /-- TLBI_VAA (R218): Invalidates one page under every ASID. -/
  | tlbiVaa (vc : Vc) (w : W32)
  /-- TLBI_ASID (R218): Invalidates every non-global entry of one ASID. -/
  | tlbiAsid (vc : Vc) (w : W32)
  /-- TLBI_IPA (R218): Invalidates the stage-2 entries and regions of one IPA page. -/
  | tlbiIpa (vc : Vc) (w : W32)
  /-- TLBI_VMID (R218): Invalidates every entry and region of one pavilion. -/
  | tlbiVmid (vc : Vc) (w : W32)
  /-- TLBI_ALL (R218): Invalidates every entry and region of every context. -/
  | tlbiAll (vc : Vc) (w : W32)
  /-- TLBI_COMPLETION (R220): A TLBI completes at the last holder once in-flight walks and accesses in its reach are done. -/
  | tlbiCompletion (vc : Vc)
  /-- INTERRUPT_ENTRY (R54): Takes an enabled pending physical or virtual interrupt at an instruction boundary. -/
  | interruptEntry (vc : Vc)
  /-- NOTICE_ENTRY (R472): Takes a pending fault notice as class 0x21 at vector offset 0x400. -/
  | noticeEntry (vc : Vc)
  /-- TICKET_COMPLETE (R135): A long operation's result is written to the shadow file and its ticket stops being outstanding. -/
  | ticketComplete (vc : Vc) (t : BitVec 4)
  /-- REGION_COMMIT (R144): At a commit point whose operations have all completed and passed their checks, the results become architectural as one event. -/
  | regionCommit (vc : Vc)
  /-- BRANCH_MISPREDICT_UNDO (R145): A resolved mispredicted branch undoes every younger course and repairs the history and the return stack. -/
  | branchMispredictUndo (vc : Vc)
  /-- STORE_DRAIN (R266): A committed buffered store is written into the L1D once its line is in M or E and every older store is performed. -/
  | storeDrain (vc : Vc)
  /-- TRANSLATION_REQUEST (R126): A block's hot count reaches the threshold, and the core sends a translation request to its cluster's translator. -/
  | translationRequest (vc : Vc)
  /-- REGION_INSTALL (R129): The translator finishes a region, and the core installs it at the next block entry, evicting older regions if needed. -/
  | regionInstall (vc : Vc)
  /-- HANDSHAKE_WATCHDOG_EXPIRY (R454): A self-timed handshake does not complete within its watchdog bound. -/
  | handshakeWatchdogExpiry (i : Island)
  /-- CORE_MIGRATION (R459): A permanent core fault moves the virtual core to a spare core. -/
  | coreMigration (vc : Vc) (obs : MigObs)
  /-- PMU_COUNTER_OVERFLOW (R509): A core counter wraps; the device sets OVF, samples and makes the sampling interrupt pending. -/
  | pmuCounterOverflow (vc : Vc) (n : BitVec 3)
  /-- VIRQ_POST (R314): A source posts a virtual interrupt ID to a latch or to PEND, with a possible doorbell or deferral. -/
  | virqPost (src : BitVec 64)
  /-- VIRQ_SEND_WRITE (R317): A guest write to VIRQ_SEND posts an ID of its own pavilion. -/
  | virqSendWrite (vc : Vc) (p : Pav) (v : W32)
  /-- QOS_EPOCH_START (R322): A new 8 µs epoch resets the charges, releases capped requests and delivers deferred posts. -/
  | qosEpochStart
  /-- ARB_TENURE_WINDOW_START (R322): A new 64 µs tenure window begins, and tenure carried over from the last window is charged to it. -/
  | arbTenureWindowStart
  /-- DEVICE_INFO (R416): Returns the device identity, mode and configuration summary. -/
  | deviceInfo (lane : LaneNo)
  /-- MODE_SET (R441): Moves the device to SERVICE from ASSEMBLY, or wakes it from REST. -/
  | modeSet (lane : LaneNo)
  /-- DEVICE_RESET (R418): Replies, stops taking commands and writes the log records to flash ahead of a full reset. -/
  | deviceReset (lane : LaneNo)
  /-- DEVICE_RESET_EFFECT (R418): Full reset takes effect 10 µs after the log write of DEVICE_RESET completes. -/
  | deviceResetEffect (boot : BootObs)
  /-- VOLTAGE_SET (R17): Sets the VDD_CORE setpoint and replies once the rail has settled. -/
  | voltageSet (lane : LaneNo)
  /-- CORE_VID_STEP (R553): Moves the CORE_VID code by one step toward the requested code, at least 10 µs after the previous step. -/
  | coreVidStep
  /-- REST_ENTER (R443): Checks the conditions for REST and waits for every virtual core to be in WFE. -/
  | restEnter (lane : LaneNo)
  /-- REST_ENTRY (R443): Once every core is idle, writes back the caches, puts DRAM in self-refresh and enters REST. -/
  | restEntry
  /-- REST_WAKE (R445): An enabled wake event returns the device from REST to SERVICE, or abandons an entry under way. -/
  | restWake (ev : BitVec 3)
  /-- PAV_CREATE (R301): Creates a pavilion with its stage-2 base, PAV_CTL, NVCPU, NIRQ and PIT. -/
  | pavCreate (lane : LaneNo)
  /-- PAV_DESTROY (R302): Returns a pavilion to NONE, clearing its grants, translations and PIT. -/
  | pavDestroy (lane : LaneNo)
  /-- PAV_START (R309): Makes a pavilion RUNNING and withdraws its stop interrupt. -/
  | pavStart (lane : LaneNo)
  /-- PAV_STOP (R328): Runs step 1 of the reset sequence and leaves the pavilion STOPPED. -/
  | pavStop (lane : LaneNo)
  /-- PAV_RESET (R325): Runs the pavilion reset sequence and returns the pavilion to DEFINED. -/
  | pavReset (lane : LaneNo)
  /-- PAV_VCPU_MAP (R313): Writes HOME_VC and DB_EN of one vCPU's CTL in the PIT. -/
  | pavVcpuMap (lane : LaneNo)
  /-- PAV_CTL_SET (R304): Changes the masked PAV_CTL fields and, optionally, the stage-2 base. -/
  | pavCtlSet (lane : LaneNo)
  /-- MEM_ASSIGN (R422): Records a DRAM range as owned by a pavilion or the hypervisor class. -/
  | memAssign (lane : LaneNo)
  /-- MEM_RELEASE (R422): Removes the record of an assigned DRAM range. -/
  | memRelease (lane : LaneNo)
  /-- MEM_PARITY_SET (R279): Selects PARITY or OPEN mode, restarting the fill and the hypervisor copy when the mode changes. -/
  | memParitySet (lane : LaneNo)
  /-- KEEP_REGION_SET (R261): Sets the keep region's base and size. -/
  | keepRegionSet (lane : LaneNo)
  /-- MICA_SET (R287): Enables or disables Mica compression of new writes. -/
  | micaSet (lane : LaneNo)
  /-- ARB_PROFILE_LOAD (R398): Loads a shipped or P-GEN profile into all three sequencers and turns every role off. -/
  | arbProfileLoad (lane : LaneNo)
  /-- SESSION_OPEN (R337): Opens an Arbor session for an owner pavilion. -/
  | sessionOpen (lane : LaneNo)
  /-- SESSION_WINDOW_SET (R338): Writes one outbound window, inbound window or interrupt-map entry of a session. -/
  | sessionWindowSet (lane : LaneNo)
  /-- SESSION_CLOSE (R337): Resets a session, frees its windows and slots, and makes it CLOSED. -/
  | sessionClose (lane : LaneNo)
  /-- SESSION_RESET (R365): Runs the session reset sequence and leaves the session OPEN or HALTED. -/
  | sessionReset (lane : LaneNo)
  /-- ARB_ROLE_SET (R333): Commits the Arbor roles, request level, handler mask and bus timer. -/
  | arbRoleSet (lane : LaneNo)
  /-- QOS_MEM_SET (R322): Sets a class's memory budget and CAP. -/
  | qosMemSet (lane : LaneNo)
  /-- QOS_CACHE_SET (R240): Sets a class's system-cache way mask. -/
  | qosCacheSet (lane : LaneNo)
  /-- QOS_ARB_SET (R322): Sets a pavilion's Arbor tenure budget and priority. -/
  | qosArbSet (lane : LaneNo)
  /-- QOS_IRQ_RATE_SET (R322): Sets a pavilion's interrupt-rate budget. -/
  | qosIrqRateSet (lane : LaneNo)
  /-- IRQ_ROUTE_SET (R420): Writes a PIT entry and binds a source to it. -/
  | irqRouteSet (lane : LaneNo)
  /-- IRQ_ROUTE_CLEAR (R420): Unbinds a source, or every source of an ID, and disables the entry. -/
  | irqRouteClear (lane : LaneNo)
  /-- LOG_READ (R480): Returns up to MAX log records from FROM onward. -/
  | logRead (lane : LaneNo)
  /-- LOG_CLEAR (R480): Removes every log record up to UPTO. -/
  | logClear (lane : LaneNo)
  /-- FAULT_POLICY_SET (R478): Sets one fault-policy item. -/
  | faultPolicySet (lane : LaneNo)
  /-- UNIT_STATUS (R481): Returns the status of one unit, or the HT of the home slices. -/
  | unitStatus (lane : LaneNo)
  /-- FOLLY_LOAD (R190): Checks and stages a folly image, or an unload, and switches the index's bank at commit. -/
  | follyLoad (lane : LaneNo)
  /-- FW_UPDATE_STAGE (R418): Writes a firmware chunk into the inactive flash slot, and authenticates the slot on the final chunk. -/
  | fwUpdateStage (lane : LaneNo)
  /-- FW_ACTIVATE (R418): Selects a flash slot for the next boot, or restarts the Gatehouse on it at once. -/
  | fwActivate (lane : LaneNo)
  /-- SLATE_BEGIN (R423): Opens a slate owned by the lane and returns its id. -/
  | slateBegin (lane : LaneNo)
  /-- SLATE_COMMIT (R425): Checks the staged commands in order, prepares them and arms the commit instant T. -/
  | slateCommit (lane : LaneNo)
  /-- SLATE_COMMIT_INSTANT (R425): QZ_TIME reaches T, and every unit concerned switches to its shadow state. -/
  | slateCommitInstant (id : BitVec 16)
  /-- SLATE_ROLLBACK (R424): Discards a slate's staged commands and closes it. -/
  | slateRollback (lane : LaneNo)
  /-- SLATE_STATUS (R427): Returns the state of an open slate. -/
  | slateStatus (lane : LaneNo)
  /-- SLATE_IDLE_EXPIRY (R423): A slate reaches its IDLE limit and is rolled back, closed and logged. -/
  | slateIdleExpiry (id : BitVec 16)
  /-- QZ_DISCIPLINE_SET (R486): Sets the Quartz discipline MODE, EDGE, PPS_OUT and OFFSET. -/
  | qzDisciplineSet (lane : LaneNo)
  /-- TIMER_ALLOC (R494): Sets the owner and linking of a timer channel and resets its registers. -/
  | timerAlloc (lane : LaneNo)
  /-- PCIE_ROLE_SET (R527): Sets a port's bifurcation, link roles and virtual-function counts, and retrains its links. -/
  | pcieRoleSet (lane : LaneNo)
  /-- PCIE_VF_ASSIGN (R330): Assigns a PCIe function to a pavilion, or removes the assignment with FLR. -/
  | pcieVfAssign (lane : LaneNo)
  /-- TRACE_CONFIG (R522): Configures the trace funnel and its sink, and starts or drains it. -/
  | traceConfig (lane : LaneNo)
  /-- PMU_UNCORE_CONFIG (R515): Sets the event and class filter of an uncore unit's four counters. -/
  | pmuUncoreConfig (lane : LaneNo)
  /-- CR_TAIL_DOORBELL (R406): A write of CR_TAIL makes new commands available to the Gatehouse. -/
  | crTailDoorbell (lane : LaneNo) (v : W32)
  /-- RING_EN_WRITE (R405): A write to LN_CTL starts the ring with zeroed indices, or stops it after the command under way. -/
  | ringEnWrite (lane : LaneNo) (v : W32)
  /-- RING_COMMAND_TAKE (R406): The Gatehouse takes the next ring command when a reply slot is free, or stops a faulty ring. -/
  | ringCommandTake (lane : LaneNo)
  /-- MB_DOORBELL_WRITE (R410): A write of MB_DOORBELL.RING presents MB_CMD as a command, or sets OVERRUN. -/
  | mbDoorbellWrite (lane : LaneNo) (v : W32)
  /-- MB_STAT_READ (R538): A read of MB_STAT releases MGMT_ALERT_N. -/
  | mbStatRead (lane : LaneNo)
  /-- GATEHOUSE_RESTART (R430): A Gatehouse lockstep mismatch restarts its firmware; each executing command resumes by its tag. -/
  | gatehouseRestart
  /-- I3C_PRIVATE_TRANSFER (R537): An I3C or I2C private transfer reads or writes 32-bit words of the lane 0 page. -/
  | i3cPrivateTransfer (read : Bool) (off : BitVec 16) (n : Nat) (ws : List W32)
  /-- SPI_FRAME (R537): A SPI frame with command 0x02 or 0x0B writes or reads words of the lane 0 page. -/
  | spiFrame (read : Bool) (off : BitVec 16) (n : Nat) (ws : List W32)
  /-- I3C_SETDASA (R536): The I3C target takes a dynamic address from its static address. -/
  | i3cSetdasa (addr : BitVec 7)
  /-- I3C_ENTDAA (R536): The I3C target takes part in dynamic address assignment. -/
  | i3cEntdaa (addr : BitVec 7)
  /-- I3C_ENEC (R538): The controller enables in-band interrupts at the I3C target. -/
  | i3cEnec
  /-- ARBOR_OUTBOUND_ACCESS (R341): Arbor resolves a DEVICE access in the outbound window space and queues it, waits it or refuses it. -/
  | arborOutboundAccess (kind : OutKind) (cls : ClassId) (pa : BitVec 48) (size : Nat) (data : W64) (cmpv : W64)
  /-- OUTBOUND_BUS_CYCLE (R349): MST runs a queued outbound cycle on the bus once Arbor holds the bus. -/
  | outboundBusCycle (ses : Ses)
  /-- OUTBOUND_CYCLE_END (R361): The slave's acknowledge, bus error or retry ends an outbound cycle with its code. -/
  | outboundCycleEnd (resp : BusResp) (data : W64)
  /-- LOOPBACK_CYCLE (R360): Arbor loops an outbound cycle into an enabled inbound window inside the engine. -/
  | loopbackCycle (ses : Ses)
  /-- SESSION_CYCLE_TIMER_EXPIRY (R394): T_S expires on an Arbor-mastered cycle; the port block ends it with TIMEOUT and restarts MST. -/
  | sessionCycleTimerExpiry
  /-- BUS_TIMER_EXPIRY (R393): The system bus timer expires on a data phase and asserts the bus-error response. -/
  | busTimerExpiry
  /-- SESSION_WEDGE (R364): A session's head access outlasts WEDGE_LIMIT, and the session becomes WEDGED. -/
  | sessionWedge (ses : Ses)
  /-- BUS_GRANTED (R389): Arbor receives the bus grant for its request level and takes the tenure. -/
  | busGranted
  /-- BUS_YIELD (R389): BCLR*, another BRn* under ROR, or CBRQ/ raises YIELD, and Arbor ends its tenure after the beat under way. -/
  | busYield
  /-- BUS_REQUEST_ARBITRATION (R389): As system controller, Arbor arbitrates bus requests and drives grants. -/
  | busRequestArbitration (req : BitVec 4)
  /-- ARBITRATION_GRANT_TIMEOUT (R389): A granted requester does not take the bus within 8 µs, and the arbiter withdraws the grant. -/
  | arbitrationGrantTimeout
  /-- INBOUND_ADDRESS_PHASE (R346): An inbound address phase is matched against the window CAM, translated and accepted or refused. -/
  | inboundAddressPhase (space : BitVec 3) (am : BitVec 8) (addr : W64) (write : Bool) (parityOk : Bool) (answered : Bool)
  /-- INBOUND_WRITE_DATA (R348): An inbound write data phase is buffered or performed as NC_WR and acknowledged. -/
  | inboundWriteData (size : Nat) (data : W64) (parityOk : Bool) (timedOut : Bool)
  /-- INBOUND_READ_DATA (R351): An inbound read data phase returns coherent data, with read-ahead. -/
  | inboundReadData (size : Nat)
  /-- INBOUND_RMW_CYCLE (R350): An inbound read-modify-write cycle runs as one home transaction on the line. -/
  | inboundRmwCycle (size : Nat) (data : RmwWrite)
  /-- INTERRUPT_ACKNOWLEDGE_CYCLE (R357): Arbor acknowledges an asserted AI level, reads the vector, matches it and posts. -/
  | interruptAcknowledgeCycle (ai : BitVec 8) (vector : W32)
  /-- ACK_CYCLE_TIMEOUT (R363): An acknowledge cycle outlasts 1,024 µs and is ended, counted and its level freed. -/
  | ackCycleTimeout (ai : BitVec 8)
  /-- VEC_POP (R359): A write of VEC_POP removes the head vector and releases its level. -/
  | vecPop (ses : Ses)
  /-- IACK_CHAIN_PASS (R390): MON drives IACKOUT* from IACKIN* and AS*. -/
  | iackChainPass (iackIn : Bool) (as_ : Bool)
  /-- BM_GO (R344): A write of BM_CTL.GO queues a block-mover transfer. -/
  | bmGo (ses : Ses) (v : W32)
  /-- SES_RUN_WRITE (R367): A write of SES_CTL.RUN = 1 makes a HALTED session OPEN. -/
  | sesRunWrite (ses : Ses) (v : W32)
  /-- ERR_CODE_READ (R368): A read of ERR_CODE returns and clears the captured code and re-arms capture. -/
  | errCodeRead (ses : Ses) (cls : ClassId)
  /-- ARST_INPUT (R395): Another board asserts ARST_N; Arbor stops using the bus and counts the event. -/
  | arstInput
  /-- BACKPLANE_RESET_END (R395): RST_TIME elapses, and Arbor releases its ARST_N assertion. -/
  | backplaneResetEnd
  /-- AFAIL_INPUT (R396): Another board asserts AFAIL, and the edge is counted. -/
  | afailInput (level : Bool)
  /-- ARBOR_MISMATCH_RECOVERY (R372): An active/checker mismatch hands the port to the Belvedere sequencer, and the engines are reloaded. -/
  | arborMismatchRecovery
  /-- SEQ_OUT (R382): Sequencer OUT sets masked lines of a group. -/
  | seqOut (th : Thread) (w : W32)
  /-- SEQ_DRV (R382): Sequencer DRV drives a group from a register. -/
  | seqDrv (th : Thread) (w : W32)
  /-- SEQ_REL (R382): Sequencer REL releases lines. -/
  | seqRel (th : Thread) (w : W32)
  /-- SEQ_SMP (R382): Sequencer SMP samples a group and checks parity. -/
  | seqSmp (th : Thread) (w : W32) (lines : W32)
  /-- SEQ_AXS (R377): Sequencer AXS sets AX bits with break-before-make. -/
  | seqAxs (th : Thread) (w : W32)
  /-- SEQ_DLY (R383): Sequencer DLY starts a delay. -/
  | seqDly (th : Thread) (w : W32)
  /-- SEQ_DLY_EXPIRY (R383): A sequencer delay elapses, and the thread continues. -/
  | seqDlyExpiry (th : Thread)
  /-- SEQ_WT (R382): Sequencer WT waits for a masked group value. -/
  | seqWt (th : Thread) (w : W32)
  /-- SEQ_WTN (R382): Sequencer WTN waits for a masked group to differ from a value. -/
  | seqWtn (th : Thread) (w : W32)
  /-- SEQ_WTE (R382): Sequencer WTE waits for an engine event. -/
  | seqWte (th : Thread) (w : W32)
  /-- SEQ_WAIT_COMPLETE (R383): A sequencer wait's condition holds or its event arrives, and the thread continues. -/
  | seqWaitComplete (th : Thread) (lines : W32)
  /-- SEQ_WAIT_TIMEOUT (R382): A sequencer wait's x7 limit elapses and sets T. -/
  | seqWaitTimeout (th : Thread)
  /-- SEQ_SIG (R382): Sequencer SIG raises an engine event. -/
  | seqSig (th : Thread) (w : W32)
  /-- SEQ_LDE (R382): Sequencer LDE loads an engine field. -/
  | seqLde (th : Thread) (w : W32)
  /-- SEQ_STE (R382): Sequencer STE stores an engine field. -/
  | seqSte (th : Thread) (w : W32)
  /-- SEQ_OPR (R382): Sequencer OPR performs a register-register operation. -/
  | seqOpr (th : Thread) (w : W32)
  /-- SEQ_OPI (R382): Sequencer OPI performs a register-immediate operation. -/
  | seqOpi (th : Thread) (w : W32)
  /-- SEQ_BR (R382): Sequencer BR branches on a condition. -/
  | seqBr (th : Thread) (w : W32)
  /-- SEQ_END (R382): Sequencer END ends the routine with a code and returns the thread to its idle entry. -/
  | seqEnd (th : Thread) (w : W32)
  /-- RD_S (R247): The home handles a read-for-sharing request. -/
  | rdS (clu : Oct) (line : LineNo) (cls : ClassId)
  /-- RD_CODE (R260): The home handles a code read, marking the page code-seen. -/
  | rdCode (clu : Oct) (line : LineNo) (core : Option Vc) (cls : ClassId)
  /-- RD_X (R247): The home handles a read-for-ownership request. -/
  | rdX (clu : Oct) (line : LineNo) (store : Option Vc) (cls : ClassId)
  /-- UPG (R255): The home handles an ownership upgrade of a shared line. -/
  | upg (clu : Oct) (line : LineNo) (store : Option Vc) (cls : ClassId)
  /-- WB (R254): The home absorbs a dirty write-back. -/
  | wb (clu : Oct) (line : LineNo)
  /-- NC_RD (R247): The home serves an uncached read. -/
  | ncRd (agent : Agent) (cls : ClassId) (pa : BitVec 48) (size : Nat)
  /-- NC_WR (R247): The home performs an uncached write with its byte mask. -/
  | ncWr (agent : Agent) (cls : ClassId) (line : LineNo) (mask : BitVec 64) (data : Line)
  /-- ATOM (R247): The home performs an atomic. -/
  | atom (agent : Agent) (cls : ClassId) (pa : BitVec 48) (size : Nat) (op : BitVec 4) (opnd : W64) (cmpv : W64)
  /-- KEEP_RD (R262): The spine arbiter performs a keep-region read. -/
  | keepRd (agent : Agent) (pa : BitVec 48) (size : Nat)
  /-- KEEP_WR (R264): The spine arbiter performs a keep-region write after KINV to Belvedere. -/
  | keepWr (agent : Agent) (line : LineNo) (mask : BitVec 64) (data : Line)
  /-- KEEP_ATOM (R263): The spine arbiter performs a keep-region atomic. -/
  | keepAtom (agent : Agent) (pa : BitVec 48) (size : Nat) (op : BitVec 4) (opnd : W64) (cmpv : W64)
  /-- MRD (R277): A memory controller reads a line from its slot, decoding Mica. -/
  | mrd (line : LineNo) (burst : Burst)
  /-- MWR (R280): A memory controller writes a line with Mica encoding and a parity update. -/
  | mwr (line : LineNo)
  /-- PARITY_WRITE_GROUP (R281): The 1 µs gathering window of a row's writes ends, and the parity controller serves the group. -/
  | parityWriteGroup (row : RowBurst)
  /-- CODE_MARK (R260): The page's home records the page as code-seen and sends CODE_SET. -/
  | codeMark (page : PageNo)
  /-- CODE_SET (R260): A slice raises the page's filter counter and downgrades owned lines of the page. -/
  | codeSet (slice : Oct) (page : PageNo)
  /-- CODE_CLR (R260): A slice lowers the page's filter counter. -/
  | codeClr (slice : Oct) (page : PageNo)
  /-- CODE_QUERY (R259): The page's home answers whether the page is code-seen. -/
  | codeQuery (page : PageNo)
  /-- FWD_S (R246): The owner supplies the line to the requester and keeps a shared copy. -/
  | fwdS (clu : Oct) (line : LineNo)
  /-- FWD_X (R246): The owner supplies the line to the requester and gives it up. -/
  | fwdX (clu : Oct) (line : LineNo)
  /-- FWD_RD (R246): The owner supplies the line to the home. -/
  | fwdRd (clu : Oct) (line : LineNo)
  /-- INV (R246): A sharer gives up its copy and acknowledges. -/
  | inv (clu : Oct) (line : LineNo)
  /-- BINV (R257): A holder gives up the line for directory replacement. -/
  | binv (clu : Oct) (line : LineNo)
  /-- DROP (R162): A cluster drops every translation and fetched line of a code page. -/
  | drop (clu : Oct) (page : PageNo)
  /-- KINV (R264): Belvedere gives up a keep-region line. -/
  | kinv (line : LineNo)
  /-- ACK (R249): The collector receives an acknowledgement that a copy was given up. -/
  | ack (dst : Agent) (line : LineNo)
  /-- FWD_ACK (R254): The home receives the owner's forward result. -/
  | fwdAck (clu : Oct) (line : LineNo)
  /-- NOT_HELD (R253): The home receives NOT_HELD and fills from the system cache or DRAM. -/
  | notHeld (clu : Oct) (line : LineNo)
  /-- GRANT (R249): The requester receives ownership without data. -/
  | grant (clu : Oct) (line : LineNo)
  /-- CMP (R248): The home receives CMP, which ends the transaction on the line. -/
  | cmp (clu : Oct) (line : LineNo)
  /-- WB_ACK (R254): A cluster releases its write-back buffer entry. -/
  | wbAck (clu : Oct) (line : LineNo)
  /-- NACK (R258): A requester receives a refusal, with or without a reservation token. -/
  | nack (agent : Agent) (line : LineNo)
  /-- RETRY (R258): A token holder is told that a way is reserved, and sends its request again. -/
  | retry (agent : Agent) (line : LineNo)
  /-- DONE (R269): The requester receives completion of an NC write, an atomic or a code message. -/
  | done (agent : Agent) (line : LineNo)
  /-- DROP_ACK (R260): The page's home counts a cluster's drop acknowledgement and completes the drop when all eight are in. -/
  | dropAck (clu : Oct) (page : PageNo)
  /-- DATA (R249): The requester receives the line with its granted state. -/
  | data (clu : Oct) (line : LineNo)
  /-- DATA_H (R254): The home receives a line from its owner. -/
  | dataH (clu : Oct) (line : LineNo)
  /-- MDATA (R245): The home or the spine receives a line read from DRAM. -/
  | mdata (line : LineNo)
  /-- ADATA (R269): The requester receives atomic, NC or keep-region read data. -/
  | adata (agent : Agent) (line : LineNo)
  /-- FABRIC_ACK_TIMEOUT (R234): A message is not acknowledged within 1 µs and is sent again. -/
  | fabricAckTimeout (link : BitVec 5) (stop : BitVec 4)
  /-- CACHE_WAY_RETIRE (R456): Four corrected errors in one way within 1 s write back the way and disable it. -/
  | cacheWayRetire (home : Bool) (k : Oct) (way : BitVec 4)
  /-- HOME_SLICE_REBUILD (R465): A failed home slice is rebuilt in a REPAIR episode with HT reassigned. -/
  | homeSliceRebuild (k : Oct)
  /-- CHANNEL_SWITCHOVER (R294): A lost channel in PARITY mode is switched over to reconstruction in REPAIR. -/
  | channelSwitchover (c : Oct)
  /-- CHANNEL_RETRAIN (R297): The Gatehouse retrains a lost channel and starts its rebuild. -/
  | channelRetrain (c : Oct) (ok : Bool)
  /-- CHANNEL_REBUILD_END (R298): The rebuild pointer passes the last row, and the channel's lost mark is cleared. -/
  | channelRebuildEnd
  /-- BELVEDERE_PAIR_RESTART (R456): A Belvedere pair restarts from its image after a lockstep mismatch, or is retired. -/
  | belvederePairRestart (b : Bool)
  /-- PCIE_LANE_RETRAIN (R456): A PCIe lane failure retrains the link at reduced width. -/
  | pcieLaneRetrain (port : Bool) (link : BitVec 2) (width : BitVec 5)
  /-- LINK_RETEST (R470): A periodic retest of a failed fabric link re-admits it if its test messages pass. -/
  | linkRetest (link : BitVec 5) (ok : Bool)
  /-- PCIE_UPCONFIG (R470): A periodic retrain restores a link to full width. -/
  | pcieUpconfig (port : Bool) (link : BitVec 2) (up : UpTry)
  /-- BELVEDERE_ENTRY (R473): A fault that cannot be hidden puts the device in BELVEDERE. -/
  | belvedereEntry (cause : BlvCause)
  /-- GATEHOUSE_HEARTBEAT_TIMEOUT (R473): No Gatehouse heartbeat for 1 ms makes the health watch enter BELVEDERE. -/
  | gatehouseHeartbeatTimeout
  /-- RAIL_OUT_OF_RANGE (R476): A supply rail leaves its range for more than 1 µs. -/
  | railOutOfRange (rail : BitVec 4)
  /-- REFCLK_LOSS (R485): REFCLK is lost or the PLL loses lock, which is a class 0x25 fault. -/
  | refclkLoss
  /-- TJ_SENSOR_SAMPLE (R563): A junction sensor takes its 100 µs sample, and the alert and limits act on it. -/
  | tjSensorSample (i : BitVec 5) (temp : BitVec 16)
  /-- TJ_PEAK_READ (R563): A read of TJ_PEAK returns and clears PEAK and NEW. -/
  | tjPeakRead (lane : LaneNo)
  /-- THERMAL_TRIP (R562): A sensor reaches 125 °C, and the hardware stops every island and asserts THERMTRIP_N. -/
  | thermalTrip (i : BitVec 5) (temp : BitVec 16)
  /-- DRAM_SCRUB (R276): The controller scrubs a line and checks its row's parity. -/
  | dramScrub (c : Oct) (burst : Burst)
  /-- CACHE_SCRUB (R461): The background scrub reads and corrects a word of an on-chip array. -/
  | cacheScrub (arr : ScrubArr) (err : Chk)
  /-- DRAM_REFRESH (R273): The controller issues a same-bank refresh. -/
  | dramRefresh (c : Oct) (hot : Bool)
  /-- DQS_DRIFT_TRACK (R291): The controller tracks drift with the DQS interval oscillators every 100 µs. -/
  | dqsDriftTrack (c : Oct)
  /-- DRAM_FILL (R293): The controllers zero slots and tag lines row by row from entry into ASSEMBLY. -/
  | dramFill (rows : BitVec 32)
  /-- HYPERVISOR_COPY (R440): Copies the hypervisor image into its load range and checks its SHA-384. -/
  | hypervisorCopy (shaOk : Bool)
  /-- PORST_N_ASSERT (R435): PORST_N falls, and the device releases its outputs and abandons all work. -/
  | porstNAssert
  /-- PORST_N_RELEASE (R437): PORST_N release begins the COLD sequence. -/
  | porstNRelease (boot : BootObs)
  /-- QUARTZ_PLL_LOCK (R482): The Quartz PLL locks, and QZ_TIME starts from zero. -/
  | quartzPllLock
  /-- ASSEMBLY_ENTRY (R440): The end of COLD enters ASSEMBLY, assigns the hypervisor load range and starts the fill and the copy. -/
  | assemblyEntry
  /-- VDD_IO18_UP (R554): VDD_IO18 enters its range, and AX, SAFE and CORE_VID take their power-on levels. -/
  | vddIo18Up
  /-- QZ_PPS_IN_EDGE (R489): A qualified QZ_PPS_IN edge is accepted and disciplines QZ_TIME, or is ignored as a candidate. -/
  | qzPpsInEdge (rising : Bool) (at_ : BitVec 64)
  /-- PPS_HOLDOVER (R491): 3 s pass without an accepted edge, and the device sets HOLDOVER. -/
  | ppsHoldover
  /-- QZ_PPS_OUT_PULSE (R492): QZ_PPS_OUT rises at each whole second of QZ_TIME. -/
  | qzPpsOutPulse
  /-- QZ_PPS_OUT_FALL (R492): QZ_PPS_OUT falls 1 ms after it rose. -/
  | qzPpsOutFall
  /-- TIMER_TICK (R495): A timer channel counts one tick of Quartz or of its gate source. -/
  | timerTick (ch : TmrNo)
  /-- TIMER_WRAP (R497): A channel wraps to zero and copies a pending preload. -/
  | timerWrap (ch : TmrNo)
  /-- TIMER_COMPARE_EVENT (R498): The counter enters the compare value in force, which sets CMP_HIT and may post. -/
  | timerCompareEvent (ch : TmrNo)
  /-- TG_GATE_CHANGE (R496): A TG or other gate-source line changes and opens or closes a channel's gate. -/
  | tgGateChange (src : BitVec 7) (level : Bool)
  /-- TMR_CMP_WRITE (R499): A write of TMR_CMP sets the compare value in force, or the preload. -/
  | tmrCmpWrite (cls : ClassId) (ch : TmrNo) (v : W32)
  /-- TMR_CNT_WRITE (R500): A write of TMR_CNT sets the count without a compare event. -/
  | tmrCntWrite (cls : ClassId) (ch : TmrNo) (v : W32)
  /-- TMR_CTL_WRITE (R500): A write of TMR_CTL changes the channel's control, with the PRE_EN transition rules. -/
  | tmrCtlWrite (cls : ClassId) (ch : TmrNo) (v : W32)
  /-- HOLD_REGISTER_READ (R502): A read of one half of a linked 64-bit value returns it and latches the other half, or returns the held half. -/
  | holdRegisterRead (vc : Vc) (cls : ClassId) (pa : BitVec 48)
  /-- TRACE_SINK_WRITE (R523): The funnel writes a 64-byte trace line to its sink within its RATE. -/
  | traceSinkWrite
  /-- TF_RPTR_WRITE (R523): The consumer advances TF_RPTR, and a stopped ring resumes. -/
  | tfRptrWrite (high : Bool) (v : W32)
  /-- TF_FLUSH (R518): A write of TF_FLUSH makes the encoders emit held outcome bits and the funnel write its partial line. -/
  | tfFlush (v : W32)
  /-- TRACE_PACKET_ARRIVAL (R524): The funnel accepts or drops an arriving packet by its class and the buffer occupancy. -/
  | tracePacketArrival
  /-- PCIE_INBOUND_WRITE (R530): An inbound memory write is translated and performed as NC_WR in PCIe order. -/
  | pcieInboundWrite (port : Bool) (link : BitVec 2) (fn : BitVec 16) (addr : W64) (size : Nat) (data : Line) (poisoned : Bool)
  /-- PCIE_INBOUND_READ (R530): An inbound memory read is translated and completed. -/
  | pcieInboundRead (port : Bool) (link : BitVec 2) (fn : BitVec 16) (addr : W64) (size : Nat)
  /-- PCIE_INBOUND_ATOMICOP (R530): An inbound AtomicOp is completed, or answered with a completer abort. -/
  | pcieInboundAtomicop (port : Bool) (link : BitVec 2) (fn : BitVec 16) (addr : W64) (size : Nat) (op : BitVec 4) (opnd : W64) (cmpv : W64)
  /-- PCIE_MSI_MESSAGE (R531): A root-port write to MSI_ADDR is taken as an interrupt message and posted through its route. -/
  | pcieMsiMessage (port : Bool) (link : BitVec 2) (fn : BitVec 16) (data : BitVec 16)
  /-- PCIE_COMPLETION (R529): The completion of an outbound non-posted request arrives. -/
  | pcieCompletion (port : Bool) (link : BitVec 2) (ok : Bool) (data : W64)
  /-- PCIE_COMPLETION_TIMEOUT (R529): An outbound read meets its 50 ms completion timeout. -/
  | pcieCompletionTimeout (port : Bool) (link : BitVec 2)
  /-- MSIX_SEND (R531): A write of MSIX_SEND raises an MSI-X vector of an endpoint function. -/
  | msixSend (port : Bool) (link : BitVec 2) (cls : ClassId) (fn : BitVec 16) (v : W32)
  /-- PCIE_PERST_INPUT (R532): PCIE_PERST_N assertion, or a Hot Reset, on an endpoint link applies FLR to every function of the link. -/
  | pciePerstInput (port : Bool) (link : BitVec 2) (asserted : Bool) (hot : Bool)
  /-- ROOT_PERST_RELEASE (R532): 100 ms after PCIE_ROLE_SET, the device releases PCIE_PERST_N of a root-port link. -/
  | rootPerstRelease (port : Bool)
  /-- FLR_COMPLETE (R331): A function's FLR completes after its 1 ms or 100 ms. -/
  | flrComplete (port : Bool) (link : BitVec 2) (fn : BitVec 16)
  /-- JTAG_IDCODE (R539): Selects the device identification register. -/
  | jtagIdcode
  /-- JTAG_SAMPLE_PRELOAD (R539): Samples or preloads the boundary chain. -/
  | jtagSamplePreload (sample : BitVec 640) (preload : List (Nat × Bool))
  /-- JTAG_EXTEST (R539): Drives the balls from the boundary chain while PORST_N is low. -/
  | jtagExtest
  /-- JTAG_CLAMP (R539): Clamps the balls while PORST_N is low. -/
  | jtagClamp
  /-- JTAG_HIGHZ (R539): Releases every ball while PORST_N is low. -/
  | jtagHighz
  /-- JTAG_EXTEST_PULSE (R539): Runs IEEE 1149.6 pulse testing on the differential balls. -/
  | jtagExtestPulse
  /-- JTAG_EXTEST_TRAIN (R539): Runs IEEE 1149.6 train testing on the differential balls. -/
  | jtagExtestTrain
  /-- JTAG_DBG_MEM (R539): Reads one raw DRAM slot after ECC correction, when DEBUG = 1. -/
  | jtagDbgMem (c : Oct) (r : BitVec 34)
  /-- JTAG_BYPASS (R539): Selects the bypass register, as every unlisted code also does. -/
  | jtagBypass (code : BitVec 8)
  /-- REGISTER_WRITE (R8): A write to a register with no row of its own follows its field types. -/
  | registerWrite (vc : Vc) (cls : ClassId) (pa : BitVec 48) (v : W32)
  /-- ILLEGAL_INSTRUCTION (R98): Execution reaches a word with an unassigned or forbidden encoding and raises class 0x01 with the word in EADDR. -/
  | illegalInstruction (vc : Vc) (w : W32)
  /-- WFE_RETURN_WITHOUT_EVENT (R60): The device returns a suspended vCPU from WFE without any interrupt or timer event. -/
  | wfeReturnWithoutEvent (vc : Vc)
  /-- REST_ENTRY_WAIT_EXPIRY (R443): The 1 ms wait for every virtual core to reach WFE at H runs out, and REST_ENTER completes with BUSY_OBJECT. -/
  | restEntryWaitExpiry
  /-- SUPPLY_IN_RANGE (R554): The last out-of-range rail or REFCLK comes within limits while PORST_N is already released, and COLD begins. -/
  | supplyInRange (rail : Option (BitVec 4)) (boot : BootObs)
  /-- ARST_N_RISE (R395): Another board releases ARST_N, and Arbor resumes requesting the bus and answering address phases. -/
  | arstNRise
  /-- CHANNEL_REBUILD_ROW (R297): The rebuild of a returned channel writes one more row and advances the rebuild pointer B. -/
  | channelRebuildRow
  /-- PCIE_LINK_UP (R532): A PCI Express link finishes training and enters L0, so accesses to it stop raising class 0x0C. -/
  | pcieLinkUp (port : Bool) (link : BitVec 2) (speed : BitVec 3) (width : BitVec 5)
  /-- PCIE_INBOUND_CONFIG_REQUEST (R527): The host sends a configuration read or write to a function of an endpoint link, including enumeration and an Initiate FLR. -/
  | pcieInboundConfigRequest (port : Bool) (link : BitVec 2) (fn : BitVec 16) (reg : BitVec 10) (write : Option W32)
  /-- TEST_LOGIC_RESET (R539): TRST_N assertion, or the TAP reaching Test-Logic-Reset, loads IDCODE into the instruction register. -/
  | testLogicReset
  /-- RC_REGISTER_READ (R11): A read of an RC field returns its value and clears it as one access, with a coinciding increment landing in the cleared field. -/
  | rcRegisterRead (vc : Vc) (cls : ClassId) (pa : BitVec 48)
  deriving DecidableEq, Repr

end Sys2Proof
end

