-- ==== Sys2Proof/Config.lean ====
section
/-! DEFINITION. What the spec leaves open: an opaque constant without a body, so that no proof can see a value of it. -/

namespace Sys2Proof.Config

/-- FREE VALUE: the n-th value or choice that the spec leaves open; `State.fresh` counts them. Used wherever an outcome list or an unstated value occurs (05 R136, R140; 06 R178, R179). -/
opaque freeBits : Nat → BitVec 64

/-- FREE VALUE: whether a profile's byte lanes carry odd parity, by its code; the manual names no sense (11 R355). -/
opaque oddParity : BitVec 8 → Bool

/-- FREE VALUE: the SECDED check bits of a directory entry's 48 bits; the manual names no code (08 R256). -/
opaque dirCheck : BitVec 48 → BitVec 8

/-- FREE VALUE: the burst that a row's rebuild reads from a surviving channel, by `State.fresh`; no command names it (09 R296, R297). -/
opaque rebuildBurst : Nat → Burst

/-- FREE VALUE: the burst that a controller reads for an MRD which no command of its own serves, by `State.fresh` (09 R274, R275). -/
opaque readBurst : Nat → Burst

end Sys2Proof.Config
end

