-- ==== Sys2Proof/Machine/CoreSyntax.lean ====
section
/-! DEFINITION. The operations of the Teveax instruction set, as the core rows' words spell them (03). -/

namespace Sys2Proof.Machine

/-- A register number (03 R74). -/
abbrev Reg := BitVec 5

/-- Register forms of the ALU group (03 R79). -/
inductive AluFn where
  | add | sub | and | or | xor | andn | slt | sltu | sll | srl | sra | ror
  deriving DecidableEq, Repr

/-- Immediate shifts of the ALU group (03 R79). -/
inductive ShFn where
  | slli | srli | srai | rori
  deriving DecidableEq, Repr

/-- Two-operand forms of the ALU2 group (03 R80). -/
inductive Alu2Fn where
  | adc | sbc | min | max | minu | maxu
  deriving DecidableEq, Repr

/-- Single-operand forms of the ALU2 group (03 R80). -/
inductive UnFn where
  | clz | ctz | popc | bswap | bswapw | sextb | sexth | sextw | zextw
  deriving DecidableEq, Repr

/-- The MULDIV group (03 R81). -/
inductive MdFn where
  | mul | mulh | mulhu | mulhsu | div | divu | rem | remu
  deriving DecidableEq, Repr

/-- RI integer operations with a source register (03 R83). -/
inductive RiFn where
  | addi | andi | ori | xori | slti | sltui
  deriving DecidableEq, Repr

/-- Loads (03 R84). -/
inductive LdFn where
  | ldb | ldbu | ldh | ldhu | ldw | ldwu | ldd | flds | fldd
  deriving DecidableEq, Repr

/-- Stores (03 R84). -/
inductive StFn where
  | stb | sth | stw | std | fsts | fstd
  deriving DecidableEq, Repr

/-- Atomic operations (03 R86). -/
inductive AtomFn where
  | swap | add | and | or | xor | min | max | minu | maxu | cas
  deriving DecidableEq, Repr

/-- Operations of the FP group (03 R92). -/
inductive FpFn where
  | fadd | fsub | fmul | fdiv | fsqrt | fmin | fmax | frece | frsqe | fsgnj | fsgnjn | fsgnjx
  | fcmpeq | fcmplt | fcmple | fcmpun
  | fcvt | fcvti | fcvtiu | icvtf | iucvtf | fmvg | gmvf | fclass
  deriving DecidableEq, Repr

/-- An instruction (03). -/
inductive CoreOp where
  | alu (sf : Bool) (fn : AluFn) (rd ra rb : Reg)
  | shi (sf : Bool) (fn : ShFn) (rd ra : Reg) (sh : BitVec 6)
  | alu2 (sf : Bool) (fn : Alu2Fn) (rd ra rb : Reg)
  | un (sf : Bool) (fn : UnFn) (rd ra : Reg)
  | muldiv (sf : Bool) (fn : MdFn) (rd ra rb : Reg)
  | ri (fn : RiFn) (rd ra : Reg) (imm : BitVec 16)
  | addpc (rd : Reg) (imm : BitVec 16)
  | insh (rd : Reg) (h : BitVec 2) (imm : BitVec 16)
  | ld (fn : LdFn) (rd ra : Reg) (imm : BitVec 16)
  | ldx (fn : LdFn) (rd ra rb : Reg) (sh : BitVec 2)
  | st (fn : StFn) (rd ra : Reg) (imm : BitVec 16)
  | stx (fn : StFn) (rd ra rb : Reg) (sh : BitVec 2)
  | atom (fn : AtomFn) (size : BitVec 2) (sy : Bool) (rd ra rb : Reg)
  | br (cc : BitVec 3) (ra rb : Reg) (off : BitVec 13)
  | bri (cc : BitVec 3) (ra : Reg) (imm : BitVec 5) (off : BitVec 13)
  | fb (cc : BitVec 4) (off : BitVec 22)
  | j (off : BitVec 26)
  | call (pmask : BitVec 8) (off : BitVec 18)
  | callr (ra : Reg) (pmask : BitVec 8)
  | jr (ra : Reg)
  | ret
  | fp (sf : Bool) (dbl : Bool) (fn : FpFn) (rm : BitVec 3) (rd ra rb : Reg)
  | fma (dbl : Bool) (v : BitVec 2) (rd ra rb rc : Reg)
  | folly (idx : BitVec 4) (rd ra rb : Reg) (imm : BitVec 7)
  | sync | syncD | syncT | syncI | wfe | eret
  | trapS (code : BitVec 16)
  | trapH (code : BitVec 16)
  | trapB (code : BitVec 16)
  | mfs (rd : Reg) (n : BitVec 12)
  | mts (ra : Reg) (n : BitVec 12)
  | tlbiVa (ra : Reg)
  | tlbiVaa (ra : Reg)
  | tlbiAsid (ra : Reg)
  | tlbiIpa (ra : Reg)
  | tlbiVmid (ra : Reg)
  | tlbiAll
  deriving DecidableEq, Repr

/-- FP operations marked exact: RM is 0b000 (03 R92). -/
def fpExact : FpFn → Bool
  | .fmin | .fmax | .frece | .frsqe | .fsgnj | .fsgnjn | .fsgnjx
  | .fcmpeq | .fcmplt | .fcmple | .fcmpun | .fmvg | .gmvf | .fclass => true
  | .fadd | .fsub | .fmul | .fdiv | .fsqrt | .fcvt | .fcvti | .fcvtiu | .icvtf | .iucvtf => false

/-- FP operations whose rb field is zero (03 R92). -/
def fpUnary : FpFn → Bool
  | .fsqrt | .frece | .frsqe | .fcvt | .fcvti | .fcvtiu | .icvtf | .iucvtf | .fmvg | .gmvf | .fclass => true
  | .fadd | .fsub | .fmul | .fdiv | .fmin | .fmax | .fsgnj | .fsgnjn | .fsgnjx
  | .fcmpeq | .fcmplt | .fcmple | .fcmpun => false

/-- The four compares (03 R92, R93). -/
def fpCompare : FpFn → Bool
  | .fcmpeq | .fcmplt | .fcmple | .fcmpun => true
  | _ => false

/-- The operations that a condition style admits (02 R41, R42; 03 R80, R82, R90, R92, R93, R98); `fs` is F-style. -/
def CoreOp.wf (fs : Bool) : CoreOp → Bool
  | .alu sf .. => !sf || fs
  | .shi sf .. => !sf || fs
  | .alu2 sf fn _ _ _ => (!sf || fs) && (fs || !(fn == .adc || fn == .sbc))
  | .un sf .. => !sf || fs
  | .muldiv sf .. => !sf || fs
  | .br .. => !fs
  | .bri .. => !fs
  | .fb cc _ => fs && cc != 15#4
  | .fp sf _ fn rm _ _ rb =>
    (!sf || (fs && fpCompare fn)) && (!fpUnary fn || rb == 0#5)
      && (if fpExact fn then rm == 0#3 else rm != 5#3 && rm != 6#3)
  | _ => true

end Sys2Proof.Machine
end

