-- ==== Sys2Proof/Machine/CoreDecode.lean ====
section
/-! DEFINITION. The decoder of instruction words, and the encoder from the same tables (03). -/

namespace Sys2Proof.Machine

/-- fn[9:6] of the ALU register forms (03 R79). -/
def aluCode : AluFn → BitVec 4
  | .add => 0x0#4 | .sub => 0x1#4 | .and => 0x2#4 | .or => 0x3#4 | .xor => 0x4#4 | .andn => 0x5#4
  | .slt => 0x6#4 | .sltu => 0x7#4 | .sll => 0x8#4 | .srl => 0x9#4 | .sra => 0xA#4 | .ror => 0xB#4

/-- The ALU register form of a code; the immediate shifts' codes have none (03 R79). -/
def aluOf (k : BitVec 4) : Option AluFn :=
  match k.toNat with
  | 0 => some .add | 1 => some .sub | 2 => some .and | 3 => some .or | 4 => some .xor | 5 => some .andn
  | 6 => some .slt | 7 => some .sltu | 8 => some .sll | 9 => some .srl | 10 => some .sra | 11 => some .ror
  | _ => none

/-- fn[9:6] of the immediate shifts (03 R79). -/
def shCode : ShFn → BitVec 4
  | .slli => 0xC#4 | .srli => 0xD#4 | .srai => 0xE#4 | .rori => 0xF#4

/-- The immediate shift of a code (03 R79). -/
def shOf (k : BitVec 4) : Option ShFn :=
  match k.toNat with
  | 12 => some .slli | 13 => some .srli | 14 => some .srai | 15 => some .rori
  | _ => none

/-- fn[9:6] of the two-operand ALU2 forms (03 R80). -/
def alu2Code : Alu2Fn → BitVec 4
  | .adc => 0x0#4 | .sbc => 0x1#4 | .min => 0x2#4 | .max => 0x3#4 | .minu => 0x4#4 | .maxu => 0x5#4

/-- The two-operand ALU2 form of a code (03 R80). -/
def alu2Of (k : BitVec 4) : Option Alu2Fn :=
  match k.toNat with
  | 0 => some .adc | 1 => some .sbc | 2 => some .min | 3 => some .max | 4 => some .minu | 5 => some .maxu
  | _ => none

/-- fn[9:6] of the single-operand ALU2 forms (03 R80). -/
def unCode : UnFn → BitVec 4
  | .clz => 0x6#4 | .ctz => 0x7#4 | .popc => 0x8#4 | .bswap => 0x9#4 | .bswapw => 0xA#4
  | .sextb => 0xB#4 | .sexth => 0xC#4 | .sextw => 0xD#4 | .zextw => 0xE#4

/-- The single-operand ALU2 form of a code; 0xF is unassigned (03 R80). -/
def unOf (k : BitVec 4) : Option UnFn :=
  match k.toNat with
  | 6 => some .clz | 7 => some .ctz | 8 => some .popc | 9 => some .bswap | 10 => some .bswapw
  | 11 => some .sextb | 12 => some .sexth | 13 => some .sextw | 14 => some .zextw
  | _ => none

/-- fn[9:6] of the MULDIV group (03 R81). -/
def mdCode : MdFn → BitVec 4
  | .mul => 0x0#4 | .mulh => 0x1#4 | .mulhu => 0x2#4 | .mulhsu => 0x3#4
  | .div => 0x4#4 | .divu => 0x5#4 | .rem => 0x6#4 | .remu => 0x7#4

/-- The MULDIV operation of a code; 0x8 to 0xF are unassigned (03 R81). -/
def mdOf (k : BitVec 4) : Option MdFn :=
  match k.toNat with
  | 0 => some .mul | 1 => some .mulh | 2 => some .mulhu | 3 => some .mulhsu
  | 4 => some .div | 5 => some .divu | 6 => some .rem | 7 => some .remu
  | _ => none

/-- Major opcodes of the RI integer operations (03 R83). -/
def riCode : RiFn → BitVec 6
  | .addi => 0x08#6 | .andi => 0x09#6 | .ori => 0x0A#6 | .xori => 0x0B#6 | .slti => 0x0C#6 | .sltui => 0x0D#6

/-- Major opcodes of the RI loads (03 R84). -/
def ldCode : LdFn → BitVec 6
  | .ldb => 0x10#6 | .ldbu => 0x11#6 | .ldh => 0x12#6 | .ldhu => 0x13#6 | .ldw => 0x14#6
  | .ldwu => 0x15#6 | .ldd => 0x16#6 | .flds => 0x1C#6 | .fldd => 0x1D#6

/-- Major opcodes of the RI stores (03 R84). -/
def stCode : StFn → BitVec 6
  | .stb => 0x18#6 | .sth => 0x19#6 | .stw => 0x1A#6 | .std => 0x1B#6 | .fsts => 0x1E#6 | .fstd => 0x1F#6

/-- LSX fn[9:6] of the loads (03 R84). -/
def ldxCode : LdFn → BitVec 4
  | .ldb => 0x0#4 | .ldbu => 0x1#4 | .ldh => 0x2#4 | .ldhu => 0x3#4 | .ldw => 0x4#4
  | .ldwu => 0x5#4 | .ldd => 0x6#4 | .flds => 0xC#4 | .fldd => 0xD#4

/-- LSX fn[9:6] of the stores (03 R84). -/
def stxCode : StFn → BitVec 4
  | .stb => 0x8#4 | .sth => 0x9#4 | .stw => 0xA#4 | .std => 0xB#4 | .fsts => 0xE#4 | .fstd => 0xF#4

/-- The load of an LSX code (03 R84). -/
def ldxOf (k : BitVec 4) : Option LdFn :=
  match k.toNat with
  | 0 => some .ldb | 1 => some .ldbu | 2 => some .ldh | 3 => some .ldhu | 4 => some .ldw
  | 5 => some .ldwu | 6 => some .ldd | 12 => some .flds | 13 => some .fldd
  | _ => none

/-- The store of an LSX code; 0x7 is unassigned (03 R84). -/
def stxOf (k : BitVec 4) : Option StFn :=
  match k.toNat with
  | 8 => some .stb | 9 => some .sth | 10 => some .stw | 11 => some .std | 14 => some .fsts | 15 => some .fstd
  | _ => none

/-- fn[9:6] of the atomics (03 R86). -/
def atomCode : AtomFn → BitVec 4
  | .swap => 0x0#4 | .add => 0x1#4 | .and => 0x2#4 | .or => 0x3#4 | .xor => 0x4#4
  | .min => 0x5#4 | .max => 0x6#4 | .minu => 0x7#4 | .maxu => 0x8#4 | .cas => 0x9#4

/-- The atomic of a code; 0xA to 0xF are unassigned (03 R86). -/
def atomOf (k : BitVec 4) : Option AtomFn :=
  match k.toNat with
  | 0 => some .swap | 1 => some .add | 2 => some .and | 3 => some .or | 4 => some .xor
  | 5 => some .min | 6 => some .max | 7 => some .minu | 8 => some .maxu | 9 => some .cas
  | _ => none

/-- OP of the FP group (03 R92). -/
def fpCode : FpFn → BitVec 6
  | .fadd => 0x00#6 | .fsub => 0x01#6 | .fmul => 0x02#6 | .fdiv => 0x03#6 | .fsqrt => 0x04#6
  | .fmin => 0x05#6 | .fmax => 0x06#6 | .frece => 0x07#6 | .frsqe => 0x08#6 | .fsgnj => 0x09#6
  | .fsgnjn => 0x0A#6 | .fsgnjx => 0x0B#6
  | .fcmpeq => 0x10#6 | .fcmplt => 0x11#6 | .fcmple => 0x12#6 | .fcmpun => 0x13#6
  | .fcvt => 0x18#6 | .fcvti => 0x19#6 | .fcvtiu => 0x1A#6 | .icvtf => 0x1B#6 | .iucvtf => 0x1C#6
  | .fmvg => 0x1D#6 | .gmvf => 0x1E#6 | .fclass => 0x1F#6

/-- The FP operation of an OP value (03 R92). -/
def fpOf (k : BitVec 6) : Option FpFn :=
  match k.toNat with
  | 0x00 => some .fadd | 0x01 => some .fsub | 0x02 => some .fmul | 0x03 => some .fdiv | 0x04 => some .fsqrt
  | 0x05 => some .fmin | 0x06 => some .fmax | 0x07 => some .frece | 0x08 => some .frsqe | 0x09 => some .fsgnj
  | 0x0A => some .fsgnjn | 0x0B => some .fsgnjx
  | 0x10 => some .fcmpeq | 0x11 => some .fcmplt | 0x12 => some .fcmple | 0x13 => some .fcmpun
  | 0x18 => some .fcvt | 0x19 => some .fcvti | 0x1A => some .fcvtiu | 0x1B => some .icvtf | 0x1C => some .iucvtf
  | 0x1D => some .fmvg | 0x1E => some .gmvf | 0x1F => some .fclass
  | _ => none

/-- op[31:26] (03 R74). -/
def fOp (w : W32) : BitVec 6 := w.extractLsb' 26 6
/-- rd[25:21] (03 R74). -/
def fRd (w : W32) : Reg := w.extractLsb' 21 5
/-- ra[20:16] (03 R74). -/
def fRa (w : W32) : Reg := w.extractLsb' 16 5
/-- rb[15:11] (03 R74). -/
def fRb (w : W32) : Reg := w.extractLsb' 11 5
/-- imm16[15:0] (03 R74). -/
def fImm (w : W32) : BitVec 16 := w.extractLsb' 0 16
/-- fn[10], the S bit (03 R74). -/
def fS (w : W32) : Bool := w.getLsbD 10
/-- fn[9:6] (03, section "Integer operations"). -/
def fSel (w : W32) : BitVec 4 := w.extractLsb' 6 4
/-- fn[5:0] (03, section "Integer operations"). -/
def fLow (w : W32) : BitVec 6 := w.extractLsb' 0 6

/-- Decodes the ALU group (03 R79). -/
def decAlu (w : W32) : Option CoreOp :=
  match aluOf (fSel w) with
  | some fn => if fLow w = 0#6 then some (.alu (fS w) fn (fRd w) (fRa w) (fRb w)) else none
  | none => match shOf (fSel w) with
    | some fn => if fRb w = 0#5 then some (.shi (fS w) fn (fRd w) (fRa w) (fLow w)) else none
    | none => none

/-- Decodes the ALU2 group (03 R80). -/
def decAlu2 (w : W32) : Option CoreOp :=
  if fLow w = 0#6 then
    match alu2Of (fSel w) with
    | some fn => some (.alu2 (fS w) fn (fRd w) (fRa w) (fRb w))
    | none => match unOf (fSel w) with
      | some fn => if fRb w = 0#5 then some (.un (fS w) fn (fRd w) (fRa w)) else none
      | none => none
  else none

/-- Decodes the MULDIV group (03 R81). -/
def decMd (w : W32) : Option CoreOp :=
  if fLow w = 0#6 then
    match mdOf (fSel w) with
    | some fn => some (.muldiv (fS w) fn (fRd w) (fRa w) (fRb w))
    | none => none
  else none

/-- Decodes the ATOM group: fn[10] and fn[2:0] are zero (03 R86). -/
def decAtom (w : W32) : Option CoreOp :=
  if fS w = false ∧ w.extractLsb' 0 3 = 0#3 then
    match atomOf (fSel w) with
    | some fn => some (.atom fn (w.extractLsb' 4 2) (w.getLsbD 3) (fRd w) (fRa w) (fRb w))
    | none => none
  else none

/-- Decodes LSX: fn[10] and fn[5:2] are zero (03 R84). -/
def decLsx (w : W32) : Option CoreOp :=
  if fS w = false ∧ w.extractLsb' 2 4 = 0#4 then
    match ldxOf (fSel w) with
    | some fn => some (.ldx fn (fRd w) (fRa w) (fRb w) (w.extractLsb' 0 2))
    | none => match stxOf (fSel w) with
      | some fn => some (.stx fn (fRd w) (fRa w) (fRb w) (w.extractLsb' 0 2))
      | none => none
  else none

/-- Decodes JR and RET (03 R91). -/
def decInd (w : W32) : Option CoreOp :=
  if w.extractLsb' 0 11 = 0#11 ∧ fRd w = 0#5 ∧ fRb w = 0#5 then some (.jr (fRa w))
  else if w.extractLsb' 0 11 = 1#11 ∧ fRd w = 0#5 ∧ fRa w = 0#5 ∧ fRb w = 0#5 then some .ret
  else none

/-- Decodes the FP group: fn[10] S, fn[9] FMT, fn[8:3] OP, fn[2:0] RM (03 R92). -/
def decFp (w : W32) : Option CoreOp :=
  match fpOf (w.extractLsb' 3 6) with
  | some fn => some (.fp (fS w) (w.getLsbD 9) fn (w.extractLsb' 0 3) (fRd w) (fRa w) (fRb w))
  | none => none

/-- Decodes the FMA group: fn[10] and fn[1:0] are zero (03 R94). -/
def decFma (w : W32) : Option CoreOp :=
  if fS w = false ∧ w.extractLsb' 0 2 = 0#2 then
    some (.fma (w.getLsbD 4) (w.extractLsb' 2 2) (fRd w) (fRa w) (fRb w) (w.extractLsb' 5 5))
  else none

/-- Decodes the SYS group: unused fields are zero (03 R96). -/
def decSys (w : W32) : Option CoreOp :=
  let r := fRa w
  let bare (op : CoreOp) : Option CoreOp := if r = 0#5 ∧ fImm w = 0#16 then some op else none
  let code (op : CoreOp) : Option CoreOp := if r = 0#5 then some op else none
  let sysReg (op : CoreOp) : Option CoreOp := if w.extractLsb' 12 4 = 0#4 then some op else none
  let addr (op : CoreOp) : Option CoreOp := if fImm w = 0#16 then some op else none
  match (fRd w).toNat with
  | 0x00 => bare .sync
  | 0x01 => bare .syncD
  | 0x02 => bare .syncT
  | 0x03 => bare .syncI
  | 0x04 => bare .wfe
  | 0x05 => bare .eret
  | 0x08 => code (.trapS (fImm w))
  | 0x09 => code (.trapH (fImm w))
  | 0x0A => code (.trapB (fImm w))
  | 0x10 => sysReg (.mfs r (w.extractLsb' 0 12))
  | 0x11 => sysReg (.mts r (w.extractLsb' 0 12))
  | 0x18 => addr (.tlbiVa r)
  | 0x19 => addr (.tlbiVaa r)
  | 0x1A => addr (.tlbiAsid r)
  | 0x1B => addr (.tlbiIpa r)
  | 0x1C => addr (.tlbiVmid r)
  | 0x1D => bare .tlbiAll
  | _ => none

/-- Decodes major opcode 0x30: CB in C-style and at H, FB in F-style (02 R40, R41, R42). -/
def decBr (fs : Bool) (w : W32) : CoreOp :=
  if fs then .fb (w.extractLsb' 22 4) (w.extractLsb' 0 22)
  else .br (w.extractLsb' 13 3) (fRd w) (fRa w) (w.extractLsb' 0 13)

/-- Decodes a word by its major opcode, the style's own limits left aside (03 R74, R78). -/
def decRaw (fs : Bool) (w : W32) : Option CoreOp :=
  match (fOp w).toNat with
  | 0x01 => decAlu w
  | 0x02 => decMd w
  | 0x03 => decAlu2 w
  | 0x04 => decAtom w
  | 0x05 => decLsx w
  | 0x08 => some (.ri .addi (fRd w) (fRa w) (fImm w))
  | 0x09 => some (.ri .andi (fRd w) (fRa w) (fImm w))
  | 0x0A => some (.ri .ori (fRd w) (fRa w) (fImm w))
  | 0x0B => some (.ri .xori (fRd w) (fRa w) (fImm w))
  | 0x0C => some (.ri .slti (fRd w) (fRa w) (fImm w))
  | 0x0D => some (.ri .sltui (fRd w) (fRa w) (fImm w))
  | 0x0E => if fRa w = 0#5 then some (.addpc (fRd w) (fImm w)) else none
  | 0x0F => if w.extractLsb' 18 3 = 0#3 then some (.insh (fRd w) (w.extractLsb' 16 2) (fImm w)) else none
  | 0x10 => some (.ld .ldb (fRd w) (fRa w) (fImm w))
  | 0x11 => some (.ld .ldbu (fRd w) (fRa w) (fImm w))
  | 0x12 => some (.ld .ldh (fRd w) (fRa w) (fImm w))
  | 0x13 => some (.ld .ldhu (fRd w) (fRa w) (fImm w))
  | 0x14 => some (.ld .ldw (fRd w) (fRa w) (fImm w))
  | 0x15 => some (.ld .ldwu (fRd w) (fRa w) (fImm w))
  | 0x16 => some (.ld .ldd (fRd w) (fRa w) (fImm w))
  | 0x18 => some (.st .stb (fRd w) (fRa w) (fImm w))
  | 0x19 => some (.st .sth (fRd w) (fRa w) (fImm w))
  | 0x1A => some (.st .stw (fRd w) (fRa w) (fImm w))
  | 0x1B => some (.st .std (fRd w) (fRa w) (fImm w))
  | 0x1C => some (.ld .flds (fRd w) (fRa w) (fImm w))
  | 0x1D => some (.ld .fldd (fRd w) (fRa w) (fImm w))
  | 0x1E => some (.st .fsts (fRd w) (fRa w) (fImm w))
  | 0x1F => some (.st .fstd (fRd w) (fRa w) (fImm w))
  | 0x20 => some (.j (w.extractLsb' 0 26))
  | 0x21 => some (.call (w.extractLsb' 18 8) (w.extractLsb' 0 18))
  | 0x22 => if w.extractLsb' 0 13 = 0#13 then some (.callr (fRd w) (w.extractLsb' 13 8)) else none
  | 0x23 => decInd w
  | 0x28 => decFp w
  | 0x29 => decFma w
  | 0x30 => some (decBr fs w)
  | 0x31 => some (.bri (w.extractLsb' 13 3) (fRd w) (fRa w) (w.extractLsb' 0 13))
  | 0x3E => some (.folly (w.extractLsb' 22 4) (w.extractLsb' 17 5) (w.extractLsb' 12 5) (w.extractLsb' 7 5) (w.extractLsb' 0 7))
  | 0x3F => decSys w
  | _ => none

/-- Decodes a word under the style in force; none is an illegal instruction by its encoding (03 R98, R100). -/
def decodeCore (fs : Bool) (w : W32) : Option CoreOp :=
  match decRaw fs w with
  | some op => if op.wf fs then some op else none
  | none => none

/-- An RR word (03 R74). -/
def encRR (op : BitVec 6) (rd ra rb : Reg) (fn : BitVec 11) : W32 := op ++ rd ++ ra ++ rb ++ fn
/-- An RI word (03 R74). -/
def encRI (op : BitVec 6) (rd ra : Reg) (imm : BitVec 16) : W32 := op ++ rd ++ ra ++ imm
/-- The bit of a Boolean. -/
def encBit (b : Bool) : BitVec 1 := BitVec.ofBool b

/-- The word of an instruction, from the encoding tables (03). -/
def encodeCore : CoreOp → W32
  | .alu sf fn rd ra rb => encRR 0x01#6 rd ra rb (encBit sf ++ aluCode fn ++ 0#6)
  | .shi sf fn rd ra sh => encRR 0x01#6 rd ra 0#5 (encBit sf ++ shCode fn ++ sh)
  | .alu2 sf fn rd ra rb => encRR 0x03#6 rd ra rb (encBit sf ++ alu2Code fn ++ 0#6)
  | .un sf fn rd ra => encRR 0x03#6 rd ra 0#5 (encBit sf ++ unCode fn ++ 0#6)
  | .muldiv sf fn rd ra rb => encRR 0x02#6 rd ra rb (encBit sf ++ mdCode fn ++ 0#6)
  | .ri fn rd ra imm => encRI (riCode fn) rd ra imm
  | .addpc rd imm => encRI 0x0E#6 rd 0#5 imm
  | .insh rd h imm => encRI 0x0F#6 rd (0#3 ++ h) imm
  | .ld fn rd ra imm => encRI (ldCode fn) rd ra imm
  | .ldx fn rd ra rb sh => encRR 0x05#6 rd ra rb (0#1 ++ ldxCode fn ++ 0#4 ++ sh)
  | .st fn rd ra imm => encRI (stCode fn) rd ra imm
  | .stx fn rd ra rb sh => encRR 0x05#6 rd ra rb (0#1 ++ stxCode fn ++ 0#4 ++ sh)
  | .atom fn size sy rd ra rb => encRR 0x04#6 rd ra rb (0#1 ++ atomCode fn ++ size ++ encBit sy ++ 0#3)
  | .br cc ra rb off => 0x30#6 ++ ra ++ rb ++ cc ++ off
  | .bri cc ra imm off => 0x31#6 ++ ra ++ imm ++ cc ++ off
  | .fb cc off => 0x30#6 ++ cc ++ off
  | .j off => 0x20#6 ++ off
  | .call pm off => 0x21#6 ++ pm ++ off
  | .callr ra pm => 0x22#6 ++ ra ++ pm ++ 0#13
  | .jr ra => encRR 0x23#6 0#5 ra 0#5 0x000#11
  | .ret => encRR 0x23#6 0#5 0#5 0#5 0x001#11
  | .fp sf dbl fn rm rd ra rb => encRR 0x28#6 rd ra rb (encBit sf ++ encBit dbl ++ fpCode fn ++ rm)
  | .fma dbl v rd ra rb rc => encRR 0x29#6 rd ra rb (0#1 ++ rc ++ encBit dbl ++ v ++ 0#2)
  | .folly idx rd ra rb imm => 0x3E#6 ++ idx ++ rd ++ ra ++ rb ++ imm
  | .sync => encRI 0x3F#6 0x00#5 0#5 0#16
  | .syncD => encRI 0x3F#6 0x01#5 0#5 0#16
  | .syncT => encRI 0x3F#6 0x02#5 0#5 0#16
  | .syncI => encRI 0x3F#6 0x03#5 0#5 0#16
  | .wfe => encRI 0x3F#6 0x04#5 0#5 0#16
  | .eret => encRI 0x3F#6 0x05#5 0#5 0#16
  | .trapS c => encRI 0x3F#6 0x08#5 0#5 c
  | .trapH c => encRI 0x3F#6 0x09#5 0#5 c
  | .trapB c => encRI 0x3F#6 0x0A#5 0#5 c
  | .mfs rd n => encRI 0x3F#6 0x10#5 rd (0#4 ++ n)
  | .mts ra n => encRI 0x3F#6 0x11#5 ra (0#4 ++ n)
  | .tlbiVa ra => encRI 0x3F#6 0x18#5 ra 0#16
  | .tlbiVaa ra => encRI 0x3F#6 0x19#5 ra 0#16
  | .tlbiAsid ra => encRI 0x3F#6 0x1A#5 ra 0#16
  | .tlbiIpa ra => encRI 0x3F#6 0x1B#5 ra 0#16
  | .tlbiVmid ra => encRI 0x3F#6 0x1C#5 ra 0#16
  | .tlbiAll => encRI 0x3F#6 0x1D#5 0#5 0#16

end Sys2Proof.Machine
end

