-- ==== Sys2Proof/Machine/Maps.lean ====
section
/-! DEFINITION. Sparse maps: reading, writing and removing an entry. -/

namespace Sys2Proof.Machine

/-- The value at a key, if it is listed. -/
def mget? {α : Type} : SMap α → Nat → Option α
  | [], _ => none
  | (k, v) :: m, i => if k = i then some v else mget? m i

/-- The value at a key, `d` where it is not listed. -/
def mget {α : Type} (m : SMap α) (i : Nat) (d : α) : α := (mget? m i).getD d

/-- Removes a key. -/
def mdel {α : Type} (m : SMap α) (i : Nat) : SMap α := m.filter (fun p => p.1 != i)

/-- Inserts a pair before the first greater key. -/
def minsert {α : Type} (i : Nat) (v : α) : SMap α → SMap α
  | [] => [(i, v)]
  | (k, w) :: m => if i < k then (i, v) :: (k, w) :: m else (k, w) :: minsert i v m

/-- Sets the value at a key. -/
def mput {α : Type} (m : SMap α) (i : Nat) (v : α) : SMap α := minsert i v (mdel m i)

/-- Sets or removes the value at a key. -/
def mset? {α : Type} (m : SMap α) (i : Nat) : Option α → SMap α
  | none => mdel m i
  | some v => mput m i v

/-- The keys listed. -/
def mkeys {α : Type} (m : SMap α) : List Nat := m.map (·.1)

/-- The keys are strictly rising. -/
def msorted {α : Type} : SMap α → Bool
  | [] => true
  | [_] => true
  | (k, _) :: (k', v') :: m => decide (k < k') && msorted ((k', v') :: m)

end Sys2Proof.Machine
end

