-- ==== Sys2Proof/Machine/CoreState.lean ====
section
/-! DEFINITION. The state of one virtual core: the architectural registers, the shadow state behind the last commit point, the store buffer, the translation caches and the instruments. -/

namespace Sys2Proof.Machine

/-- Privilege levels (02, section "Privilege levels"). -/
inductive Level where
  | u | s | h
  deriving DecidableEq, Repr

/-- Memory types of an access, from least to most restrictive (07 R200, R210). -/
inductive MemType where
  | normal | normalNc | device
  deriving DecidableEq, Repr

/-- Kinds of access of the walk (07 R228). -/
inductive Acc where
  | read | write | exec | rmw
  deriving DecidableEq, Repr

/-- One set of exception registers, at S or at H (02 R30, section "Registers of exception state"). -/
structure ExcBank where
  /-- EPC, 64 bits, bits [1:0] zero; 02 section "Registers of exception state"; reset 0. -/
  epc : W64 := 0
  /-- ESTAT: [1:0] PPL, [2] PIE, [7:4] PCF; 02; reset 0. -/
  estat : W64 := 0
  /-- ESYN: [5:0] CLASS, [31:6] DETAIL; 02 R48; reset 0. -/
  esyn : W64 := 0
  /-- EADDR; 02 R48; reset 0. -/
  eaddr : W64 := 0
  /-- EVB, bits [11:0] zero; 02 R50; reset 0. -/
  evb : W64 := 0
  /-- SCRATCH; 02; reset 0. -/
  scratch : W64 := 0
  deriving DecidableEq, Repr

/-- The translation registers of a virtual core (07 R197 to R199). -/
structure TransRegs where
  /-- TB0_S, TB1_S: bits [47:12]; 07; reset 0. -/
  tb0 : W64 := 0
  tb1 : W64 := 0
  /-- ASID_S, 16 bits; 07; reset 0. -/
  asid : BitVec 16 := 0
  /-- TCTL_S: [0] EN, [1] EPD0, [2] EPD1; 07; reset 0. -/
  tctl : BitVec 3 := 0
  /-- VTB: bits [47:12], loaded by a write of VMID_H; 07 R199; reset 0. -/
  vtb : W64 := 0
  /-- VMID_H, 8 bits; 07 R199; reset 0. -/
  vmid : Pav := 0
  /-- HTB0, HTB1: bits [47:12]; 07; reset 0. -/
  htb0 : W64 := 0
  htb1 : W64 := 0
  /-- HASID, 16 bits; 07; reset 0. -/
  hasid : BitVec 16 := 0
  /-- HTCTL: [0] EN, [1] EPD0, [2] EPD1, [3] SGU; 07; reset 0. -/
  htctl : BitVec 4 := 0
  deriving DecidableEq, Repr

/-- The architectural registers of the vCPU and the hypervisor on one virtual core (02 R30). -/
structure Arch where
  /-- g1 to g30, 64 bits each; 02 R30, R31; reset 0, but g1 and g2 as 14 R441 gives at the start of SERVICE. -/
  g : SMap W64 := []
  /-- SP_U, SP_S, SP_H, the banks of g31; 02 R30; reset 0. -/
  spU : W64 := 0
  spS : W64 := 0
  spH : W64 := 0
  /-- f0 to f31, 64 bits each; 02 R30, R33; reset 0. -/
  f : SMap W64 := []
  /-- PC; 02 R32; reset 0, the descriptor's entry at the start of SERVICE (14 R441). -/
  pc : W64 := 0
  /-- CF: [0] V, [1] C, [2] Z, [3] N; 02 R36; reset 0. -/
  cf : BitVec 4 := 0
  /-- FCSR: [4:0] NV DZ OF UF NX, [7:5] RM; 02 R37; reset 0. -/
  fcsr : BitVec 8 := 0
  /-- The current level; 02; H at the start of SERVICE (14 R441). -/
  level : Level := .h
  /-- CSTAT_S.IE, CSTAT_H.IE; 02; reset 0. -/
  ieS : Bool := false
  ieH : Bool := false
  /-- The exception registers at S and at H; 02; reset 0. -/
  excS : ExcBank := {}
  excH : ExcBank := {}
  /-- EIPA_H, 48 bits; 07 R229; reset 0. -/
  eipaH : W64 := 0
  /-- The translation registers; 07; reset 0. -/
  tr : TransRegs := {}
  /-- VCPU_H.VCPU, 16 bits; 10 R306; reset 0. -/
  vcpu : BitVec 16 := 0
  /-- VCPU_H.RUN; 10 R306; reset 0. -/
  run : Bool := false
  /-- VCPU_H.REFUSED; 10 R306; reset 0. -/
  refused : Bool := false
  deriving DecidableEq, Repr

/-- One entry of the 48-entry store buffer (05 R142, R157). -/
structure SbEntry where
  pa : BitVec 48
  size : Nat
  data : W64
  /-- NORMAL_NC or keep-region stores bypass the L1D (07 R211, 08 R263). -/
  nc : Bool
  committed : Bool
  /-- Allocation class of the access (08 R240). -/
  cls : ClassId := hypClass
  /-- The instruction that stored it, for the report of R157. -/
  pc : W64 := 0
  deriving DecidableEq, Repr

/-- The key of a translated region (05 R124). -/
structure RegionKey where
  /-- VMID, or the hypervisor mark. -/
  ctx : ClassId
  /-- ASID or HASID; none is the global mark. -/
  asid : Option (BitVec 16)
  va : W64
  page : PageNo
  fstyle : Bool
  deriving DecidableEq, Repr

/-- A combined entry of the translation caches (07 R213). -/
structure TlbEntry where
  ctx : ClassId
  /-- ASID or HASID; none is the global mark. -/
  asid : Option (BitVec 16)
  vpage : BitVec 36
  ppage : PageNo
  ipaPage : PageNo
  /-- Stage-1 rights R W X, then U, A, D; all set where stage 1 is off. -/
  r1 : Bool
  w1 : Bool
  x1 : Bool
  u : Bool
  a : Bool
  d : Bool
  /-- false: stage 1 checks nothing (07 R198). -/
  s1on : Bool
  mt1 : MemType
  /-- Stage-2 rights. -/
  r2 : Bool
  w2 : Bool
  x2 : Bool
  mt : MemType
  /-- IPA pages the walk read as tables (07 R218, TLBI.IPA). -/
  tables : List PageNo
  deriving DecidableEq, Repr

/-- A walk-cache entry: a table entry's address and value under a context (07 R213). -/
structure WalkEntry where
  ctx : ClassId
  asid : BitVec 16
  stage2 : Bool
  addr : BitVec 48
  value : W64
  /-- The virtual page or IPA page walked when it was cached. -/
  page : BitVec 36
  deriving DecidableEq, Repr

/-- A fill made by an uncommitted access under STRICT_SPEC (05 R156; 10 R304). -/
inductive Fill where
  | l1d (l : LineNo) | l2 (l : LineNo) | dtlb (e : TlbEntry) | l2tlb (e : TlbEntry) | walk (w : WalkEntry)
  /-- A committed access has used it since: it carries no tag any more. -/
  | kept
  deriving DecidableEq, Repr

/-- The core at one point of its instruction stream: what it holds once every younger course is undone (05 R145), and what a commit up to there makes architectural (05 R144). -/
structure Ckpt where
  actual : Arch
  /-- Uncommitted entries of the store buffer, and instructions past the commit point, that are older. -/
  sbLen : Nat
  retLen : Nat
  ghist : BitVec 15
  ras : List W64
  block : Option W64
  blockPa : BitVec 48
  /-- The instruction that follows is a block entry. -/
  entry : Bool
  /-- The region, and the number of the course in it, that the instruction that follows belongs to. -/
  region : Option RegionKey
  rix : Nat
  /-- Tickets of older operations, outstanding when the branch executed. -/
  tick : List Nat
  /-- Fills of older accesses, lines read by older loads, regions entered before. -/
  fillLen : Nat
  markLen : Nat
  entLen : Nat
  /-- Marks of older loads for SYNC. -/
  syncs : List LineNo
  /-- The fetch buffer: work that is undone leaves nothing in it (05 R155). -/
  fetch : List LineNo
  /-- SPEC of the branch's course: younger courses that issue before it resolves (05 R137, R142). -/
  spec : Nat
  deriving DecidableEq, Repr

/-- What an instruction that has executed and not committed will do to the instruments at its commit (05 R144, 17 R507, R519). -/
structure Retire where
  pc : W64
  level : Level
  /-- PMU event codes counted at its commit. -/
  events : List (BitVec 8)
  /-- For a conditional branch: its counter index and its outcome (05 R149). -/
  cond : Option (BitVec 15 × Bool)
  /-- For JR, CALLR, RET, ERET: the target traced (17 R519). -/
  ind : Option W64
  /-- For the ending instruction of a block: the block's entry (05 R126). -/
  blockEnd : Option (W64 × BitVec 48)
  /-- The physical page that it was fetched from (05 R162). -/
  page : PageNo := 0
  /-- Its courses, and the slots that they occupy (17 R513). -/
  courses : Nat := 1
  used : Nat := 1
  /-- The commit point behind it, where one stands there (05 R125, R143). -/
  pt : Option Ckpt := none
  deriving DecidableEq, Repr

/-- The slots of a course (05 R133). -/
inductive CSlot where
  | m0 | m1 | i0 | i1 | f0 | f1
  deriving DecidableEq, Repr

/-- A course of a translated region, with the header fields of 05 R137. It holds one architectural instruction (DESIGN CHOICE, log entry 12). -/
structure RCourse where
  pc : W64
  /-- The slot of its operation; a control transfer stands in I1 (05 R133). -/
  slot : CSlot
  /-- AWAIT: the tickets that it waits for. -/
  await : BitVec 16
  /-- The ticket that its operation carries, for a long one. -/
  ticket : Option (BitVec 4)
  /-- COMMIT: a commit point follows it. -/
  commit : Bool
  /-- SPEC. -/
  spec : Nat
  /-- Commit points stand before it and behind it, for an operation reported as a DEVICE access (05 R147). -/
  alone : Bool
  /-- A branch back to the region's entry, which stays in the region (05 R128). -/
  loop : Bool
  /-- The image of the folly index that it executes, copied into the region (06 R187); none for other instructions. -/
  image : List Byte := []
  deriving DecidableEq, Repr

/-- A region of the course store (05 R128, R131; 07 R216). -/
structure Region where
  key : RegionKey
  ipaPage : PageNo
  /-- Its courses, in the order in which the translator placed them. -/
  courses : List RCourse
  /-- U bit of its entry page (07 R216). -/
  u : Bool
  /-- Folly indices it contains (05 R132). -/
  folly : BitVec 16
  deriving DecidableEq, Repr

/-- An entry of the hot table (05 R126). -/
structure HotEntry where
  pa : BitVec 48
  ctx : ClassId
  fstyle : Bool
  va : W64
  count : Nat
  /-- The count had reached the threshold at the last commit of the block's ending instruction. -/
  due : Bool
  /-- The translation request has been sent. -/
  sent : Bool
  deriving DecidableEq, Repr

/-- A translation request or finished region of a cluster's translator (05 R129). -/
structure XlateReq where
  vc : Vc
  key : RegionKey
  pa : BitVec 48
  ipaPage : PageNo
  /-- U bit of the entry page (07 R216). -/
  u : Bool
  /-- The requesting core's direction counters and history at the request (05 R128). -/
  pred : SMap (BitVec 2)
  ghist : BitVec 15
  /-- Folly indices on its path (05 R132). -/
  folly : BitVec 16 := 0
  deriving DecidableEq, Repr

/-- The TLBI operations (07 R218). -/
inductive TlbiOp where
  | va | vaa | asid | ipa | vmid | all
  deriving DecidableEq, Repr

/-- One TLBI with its context (07 R218). -/
structure Tlbi where
  op : TlbiOp
  /-- The context acted on: a VMID or the hypervisor mark. -/
  ctx : ClassId
  asid : BitVec 16
  page : BitVec 36
  deriving DecidableEq, Repr

/-- What a core waits for after a DEVICE load or atomic has left it (02 R70, 05 R147). -/
structure CoreWait where
  /-- Destination register and whether it is an f register. -/
  rd : BitVec 5
  fp : Bool
  size : Nat
  sext : Bool
  va : W64
  word : W32
  /-- The PMU events of the instruction. -/
  events : List (BitVec 8)
  /-- The ticket that the operation carries until its result is written: its course's, in step mode the lowest that is free (05 R125, R135). -/
  ticket : BitVec 4
  /-- The doubleword of a RET's frame that the access reads; none for other instructions. -/
  slot : Option Nat := none
  deriving DecidableEq, Repr

/-- The predictor, hot table, course store and translation caches of the physical core (05 R126, R131, R149 to R151; 07 R213). They start empty on a spare (05 R150, 07 R217). -/
structure Micro where
  /-- 32,768 two-bit direction counters; 05 R149; each 0b01 at first use (05 R150). -/
  pred : SMap (BitVec 2) := []
  /-- Global history, 15 bits; 05 R149; 0. -/
  ghist : BitVec 15 := 0
  /-- Return-address stack, newest first, at most 32; 05 R151; empty. -/
  ras : List W64 := []
  /-- Hot table, least recently incremented first, at most 1,024; 05 R126; empty. -/
  hot : List HotEntry := []
  /-- Course store regions, least recently entered first; 05 R131; empty. -/
  regions : List Region := []
  /-- L1 DTLB, at most 64; 07 R213; empty. -/
  dtlb : List TlbEntry := []
  /-- Fetch TLB, at most 16; 07 R213; empty. -/
  ftlb : List TlbEntry := []
  /-- L2 TLB, at most 3,072; 07 R213; empty. -/
  l2tlb : List TlbEntry := []
  /-- Walk cache, at most 256; 07 R213; empty. -/
  walks : List WalkEntry := []
  /-- Fetch buffer: four lines; 05 R125; empty. -/
  fetchBuf : List LineNo := []
  /-- Lines read by loads that have not committed, oldest first; 08 R238; empty. -/
  readMarks : List LineNo := []
  /-- Lines read while they carried a store not yet performed; 08 R268; empty. -/
  syncMarks : List LineNo := []
  deriving DecidableEq, Repr

/-- The PMU of a virtual core (17 R505 to R512). -/
structure Pmu where
  /-- PMU_CNT0 to 5 and, at 6, PMU_PACE: 64 bits each; 17 R505; reset 0. -/
  cnt : SMap W64 := []
  /-- PMU_CFG0 to 5, 13 bits used; 17 R507; reset 0. -/
  cfg : SMap (BitVec 13) := []
  /-- PMU_CTL: [0] EN, [1] FRZ, [4:2] PACE_U S H, [5] PACE_IRQ; 17 R506; reset 0. -/
  ctl : BitVec 6 := 0
  /-- PMU_OVF, 7 bits; 17 R509; reset 0. -/
  ovf : BitVec 7 := 0
  /-- PMU_GRANT, 6 bits; 17 R510; reset 0. -/
  grant : BitVec 6 := 0
  /-- PMU_SPC, PMU_SINFO and their guest copies; 17 R512; reset 0. -/
  spc : W64 := 0
  sinfo : BitVec 4 := 0
  gspc : W64 := 0
  gsinfo : BitVec 4 := 0
  /-- PMU_GCTL: UEN and GIRQ; 17 R510, R511; reset 0. -/
  uen : Bool := false
  girq : BitVec 11 := 0
  deriving DecidableEq, Repr

/-- The flow-trace encoder of a virtual core (17 R516 to R521). -/
structure Encoder where
  /-- TRC_CTL: [0] EN, [3:1] U S H, [4] VMF, [15:8] VMID; 17 R517; reset 0. -/
  ctl : BitVec 16 := 0
  /-- TRC_LOST, 32 bits, saturating; 17 R525; reset 0. -/
  lost : BitVec 32 := 0
  /-- Outcome bits held, oldest first; 17 R519; none. -/
  held : List Bool := []
  /-- LAST_ADDR and LAST_TIME; 17 R518; 0. -/
  lastAddr : W64 := 0
  lastTime : Nat := 0
  /-- Bytes since the last SYNC; 17 R520; 0. -/
  bytes : Nat := 0
  /-- Tracing was active at the last commit; 17 R517; false. -/
  active : Bool := false
  /-- A SYNC is due before the next packet; 17 R520; false. -/
  needSync : Bool := false
  /-- Packets dropped since the last accepted SYNC and their class; 17 R525; 0. -/
  gap : Nat := 0
  gapClass : BitVec 2 := 0
  deriving DecidableEq, Repr

/-- One fault notice waiting at a level (15 R472). -/
structure Notice where
  cls : BitVec 8
  seq : BitVec 64
  deriving DecidableEq, Repr

/-- Where a long operation's result goes (05 R134, R135). -/
inductive Dest where
  | none | g (r : BitVec 5) | f (r : BitVec 5)
  deriving DecidableEq, Repr

/-- A long operation whose ticket is outstanding: the result that reaches the shadow file at its completion (05 R135). -/
structure Ticket where
  dest : Dest
  val : W64
  /-- FCSR flags raised. -/
  flags : BitVec 5
  /-- CF written by an S form. -/
  cf : Option (BitVec 4)
  deriving DecidableEq, Repr

/-- The state of one virtual core. -/
structure Core where
  /-- The committed registers (05 R142). -/
  arch : Arch := {}
  /-- The registers as the shadow file shows them to the next instruction (05 R142). Reset: equal to `arch`. -/
  spec : Arch := {}
  /-- The store buffer, oldest first, 48 entries; 05 R142; empty. -/
  sb : List SbEntry := []
  /-- Long operations whose ticket is outstanding, keyed by ticket 0 to 15; 05 R135; none. -/
  tickets : SMap Ticket := []
  /-- Instructions executed since the last commit point; 05 R142; none. -/
  retire : List Retire := []
  /-- Mispredicted branches not yet undone, oldest first; 05 R145; none. -/
  ckpts : List Ckpt := []
  /-- The next instruction is a block entry; 05 R124; true. -/
  entry : Bool := true
  /-- Global history, return-address stack and block at the last commit point; 05 R145, R149, R151; 0, empty, none. -/
  ghistC : BitVec 15 := 0
  rasC : List W64 := []
  blockC : Option W64 := none
  /-- The physical address of that block's entry and the marks for SYNC at the last commit point; 05 R126, R145, R155; 0, none. -/
  blockPaC : BitVec 48 := 0
  syncC : List LineNo := []
  /-- The fetch buffer at the last commit point; 05 R125, R155; empty. -/
  fetchC : List LineNo := []
  /-- Fills made by uncommitted accesses under STRICT_SPEC, oldest first; 05 R156, 10 R304; none. -/
  fills : List Fill := []
  /-- Regions entered since the last commit point, oldest first; 05 R131, R155; none. -/
  entered : List RegionKey := []
  /-- The region in execution; none is step mode; 05 R124; none. -/
  region : Option RegionKey := none
  /-- The number of the region's course that comes next; 05 R128; 0. -/
  rix : Nat := 0
  /-- The physical page of the instruction fetched last; 05 R162; 0. -/
  fetchPage : PageNo := 0
  /-- Instructions executed since an enabled interrupt has been pending; 02 R59; 0. -/
  irqAge : Nat := 0
  /-- Entry of the block in execution, none past its ending instruction, and the physical address of that entry once it has been fetched; 05 R124; none, 0. -/
  block : Option W64 := none
  blockPa : BitVec 48 := 0
  /-- The core has begun (14 R441); false until MODE_SET(SERVICE). -/
  started : Bool := false
  /-- The next load has waited on an overlapping store; 05 R157, 17 R507; false. -/
  owait : Bool := false
  /-- Suspended in WFE; 02 R60; false. -/
  wfe : Bool := false
  /-- A timer event routed to the core has occurred since WFE; 02 R60; false. -/
  wfeEvent : Bool := false
  /-- A DEVICE load or atomic that has left the core; 05 R147; none. -/
  wait : Option CoreWait := none
  /-- Doublewords of its frame that a RET has read from windows of Arbor or PCI Express, by number; 02 R46, R70; none. -/
  frame : SMap W64 := []
  /-- The last instruction stored to a code-seen page: nothing is fetched until its store has been performed; 05 R161; false. -/
  codeWait : Bool := false
  /-- Pending virtual interrupt IDs (the latch), ascending; 10 R306; none. -/
  latch : List Nat := []
  /-- Pending physical interrupts, ascending; 02 R54; none. -/
  phys : List Nat := []
  /-- Pending notices at S and H; 15 R472; none. -/
  noticeS : Option Notice := none
  noticeH : Option Notice := none
  /-- TLBIs issued and not completed, oldest first, at most 8; 07 R221; none. -/
  tlbis : List Tlbi := []
  /-- DEVICE stores of the core still on their way to Arbor or PCI Express; 02 R67; 0. -/
  devStores : Nat := 0
  /-- Hold registers, keyed by linked pair: the half held (true = high) and its value; 16 R502; empty. -/
  holds : SMap (Bool × W32) := []
  /-- Events that have occurred outside a commit and are counted with the next commit (17 R507, "event"); none. -/
  evq : List (BitVec 8 × Level) := []
  /-- Paces of undone courses, by level, whose slots are counted as wasted with the next commit; 17 R513; none. -/
  wasted : List Level := []
  pmu : Pmu := {}
  trc : Encoder := {}
  micro : Micro := {}
  /-- Times of the core's rollbacks for hardware faults, with the check's kind; 15 R457; none. -/
  rollbacks : List (Nat × Nat) := []
  deriving DecidableEq, Repr

end Sys2Proof.Machine
end

