-- ==== Sys2Proof/Machine/ArborState.lean ====
section
/-! DEFINITION. The state of Arbor: sessions, the port, the bus, the sequencer threads. -/

namespace Sys2Proof.Machine

/-- Session states (11 R335). -/
inductive SesSt where
  | closed | open_ | halted | wedged | resetting
  deriving DecidableEq, Repr

/-- Error codes of an outbound cycle (11 R361). -/
inductive ArbErr where
  | none | berr | timeout | parity | retry | squashed | wedged | halted | noatom | memory | norole
  deriving DecidableEq, Repr

/-- Outbound window fields (11, table before R339). -/
structure OutWin where
  /-- PA_BASE. -/
  base : Nat
  /-- log2 SIZE. -/
  logSize : Nat
  /-- SPACE: 0 A16, 1 A24, 2 A32, 3 A64, 4 I/O. -/
  space : BitVec 3
  am : BitVec 8
  busBase : W64
  /-- WIDTH: 0 D8 to 3 D64. -/
  width : BitVec 2
  /-- ORDER = ADDRESS. -/
  addrOrder : Bool
  rmw : Bool
  deriving DecidableEq, Repr

/-- Inbound window fields (11, table before R345). -/
structure InWin where
  space : BitVec 3
  amMatch : BitVec 8
  amMask : BitVec 8
  busBase : W64
  logSize : Nat
  ipaBase : Nat
  rd : Bool
  wr : Bool
  addrOrder : Bool
  post : Bool
  /-- RESP = bus error. -/
  respErr : Bool
  deriving DecidableEq, Repr

/-- Interrupt-map entry fields (11, table before R357). -/
structure IMap where
  level : BitVec 3
  vmatch : W32
  vmask : W32
  /-- IACK_WIDTH: 0 D8, 1 D16, 2 D32. -/
  width : BitVec 2
  rora : Bool
  deriving DecidableEq, Repr

/-- One accepted outbound access of a session, with the window it was accepted under (11 R338, R343). -/
structure OutAcc where
  kind : OutKind
  /-- The requesting virtual core; none for a block mover or the safety image. -/
  vc : Option Vc
  cls : ClassId
  /-- Offset from PA_BASE. -/
  off : Nat
  /-- Bytes: 1, 2, 4, 8, or the length of a transfer. -/
  size : Nat
  /-- Store data or atomic operand, and the compare value of CAS. -/
  data : W64
  cmpv : W64
  win : OutWin
  /-- Bytes whose cycles have ended. -/
  done : Nat := 0
  /-- Bytes read so far, byte i of the access at [8i+7:8i]. -/
  got : W64 := 0
  /-- Carry of a split AADD. -/
  carry : Bool := false
  /-- Retry responses of the cycle under way. -/
  retries : Nat := 0
  /-- QZ_TIME at which it reached the head of its queue; none while behind. -/
  headAt : Option Nat := none
  /-- It has waited for room: SYNC waits for the end of its cycle (11 R343). -/
  waited : Bool := false
  /-- Its place in the order in which Arbor accepted accesses (11 R349). -/
  seq : Nat := 0
  deriving DecidableEq, Repr

/-- A session reset or close under way (11 R365). -/
structure SesWait where
  /-- SESSION_CLOSE, not SESSION_RESET. -/
  close : Bool
  halt : Bool
  /-- Lane to answer; none for step 3 of a pavilion reset. -/
  lane : Option LaneNo
  tag : BitVec 16
  squashed : Nat
  /-- Its step 1 has begun: an earlier reset of its domain has ended (11 R367). -/
  started : Bool := true
  deriving DecidableEq, Repr

/-- An entry of a vector FIFO (11 R357). -/
structure VecEntry where
  vec : W32
  level : BitVec 3
  entry : BitVec 3
  /-- RORA of the entry: its level is held until VEC_POP. -/
  rora : Bool
  deriving DecidableEq, Repr

/-- One Arbor session with its page (11 R335 to R344, R357 to R369). -/
structure Session where
  /-- State; 11 R335; CLOSED. -/
  st : SesSt := .closed
  /-- OWNER; 11 R337; 0. -/
  owner : Pav := 0
  /-- SAFETY; 11 R337; 0. -/
  safety : Bool := false
  /-- DOMAIN, 0 its own; 11 R337; 0. -/
  domain : BitVec 6 := 0
  /-- T_S is 2^tsK µs; 11 R337; 6. -/
  tsK : Nat := 6
  /-- WEDGE_LIMIT in ms; 11 R337; 10. -/
  wedgeMs : Nat := 10
  /-- RETRY_LIMIT; 11 R337; 16. -/
  retryLim : Nat := 16
  /-- Enabled outbound windows by INDEX 0 to 3; 11 R338; none. -/
  outw : SMap OutWin := []
  /-- Enabled inbound windows by INDEX 0 to 3; 11 R338; none. -/
  inw : SMap InWin := []
  /-- Enabled interrupt-map entries by INDEX 0 to 7; 11 R338; none. -/
  imap : SMap IMap := []
  /-- Accepted outbound accesses, oldest first, at most 32; 11 R343; none. -/
  queue : List OutAcc := []
  /-- SES_CTL.ERR_POST; 11 R368; 0. -/
  errPost : Bool := false
  /-- ERR_CODE; 11 R368; NONE. -/
  errCode : ArbErr := .none
  /-- ERR_COUNT, 32 bits; 11 R368; 0. -/
  errCount : BitVec 32 := 0
  /-- ERR_ADDR, 64 bits; 11 R368; 0. -/
  errAddr : W64 := 0
  /-- ERR_TIME, 64 bits; 11 R368; 0. -/
  errTime : W64 := 0
  /-- DISCARDS, 32 bits; 11 R368; 0. -/
  discards : BitVec 32 := 0
  /-- Vector FIFO, head first, at most 16; 11 R357; empty. -/
  vecs : List VecEntry := []
  /-- BM_IPA; 11 R368; 0. -/
  bmIpa : W64 := 0
  /-- BM_OFF; 11 R368; 0. -/
  bmOff : W64 := 0
  /-- BM_LEN, 24 bits; 11 R368; 0. -/
  bmLen : BitVec 24 := 0
  /-- BM_CTL.DIR, WIN, BLOCK; 11 R368; 0. -/
  bmDir : Bool := false
  bmWin : BitVec 2 := 0
  bmBlock : Bool := false
  /-- BM_STAT.BUSY, DONE, ERR; 11 R368; 0. -/
  bmBusy : Bool := false
  bmDone : Bool := false
  bmErr : ArbErr := .none
  /-- BM_DONE, 24 bits; 11 R368; 0. -/
  bmMoved : BitVec 24 := 0
  /-- SESSION_RESET, SESSION_CLOSE or the reset of its pavilion under way; 11 R365; none. -/
  wait : Option SesWait := none
  deriving DecidableEq, Repr

/-- The outbound cycle on the bus (11 R349, R363). -/
structure BusCycle where
  ses : Ses
  /-- The result will be discarded: the session wedged or reset meanwhile. -/
  dead : Bool
  /-- Bus address of the cycle, its bytes and whether it reads. -/
  addr : W64
  size : Nat
  read : Bool
  write : Bool
  data : W64
  am : BitVec 8
  /-- QZ_TIME of its start. -/
  started : Nat
  deriving DecidableEq, Repr

/-- Answer of Arbor to an address phase (11 R346). -/
inductive Answer where
  | accept | busError | retry | none
  deriving DecidableEq, Repr

/-- An inbound cycle past its address phase (11 R346 to R351). -/
structure InPhase where
  ses : Ses
  win : BitVec 2
  /-- The window's fields when the phase began (11 R338). -/
  w : InWin
  answer : Answer
  busAddr : W64
  pa : BitVec 48
  write : Bool
  cls : ClassId
  /-- Lines read ahead, by the address they start at (11 R351). -/
  ahead : List (BitVec 48 × Line)
  /-- Data phases that have ended. -/
  beats : Nat := 0
  deriving DecidableEq, Repr

/-- A vector kept because its session's FIFO was full (11 R359). -/
structure KeptVec where
  ses : Ses
  vec : VecEntry
  deriving DecidableEq, Repr

/-- A posted inbound write in the 64-line inbound write buffer (11 R348). -/
structure InWrite where
  ses : Ses
  pa : BitVec 48
  /-- Its bytes, `size` of them from the address on. -/
  size : Nat
  data : W64
  cls : ClassId
  deriving DecidableEq, Repr

/-- What a profile supports (12 R386, R399). -/
structure Caps where
  /-- SPACE A16, A24, A32, A64, I/O. -/
  spaces : BitVec 5
  /-- WIDTH D8, D16, D32, D64. -/
  widths : BitVec 4
  rmw : Bool
  block : Bool
  retry : Bool
  /-- IACK widths D8, D16, D32. -/
  iack : BitVec 3
  syscon : Bool
  bigEndian : Bool
  /-- AP lanes with parity. -/
  parity : BitVec 8
  burst : Nat
  deriving DecidableEq, Repr

/-- A loaded profile (12 R397, R399). -/
structure Profile where
  code : BitVec 8
  caps : Caps
  txd : BitVec 8
  skew : BitVec 8
  arbMode : BitVec 8
  /-- [0] ROR, [1] NBV. -/
  options : BitVec 8
  /-- RST_TIME in ms. -/
  rstTime : Nat
  /-- P-GEN: LINES, 64 bytes; ENTRY, 16 indices; TIMERS, 32 bytes; INSN. Empty for a shipped profile, whose microcode the manual does not print. -/
  lines : List Byte
  entry : List (BitVec 16)
  timers : List Byte
  insn : List W32
  deriving DecidableEq, Repr

/-- Committed roles (11 R333). -/
structure Roles where
  /-- SYSCON; 11 R333; 0. -/
  syscon : Bool := false
  /-- MASTER; 11 R333; 0. -/
  master : Bool := false
  /-- SLAVE; 11 R333; 0. -/
  slave : Bool := false
  /-- REQ_LEVEL, 2 bits; 11 R333; 0. -/
  reqLevel : BitVec 2 := 0
  /-- HANDLER, 8 bits; 11 R333; 0. -/
  handler : BitVec 8 := 0
  /-- BUS_TIMER, 2^k µs; 11 R333; 0. -/
  busTimer : Nat := 0
  deriving DecidableEq, Repr

/-- What a sequencer thread waits for (12 R382, R383). -/
inductive SeqWait where
  | ready
  | delay (units : Nat)
  | line (g : BitVec 4) (mask val : BitVec 8) (ne : Bool)
  | event (mask : BitVec 16)
  deriving DecidableEq, Repr

/-- One thread of the step sequencer (12 R379). -/
structure SeqThread where
  /-- Program counter, 12 bits; 12 section "The step sequencer"; its idle entry. -/
  pc : BitVec 12 := 0
  /-- x0 to x7, 32 bits each; 12; DESIGN CHOICE 0. -/
  x : SMap W32 := []
  /-- T; 12; DESIGN CHOICE 0. -/
  t : Bool := false
  /-- P; 12; DESIGN CHOICE 0. -/
  p : Bool := false
  /-- The wait under way; 12 R383. -/
  wait : SeqWait := .ready
  /-- The routine's code at its last END; 12 R382; 0. -/
  endCode : BitVec 4 := 0
  /-- The thread is in its idle routine; 12 R381; true. -/
  idle : Bool := true
  deriving DecidableEq, Repr

/-- A driven group of port lines: the bits driven and their levels (12 R382). -/
structure Drive where
  en : W32 := 0
  val : W32 := 0
  deriving DecidableEq, Repr

/-- The Arbor port (11, 12). -/
structure Arbor where
  /-- The 16,384 sessions, keyed by number; 11 R335; CLOSED. -/
  ses : SMap Session := []
  /-- Accesses waiting at Arbor for room, in arrival order; 11 R343; none. -/
  waiting : List (Ses × OutAcc) := []
  /-- Accesses accepted so far: the order of R349; 11 R349; 0. -/
  accepted : Nat := 0
  /-- The bytes that the last write phase of an outbound cycle placed on the bus: address, number, bytes; 11 R352, R356; none. -/
  wrote : Option (W64 × Nat × W64) := none
  /-- The loaded profile; 12 R398; none. -/
  prof : Option Profile := none
  /-- Committed roles; 11 R333; off. -/
  roles : Roles := {}
  /-- An ARB_ROLE_SET has committed since the last load; 12 R374; false. -/
  roleSet : Bool := false
  /-- ARST_N has been asserted for the loaded profile; 12 R395; false. -/
  rstDone : Bool := false
  /-- Arbor's own assertion of ARST_N ends at this QZ_TIME; 12 R395; none. -/
  arstUntil : Option Nat := none
  /-- ARST_N is low by another board; 12 R395; false. -/
  arstIn : Bool := false
  /-- AFAIL is asserted by Arbor; 12 R396; false. -/
  afailOut : Bool := false
  /-- AFAIL is asserted by another board; 12 R396; false. -/
  afailIn : Bool := false
  /-- AC-fail input of the profile; 12 ARB_PINS; 0. -/
  acfailIn : Bool := false
  /-- AX[7:0]; 12 R376; 0b1010_1010, the disabled values. -/
  ax : BitVec 8 := 0xAA
  /-- The values that AX took in the last turn of a transceiver, oldest first; 12 R377; none. -/
  axTurn : List (BitVec 8) := []
  /-- ENGINE: 0 in step, 1 resynchronising, 2 Belvedere sequencer; 11 R368; 0. -/
  engine : BitVec 2 := 0
  /-- ARB_UNMAPPED, ARB_VEC_NOMATCH, ARB_INB_NOMATCH, ARB_INB_REFUSED, ARB_MISMATCH, 32 bits each; 11 R368; 0. -/
  unmapped : BitVec 32 := 0
  vecNomatch : BitVec 32 := 0
  inbNomatch : BitVec 32 := 0
  inbRefused : BitVec 32 := 0
  mismatch : BitVec 32 := 0
  /-- AFAIL_EDGES, ARST_EVENTS, BUS_TIMEOUTS, PATH_DENIED, 32 bits each; 12 ARB_PINS; 0. -/
  afailEdges : BitVec 32 := 0
  arstEvents : BitVec 32 := 0
  busTimeouts : BitVec 32 := 0
  pathDenied : BitVec 32 := 0
  /-- Arbor owns the bus; 12 R389; false. -/
  owned : Bool := false
  /-- QZ_TIME of the grant; 10 R322; 0. -/
  ownedAt : Nat := 0
  /-- YIELD is raised; 12 R389; false. -/
  yield_ : Bool := false
  /-- Domain and session last served; 10 R322 rotation; 0. -/
  lastSes : Ses := 0
  /-- Grant driven to a requester that has not yet taken the bus, by level, as system controller; 12 R389; none. -/
  granting : Option (BitVec 2) := none
  /-- Level granted last, for round robin; 12 R397; 0. -/
  lastLevel : BitVec 2 := 0
  /-- The outbound cycle on the bus; 11 R349; none. -/
  cycle : Option BusCycle := none
  /-- Beats left of the block burst on the bus, the one under way among them; 11 R344; 12 R382, BEATS; 0. -/
  beats : Nat := 0
  /-- The inbound cycle past its address phase; 11 R346; none. -/
  phase : Option InPhase := none
  /-- Inbound write buffer, oldest first, at most 64; 11 R348; empty. -/
  inbuf : List InWrite := []
  /-- Inbound translation cache: owner and IPA page, with its page and rights R and W; 07 R213; empty. -/
  itlb : List TlbEntry := []
  /-- AI[7:0], 1 = asserted; 12 R373; 0. -/
  ai : BitVec 8 := 0
  /-- Level of the acknowledge cycle that MST is running; 11 R357, 12 R381; none. -/
  ack : Option (BitVec 3) := none
  /-- Sessions whose reset or close is under way or waits for its turn in its domain, in the order of issue; 11 R367; none. -/
  resets : List Ses := []
  /-- The system bus timer asserts its line; 12 R393; false. -/
  expired : Bool := false
  /-- Lines that the port block drives as clocks: group, line, half-period in units of 1.25 ns; 12 R378, R386, R399; none. -/
  clocks : List (Nat × Nat × Nat) := []
  /-- Levels held by a session's RORA vector; 11 R359; none. -/
  heldLv : List (BitVec 3 × Ses × BitVec 3) := []
  /-- Kept vectors; 11 R359; none. -/
  kept : List KeptVec := []
  /-- Times of mismatches; 15 R467; none. -/
  mismatches : List Nat := []
  /-- Port groups 0 to 9 as the device drives them; 12 R382; released. -/
  drive : SMap Drive := []
  /-- Port groups as the backplane holds them where the device does not drive low; a group not listed reads all ones, its pull-ups; 12 R373. -/
  bus : SMap W32 := []
  /-- Holder of the data path; 12 R380; none. -/
  path : Option Thread := none
  /-- Threads MST, SLV, ARB, MON; 12 R379; at their idle entries. -/
  threads : SMap SeqThread := []
  /-- Engine fields 0 to 10, 32 bits each; 12 R382; 0. -/
  fields : SMap W32 := []
  /-- Engine events pending; 12 R382; none. -/
  events : BitVec 16 := 0
  /-- The threads run: roles have committed; 12 R381; false. -/
  running : Bool := false
  deriving DecidableEq, Repr

end Sys2Proof.Machine
end

