-- ==== Sys2Proof/Machine/FabricState.lean ====
section
/-! DEFINITION. The state of the memory side: cluster L2s, home slices, the messages in flight, the spine arbiter and the keep region, the DRAM channels. -/

namespace Sys2Proof.Machine

/-- States of a line held in a cluster L2 (08 R244); a line not in the map is in I. -/
inductive L2St where
  | m | o | e | s
  deriving DecidableEq, Repr

/-- A line of a cluster L2 (08 R236, R237). -/
structure L2Line where
  /-- State; 08 R244. -/
  st : L2St
  /-- Data: the newest value within the cluster, whichever L1D or the L2 holds it; 08 R237. -/
  data : Line
  /-- Presence vector: virtual cores whose L1D holds the line; 08 R237. -/
  pres : List Vc
  /-- Allocation class of the filling request; 08 R237. -/
  cls : ClassId
  /-- The core whose store in the line is not yet performed with respect to every observer; 08 R267, R268. -/
  unperf : Option Vc := none
  /-- The virtual core whose L1D holds the line in M; 08 R236, R237; none. -/
  dirtyIn : Option Vc := none
  deriving DecidableEq, Repr

/-- An entry of a cluster's write-back buffer, kept until WB_ACK (08 R254). -/
structure WbEntry where
  data : Line
  cls : ClassId
  /-- TAG of the WB (08 R233). -/
  tag : BitVec 16 := 0
  deriving DecidableEq, Repr

/-- Kinds of request to a home slice (08 R245). -/
inductive ReqKind where
  | rdS | rdCode | rdX | upg | wb | ncRd | ncWr | atom
  deriving DecidableEq, Repr

/-- A request at a home slice or at the spine (08 R233, R245). -/
structure Req where
  kind : ReqKind
  src : Agent
  line : LineNo
  /-- PA[5:0] and SIZE of an uncached access. -/
  off : Nat := 0
  size : Nat := 0
  /-- Data of a write-back or of an uncached write, and the byte mask. -/
  data : Line := 0
  mask : BitVec 64 := 0
  /-- Operation, operand and compare value of an atomic (03 R86). -/
  op : BitVec 4 := 0
  opnd : W64 := 0
  cmpv : W64 := 0
  cls : ClassId := hypClass
  /-- TAG: the transaction, unique among the open ones of its source (08 R233). -/
  tag : BitVec 16 := 0
  deriving DecidableEq, Repr

/-- An open request of a cluster (08 R249). -/
structure Mshr where
  kind : ReqKind
  /-- RD_X, UPG: the core whose store asked for ownership, none where the line will not be stored to. RD_CODE: the core whose fetch buffer takes the line, none for the translator. -/
  core : Option Vc
  /-- Acknowledgements to collect, known once DATA or GRANT is in, and those received. -/
  need : Option Nat
  got : Nat
  cls : ClassId
  /-- TAG of the request (08 R233). -/
  tag : BitVec 16 := 0
  deriving DecidableEq, Repr

/-- One cluster (08 R237, R254). -/
structure Cluster where
  /-- Cluster L2 with the L1Ds it includes, keyed by line; 08 R237; empty (14 R451). -/
  l2 : SMap L2Line := []
  /-- Write-back buffer, keyed by line; 08 R254; empty. -/
  wb : SMap WbEntry := []
  /-- Open requests, keyed by line; 08 R249; none. -/
  mshr : SMap Mshr := []
  /-- Ways of the L2 disabled by CACHE_WAY_RETIRE, 16 bits; 15 R456 class 0x07; 0. -/
  badWays : BitVec 16 := 0
  /-- Translator: queue of at most 16 requests; 05 R129; empty. -/
  xlq : List XlateReq := []
  /-- Translator: finished regions waiting for a block entry; 05 R129; empty. -/
  ready : List XlateReq := []
  /-- Translator: the 64 most recent regions, newest first; 05 R129; empty. -/
  recent : List Region := []
  /-- Translator: operations of regions that cores have reported, keyed by region: address, and whether it found DEVICE memory (else a load that overlapped a store of its region); 05 R147, R157; none. -/
  reports : List (RegionKey × W64 × Bool) := []
  /-- Translator retired: requests go to cluster (k + 1) mod 8; 15 R456 class 0x05; false. -/
  xlDead : Bool := false
  deriving DecidableEq, Repr

/-- Directory states of an entry (08 R244); a line without an entry is DI. -/
inductive DirSt where
  | ds | dx | do_
  deriving DecidableEq, Repr

/-- A directory entry (08 R256). TAG is the key; BUSY is the open transaction. -/
structure DirEntry where
  /-- STATE; 08 R256. -/
  st : DirSt
  /-- SHARERS, 8 bits, without the owner; 08 R256. -/
  sharers : BitVec 8
  /-- OWNER; 08 R256; zero in DS. -/
  owner : Oct
  /-- NRU; 08 R256. -/
  nru : Bool
  deriving DecidableEq, Repr

/-- A system-cache line (08 R239). -/
structure ScLine where
  data : Line
  dirty : Bool
  way : BitVec 4
  nru : Bool
  cls : ClassId
  deriving DecidableEq, Repr

/-- What a home's open transaction still waits for (08 R247, R248). -/
structure Txn where
  req : Req
  /-- The answer of CODE_QUERY or CODE_MARK is awaited (08 R259, R260). -/
  code : Bool := false
  /-- MDATA is awaited. -/
  fill : Bool := false
  /-- The cluster whose FWD_ACK, NOT_HELD or DATA_H is awaited. -/
  fwd : Option Oct := none
  /-- Acknowledgements that the home itself collects (08 R248). -/
  acks : Nat := 0
  /-- The line's data, once the home has it from the system cache, from DRAM or from the owner. -/
  data : Option Line := none
  /-- The data came dirty from an owner. -/
  dirty : Bool := false
  /-- Acknowledgements that the requester collects (08 R247). -/
  n : Nat := 0
  /-- The request is served with GRANT, without data (08 R247, UPG). -/
  grant : Bool := false
  /-- DATA or GRANT has gone and CMP of the requester is awaited. -/
  cmp : Bool := false
  /-- A back-invalidation of a directory victim (08 R257). -/
  victim : Bool := false
  /-- The request is past its code query: the home has begun to serve it (08 R259). -/
  went : Bool := false
  /-- The page's home has been asked about the page (08 R259). -/
  asked : Bool := false
  /-- A downgrade of an owner for a page that becomes code-seen (08 R260). -/
  down : Bool := false
  /-- An owner is downgraded for a page that becomes code-seen while the request waits for the answer about its page's code; the request has not begun (08 R260). -/
  pre : Bool := false
  /-- The class recorded with the dirty line that a holder has returned (08 R240). -/
  dcls : Option ClassId := none
  /-- CMP has arrived before the answer to the forward (08 R235). -/
  early : Bool := false
  /-- FWD_ACK 3 has arrived: the data of this cluster's WB is awaited (08 R254). -/
  wb : Option Oct := none
  /-- The WB of the cluster that the forward goes to has been absorbed (08 R254). -/
  wbIn : Bool := false
  deriving DecidableEq, Repr

/-- A code drop under way at a page's home (08 R260). -/
structure CodeDrop where
  /-- Clusters whose DROP_ACK is missing. -/
  waitAck : BitVec 8
  /-- Slices whose answer to CODE_CLR is missing. -/
  waitClr : BitVec 8
  deriving DecidableEq, Repr

/-- One home slice (08 R239, R242, R247, R256, R259). -/
structure Home where
  /-- Directory, keyed by line; 16 ways × 4,096 sets; 08 R256; empty. -/
  dir : SMap DirEntry := []
  /-- System cache, keyed by line; 16 ways × 8,192 sets; 08 R239; empty. -/
  sc : SMap ScLine := []
  /-- Write-back buffer, keyed by line, mirrored at the partner slice; 09 R280, 15 R464; empty. -/
  wbuf : SMap Line := []
  /-- The class recorded with each line of that buffer, keyed by line; 08 R237, R240, 10 R322; none. -/
  wcls : SMap ClassId := []
  /-- The mirror that the slice holds, as their partner, of other slices' write-back buffers, keyed by line; 15 R464; none. -/
  mir : SMap Line := []
  /-- Open transactions, keyed by line; 08 R248; none. -/
  txns : SMap Txn := []
  /-- Conflict queue, oldest first, at most 64; 08 R248; empty. -/
  confq : List Req := []
  /-- Reservation tokens held, with the set they are for, oldest first; 08 R258; none. -/
  tokens : List (Agent × BitVec 12) := []
  /-- Code-page table, oldest first, at most 4,096 pages; 08 R259, 05 R165; empty. -/
  pages : List PageNo := []
  /-- Lines whose request waits for the answer of CODE_QUERY or CODE_MARK, keyed by page; 08 R259, R260; none. -/
  queries : SMap (List LineNo) := []
  /-- Code drops under way, keyed by page; 08 R260; none. -/
  drops : SMap CodeDrop := []
  /-- Pages being marked: slices whose answer to CODE_SET is missing; 08 R260; none. -/
  marks : SMap (BitVec 8) := []
  /-- Pages whose CODE_SET the slice has not answered yet; 08 R260; none. -/
  sets : List PageNo := []
  /-- Lines in DO that the slice has downgraded for such a page, keyed by page; 08 R260; none. -/
  downs : SMap (List LineNo) := []
  /-- Code filter: 16,384 four-bit counters; 08 R259; 0. -/
  filter : SMap (BitVec 4) := []
  /-- System-cache ways disabled by CACHE_WAY_RETIRE; 15 R456; 0. -/
  badWays : BitVec 16 := 0
  /-- The slice has failed and is removed; 15 R465; false. -/
  dead : Bool := false
  deriving DecidableEq, Repr

/-- A message in flight on the fabric (08 R245). Requests are commands of their own and stand in the conflict queue. -/
inductive Msg where
  | fwdS (dst : Oct) (line : LineNo) (req : Agent)
  | fwdX (dst : Oct) (line : LineNo) (req : Agent) (n : Nat)
  | fwdRd (dst : Oct) (line : LineNo)
  | inv (dst : Oct) (line : LineNo) (collector : Agent) (n : Nat)
  | binv (dst : Oct) (line : LineNo)
  | drop (dst : Oct) (page : PageNo)
  | kinv (line : LineNo)
  | ack (from_ : Agent) (dst : Agent) (line : LineNo)
  | fwdAck (from_ : Oct) (line : LineNo) (info : Nat)
  | notHeld (from_ : Oct) (line : LineNo)
  | grant (dst : Oct) (line : LineNo) (n : Nat)
  | cmp (from_ : Oct) (line : LineNo)
  | wb (from_ : Oct) (line : LineNo) (d : Line) (cls : ClassId)
  | wbAck (dst : Oct) (line : LineNo)
  | nack (dst : Agent) (line : LineNo) (token : Bool)
  | retry (dst : Agent) (line : LineNo)
  | done (dst : Agent) (line : LineNo)
  | dropAck (from_ : Oct) (page : PageNo)
  | data (dst : Oct) (line : LineNo) (d : Line) (st : L2St) (n : Nat) (dirty : Bool)
  | dataH (from_ : Oct) (line : LineNo) (d : Line) (dirty : Bool)
  | mrd (line : LineNo)
  | mdata (line : LineNo) (d : Line)
  | adata (dst : Agent) (line : LineNo) (v : W64)
  | codeMark (page : PageNo) (line : LineNo)
  | codeSet (slice : Oct) (page : PageNo)
  | codeClr (slice : Oct) (page : PageNo)
  | codeQuery (page : PageNo) (line : LineNo)
  | codeDone (from_ : Oct) (dst : Oct) (page : PageNo)
  deriving DecidableEq, Repr

/-- A message on its way: what its sender's header names beside the message itself, and the place that it has reached. The stop that injected it keeps it until the destination stop has acknowledged it (08 R232 to R234, R250). -/
structure FabMsg where
  msg : Msg
  /-- SRC. -/
  src : Agent
  /-- The class that HYP, DEV and VMID give. -/
  cls : ClassId := hypClass
  /-- TAG, the transaction that it serves. -/
  tag : BitVec 16 := 0
  /-- SEQ of its stop. -/
  seq : BitVec 8 := 0
  /-- The stop that it has reached, and whether it has crossed the dateline at ST0, so that it stands in the upper buffer set of its class. -/
  place : BitVec 4 := 0
  upper : Bool := false
  deriving DecidableEq, Repr

/-- A fabric link's state (08 R234, 15 R470). -/
structure Link where
  failed : Bool := false
  /-- Failed again within an hour of its re-admission: out until full reset. -/
  out : Bool := false
  /-- Sends over it that have failed since the last good one. -/
  fails : Nat := 0
  readmitted : Nat := 0
  deriving DecidableEq, Repr

/-- What an access that the spine serves waits for: Belvedere's ACK of KINV, MDATA, or the fill of its row (08 R262, R264; 09 R293). -/
inductive SpineWait where
  | kinv | mdata | row
  deriving DecidableEq, Repr

/-- The spine arbiter and the keep region (08 R261 to R265). -/
structure Spine where
  /-- Keep region: base and size; 08 R261; none. -/
  keep : Option (BitVec 48 × Nat) := none
  /-- The last access the active copy recorded in the mirror: line, and the write's data; 08 R262; none. -/
  record : Option (LineNo × Option Line) := none
  /-- Keep-region lines that Belvedere holds, at most 4 MiB of them; 08 R230, R264, 15 R475; none. -/
  blv : SMap Line := []
  /-- Lines of the safety sessions' inbound windows, which Belvedere holds at all times; 11 R369; none. -/
  resident : List LineNo := []
  /-- The access of each line that is being served, keyed by line, and what it waits for; 08 R262, R264; none. -/
  open_ : SMap (Req × SpineWait) := []
  /-- Accesses that wait for those of their line before them, in the order of acceptance; 08 R262; none. -/
  wait : List Req := []
  /-- The active copy has failed and the mirror serves; 08 R265; false. -/
  mirror : Bool := false
  deriving DecidableEq, Repr

/-- DRAM mode (09 R277, R279). -/
inductive MemMode where
  | parity | open_
  deriving DecidableEq, Repr

/-- The DRAM behind the eight controllers (09). -/
structure Dram where
  /-- Raw slot bytes: cell key ((8 r + c) × 64 + i) for byte i of slot (c, r); unlisted cells read 0, the fill of 09 R293. -/
  cells : List Host.Cell := []
  /-- Fitted GiB per channel, 32 or 64; 09 R271; DESIGN CHOICE 64 until the boot image names it. -/
  gib : Nat := 64
  /-- Data rate in MT/s; 09 R271; DESIGN CHOICE 6400 until the boot image names it. -/
  rate : Nat := 6400
  /-- Channel organisation, ORG of the boot image; 09 R271, 18 R534; DESIGN CHOICE 1, two ranks of 16 Gb, until the boot image names it. -/
  org : BitVec 8 := 1
  /-- Memory mode; 09 R279; PARITY. -/
  mode : MemMode := .parity
  /-- A MEM_PARITY_SET has committed since full reset; 09 R279; false. -/
  modeSet : Bool := false
  /-- A lane's MEM_ASSIGN or KEEP_REGION_SET has committed since full reset; 09 R279; false. -/
  assigned : Bool := false
  /-- Mica enabled; 09 R287; false. -/
  mica : Bool := false
  /-- The channel marked lost; 09 R292, R294; none. -/
  lost : Option Oct := none
  /-- Rebuild pointer B of the lost channel; 09 R297; none while it is not being rebuilt. -/
  rebuild : Option Nat := none
  /-- Fill pointer: rows passed; 09 R293; 0. -/
  fill : Nat := 0
  /-- QZ_TIME at which the fill began; 09 R293; 0. -/
  fillAt : Nat := 0
  /-- The controllers' tag caches, keyed by channel: tag lines, the last used first, and whether they are dirty; 09 R286; none. -/
  tagCache : SMap (List (LineNo × Bool)) := []
  /-- Writes gathered per row for the parity controller, keyed by row: line and data; 09 R281; none. -/
  groups : SMap (List (LineNo × Line)) := []
  /-- DRAM devices with recurring corrected errors, as UNIT_STATUS indexes them; 09 R275; none. -/
  failedDevs : List (BitVec 10) := []
  /-- Times of uncorrectable bursts by channel; 09 R294; none. -/
  bursts : List (Oct × Nat) := []
  /-- Times of channel losses by channel; 09 R297; none. -/
  losses : List (Oct × Nat) := []
  /-- Times of retrains by channel; 09 R297; none. -/
  retrains : List (Oct × Nat) := []
  /-- Channels whose loss is due and waits for the end of a Gatehouse restart, or for the next step after a FAULT_POLICY_SET; 15 R468, R478; none. -/
  due : List Oct := []
  /-- Channels left out after a second loss within 24 hours; 09 R297; none. -/
  leftOut : BitVec 8 := 0
  /-- Channels whose device reports above 85 °C in MR4 (refresh doubled); 09 R273; none. -/
  hot : BitVec 8 := 0
  /-- Refreshes issued and drift trackings done; 09 R273, R291; 0. -/
  refreshes : Nat := 0
  drifts : Nat := 0
  /-- Next row to scrub by channel; 09 R276; 0. -/
  scrub : SMap Nat := []
  /-- DRAM is in self-refresh (14 R443, 15 R473); false. -/
  selfRefresh : Bool := false
  deriving DecidableEq, Repr

/-- The fabric and what hangs on it. -/
structure Fabric where
  /-- The eight clusters, keyed by number; 08 R237. -/
  clusters : SMap Cluster := []
  /-- The eight home slices, keyed by number; 08 R242. -/
  homes : SMap Home := []
  /-- Home table HT, keyed by f; an f not listed holds f[2:0], its value at device reset; 08 R242. -/
  ht : SMap Oct := []
  /-- DRAM requests of capped classes that the slices hold until a later epoch, in the order of their arrival; 10 R322; none. -/
  heldReads : List Req := []
  /-- Messages in flight, oldest first, each kept by the stop that injected it; 08 R233 to R235; none. -/
  net : List FabMsg := []
  /-- Next SEQ by stop, and next TAG by agent; 08 R233; 0. -/
  seqs : SMap (BitVec 8) := []
  tags : SMap (BitVec 16) := []
  /-- SEQs that a destination stop has taken, newest first, at most 128, keyed by 16 times the source stop plus the destination; 08 R234; none. -/
  heard : SMap (List (BitVec 8)) := []
  /-- By stop, the message delivered last of those it injected, whose copy it keeps until the acknowledgement is in; 08 R234; none. -/
  kept : SMap FabMsg := []
  /-- Requests refused by NACK, and whether the NACK carried a reservation token; 08 R258; none. -/
  retryq : List (Req × Bool) := []
  /-- Links 0 to 15 of the ring and 16 to 23 of the diameters; 08 R234, 15 R481. -/
  links : SMap Link := []
  /-- Messages sent again by stop; 08 R234, 17 R515; 0. -/
  resends : SMap Nat := []
  spine : Spine := {}
  /-- Old values of uncached accesses returned to agents outside the cores, newest first: agent, line, value; 08 R269; none. -/
  answers : List (Agent × LineNo × W64) := []
  deriving DecidableEq, Repr

end Sys2Proof.Machine
end

