-- ==== Sys2Proof/Machine/PavState.lean ====
section
/-! DEFINITION. The state of a pavilion, of its QoS budgets and of the routes of virtual interrupts. -/

namespace Sys2Proof.Machine

/-- Pavilion states (10 R299). -/
inductive PavSt where
  | none | defined | running | stopped | resetting
  deriving DecidableEq, Repr

/-- A pavilion reset that waits: for the hypervisor at step 1, for stores at step 2, for its sessions and functions at step 3 (10 R325). -/
structure PavWait where
  /-- Lane to answer; none for a reset of 15 R463. -/
  lane : Option LaneNo
  tag : BitVec 16
  /-- Step of 10 R325 reached: 1 to 3. -/
  step : Nat
  /-- Posts and pending bits discarded so far. -/
  count : Nat
  /-- A function without FLR capability was met (10 R331). -/
  noFlr : Bool
  deriving DecidableEq, Repr

/-- One pavilion (10 R299 to R313). -/
structure Pavilion where
  /-- State; 10 R299; NONE. -/
  st : PavSt := .none
  /-- PAV_CTL in force, 16 bits; 10 R303; 0 until PAV_CREATE. -/
  ctl : BitVec 16 := 0
  /-- CSTYLE held for the next pavilion reset; 02 R38; 0. -/
  heldStyle : Bool := false
  /-- Stage-2 L0 table; 07 R199; 0. -/
  vtb : BitVec 48 := 0
  /-- NVCPU; 10 R301; 0. -/
  nvcpu : Nat := 0
  /-- NIRQ; 10 R301; 0. -/
  nirq : Nat := 0
  /-- PIT_PA; 10 R311; 0. -/
  pit : BitVec 48 := 0
  /-- PAV_COUNTS: DISCARDED, DEFERRED, MEM_OVER, ARB_OVER, 32 bits each; 10 R318; 0. -/
  discarded : BitVec 32 := 0
  deferred : BitVec 32 := 0
  memOver : BitVec 32 := 0
  arbOver : BitVec 32 := 0
  /-- Pavilion reset under way; 10 R325; none. -/
  wait : Option PavWait := Option.none
  /-- Lanes whose PAV_STOP waits for step 1; 10 R328; none. -/
  stops : List LaneNo := []
  /-- A post has been deferred in this epoch; 10 R322; false. -/
  deferring : Bool := false
  deriving DecidableEq, Repr

/-- The budgets and charges of one allocation class (10, section "QoS budgets"). -/
structure Qos where
  /-- Memory BUDGET in lines per epoch, and CAP; 10 R322; 0, 0. -/
  mem : Nat := 0
  cap : Bool := false
  /-- Memory charge of the epoch; 10 R322; 0. -/
  memUsed : Nat := 0
  /-- Way mask, 16 bits; 08 R240; 0xFFFF. -/
  ways : BitVec 16 := 0xFFFF
  /-- Arbor tenure BUDGET in 125 ns units, and PRIO; 10 R322; 0, 3. -/
  arb : Nat := 0
  prio : BitVec 2 := 3
  /-- Tenure charge of the window; 10 R322; 0. -/
  arbUsed : Nat := 0
  /-- Posts per epoch, 0 = no limit; 10 R322; 0. -/
  rate : Nat := 0
  /-- Posts of the epoch; 10 R322; 0. -/
  rateUsed : Nat := 0
  deriving DecidableEq, Repr

/-- A binding of a source to a virtual or physical interrupt (13 R420). -/
structure Route where
  src : BitVec 64
  /-- HYP: the target is physical interrupt 0x2000 + id at virtual core `vc`. -/
  hyp : Bool
  pav : Pav
  id : BitVec 11
  vc : BitVec 16
  deriving DecidableEq, Repr

/-- A DRAM range recorded by MEM_ASSIGN (13 R422). -/
structure Range where
  owner : ClassId
  base : Nat
  len : Nat
  deriving DecidableEq, Repr

end Sys2Proof.Machine
end

