-- ==== Sys2Proof/Machine/GateState.lean ====
section
/-! DEFINITION. The state of the Gatehouse: lanes, slates, the log, the fault policy, the boot flash, the folly table. -/

namespace Sys2Proof.Machine

/-- A 256-byte packet; byte i is bits [8i+7:8i] (13 R413). -/
abbrev Packet := BitVec 2048

/-- One command lane (13 R402 to R412). -/
structure Lane where
  /-- LN_RIGHTS, 13 bits; 13 R403; as the boot image's lane table, 0 before COLD sets it. -/
  rights : BitVec 13 := 0
  /-- RING_EN, POST_EN, RING_ERR; 13 R405; 0. -/
  ringEn : Bool := false
  postEn : Bool := false
  ringErr : Bool := false
  /-- CR_BASE, RR_BASE; 13 R405; 0. -/
  crBase : W64 := 0
  rrBase : W64 := 0
  /-- SIZE k; 13 R405; 2. -/
  size : BitVec 4 := 2
  /-- CR_TAIL, CR_HEAD, RR_TAIL, RR_HEAD; 13 R405; 0. -/
  crTail : W32 := 0
  crHead : W32 := 0
  rrTail : W32 := 0
  rrHead : W32 := 0
  /-- MB_CMD, 256 bytes; 13 R410; 0. -/
  mbCmd : Packet := 0
  /-- MB_RPL, 256 bytes; 13 R410; 0. -/
  mbRpl : Packet := 0
  /-- MB_STAT BUSY, READY, OVERRUN; 13 R410; 1, 0, 0. -/
  busy : Bool := true
  ready : Bool := false
  overrun : Bool := false
  /-- A doorbell held during a Gatehouse restart; 13 R430; false. -/
  held : Bool := false
  /-- The command presented and not yet answered, and whether it came from the ring; 13 R404; none. -/
  cur : Option Packet := none
  curRing : Bool := false
  /-- The command has begun and waits (PAV_RESET, SESSION_RESET, REST_ENTER, SLATE_COMMIT); 13 R404; false. -/
  begun : Bool := false
  /-- The reply of a command that has completed while the Gatehouse restarts, and whether it is kept for R429: it is written when the Gatehouse resumes; 13 R430; none. -/
  owed : Option (Packet × Bool) := none
  /-- Packets and replies of the 64 commands completed last, newest first; 13 R429; none. -/
  recent : List (Packet × Packet) := []
  deriving DecidableEq, Repr

/-- Objects that a commit changes (13 R426). -/
inductive Obj where
  | pav (p : Pav) | vcpu (p : Pav) (v : Nat) | gran (n : Nat) | memMode | keep | mica | arbPort
  | ses (s : Ses) | win (s : Ses) (kind : Nat) (i : Nat) | qos (kind : Nat) (c : ClassId)
  | irq (p : Pav) (i : Nat) | irqHyp (i : Nat) | src (s : BitVec 64) | policy (item : Nat)
  | folly (i : Nat) | disc | timer (n : Nat) | pciePort (p : Nat) | fn (port link f : Nat)
  | trace | uncore (u : Nat)
  deriving DecidableEq, Repr

/-- A staged command: its packet, the change count when it was staged, and the folly image read at staging (06 R189, 13 R424). -/
structure Staged where
  pkt : Packet
  seq : Nat
  /-- Bytes of the folly image, empty for other commands. -/
  image : List Byte
  deriving DecidableEq, Repr

/-- An open slate (13 R423). -/
structure Slate where
  lane : LaneNo
  /-- Staged commands in staged order; 13 R424. -/
  cmds : List Staged
  /-- IDLE in seconds. -/
  idle : Nat
  /-- QZ_TIME of SLATE_BEGIN and of the last command to the slate. -/
  begun : Nat
  last : Nat
  /-- Armed instant T; none while open. -/
  armed : Option Nat
  /-- Lane's commit tag for the reply. -/
  tag : BitVec 16
  deriving DecidableEq, Repr

/-- A log record (15 R479). -/
structure LogRec where
  seq : BitVec 64
  time : Nat
  boot : BitVec 16
  cls : BitVec 8
  action : BitVec 8
  ukind : BitVec 8
  uindex : BitVec 16
  stall : BitVec 32
  vc : BitVec 16
  owner : ClassId
  addr : W64
  detail : BitVec 32
  count : BitVec 16
  flags : BitVec 8
  deriving DecidableEq, Repr

/-- Boot flash (18 R533, R534). A full reset keeps it. -/
structure Flash where
  /-- ACTIVE: false slot A, true slot B; 18 flash layout; board input, DESIGN CHOICE slot A. -/
  active : Bool := false
  /-- BOOT_COUNT, 32 bits; 18 flash layout; board input, DESIGN CHOICE 0. -/
  bootCount : BitVec 32 := 0
  /-- Retired-unit list, bit pc; 18 flash layout; board input, DESIGN CHOICE none. -/
  retired : BitVec 72 := 0
  /-- Cores to remove from the list at the next full reset (RETIRED_CLEAR); 15 R478; none. -/
  clear : BitVec 72 := 0
  /-- Log ring, oldest first; 18 flash layout; board input, DESIGN CHOICE empty. -/
  logs : List LogRec := []
  /-- Bytes of slots A and B by offset; 18 R534; board input, DESIGN CHOICE blank: an unlisted byte is 0. -/
  slotA : SMap Byte := []
  slotB : SMap Byte := []
  deriving DecidableEq, Repr

/-- The fields of a slot header that the device uses (18 R534). -/
structure SlotHdr where
  debug : Bool
  fwVersion : BitVec 32
  hvOff : Nat
  hvLen : Nat
  safeLen : Nat
  rate : Nat
  org : BitVec 8
  vddSet : Nat
  /-- Lane table, 2 bytes a lane. -/
  lanes : BitVec 1024
  loadPa : Nat
  entry : W64
  range : Nat
  safeStatic : BitVec 16
  pfBarK : Nat
  vfBarK : Nat
  pciId : BitVec 32
  deriving DecidableEq, Repr

/-- An index of the folly table (06 R168, R188). -/
structure FollyEntry where
  /-- The committed image, bytes from offset 0; 06 R194. -/
  image : List Byte
  hyp : Bool
  grant : BitVec 256
  /-- The bank in force; 06 R190. -/
  bank : Bool
  deriving DecidableEq, Repr

/-- The Gatehouse (13, 15). -/
structure Gate where
  /-- The 64 lanes, keyed by number; 13 R402. -/
  lanes : SMap Lane := []
  /-- Open slates, keyed by id; 13 R423; none. -/
  slates : SMap Slate := []
  /-- The slate id issued last; 13 R423; 0. -/
  lastSlate : Nat := 0
  /-- Commits made, counted for the conflict rule; 13 R426; 0. -/
  seq : Nat := 0
  /-- Objects changed with the count of their last change; 13 R426; none. -/
  changes : List (Obj × Nat) := []
  /-- Bindings of sources, at most 65,536; 13 R420; none. -/
  routes : List Route := []
  /-- Assigned DRAM ranges, at most 8,192; 13 R422; none. -/
  ranges : List Range := []
  /-- FAULT_POLICY_SET values that differ from the default, keyed by ITEM; 15 R478; defaults. -/
  policy : SMap W64 := []
  /-- Log records held, oldest first, at most 4,096; 15 R479; none. -/
  log : List LogRec := []
  /-- SEQ of the next record; 15 R479; 0. -/
  nextSeq : BitVec 64 := 0
  /-- Folly table: loaded indices 0 to 15; 06 R168; unloaded. -/
  folly : SMap FollyEntry := []
  /-- Images in the two banks of each index, keyed 2 × index + bank; every core's course store holds the same; 06 R168, R190; empty. -/
  banks : SMap (List Byte) := []
  /-- DEVICE_RESET accepted: no further command is taken; the log has been written at this QZ_TIME; 13 R418; none. -/
  resetAt : Option Nat := none
  /-- A live activation or a restart is under way; 13 R430; false. -/
  restart : Bool := false
  /-- Times of mismatches; 15 R467; none. -/
  mismatches : List Nat := []
  /-- BLV-A serves lane 0 in place of the Gatehouse; 15 R467; false. -/
  byBlv : Bool := false
  /-- REST_ENTER accepted: lane, tag, WAKE and the QZ_TIME of acceptance; 14 R443; none. -/
  restReq : Option (LaneNo × BitVec 16 × BitVec 7 × Nat) := none
  /-- VOLTAGE_SET whose rail has not settled: lane and tag; 13 R418; none. -/
  voltReq : Option (LaneNo × BitVec 16) := none
  /-- MODE_SET(SERVICE) that waits for the copy: lane and tag; 14 R441; none. -/
  modeReq : Option (LaneNo × BitVec 16) := none
  deriving DecidableEq, Repr

end Sys2Proof.Machine
end

