-- ==== Sys2Proof/Machine/UnitState.lean ====
section
/-! DEFINITION. The state of the other units: Quartz and the timers, the uncore counters and the trace funnel, PCI Express, the management transports, the test port, the sensors, the pins and rails, Belvedere, the physical cores, the device mode. -/

namespace Sys2Proof.Machine

/-- Quartz (16). -/
structure Quartz where
  /-- QZ_TIME in ns, 64 bits; 16 R482; 0. -/
  time : Nat := 0
  /-- The Quartz oscillator's own count, which the step of R487 does not move; 16 R488; 0. -/
  osc : Nat := 0
  /-- LOCKED; 16 R482; 0. -/
  locked : Bool := false
  /-- DISC, HOLDOVER, STEPPED; 16 R487, R491; 0. -/
  disc : Bool := false
  holdover : Bool := false
  stepped : Bool := false
  /-- Committed MODE, EDGE, PPS_OUT; 16 R486; 0. -/
  mode : Bool := false
  edge : Bool := false
  ppsOut : Bool := false
  /-- QZ_OFFSET, signed 32 bits; 16 R486; 0. -/
  offset : BitVec 32 := 0
  /-- QZ_PPS_LAST; 16 R489; 0. -/
  ppsLast : W64 := 0
  /-- QZ_PPS_ERR, signed 32 bits; 16 R489; 0. -/
  ppsErr : BitVec 32 := 0
  /-- QZ_RATE, signed, parts per 10^12; 16 R487; 0. -/
  rate : BitVec 32 := 0
  /-- QZ_PPS_IGNORED, 32 bits; 16 R489; 0. -/
  ignored : BitVec 32 := 0
  /-- QZ_STEP; 16 R487; 0. -/
  step : BitVec 32 := 0
  /-- An edge has been accepted since MODE became 1; 16 R489; false. -/
  accepted : Bool := false
  /-- QZ_TIME of the last accepted edge or of the change of MODE; 16 R491; 0. -/
  lastEdge : Nat := 0
  /-- Last candidate and the candidates in succession; 16 R490; none. -/
  cand : Option (Nat × Nat) := none
  /-- QZ_PPS_OUT is high, and since when; 16 R492; low. -/
  ppsHigh : Option Nat := none
  deriving DecidableEq, Repr

/-- A timer channel (16). -/
structure Timer where
  /-- OWNER; 16 R494; unowned. -/
  owner : ClassId := noClass
  /-- LINKED; 16 R494; 0. -/
  linked : Bool := false
  /-- COUNT, 32 bits; 16; 0. -/
  cnt : W32 := 0
  /-- CMP in force, 32 bits; 16; 0xFFFF_FFFF. -/
  cmp : W32 := 0xFFFFFFFF
  /-- PRE, 32 bits; 16; 0xFFFF_FFFF. -/
  pre : W32 := 0xFFFFFFFF
  /-- TMR_CTL [17:0]: EN PRE_EN MODE CLKSRC PRESCALE GPOL GSRC EVT_EN; 16; 0. -/
  ctl : BitVec 18 := 0
  /-- CMP_HIT, WRAP, PRE_PEND; 16; 0. -/
  hit : Bool := false
  wrap : Bool := false
  prePend : Bool := false
  deriving DecidableEq, Repr

/-- An uncore unit's counters (17 R515). -/
structure Uncore where
  /-- UC_CNT0 to 3, 64 bits each; 17 R515; 0. -/
  cnt : SMap W64 := []
  /-- UC_OVF, 4 bits; 17 R515; 0. -/
  ovf : BitVec 4 := 0
  /-- EVT, FLT and CLASS of counter j; 17 R515; 0. -/
  evt : SMap (BitVec 8) := []
  flt : SMap ClassId := []
  deriving DecidableEq, Repr

/-- The trace funnel (17 R522 to R525). -/
structure Funnel where
  /-- TRACE_CONFIG: EN, SINK, RING_K, FULL, TSK, SYNCK, RATE, BASE, CLASS; 17 R522; 0. -/
  on : Bool := false
  pcie : Bool := false
  ringK : Nat := 0
  full : Bool := false
  tsk : Nat := 0
  synck : Nat := 0
  rate : Nat := 0
  base : Nat := 0
  classes : BitVec 128 := 0
  /-- Buffer contents, oldest first; 17 R524; empty. -/
  buf : List Byte := []
  /-- Stopping: draining after EN became 0; 17 R522; false. -/
  draining : Bool := false
  /-- A flush must pad and write the partial line; 17 TF_FLUSH; false. -/
  flush : Bool := false
  /-- DRAINED; 17; 1. -/
  drained : Bool := true
  /-- STOPPED; 17; 0. -/
  stopped : Bool := false
  /-- TF_WPTR, TF_RPTR; 17; 0. -/
  wptr : W64 := 0
  rptr : W64 := 0
  /-- TF_DROP0 to 3, 32 bits each; 17; 0. -/
  drop : SMap W32 := []
  /-- Lines written in the epoch; 17 R523; 0. -/
  used : Nat := 0
  /-- Encoder output buffers: packets on their way, by source and class; 17 R524; empty. -/
  out : List (BitVec 7 × List Byte) := []
  deriving DecidableEq, Repr

/-- A PCI Express function (10 R330, 18). -/
structure PcieFn where
  /-- Owner; 13 R421; unowned. -/
  owner : ClassId := noClass
  /-- FLR under way, with the lane and tag to answer; 10 R331; none. -/
  flr : Option (Option LaneNo × BitVec 16) := none
  /-- Bus Master Enable; 10 R331; 0. -/
  bme : Bool := false
  /-- MSI-X Enable and Function Mask; 18 R531; 0, 0. -/
  msixEn : Bool := false
  fmask : Bool := false
  /-- Vector masks; 18 R531; PRESUMED all ones (PCI Express). -/
  masks : BitVec 32 := 0xFFFFFFFF
  /-- Pending bits; 18 R531; 0. -/
  pend : BitVec 32 := 0
  /-- MSI-X table: address and data by vector; 18 R531; 0. -/
  table : SMap (W64 × W32) := []
  /-- Other configuration registers by dword number, as the host wrote them; 18 R527; 0. -/
  cfg : SMap W32 := []
  deriving DecidableEq, Repr

/-- An outbound non-posted PCI Express request (18 R529). -/
structure PcieReq where
  /-- The virtual core that waits for it. -/
  vc : Option Vc
  /-- Kind: a configuration request or a memory request; it returns a value (a read or an AtomicOp). -/
  config : Bool
  reads : Bool
  addr : W64
  size : Nat
  cls : ClassId
  /-- The function that issued it or to which it goes. -/
  fn : Nat
  /-- QZ_TIME at which it was sent. -/
  at_ : Nat
  /-- Operation of an AtomicOp; none: a read or a write (03 R88). -/
  op : Option (BitVec 4) := none
  /-- Operand of an AtomicOp or data of a configuration write, and compare value of CAS. -/
  data : W64 := 0
  cmpv : W64 := 0
  /-- Its completion will be discarded: its function has been reset (10 R331). -/
  dead : Bool := false
  deriving DecidableEq, Repr

/-- Status of a completion: successful, Unsupported Request, completer abort (18 R530). -/
inductive Cpl where
  | sc | ur | ca
  deriving DecidableEq, Repr

/-- A posted request in a port's receive order (05 R164). -/
structure PcieRx where
  cls : ClassId
  data : Line
  /-- Its parts still to be written: address, offset in the data, bytes. -/
  parts : List (Nat × Nat × Nat)
  /-- An interrupt message: its function and its data. -/
  msi : Option (Nat × BitVec 16)
  deriving DecidableEq, Repr

/-- An inbound request that REST holds: a posted write, a read, an AtomicOp, an interrupt message, or a completion (14 R445; 18 R530, R531). -/
inductive PcieHeld where
  | write (fn : BitVec 16) (addr : W64) (size : Nat) (data : Line) (poisoned : Bool)
  | read (fn : BitVec 16) (addr : W64) (size : Nat)
  | atomic (fn : BitVec 16) (addr : W64) (size : Nat) (op : BitVec 4) (opnd cmpv : W64)
  | msi (fn data : BitVec 16)
  | completion (ok : Bool) (data : W64)
  deriving DecidableEq, Repr

/-- One PCI Express link (18 R527 to R532). -/
structure PcieLink where
  /-- UP, SPEED, WIDTH, ROLE; 18; 0. -/
  up : Bool := false
  speed : BitVec 3 := 0
  width : BitVec 5 := 0
  endpoint : Bool := false
  /-- The link exists under the committed bifurcation; 18 R527; false. -/
  present : Bool := false
  /-- NUM_VF; 18 R527; 0. -/
  numVf : Nat := 0
  /-- CORR, POSTED, MSI_DROP; 18; 0. -/
  corr : BitVec 16 := 0
  posted : BitVec 8 := 0
  msiDrop : BitVec 8 := 0
  /-- MSI_ADDR; 18; 0xFEE0_0000. -/
  msiAddr : W64 := 0xFEE00000
  /-- PF_BASE; 18; 0. -/
  pfBase : W64 := 0
  /-- VF_IPA by virtual function; 18; 0. -/
  vfIpa : SMap W64 := []
  /-- PCIE_PERST_N driven low by the device; 18 R532, 19 R551; true. -/
  perstOut : Bool := true
  /-- PCIE_PERST_N of an endpoint link asserted by the host; 18 R532; false. -/
  perstIn : Bool := false
  /-- QZ_TIME of the PCIE_ROLE_SET commit; 18 R532; 0. -/
  roleAt : Nat := 0
  /-- Outbound non-posted requests, oldest first; 18 R529; none. -/
  reqs : List PcieReq := []
  /-- Posted requests and messages sent, newest first: address, data bytes, size; 18 R531; none. -/
  sent : List (W64 × Line × Nat) := []
  /-- Posted requests that have arrived and wait, oldest first; 05 R164; none. -/
  rx : List PcieRx := []
  /-- Completions sent, newest first: function, data, status; 18 R530; none. -/
  cpls : List (Nat × Line × Cpl) := []
  /-- Width was reduced by a lane failure, and the full width at which the link trained; 15 R470; false, 0. -/
  reduced : Bool := false
  full : BitVec 5 := 0
  /-- Inbound requests that have arrived in REST, oldest first, taken up after the wake; 14 R445; none. -/
  heldIn : List PcieHeld := []
  deriving DecidableEq, Repr

/-- One PCI Express port (18 R526). -/
structure PciePort where
  /-- BIFUR, and that PCIE_ROLE_SET has committed; 18 R527; 0, false. -/
  bifur : BitVec 2 := 0
  roleSet : Bool := false
  links : SMap PcieLink := []
  /-- Functions keyed by link × 2^16 + function number; 13 R421; unowned. -/
  fns : SMap PcieFn := []
  /-- Inbound stage-2 translations cached; 07 R213; empty. -/
  itlb : List TlbEntry := []
  deriving DecidableEq, Repr

/-- The board manager's transports (18 R536 to R538). -/
structure Mgmt where
  /-- MGMT_ADDR[1:0] sampled at PORST_N release; 18 R536; 0. -/
  strap : BitVec 2 := 0
  /-- Dynamic I3C address; 18 R536; none. -/
  dyn : Option (BitVec 7) := none
  /-- In-band interrupts enabled by ENEC; 18 R538; false. -/
  enec : Bool := false
  /-- An IBI with data byte 0x01 is raised; 18 R538; false. -/
  ibi : Bool := false
  /-- MGMT_ALERT_N driven low; 18 R538; released. -/
  alert : Bool := false
  /-- Words returned by the last transfer; 18 R537; none. -/
  out : List W32 := []
  deriving DecidableEq, Repr

/-- The test port (18 R539). -/
structure Jtag where
  /-- Instruction register, 8 bits; 18 R539; IDCODE. -/
  ir : BitVec 8 := 0x01
  /-- Instruction acting, BYPASS where the loaded one is refused; 18 R539; IDCODE. -/
  act : BitVec 8 := 0x01
  /-- Data captured or returned; 18 R539; DESIGN CHOICE 0. -/
  dr : BitVec 640 := 0
  /-- The channel and row of a DBG_MEM access that waits for the fill; 09 R293; none. -/
  want : Option (Oct × Nat) := none
  /-- Boundary chain as preloaded, by cell; 18 R539; DESIGN CHOICE 0. -/
  chain : SMap Bool := []
  /-- The boundary chain controls the balls; 18 R539; false. -/
  drives : Bool := false
  /-- The balls are released by HIGHZ; 18 R539; false. -/
  highz : Bool := false
  deriving DecidableEq, Repr

/-- The junction sensors (19 R563). -/
structure Thermal where
  /-- TJ_SENSOR0 to 19 that have reported, signed 0.125 °C; 19 R563; none. -/
  temp : SMap (BitVec 16) := []
  /-- PEAK and NEW; 19 R563; 0. -/
  peak : Option (BitVec 16) := none
  /-- ALERT: THERM_ALERT_N asserted; 19 R561; 0. -/
  alert : Bool := false
  /-- THERMTRIP_N driven low and every island stopped; 19 R562; false. -/
  trip : Bool := false
  deriving DecidableEq, Repr

/-- State of a redundant unit for UNIT_STATUS (15 R481). -/
structure UnitStat where
  /-- 0 in service, 1 corrected errors, 2 removed, 3 being re-admitted, 4 spare, 5 fused. -/
  state : BitVec 8 := 0
  lastClass : BitVec 8 := 0
  corrected : BitVec 32 := 0
  lastTime : Nat := 0
  deriving DecidableEq, Repr

/-- The ordering codes (00 R1). -/
inductive Part where
  | t6472i | t6472c | t6440i
  deriving DecidableEq, Repr

/-- The physical cores and the vc→pc map (00 R5, 15 R569). -/
structure CoreMap where
  /-- Ordering code; 00 R1; DESIGN CHOICE TVX6472-I. -/
  part : Part := .t6472i
  /-- Fuse record: cores fused off, bit pc; 00 R5; none on the TVX6472. -/
  fused : BitVec 72 := 0
  /-- Cores retired, bit pc; 15 R459; none. -/
  retired : BitVec 72 := 0
  /-- vc→pc map, keyed by vc; 15 R569; none before COLD step 4. -/
  map : SMap (BitVec 7) := []
  /-- Idle spares, ascending; 15 R569; none before COLD step 4. -/
  spares : List (BitVec 7) := []
  deriving DecidableEq, Repr

/-- Operating modes (01 R24). -/
inductive Mode where
  | cold | assembly | service | repair | rest | belvedere
  deriving DecidableEq, Repr

/-- Belvedere (15 R467 to R477). -/
structure Belvedere where
  /-- BLV-A and BLV-B retired; 15 R467; false. -/
  deadA : Bool := false
  deadB : Bool := false
  /-- Times of mismatches of each pair; 15 R467; none. -/
  misA : List Nat := []
  misB : List Nat := []
  /-- The safety image is loaded and runs; 14 R437; false. -/
  image : Bool := false
  /-- Safety-image memory: the bytes of the image, by offset, an unlisted byte 0; 08 R230, 14 R437, 15 R475; empty. -/
  mem : SMap Byte := []
  /-- Posts of safety sessions' interrupt-map entries to the safety image in BELVEDERE, oldest first; 11 R370, 15 R474; none. -/
  posts : List (BitVec 64) := []
  /-- SAFE[15:0] as the safety image drives them in SERVICE; 15 R477; 0. -/
  safe : BitVec 16 := 0
  /-- The armed levels it keeps in the port block; 15 R477; 0. -/
  armed : BitVec 16 := 0
  /-- The static levels; 15 R477; 0. -/
  static : BitVec 16 := 0
  deriving DecidableEq, Repr

/-- Balls, rails and the device's operating state (14, 19). -/
structure Device where
  /-- Operating mode; 01 R24; COLD. -/
  mode : Mode := .cold
  /-- PORST_N is low; 14 R434; true. -/
  porst : Bool := true
  /-- Rails in range, bit order of the rail table of 19 R552 (VDD_CORE bit 0 to VDD_IO18 bit 8); 19 R554; DESIGN CHOICE all in range. -/
  rails : BitVec 9 := 0x1FF
  /-- REFCLK within its limits; 18 R540; DESIGN CHOICE true. -/
  refclk : Bool := true
  /-- COLD has begun and not ended; 14 R437; false. -/
  coldRun : Bool := false
  /-- What COLD observes, for the steps that wait for the PLL, and for a COLD that a mismatch restarts; 14 R437, R439; none. -/
  boot : Option BootObs := none
  /-- COLD is held: no image authenticates, or a second mismatch; 14 R438, R439; false. -/
  coldHeld : Bool := false
  /-- A mismatch has restarted COLD once; 14 R439; false. -/
  coldRetry : Bool := false
  /-- Fault class that makes COLD end in BELVEDERE; 14 R432; none. -/
  coldFault : Option (BitVec 8) := none
  /-- Channel and header offset of the field that the memory configuration breaks; 09 R272; none. -/
  coldMem : Option (Oct × Nat) := none
  /-- Booted slot and its header; 14 R438; none. -/
  slot : Bool := false
  hdr : Option SlotHdr := none
  /-- FW_VERSION of the Gatehouse firmware that runs; 13 DEVICE_INFO; 0. -/
  fwVersion : BitVec 32 := 0
  /-- The hypervisor copy has ended, and its check has failed; 14 R440; false. -/
  hvDone : Bool := false
  hvBad : Bool := false
  /-- CORE_VID code and the code requested; 19 R553; 30. -/
  vid : BitVec 6 := 30
  vidReq : BitVec 6 := 30
  /-- VDD_CORE setpoint code for SERVICE and ASSEMBLY; 19 R553; 30. -/
  vidSet : BitVec 6 := 30
  /-- QZ_TIME of the last CORE_VID step; 19 R553; 0. -/
  vidAt : Nat := 0
  /-- SAFE[15:0] at the balls; none is not driven; 15 R477; low. -/
  safeOut : Option (BitVec 16) := some 0
  /-- WAKE of the REST in force; 14 R445; 0. -/
  wake : BitVec 7 := 0
  /-- Sources whose posts are held until wake; 14 R445; none. -/
  held : List (BitVec 64) := []
  /-- DRAM reset_n driven low, xSPI released, PCIe transmitters idle; 14 R435; true. -/
  idle : Bool := true
  /-- Every island on VDD_CORE is stopped; 15 R473; false. -/
  stopped : Bool := false
  /-- TG[7:0] and QZ_PPS_IN levels at the balls; 16 R496; 0. -/
  tg : BitVec 8 := 0
  ppsIn : Bool := false
  /-- Units' status for UNIT_STATUS, keyed by kind × 2^16 + index; 15 R481; in service. -/
  units : SMap UnitStat := []
  /-- Belvedere; 15 R467. -/
  blv : Belvedere := {}
  deriving DecidableEq, Repr

end Sys2Proof.Machine
end

