-- ==== Sys2Proof/Machine/State.lean ====
section
/-! DEFINITION. The state of the device, the reasons a step may stop, and the state after reset. -/

namespace Sys2Proof.Machine

/-- Why a command ends the run. -/
inductive Fault where
  /-- No command of this model raises it: every row of the table has an effect in the spec, and an event that cannot take place in the state leaves the state as it is (log entry 2). Safe. -/
  | noEffect
  deriving DecidableEq, Repr

/-- Why a command is turned away. -/
inductive Refusal where
  /-- A command without a meaning, by its mnemonic; raised by Dispatch alone. Safe. -/
  | notModelled (mnemonic : String)
  deriving DecidableEq, Repr

/-- The device. -/
structure State where
  /-- Physical cores and the vc→pc map (00 R5, 15 R569). -/
  cmap : CoreMap := {}
  /-- Quartz (16). -/
  qz : Quartz := {}
  /-- The virtual cores, keyed by number; a core not listed holds its reset state (02). -/
  cores : SMap Core := []
  /-- The fabric with the clusters, the home slices and the spine (08). -/
  fab : Fabric := {}
  /-- The DRAM (09). -/
  dram : Dram := {}
  /-- The 256 pavilions, keyed by number; one not listed is NONE (10). -/
  pavs : SMap Pavilion := []
  /-- QoS budgets, keyed by allocation class (10 R322). -/
  qos : SMap Qos := []
  /-- Arbor (11, 12). -/
  arb : Arbor := {}
  /-- The Gatehouse (13). -/
  gate : Gate := {}
  /-- Boot flash (18 R533). -/
  flash : Flash := {}
  /-- The 32 timer channels, keyed by number (16). -/
  timers : SMap Timer := []
  /-- The uncore units' counters, keyed by unit (17 R515). -/
  uncore : SMap Uncore := []
  /-- The trace funnel (17 R522). -/
  funnel : Funnel := {}
  /-- The two PCI Express ports, keyed by number (18 R526). -/
  ports : SMap PciePort := []
  /-- The board manager's transports (18 R536). -/
  mgmt : Mgmt := {}
  /-- The test port (18 R539). -/
  jtag : Jtag := {}
  /-- The junction sensors (19 R563). -/
  therm : Thermal := {}
  /-- Modes, rails and balls (14, 15, 19). -/
  dev : Device := {}
  /-- The model's own field: the value that the last read command returned to its reader; DESIGN CHOICE 0. -/
  out : W64 := 0
  /-- The model's own field: how many free values have been taken; DESIGN CHOICE 0. -/
  fresh : Nat := 0
  /-- The commands that wait, first in first out. -/
  pending : List Instr := []
  deriving DecidableEq, Repr

/-- The device in full reset: PORST_N low, mode COLD, every register at its reset value, nothing waiting (14 R434, R435, R451). -/
def State.reset : State := {}

/-- A command's outcome (Host.Core). -/
abbrev Out := Host.Outcome State Fault Refusal

end Sys2Proof.Machine
end

