-- ==== Sys2Proof/Machine/Operands.lean ====
section
/-! DEFINITION. The operand forms: registers, immediates, branch targets, canonical addresses. -/

namespace Sys2Proof.Machine

/-- The stack pointer of the current level, g31 (02 R30). -/
def spRead (a : Arch) : W64 :=
  match a.level with
  | .u => a.spU
  | .s => a.spS
  | .h => a.spH

/-- Writes g31 of the current level (02 R30). -/
def spWrite (a : Arch) (v : W64) : Arch :=
  match a.level with
  | .u => { a with spU := v }
  | .s => { a with spS := v }
  | .h => { a with spH := v }

/-- Reads a g register: g0 is zero, g31 the stack pointer of the current level (02 R30, R31). -/
def gRead (a : Arch) (r : Reg) : W64 :=
  if r = 0#5 then 0 else if r = 31#5 then spRead a else mget a.g r.toNat 0

/-- Writes a g register; a write to g0 is discarded (02 R31). -/
def gWrite (a : Arch) (r : Reg) (v : W64) : Arch :=
  if r = 0#5 then a else if r = 31#5 then spWrite a v else { a with g := mput a.g r.toNat v }

/-- Reads an f register (02 R30). -/
def fRead (a : Arch) (r : Reg) : W64 := mget a.f r.toNat 0

/-- Writes an f register (02 R30). -/
def fWrite (a : Arch) (r : Reg) (v : W64) : Arch := { a with f := mput a.f r.toNat v }

/-- A binary32 operand is bits [31:0] (02 R33). -/
def fRead32 (a : Arch) (r : Reg) : W64 := (fRead a r).setWidth 32 |>.setWidth 64

/-- An operand of the format: binary64 where `dbl` (02 R33). -/
def fpRead (a : Arch) (dbl : Bool) (r : Reg) : W64 := if dbl then fRead a r else fRead32 a r

/-- Sign extension to 64 bits (03 R76). -/
def sext {n : Nat} (v : BitVec n) : W64 := v.signExtend 64

/-- Zero extension to 64 bits (03 R76). -/
def zext {n : Nat} (v : BitVec n) : W64 := v.setWidth 64

/-- The target of a relative transfer: the instruction's address plus the offset times 4 (03 R75). -/
def relTarget {n : Nat} (pc : W64) (off : BitVec n) : W64 := pc + (sext off <<< 2)

/-- PC[63:48] equals PC[47] (02 R32). -/
def canonical (a : W64) : Bool :=
  a.extractLsb' 48 16 == (if a.getLsbD 47 then 0xFFFF#16 else 0#16)

/-- F-style is in force: the pavilion's CSTYLE at U and S, C-style at H (02 R40, 03 R100). -/
def fStyle (level : Level) (ctl : BitVec 16) : Bool := level != .h && ctl.getLsbD 0

/-- The order of the levels: U below S below H (02, section "Privilege levels"). -/
def levelNum : Level → Nat
  | .u => 0
  | .s => 1
  | .h => 2

/-- The code of a level (02, CSTAT.PL). -/
def levelCode (l : Level) : BitVec 2 := BitVec.ofNat 2 (levelNum l)

/-- The level of a code; 0b11 names none (02, ESTAT.PPL). -/
def levelOf (c : BitVec 2) : Option Level :=
  match c.toNat with
  | 0 => some .u
  | 1 => some .s
  | 2 => some .h
  | _ => none

end Sys2Proof.Machine
end

