-- ==== Sys2Proof/Machine/Flags.lean ====
section
/-! DEFINITION. The results of the integer operations and every flag computation on CF (02 R41 to R43, 03 R79 to R83, 04 R103, R104). -/

namespace Sys2Proof.Machine

/-- CF from its four flags: [0] V, [1] C, [2] Z, [3] N (02, CF). -/
def cfMk (n z c v : Bool) : BitVec 4 :=
  BitVec.ofBool n ++ BitVec.ofBool z ++ BitVec.ofBool c ++ BitVec.ofBool v

/-- CF.V (02, CF). -/
def cfV (f : BitVec 4) : Bool := f.getLsbD 0
/-- CF.C (02, CF). -/
def cfC (f : BitVec 4) : Bool := f.getLsbD 1
/-- CF.Z (02, CF). -/
def cfZ (f : BitVec 4) : Bool := f.getLsbD 2
/-- CF.N (02, CF). -/
def cfN (f : BitVec 4) : Bool := f.getLsbD 3

/-- N and Z from a result, C and V as they stood (03 R82, "All other operations"). -/
def cfNZ (r : W64) (old : BitVec 4) : BitVec 4 := cfMk r.msb (r == 0) (cfC old) (cfV old)

/-- Carry out of bit 63 of a sum with carry in (03 R82). -/
def carryOut (a b : W64) (c : Bool) : Bool := decide (2 ^ 64 ≤ a.toNat + b.toNat + c.toNat)

/-- Signed overflow of a sum with carry in (03 R82). -/
def signedOver (a b : W64) (c : Bool) : Bool :=
  let t := a.toInt + b.toInt + (c.toNat : Int)
  decide (t < -(2 ^ 63) ∨ 2 ^ 63 ≤ t)

/-- A sum with carry in. -/
def addC (a b : W64) (c : Bool) : W64 := a + b + (BitVec.ofBool c).setWidth 64

/-- CF after an addition with carry in (03 R82). -/
def cfAdd (a b : W64) (c : Bool) : BitVec 4 :=
  cfMk (addC a b c).msb (addC a b c == 0) (carryOut a b c) (signedOver a b c)

/-- Results of the ALU register forms (03 R79). -/
def aluVal (fn : AluFn) (a b : W64) : W64 :=
  match fn with
  | .add => a + b
  | .sub => a - b
  | .and => a &&& b
  | .or => a ||| b
  | .xor => a ^^^ b
  | .andn => a &&& ~~~ b
  | .slt => if a.slt b then 1 else 0
  | .sltu => if a.ult b then 1 else 0
  | .sll => a <<< (b.toNat % 64)
  | .srl => a >>> (b.toNat % 64)
  | .sra => a.sshiftRight (b.toNat % 64)
  | .ror => a.rotateRight (b.toNat % 64)

/-- The last bit that a left shift by n moves out (03 R82). -/
def outLeft (a : W64) (n : Nat) : Bool := a.getLsbD (64 - n)

/-- The last bit that a right shift by n moves out (03 R82). -/
def outRight (a : W64) (n : Nat) : Bool := a.getLsbD (n - 1)

/-- CF after a shift by n with result r: C keeps its value where the amount is 0 (03 R82). -/
def cfShift (r : W64) (n : Nat) (out : Bool) (old : BitVec 4) : BitVec 4 :=
  cfMk r.msb (r == 0) (if n = 0 then cfC old else out) (cfV old)

/-- CF after an ALU register form with S (03 R82). -/
def aluCf (fn : AluFn) (a b : W64) (old : BitVec 4) : BitVec 4 :=
  let r := aluVal fn a b
  let n := b.toNat % 64
  match fn with
  | .add => cfAdd a b false
  | .sub => cfAdd a (~~~ b) true
  | .sll => cfShift r n (outLeft a n) old
  | .srl => cfShift r n (outRight a n) old
  | .sra => cfShift r n (outRight a n) old
  | .ror => cfShift r n r.msb old
  | .and | .or | .xor | .andn | .slt | .sltu => cfNZ r old

/-- The register form that an immediate shift repeats with the amount fn[5:0] (03 R79). -/
def shAlu : ShFn → AluFn
  | .slli => .sll
  | .srli => .srl
  | .srai => .sra
  | .rori => .ror

/-- Results of the two-operand ALU2 forms; `c` is CF.C (03 R80). -/
def alu2Val (fn : Alu2Fn) (a b : W64) (c : Bool) : W64 :=
  match fn with
  | .adc => addC a b c
  | .sbc => addC a (~~~ b) c
  | .min => if b.slt a then b else a
  | .max => if a.slt b then b else a
  | .minu => if b.ult a then b else a
  | .maxu => if a.ult b then b else a

/-- CF after a two-operand ALU2 form with S (03 R82). -/
def alu2Cf (fn : Alu2Fn) (a b : W64) (old : BitVec 4) : BitVec 4 :=
  match fn with
  | .adc => cfAdd a b (cfC old)
  | .sbc => cfAdd a (~~~ b) (cfC old)
  | .min | .max | .minu | .maxu => cfNZ (alu2Val fn a b (cfC old)) old

/-- The count of one bits among the lowest n bits. -/
def popCount (a : W64) : Nat → Nat
  | 0 => 0
  | n + 1 => popCount a n + (a.getLsbD n).toNat

/-- The count of trailing zero bits, looking at the n lowest bits from bit 64 - n on (03 R80). -/
def ctzFrom (a : W64) : Nat → Nat
  | 0 => 0
  | n + 1 => if a.getLsbD (63 - n) then 0 else 1 + ctzFrom a n

/-- The count of leading zero bits of the n lowest bits (03 R80). -/
def clzFrom (a : W64) : Nat → Nat
  | 0 => 0
  | n + 1 => if a.getLsbD n then 0 else 1 + clzFrom a n

/-- Byte i. -/
def byteOf {n : Nat} (a : BitVec n) (i : Nat) : Byte := a.extractLsb' (8 * i) 8

/-- The eight bytes in reverse order (03 R80). -/
def bswap64 (a : W64) : W64 :=
  byteOf a 0 ++ byteOf a 1 ++ byteOf a 2 ++ byteOf a 3 ++ byteOf a 4 ++ byteOf a 5 ++ byteOf a 6 ++ byteOf a 7

/-- The low four bytes in reverse order, the high half zero (03 R80). -/
def bswap32 (a : W64) : W64 := 0#32 ++ (byteOf a 0 ++ byteOf a 1 ++ byteOf a 2 ++ byteOf a 3)

/-- Results of the single-operand ALU2 forms (03 R80). -/
def unVal (fn : UnFn) (a : W64) : W64 :=
  match fn with
  | .clz => BitVec.ofNat 64 (clzFrom a 64)
  | .ctz => BitVec.ofNat 64 (ctzFrom a 64)
  | .popc => BitVec.ofNat 64 (popCount a 64)
  | .bswap => bswap64 a
  | .bswapw => bswap32 a
  | .sextb => (a.setWidth 8).signExtend 64
  | .sexth => (a.setWidth 16).signExtend 64
  | .sextw => (a.setWidth 32).signExtend 64
  | .zextw => (a.setWidth 32).setWidth 64

/-- The high 64 bits of an exact product. -/
def highHalf (p : Int) : W64 := BitVec.ofInt 64 (p / 2 ^ 64)

/-- Results of the MULDIV group (03 R81, 04 R104). -/
def mdVal (fn : MdFn) (a b : W64) : W64 :=
  match fn with
  | .mul => a * b
  | .mulh => highHalf (a.toInt * b.toInt)
  | .mulhu => highHalf ((a.toNat : Int) * b.toNat)
  | .mulhsu => highHalf (a.toInt * b.toNat)
  | .div => if b = 0 then BitVec.allOnes 64 else BitVec.ofInt 64 (a.toInt.tdiv b.toInt)
  | .divu => if b = 0 then BitVec.allOnes 64 else a.udiv b
  | .rem => if b = 0 then a else BitVec.ofInt 64 (a.toInt.tmod b.toInt)
  | .remu => if b = 0 then a else a.umod b

/-- CF after a MULDIV operation with S (03 R82). -/
def mdCf (fn : MdFn) (a b : W64) (old : BitVec 4) : BitVec 4 :=
  let r := mdVal fn a b
  match fn with
  | .mul =>
    let p := a.toInt * b.toInt
    cfMk r.msb (r == 0) (decide (2 ^ 64 ≤ a.toNat * b.toNat)) (decide (p < -(2 ^ 63) ∨ 2 ^ 63 ≤ p))
  | _ => cfNZ r old

/-- Results of the RI integer operations (03 R83). -/
def riVal (fn : RiFn) (a : W64) (imm : BitVec 16) : W64 :=
  match fn with
  | .addi => a + sext imm
  | .andi => a &&& zext imm
  | .ori => a ||| zext imm
  | .xori => a ^^^ zext imm
  | .slti => if a.slt (sext imm) then 1 else 0
  | .sltui => if a.ult (sext imm) then 1 else 0

/-- ADDPC: PC with bits [11:0] cleared plus imm16 << 12 (03 R83). -/
def addpcVal (pc : W64) (imm : BitVec 16) : W64 := (pc &&& ~~~ 0xFFF#64) + (sext imm <<< 12)

/-- INSH: bits [16h+15:16h] take imm16 (03 R83). -/
def inshVal (a : W64) (h : BitVec 2) (imm : BitVec 16) : W64 :=
  let k := 16 * h.toNat
  (a &&& ~~~ (0xFFFF#64 <<< k)) ||| (zext imm <<< k)

/-- C-style branch conditions (02 R41). -/
def ccHolds (cc : BitVec 3) (a b : W64) : Bool :=
  match cc.toNat with
  | 0 => a == b
  | 1 => a != b
  | 2 => a.slt b
  | 3 => !a.slt b
  | 4 => a.ult b
  | 5 => !a.ult b
  | 6 => a.getLsbD (b.toNat % 64)
  | _ => !a.getLsbD (b.toNat % 64)

/-- The operand of BRI that stands for rb: imm5 sign-extended for the comparisons, zero-extended for the bit tests (03 R89). -/
def briOperand (cc : BitVec 3) (imm : BitVec 5) : W64 := if 6 ≤ cc.toNat then zext imm else sext imm

/-- F-style branch conditions: bit 3 inverts the condition of bits [2:0] (02 R42). -/
def fccHolds (cc : BitVec 4) (f : BitVec 4) : Bool :=
  let base := match cc.toNat % 8 with
    | 0 => cfZ f
    | 1 => cfC f
    | 2 => cfN f
    | 3 => cfV f
    | 4 => cfC f && !cfZ f
    | 5 => cfN f == cfV f
    | 6 => !cfZ f && (cfN f == cfV f)
    | _ => true
  if cc.getLsbD 3 then !base else base

/-- The smaller or larger of the ATOM operands of a size in bytes, and the other operations, on values below 2^(8·size) (03 R86). CAS compares with `cmp`. -/
def atomVal (fn : AtomFn) (size : Nat) (old opnd cmp : W64) : W64 :=
  let m : W64 := BitVec.ofNat 64 (2 ^ (8 * size) - 1)
  let sx (v : W64) : Int := ((v &&& m).toNat : Int) - (if (v &&& m).toNat < 2 ^ (8 * size - 1) then 0 else 2 ^ (8 * size))
  let o := opnd &&& m
  let d := old &&& m
  let r := match fn with
    | .swap => o
    | .add => d + o
    | .and => d &&& o
    | .or => d ||| o
    | .xor => d ^^^ o
    | .min => if sx o < sx d then o else d
    | .max => if sx d < sx o then o else d
    | .minu => if o.toNat < d.toNat then o else d
    | .maxu => if d.toNat < o.toNat then o else d
    | .cas => if d = (cmp &&& m) then o else d
  r &&& m

end Sys2Proof.Machine
end

