-- ==== Sys2Proof/Machine/DramOps.lean ====
section
/-! DEFINITION. The DRAM: cells, slots, Mica, tags, stripe parity, the reads and writes of lines (09). -/

namespace Sys2Proof.Machine

/-- Memory: the byte at a cell key; a cell not listed reads 0, the contents that the fill leaves (09 R293). -/
def cellGet (m : List Host.Cell) (k : Nat) : Byte :=
  match m with
  | [] => 0
  | (i, v) :: t => if i = k then v else cellGet t k

/-- Inserts a byte before the first greater key. -/
def cellInsert (k : Nat) (v : Byte) : List Host.Cell → List Host.Cell
  | [] => [(k, v)]
  | (i, w) :: t => if k < i then (k, v) :: (i, w) :: t else (i, w) :: cellInsert k v t

/-- Writes a byte; writing 0 removes the entry, so that equal memories are equal lists. -/
def cellPut (m : List Host.Cell) (k : Nat) (v : Byte) : List Host.Cell :=
  let rest := m.filter (fun p => p.1 != k)
  if v = 0 then rest else cellInsert k v rest

/-- The canonical form of the memory: addresses strictly rising, no entry equal to 0. -/
def cellsWf : List Host.Cell → Bool
  | [] => true
  | [(_, v)] => v != 0
  | (k, v) :: (k', v') :: t => v != 0 && decide (k < k') && cellsWf ((k', v') :: t)

/-- The memory of the device is in its canonical form. -/
abbrev Dram.wf (d : Dram) : Prop := cellsWf d.cells = true

/-- Slots in a channel: C = capacity / 64 (09, section "Address map and rotation"). -/
def slotsPerChannel (d : Dram) : Nat := d.gib * 2 ^ 24

/-- Fitted DRAM in bytes (09 R271). -/
def fittedBytes (d : Dram) : Nat := d.gib * 2 ^ 33

/-- Top of usable DRAM: 7/8 of the fitted DRAM in PARITY mode, all of it in OPEN mode (01 R23). -/
def usableTop (d : Dram) : Nat :=
  match d.mode with
  | .parity => fittedBytes d / 8 * 7
  | .open_ => fittedBytes d

/-- TBASE: the base of the Mica tag region (01 R23, 09 R285). -/
def tagBase (d : Dram) : Nat := usableTop d - fittedBytes d / 512

/-- Usable DRAM below the Mica tag region (07, in_dram). -/
def inDram (d : Dram) (pa : Nat) : Bool := decide (pa < tagBase d)

/-- A slot: a channel and a channel line (09 R277). -/
structure Slot where
  c : Nat
  r : Nat
  deriving DecidableEq, Repr

/-- The slot of a line (09 R277). -/
def slotOf (mode : MemMode) (l : Nat) : Slot :=
  match mode with
  | .open_ => { c := l % 8, r := l / 8 }
  | .parity => { c := (l / 7 % 8 + 1 + l % 7) % 8, r := l / 7 }

/-- The parity channel of a stripe row (09 R277). -/
def parityChannel (r : Nat) : Nat := r % 8

/-- The seven lines of a stripe row (09 R277). -/
def rowLines (r : Nat) : List Nat := (List.range 7).map (fun j => 7 * r + j)

/-- The cell key of byte i of a slot. -/
def cellKey (s : Slot) (i : Nat) : Nat := (8 * s.r + s.c) * 64 + i

/-- Bytes i to i + n - 1 of a slot as a number, little-endian. -/
def slotBytes (m : List Host.Cell) (s : Slot) : Nat → Nat → Nat
  | _, 0 => 0
  | i, n + 1 => (cellGet m (cellKey s i)).toNat + 256 * slotBytes m s (i + 1) n

/-- Writes n bytes of a number to a slot from byte i on. -/
def putBytes (m : List Host.Cell) (s : Slot) (v : Nat) : Nat → Nat → List Host.Cell
  | _, 0 => m
  | i, n + 1 => putBytes (cellPut m (cellKey s i) (BitVec.ofNat 8 (v % 256))) s (v / 256) (i + 1) n

/-- The raw 64 bytes of a slot. -/
def rawSlot (m : List Host.Cell) (s : Slot) : Line := BitVec.ofNat 512 (slotBytes m s 0 64)

/-- Word i of a line in words of k bits. -/
def lineWord (v : Line) (k i : Nat) : Nat := v.toNat / 2 ^ (k * i) % 2 ^ k

/-- Sign extension of a d-bit delta to k bits, as a number modulo 2^k. -/
def sextNat (d k x : Nat) : Nat := if x < 2 ^ (d - 1) then x else x + 2 ^ k - 2 ^ d

/-- The d-bit delta of w from b in k-bit words, where it fits. -/
def deltaOf (d k w b : Nat) : Option Nat :=
  let x := (w + 2 ^ k - b) % 2 ^ k
  if x < 2 ^ (d - 1) then some x
  else if 2 ^ k - 2 ^ (d - 1) ≤ x then some (x + 2 ^ d - 2 ^ k)
  else none

/-- The Z4 block of a line: at most 7 nonzero 4-byte words (09 R283). -/
def encZ4 (v : Line) : Option Nat :=
  let ws := (List.range 16).map (fun i => lineWord v 32 i)
  let nz := (List.range 16).foldl (fun a i => if lineWord v 32 i = 0 then a else a + 2 ^ i) 0
  let st := ws.filter (fun w => w != 0)
  if st.length ≤ 7 then
    some (1 + nz * 2 ^ 8 + (st.foldr (fun w a => w + a * 2 ^ 32) 0) * 2 ^ 24)
  else none

/-- A base-delta block: n words of k bits, d-bit deltas, code `enc` (09 R283, R284). -/
def encBD (v : Line) (enc n k d : Nat) : Option Nat :=
  let ws := (List.range n).map (fun i => lineWord v k i)
  let zero (w : Nat) : Bool := (deltaOf d k w 0).isSome
  let zsel := (List.range n).foldl (fun a i => if zero (lineWord v k i) then a + 2 ^ i else a) 0
  let base := ((ws.filter (fun w => !zero w)).head?).getD 0
  let ds := ws.map (fun w => deltaOf d k w (if zero w then 0 else base))
  if ds.all (·.isSome) then
    let nums := ds.map (fun x => x.getD 0)
    some (enc + zsel * 2 ^ 8 + base * 2 ^ (8 + n) + (nums.foldr (fun w a => w + a * 2 ^ d) 0) * 2 ^ (8 + n + k))
  else none

/-- The first encoding that holds the line, in the order Z4, B8D1, B4D1, B8D2 (09 R283). -/
def micaEncode (v : Line) : Option Nat :=
  match encZ4 v with
  | some b => some b
  | none => match encBD v 2 8 64 8 with
    | some b => some b
    | none => match encBD v 3 16 32 8 with
      | some b => some b
      | none => encBD v 4 8 64 16

/-- Decodes a Z4 block: the words in ascending order, `st` what remains of the stored words. -/
def decZ4 (nz : Nat) (st : Nat) : Nat → Nat → Nat
  | _, 0 => 0
  | i, n + 1 =>
    if nz / 2 ^ i % 2 = 0 then 2 ^ 32 * decZ4 nz st (i + 1) n
    else st % 2 ^ 32 + 2 ^ 32 * decZ4 nz (st / 2 ^ 32) (i + 1) n

/-- Decodes a base-delta block. -/
def decBD (b n k d : Nat) : Nat :=
  let zsel := b / 2 ^ 8 % 2 ^ n
  let base := b / 2 ^ (8 + n) % 2 ^ k
  let word (i : Nat) : Nat :=
    let x := sextNat d k (b / 2 ^ (8 + n + k + d * i) % 2 ^ d)
    ((if zsel / 2 ^ i % 2 = 1 then 0 else base) + x) % 2 ^ k
  (List.range n).foldr (fun i a => word i + 2 ^ k * a) 0

/-- The line of a 32-byte Mica block; ENC values never written answer zero (09 R283). -/
def micaDecode (b : Nat) : Line :=
  match b % 16 with
  | 1 => BitVec.ofNat 512 (decZ4 (b / 2 ^ 8 % 2 ^ 16) (b / 2 ^ 24) 0 16)
  | 2 => BitVec.ofNat 512 (decBD b 8 64 8)
  | 3 => BitVec.ofNat 512 (decBD b 16 32 8)
  | 4 => BitVec.ofNat 512 (decBD b 8 64 16)
  | _ => 0

/-- The line number of the tag line for stripe row r, and the bit of slot (c, r) in it (09 R285). -/
def tagLineOf (d : Dram) (r : Nat) : Nat := tagBase d / 64 + r / 64
def tagBit (s : Slot) : Nat := 8 * (s.r % 64) + s.c

/-- A line of the tag region (09 R285). -/
def isTagLine (d : Dram) (l : Nat) : Bool := decide (tagBase d / 64 ≤ l)

/-- The slot must be reconstructed: its channel is lost and not yet rebuilt to its row (09 R295, R297). -/
def slotLost (d : Dram) (s : Slot) : Bool :=
  match d.lost with
  | none => false
  | some k => decide (k.toNat = s.c) &&
    (match d.rebuild with
     | none => true
     | some b => decide (b ≤ s.r))

/-- The controller that answers a read of a slot: its channel's, or the parity controller of its row where the slot is lost (09 R294, R295). -/
def readChannel (d : Dram) (sl : Slot) : Nat := if slotLost d sl then parityChannel sl.r else sl.c

/-- Where a channel keeps a channel line (09 R278). -/
structure DramAddr where
  /-- Subchannel: false = A, true = B. -/
  sub : Bool
  bankGroup : BitVec 3
  bank : BitVec 2
  /-- Column address: 16 times the burst within the DRAM row. -/
  column : BitVec 11
  /-- Rank, or 3DS chip ID. -/
  rank : Bool
  row : Nat
  deriving DecidableEq, Repr

/-- The channel organisation has two ranks, or two chips in a 3DS stack: ORG 1 and 3 (09 R271; 18 R534). -/
def twoRanks (org : BitVec 8) : Bool := org == 1 || org == 3

/-- The DRAM address of channel line r (09 R278). -/
def dramAddr (org : BitVec 8) (r : Nat) : DramAddr :=
  { sub := r.testBit 0, bankGroup := BitVec.ofNat 3 (r / 2), bank := BitVec.ofNat 2 (r / 16),
    column := BitVec.ofNat 11 (16 * (r / 64 % 128)), rank := twoRanks org && r.testBit 13,
    row := if twoRanks org then r / 2 ^ 14 else r / 2 ^ 13 }

/-- UNIT_STATUS's index of device i of the burst at a slot: channel, subchannel, rank, device (15 R481). -/
def deviceIndex (d : Dram) (s : Slot) (i : Fin 10) : BitVec 10 :=
  let a := dramAddr d.org s.r
  BitVec.ofNat 10 (s.c + 8 * a.sub.toNat + 16 * a.rank.toNat + 64 * i.val)

/-- What the symbol ECC makes of a burst (09 R274, R275). -/
inductive Ecc where
  | clean
  /-- Corrected in one device, 0 to 9. -/
  | corrected (dev : Fin 10)
  | uncorrectable
  deriving DecidableEq, Repr

/-- A burst of n codewords is judged: a correction counts only where every codeword that needs one names the same device (09 R274). -/
def judge (n : Nat) (ws : List Codeword) : Ecc :=
  match (ws.take n).filter (fun w => w != .clean) with
  | [] => .clean
  | .symbol d :: t => if t.all (fun w => w == .symbol d) then .corrected d else .uncorrectable
  | _ => .uncorrectable

/-- The logical value of a line, with fuel for the tag lines and the rows that a reconstruction reads: at most a lost line, a line of its row, their lost tag line, a line of that row, its lost tag line, and the lines of that row (09 R277, R283, R285, R295). -/
def lineValueF (d : Dram) : Nat → Nat → Line
  | 0, _ => 0
  | n + 1, l =>
    let s := slotOf d.mode l
    if slotLost d s then
      let others := (rowLines s.r).filter (fun i => i != l)
      let par := rawSlot d.cells { c := parityChannel s.r, r := s.r }
      others.foldl (fun a i => a ^^^ lineValueF d n i) par
    else if isTagLine d l then rawSlot d.cells s
    else
      let t := lineValueF d n (tagLineOf d s.r)
      if t.getLsbD (tagBit s) then micaDecode (slotBytes d.cells s 0 32) else rawSlot d.cells s

/-- The logical value of a line: what a read of DRAM answers (09 R277). -/
def dramRead (d : Dram) (l : Nat) : Line := lineValueF d 8 l

/-- The tag of a slot (09 R285). -/
def slotTag (d : Dram) (s : Slot) : Bool := (dramRead d (tagLineOf d s.r)).getLsbD (tagBit s)

/-- Writes the raw 64 bytes of a slot, but nothing to a channel that is lost and not being rebuilt (09 R295, R297). -/
def putSlot (d : Dram) (s : Slot) (v : Line) : Dram :=
  if slotLost d s && d.rebuild.isNone then d
  else { d with cells := putBytes d.cells s v.toNat 0 64 }

/-- Writes the lower 32 bytes of a slot (09 R283). -/
def putHalf (d : Dram) (s : Slot) (b : Nat) : Dram :=
  if slotLost d s && d.rebuild.isNone then d
  else { d with cells := putBytes d.cells s b 0 32 }

/-- Writes a tag line with the parity of its row by update; the tag of a tag line is always 0 (09 R281, R285). -/
def putTagLine (d : Dram) (l : Nat) (v : Line) : Dram :=
  match d.mode with
  | .open_ => putSlot d (slotOf .open_ l) v
  | .parity =>
    let s := slotOf .parity l
    let p : Slot := { c := parityChannel s.r, r := s.r }
    let par := rawSlot d.cells p ^^^ dramRead d l ^^^ v
    putSlot (putSlot d s v) p par

/-- Sets the tag of a slot; the tag line is written only when the tag changes (09 R285). -/
def putTag (d : Dram) (s : Slot) (t : Bool) : Dram :=
  let l := tagLineOf d s.r
  let old := dramRead d l
  if old.getLsbD (tagBit s) = t then d
  else putTagLine d l (old ^^^ ((1#512) <<< tagBit s))

/-- Writes the data of a line to its slot under Mica as it is set, with the tag, the row's parity left aside (09 R283, R285). -/
def putData (d : Dram) (l : Nat) (v : Line) : Dram :=
  let s := slotOf d.mode l
  if isTagLine d l then putSlot d s v
  else match (if d.mica then micaEncode v else none) with
    | some b => putTag (putHalf d s b) s true
    | none => putTag (putSlot d s v) s false

/-- The parity of a row from the logical values of its seven lines (09 R277). -/
def rowParity (d : Dram) (r : Nat) : Line := (rowLines r).foldl (fun a i => a ^^^ dramRead d i) 0

/-- A row of which a slot is lost or not rebuilt (09 R296). -/
def rowLost (d : Dram) (r : Nat) : Bool := (List.range 8).any (fun c => slotLost d { c := c, r := r })

/-- The logical values of the row with a group of writes applied. -/
def groupParity (d : Dram) (r : Nat) (ws : List (Nat × Line)) : Line :=
  (rowLines r).foldl (fun a i => a ^^^ (mget ws i (dramRead d i))) 0

/-- The slot of a row's parity. -/
def paritySlot (r : Nat) : Slot := { c := parityChannel r, r := r }

/-- A group is served by update: at most two lines, each readable, and a readable parity slot (09 R281, R295). -/
def byUpdate (d : Dram) (r : Nat) (ws : List (Nat × Line)) : Bool :=
  decide (ws.length ≤ 2) && !slotLost d (paritySlot r) && ws.all (fun w => !slotLost d (slotOf .parity w.1))

/-- The row's parity after a group of writes: by update, or by recompute (09 R281, R295). -/
def newParity (d : Dram) (r : Nat) (ws : List (Nat × Line)) : Line :=
  if byUpdate d r ws then
    ws.foldl (fun a w => a ^^^ dramRead d w.1 ^^^ w.2) (rawSlot d.cells { c := parityChannel r, r := r })
  else groupParity d r ws

/-- Serves a group of writes to distinct lines of row r in PARITY mode: the lines, then the parity (09 R281, R295). -/
def writeGroup (d : Dram) (r : Nat) (ws : List (Nat × Line)) : Dram :=
  let par := newParity d r ws
  let d1 := ws.foldl (fun a w => putData a w.1 w.2) d
  putSlot d1 { c := parityChannel r, r := r } par

/-- Writes one line with its row's parity (09 R280, R281). -/
def dramWrite (d : Dram) (l : Nat) (v : Line) : Dram :=
  match d.mode with
  | .open_ => putData d l v
  | .parity => writeGroup d (l / 7) [(l, v)]

/-- The gathered writes without those of a line. -/
def ungroup (g : SMap (List (LineNo × Line))) (l : Nat) : SMap (List (LineNo × Line)) :=
  match mget? g (l / 7) with
  | some ws => mput g (l / 7) (ws.filter (fun w => w.1.toNat != l))
  | none => g

/-- A write that stands after every gathered write of its line: it takes their place (09 R281). -/
def writeAfter (d : Dram) (l : Nat) (v : Line) : Dram := dramWrite { d with groups := ungroup d.groups l } l v

/-- The line whose slot in a row lies on a channel; none for the parity slot (09 R277). -/
def lineInRow (k r : Nat) : Option Nat := (rowLines r).find? (fun l => (slotOf .parity l).c == k)

/-- A slot is written from its row's logical values, under Mica as it is now set, or the row's parity is written (09 R275, R297). -/
def rebuildRow (d : Dram) (k r : Nat) : Dram :=
  match lineInRow k r with
  | some l => putData d l (dramRead d l)
  | none => putSlot d { c := k, r := r } (rowParity d r)

/-- The slot whose burst an access reports: its own, or for a lost one the slot of the row on the burst's channel, which the reconstruction reads (09 R295, R296). -/
def burstSlot (d : Dram) (sl : Slot) (b : Burst) : Slot := if slotLost d sl then { c := b.chan.toNat, r := sl.r } else sl

/-- What the symbol ECC makes of the burst at a slot: four codewords under a tag of 1, else eight; a lost slot sends none (09 R274). -/
def eccAt (d : Dram) (sl : Slot) (b : Burst) : Ecc :=
  if slotLost d sl then .clean
  else judge (if d.mode == .parity && sl.c == parityChannel sl.r then 8 else if slotTag d sl then 4 else 8) b.words

/-- A burst that an access of a line reads needs no correction. -/
def burstClean (d : Dram) (l : Nat) (b : Burst) : Bool :=
  let sl := slotOf d.mode l
  eccAt d (burstSlot d sl b) b == .clean

end Sys2Proof.Machine
end

