-- ==== Sys2Proof/Machine/Ops.lean ====
section
/-! DEFINITION. Shared operations over the state: its parts by number, free values, modes, the physical address map, the allocation classes. -/

namespace Sys2Proof.Machine

/-- The core of a virtual core number. -/
def State.core (s : State) (vc : Vc) : Core := mget s.cores vc.toNat {}
/-- Sets a core. -/
def State.setCore (s : State) (vc : Vc) (c : Core) : State := { s with cores := mput s.cores vc.toNat c }
/-- Changes a core. -/
def State.updCore (s : State) (vc : Vc) (f : Core → Core) : State := s.setCore vc (f (s.core vc))

/-- A pavilion. -/
def State.pav (s : State) (p : Pav) : Pavilion := mget s.pavs p.toNat {}
/-- Sets a pavilion. -/
def State.setPav (s : State) (p : Pav) (v : Pavilion) : State := { s with pavs := mput s.pavs p.toNat v }

/-- The budgets of an allocation class. -/
def State.qosOf (s : State) (c : ClassId) : Qos := mget s.qos c.toNat {}
/-- Sets the budgets of an allocation class. -/
def State.setQos (s : State) (c : ClassId) (q : Qos) : State := { s with qos := mput s.qos c.toNat q }

/-- An Arbor session. -/
def State.ses (s : State) (n : Ses) : Session := mget s.arb.ses n.toNat {}
/-- Sets an Arbor session. -/
def State.setSes (s : State) (n : Ses) (v : Session) : State :=
  { s with arb := { s.arb with ses := mput s.arb.ses n.toNat v } }

/-- A Gatehouse lane. -/
def State.lane (s : State) (n : LaneNo) : Lane := mget s.gate.lanes n.toNat {}
/-- Sets a Gatehouse lane. -/
def State.setLane (s : State) (n : LaneNo) (v : Lane) : State :=
  { s with gate := { s.gate with lanes := mput s.gate.lanes n.toNat v } }

/-- A timer channel. -/
def State.timer (s : State) (n : TmrNo) : Timer := mget s.timers n.toNat {}
/-- Sets a timer channel. -/
def State.setTimer (s : State) (n : TmrNo) (v : Timer) : State := { s with timers := mput s.timers n.toNat v }

/-- A PCI Express port. -/
def State.port (s : State) (p : Bool) : PciePort := mget s.ports p.toNat {}
/-- Sets a PCI Express port. -/
def State.setPort (s : State) (p : Bool) (v : PciePort) : State := { s with ports := mput s.ports p.toNat v }

/-- A cluster. -/
def State.cluster (s : State) (k : Nat) : Cluster := mget s.fab.clusters k {}
/-- Sets a cluster. -/
def State.setCluster (s : State) (k : Nat) (v : Cluster) : State :=
  { s with fab := { s.fab with clusters := mput s.fab.clusters k v } }

/-- A home slice. -/
def State.home (s : State) (k : Nat) : Home := mget s.fab.homes k {}
/-- Sets a home slice. -/
def State.setHome (s : State) (k : Nat) (v : Home) : State :=
  { s with fab := { s.fab with homes := mput s.fab.homes k v } }

/-- The messages in flight, oldest first (08 R245). -/
def State.net (s : State) : List Msg := s.fab.net.map (·.msg)

/-- QZ_TIME moves forward to an instant that an event names (16 R482). -/
def State.reach (s : State) (t : Nat) : State :=
  { s with qz := { s.qz with time := max s.qz.time t, osc := s.qz.osc + (t - s.qz.time) } }

/-- The value that a read command returns (the model's own field). -/
def State.answer (s : State) (v : W64) : State := { s with out := v }

/-- The free value that is next, and the state that has taken it. -/
def State.free (s : State) : W64 × State := (Config.freeBits s.fresh, { s with fresh := s.fresh + 1 })

/-- The mode. -/
def State.mode (s : State) : Mode := s.dev.mode
/-- Sets the mode. -/
def State.setMode (s : State) (m : Mode) : State := { s with dev := { s.dev with mode := m } }

/-- Virtual cores of the part: 64, or 40 on the TVX6440-I (00 R1). -/
def vcCount (p : Part) : Nat :=
  match p with
  | .t6440i => 40
  | _ => 64

/-- Virtual cores of one cluster: 8, or 5 on the TVX6440-I (15 R569). -/
def vcPerCluster (p : Part) : Nat :=
  match p with
  | .t6440i => 5
  | _ => 8

/-- The physical core of a virtual core (15 R569). -/
def State.pcOf (s : State) (vc : Vc) : Nat :=
  match mget? s.cmap.map vc.toNat with
  | some pc => pc.toNat
  | none => 9 * (vc.toNat / vcPerCluster s.cmap.part) + vc.toNat % vcPerCluster s.cmap.part

/-- The cluster that a virtual core runs in: nine cores each (01, blocks). -/
def State.clusterOf (s : State) (vc : Vc) : Nat := s.pcOf vc / 9

/-- The virtual cores that run in a cluster, ascending. -/
def State.coresOf (s : State) (k : Nat) : List Vc :=
  ((List.range (vcCount s.cmap.part)).map (fun i => BitVec.ofNat 6 i)).filter (fun v => s.clusterOf v == k)

/-- Every virtual core of the part, ascending. -/
def State.allCores (s : State) : List Vc := (List.range (vcCount s.cmap.part)).map (fun i => BitVec.ofNat 6 i)

/-- Ranges of the physical address map (01 R20, R21; 08 R261). -/
inductive PaKind where
  | dram | keep | tags | arborWin | pcieWin | lanes | quartz | uncore | funnel | arborCtl | sessions | pcieCtl | pavCtl | hole
  deriving DecidableEq, Repr

/-- The keep region holds a physical address (08 R261). -/
def inKeep (s : State) (pa : Nat) : Bool :=
  match s.fab.spine.keep with
  | none => false
  | some (b, n) => decide (b.toNat ≤ pa ∧ pa < b.toNat + n)

/-- The range of a physical address (01 R20, R21). -/
def paKind (s : State) (pa : Nat) : PaKind :=
  if pa < usableTop s.dram then
    if inKeep s pa then .keep else if tagBase s.dram ≤ pa then .tags else .dram
  else if 0xC00000000000 ≤ pa ∧ pa < 0xC10000000000 then .arborWin
  else if 0xD00000000000 ≤ pa ∧ pa < 0xD10000000000 then .pcieWin
  else if 0xE00000000000 ≤ pa ∧ pa < 0xE00000040000 then .lanes
  else if 0xE00000100000 ≤ pa ∧ pa < 0xE00000200000 then .quartz
  else if 0xE00000200000 ≤ pa ∧ pa < 0xE00000300000 then .uncore
  else if 0xE00000300000 ≤ pa ∧ pa < 0xE00000400000 then .funnel
  else if 0xE00000400000 ≤ pa ∧ pa < 0xE00000500000 then .arborCtl
  else if 0xE00001000000 ≤ pa ∧ pa < 0xE00005000000 then .sessions
  else if 0xE00008000000 ≤ pa ∧ pa < 0xE00010000000 then .pcieCtl
  else if 0xE00010000000 ≤ pa ∧ pa < 0xE00020000000 then .pavCtl
  else .hole

/-- The allocation class of a core's access: the hypervisor class at H, the VMID below (08 R240). -/
def classOf (a : Arch) : ClassId := if a.level = .h then hypClass else a.tr.vmid.setWidth 16

/-- n bytes of a line from offset `off` on, as a number. -/
def lineGet (v : Line) (off n : Nat) : Nat := v.toNat / 2 ^ (8 * off) % 2 ^ (8 * n)

/-- A line with n bytes from offset `off` on replaced by those of a number. -/
def linePut (v : Line) (off n x : Nat) : Line :=
  let m : Line := BitVec.ofNat 512 ((2 ^ (8 * n) - 1) * 2 ^ (8 * off))
  (v &&& ~~~ m) ||| (BitVec.ofNat 512 (x % 2 ^ (8 * n) * 2 ^ (8 * off)))

/-- A line with the bytes that the mask names replaced (08 R233), the mask's bits from i down. -/
def lineMergeF (old new : Line) (mask : BitVec 64) : Nat → Line
  | 0 => old
  | i + 1 =>
    if mask.getLsbD i then linePut (lineMergeF old new mask i) i 1 (lineGet new i 1)
    else lineMergeF old new mask i

/-- A line with the bytes that the mask names replaced (08 R233). -/
def lineMerge (old new : Line) (mask : BitVec 64) : Line := lineMergeF old new mask 64

/-- The byte mask of n bytes from an offset on. -/
def byteMask (off n : Nat) : BitVec 64 := BitVec.ofNat 64 ((2 ^ n - 1) * 2 ^ off)

/-- The line of a physical address. -/
def lineOf (pa : Nat) : LineNo := BitVec.ofNat 42 (pa / 64)

/-- The 4 KiB page of a line. -/
def pageOfLine (l : LineNo) : PageNo := BitVec.ofNat 36 (l.toNat / 64)

/-- Adds to a 32-bit count, which saturates. -/
def satAdd32 (c : BitVec 32) (n : Nat) : BitVec 32 := BitVec.ofNat 32 (min (c.toNat + n) (2 ^ 32 - 1))

/-- One Quartz tick on an empty queue (16 R482; DESIGN CHOICE, log entry 1). -/
def quartzTick (s : State) : State :=
  if s.qz.locked && !s.dev.porst then
    { s with qz := { s.qz with time := s.qz.time + 1, osc := s.qz.osc + 1 } }
  else s

/-- Runs a meaning where its event can take place; where it cannot, the command changes nothing (log entry 2). -/
def whenTrue (g : Bool) (s : State) (t : State) : Out := .next (if g then t else s)

/-- Runs a meaning that may find that its event cannot take place. -/
def orStay (s : State) (t : Option State) : Out := .next (t.getD s)

/-- Repeats an operation over the elements of a list. -/
def foldState {α : Type} (l : List α) (f : State → α → State) (s : State) : State := l.foldl f s

end Sys2Proof.Machine
end

