-- ==== Sys2Proof/Machine/ArborLines.lean ====
section
/-! DEFINITION. The lines of the Arbor port: what a profile supports and which balls it uses, what the device drives, samples and releases, and the lines of the port block itself (11 R355; 12 R373 to R378, R386, R389, R393 to R396, R399). -/

namespace Sys2Proof.Machine

/-- What the shipped profiles support (12 R386); SPACE bits A16 A24 A32 A64 I/O, WIDTH bits D8 to D64. -/
def shippedCaps (code : BitVec 8) : Caps :=
  if code = 1 then
    { spaces := 0b00111, widths := 0b0111, rmw := true, block := true, retry := false, iack := 0b111, syscon := true,
      bigEndian := true, parity := 0, burst := 256 }
  else if code = 2 then
    { spaces := 0b01111, widths := 0b1111, rmw := true, block := true, retry := true, iack := 0b111, syscon := true,
      bigEndian := true, parity := 0, burst := 2048 }
  else
    { spaces := 0b10010, widths := 0b0011, rmw := true, block := false, retry := false, iack := 0b001, syscon := true,
      bigEndian := false, parity := 0, burst := 0 }

/-- No profile is loaded: nothing is supported. -/
def noCaps : Caps :=
  { spaces := 0, widths := 0, rmw := false, block := false, retry := false, iack := 0, syscon := false, bigEndian := false,
    parity := 0, burst := 0 }

/-- The support of the loaded profile (12 R386, R399). -/
def State.caps (s : State) : Caps := match s.arb.prof with | some p => p.caps | none => noCaps
/-- The code of the loaded profile, 0 for none (11, ARB_ROLE). -/
def State.profCode (s : State) : BitVec 8 := match s.arb.prof with | some p => p.code | none => 0
/-- The loaded profile is P-1014 or P-VITA1. -/
def State.vme (s : State) : Bool := s.profCode == 1 || s.profCode == 2

/-- Lines of a group (12 R382). -/
def groupMask (g : Nat) : W32 :=
  if g = 0 ∨ g = 1 then 0xFFFFFFFF else if g = 7 then 0xF else if g = 9 then 3 else if g ≤ 9 then 0xFF else 0

/-- The place of an 8-line group's lines in LINES of an image (12 R399). -/
def lineByte (g i : Nat) : Option Nat :=
  match g with
  | 2 => some i
  | 4 => some (8 + i)
  | 5 => some (16 + i)
  | 6 => some (24 + i)
  | 7 => if i < 4 then some (32 + i) else none
  | 9 => if i < 2 then some (36 + i) else none
  | _ => none

/-- The group and the bit of a line that LINES numbers (12 R399). -/
def lineOfByte (j : Nat) : Nat × Nat :=
  if j < 8 then (2, j)
  else if j < 32 then (3 + j / 8, j % 8)
  else if j < 36 then (7, j - 32)
  else (9, j - 36)

/-- Open-drain lines of the shipped profiles (12 R378). -/
def shippedDrain (code : BitVec 8) (g : Nat) : W32 :=
  if g = 9 then 3
  else if code = 3 then (if g = 4 then 0x39 else 0)
  else if g = 4 then 0xC0
  else if g = 5 then (if code = 2 then 3 else 2)
  else if g = 6 then 0x0F
  else 0

/-- Lines that the threads of a shipped profile may drive: its outputs of R378, among them those of the system controller with SYSCON = 1 only. An unused ball and an input stay released. A range of balls names its lines in ascending order, as AB[3:0] and AK[2:0] show, and BCLR* of P-VITA1, whose ball RETRY* takes, is on the one that P-1014 leaves unused: DESIGN CHOICE (log entry 102). -/
def shippedOut (code : BitVec 8) (syscon : Bool) (g : Nat) : W32 :=
  if code = 3 then
    match g with
    | 0 => 0xFFFF | 1 => 0x01FFFFFF | 2 => 0x1F | 4 => 0x39 | 6 => 5 | 9 => 1 | _ => 0
  else
    match g with
    | 0 | 1 => 0xFFFFFFFF
    | 2 => 0x1F
    | 4 => 0xFF
    | 5 => if code = 2 then (if syscon then 7 else 3) else if syscon then 3 else 2
    | 6 => if syscon then 0xFF else 0x0F
    | 7 => if syscon then 2 else 6
    | 9 => 3
    | _ => 0

/-- Open-drain lines of a group, and lines that are driven at all (12 R376, R378, R399). -/
def drainLines (s : State) (g : Nat) : W32 × W32 :=
  match s.arb.prof with
  | none => (0, groupMask g)
  | some p =>
    if p.lines.isEmpty then (shippedDrain p.code g, shippedOut p.code s.arb.roles.syscon g)
    else
      let kind (i : Nat) : Byte := match lineByte g i with
        | some j => (p.lines[j]?).getD 0
        | none => 3
      let pick (f : Byte → Bool) : W32 :=
        (List.range 8).foldl (fun a i => if f (kind i) then a ||| (1#32 <<< i) else a) 0
      if g < 2 then (0, groupMask g)
      else (pick (fun b => b.extractLsb' 0 2 == 2#2), pick (fun b => b.getLsbD 1 && (!b.getLsbD 7 || s.arb.roles.syscon)) &&& groupMask g)

/-- Lines of a group take levels; an open-drain line is driven low or released (12 R376, R382). -/
def driveLines (s : State) (g : Nat) (mask val : W32) : State :=
  let d := mget s.arb.drive g {}
  let (od, can) := drainLines s g
  let m := mask &&& can
  let rel := m &&& od &&& val
  let on := m &&& ~~~ rel
  let d1 : Drive := { en := (d.en &&& ~~~ m) ||| on, val := (d.val &&& ~~~ m) ||| (val &&& on) }
  { s with arb := { s.arb with drive := mput s.arb.drive g d1 } }

/-- The parity bit of a byte lane under the loaded profile (11 R355). -/
def laneParity (s : State) (b : W32) : Bool :=
  Bool.xor (((List.range 8).filter (fun i => b.getLsbD i)).length % 2 == 1) (Config.oddParity s.profCode)

/-- Lines of AP that cover the byte lanes of group 0 or 1 where the profile enables parity (12 R373, R399). -/
def parityLines (s : State) (g : Nat) : W32 :=
  if g ≤ 1 then (s.caps.parity.setWidth 32 &&& (0xF#32 <<< (4 * g))) else 0

/-- Arbor generates parity on the byte lanes that it drives (11 R355). -/
def driveParity (s : State) (g : Nat) (v : W32) : State :=
  let m := parityLines s g
  if m = 0 then s
  else
    let d := mget s.arb.drive 3 {}
    let bits := (List.range 4).foldl (fun (a : W32) i => if laneParity s (v >>> (8 * i)) then a ||| (1#32 <<< (4 * g + i)) else a) 0
    { s with arb := { s.arb with drive := mput s.arb.drive 3 { en := d.en ||| m, val := (d.val &&& ~~~ m) ||| (bits &&& m) } } }

/-- Lines of a group are released. -/
def releaseLines (s : State) (g : Nat) (mask : W32) : State :=
  let d := mget s.arb.drive g {}
  { s with arb := { s.arb with drive := mput s.arb.drive g { d with en := d.en &&& ~~~ mask } } }

/-- Lines of the SYS group that the port block itself holds low: ARST_N in a backplane reset of its own, and AFAIL (12 R395, R396). -/
def ownLow (s : State) (g : Nat) : W32 :=
  if g = 9 then (if s.arb.arstUntil.isSome then 1 else 0) ||| (if s.arb.afailOut then 2 else 0) else 0

/-- The levels at the balls of a group, where others drive or hold `lines`: one that the device itself holds low reads low (12 R376). -/
def sampleLines (s : State) (g : Nat) (lines : W32) : W32 :=
  let d := mget s.arb.drive g {}
  ((d.en &&& d.val) ||| (~~~ d.en &&& lines)) &&& ~~~ (ownLow s g) &&& groupMask g

/-- A line of SYS is driven low by the device: by a thread, or by the port block. -/
def sysLow (s : State) (i : Nat) : Bool :=
  let d := mget s.arb.drive 9 {}
  (ownLow s 9).getLsbD i || (d.en.getLsbD i && !d.val.getLsbD i)

/-- ARST_N is low at the ball, whoever asserts it (12 R395). -/
def arstLow (s : State) : Bool := s.arb.arstIn || sysLow s 0

/-- A line that the port block itself drives to a level, or releases. -/
def portLine (s : State) (g i : Nat) (v : Option Bool) : State :=
  let d := mget s.arb.drive g {}
  let m : W32 := 1#32 <<< i
  let d1 : Drive := match v with
    | some b => { en := d.en ||| m, val := if b then d.val ||| m else d.val &&& ~~~ m }
    | none => { d with en := d.en &&& ~~~ m }
  { s with arb := { s.arb with drive := mput s.arb.drive g d1 } }

/-- An item of TIMERS of a P-GEN image, 3 bytes: those of a declared line begin with its number in LINES (12 R399; DEDUCED, log entry 104). -/
def timerItem (s : State) (i : Nat) : Nat × Nat × Nat :=
  match s.arb.prof with
  | none => (0, 0, 0)
  | some p => (((p.timers[3 * i]?).getD 0).toNat, ((p.timers[3 * i + 1]?).getD 0).toNat, ((p.timers[3 * i + 2]?).getD 0).toNat)

/-- The line with which the system bus timer ends a cycle, and its level: BERR*, XACK/, or the line that TIMERS declares (12 R393, R399). -/
def expiryLine (s : State) : Option (Nat × Nat × Bool) :=
  if s.vme then some (4, 6, false)
  else if s.profCode = 3 then some (4, 0, false)
  else match timerItem s 2 with
    | (0, 0, 0) => none
    | (j, v, _) => some ((lineOfByte (j % 64)).1, (lineOfByte (j % 64)).2, v != 0)

/-- The system bus timer asserts its line, or lets it go (12 R393). -/
def timerOut (s : State) (on : Bool) : State :=
  match expiryLine s with
  | none => s
  | some (g, i, v) =>
    let s1 := portLine s g i (if on then some v else none)
    { s1 with arb := { s1.arb with expired := on } }

/-- The levels of a group show that what the bus timer times has ended: the data strobes, the command lines, or what TIMERS declares (12 R393, R399). -/
def strobesOff (s : State) (g : Nat) (lines : W32) : Bool :=
  let v := sampleLines s g lines
  if s.vme then g == 2 && v &&& 6 == 6
  else if s.profCode = 3 then g == 2 && v &&& 0x1F == 0x1F
  else
    let (h, m, x) := timerItem s 1
    g == h && (v &&& BitVec.ofNat 32 m) == BitVec.ofNat 32 x

/-- The levels that a command reports at a group's balls are kept. Group 8 is AI, low = asserted; AH[15] is ACFAIL* of P-1014 and P-VITA1; released strobes end what the bus timer asserts (12 R373, R378, R393, R396). -/
def noteLines (s : State) (g : Nat) (lines : W32) : State :=
  let s1 := { s with arb := { s.arb with bus := mput s.arb.bus g lines } }
  let s2 := if g = 8 then { s1 with arb := { s1.arb with ai := ~~~ (lines.setWidth 8) } }
    else if g = 5 then { s1 with arb := { s1.arb with acfailIn := s.vme && !lines.getLsbD 7 } }
    else s1
  if s2.arb.expired && strobesOff s2 g lines then timerOut s2 false else s2

/-- Lines that the port block drives as clocks with some roles: group, line, half-period in units of 1.25 ns: SYSCLK at 16 MHz, CCLK/ and BCLK/ at 10 MHz, or what TIMERS declares (12 R378, R386, R399). Their phase is a matter of time, and left out. -/
def clockLines (s : State) (r : Roles) : List (Nat × Nat × Nat) :=
  if s.vme then (if r.syscon then [(5, 6, 25)] else [])
  else if s.profCode = 3 then (if r.syscon then [(4, 6, 40), (4, 7, 40)] else [])
  else
    let one (i : Nat) : List (Nat × Nat × Nat) := match timerItem s i with
      | (0, 0, 0) => []
      | (j, h, _) =>
        let b : Byte := match s.arb.prof with
          | some p => (p.lines[j % 64]?).getD 0
          | none => 0
        if b.getLsbD 7 && !r.syscon then [] else [((lineOfByte (j % 64)).1, (lineOfByte (j % 64)).2, h)]
    one 3 ++ one 4

/-- BGnOUT* of the system controller under P-1014 and P-VITA1: low at the level that it grants to another board (12 R378, R389). -/
def driveGrant (s : State) (l : Option (BitVec 2)) : State :=
  if s.vme && s.arb.roles.syscon then
    (List.range 4).foldl (fun t n => portLine t 6 (4 + n) (some (l != some (BitVec.ofNat 2 n)))) s
  else s

/-- BCLR* of the system controller (12 R378, R389; log entry 102). -/
def driveBclr (s : State) (on : Bool) : State :=
  if s.vme && s.arb.roles.syscon then portLine s 5 (if s.profCode = 2 then 2 else 0) (some (!on)) else s

/-- The serial priority chain of P-796: BREQ/ asks for the bus, and BPRO/ passes the priority on while Arbor does not (12 R378, R386). -/
def driveChain (s : State) (own : Bool) : State :=
  if s.profCode = 3 then portLine (portLine s 6 0 (some (!own))) 6 2 (some own) else s

/-- LOCK/ of P-796, under which a read-modify-write and the two commands of an acknowledge run (12 R386, R390). -/
def driveLock (s : State) (on : Bool) : State := if s.profCode = 3 then portLine s 4 3 (if on then some false else none) else s

/-- Lines of a group that MST drives: the data path while no inbound cycle holds it, and its own lines, under P-GEN as LINES declares, under a shipped profile the attributes AM5 to AM0, or LOCK/ (12 R378 to R380, R399). -/
def mstLines (s : State) (g : Nat) : W32 :=
  if g ≤ 3 then (if s.arb.path == some 1 then 0 else groupMask g)
  else match s.arb.prof with
    | none => 0
    | some p =>
      if p.lines.isEmpty then (if g = 4 then (if p.code = 3 then 8 else 0x3F) else 0)
      else (List.range 8).foldl (fun a i =>
        match lineByte g i with
        | some j => if ((p.lines[j]?).getD 0).extractLsb' 2 2 == 0#2 then a ||| (1#32 <<< i) else a
        | none => a) 0

/-- The strobes and every other line of MST are released (12 R394). -/
def releaseMst (s : State) : State := (List.range 10).foldl (fun t g => releaseLines t g (mstLines s g)) s

/-- The lines of a group that belong to the system controller's duties (12 R378, R386, R389). -/
def dutyLines (s : State) (g : Nat) : W32 :=
  if !s.arb.roles.syscon then 0
  else if s.vme then
    (if g = 5 then (if s.profCode = 2 then 0x44 else 0x41) else if g = 6 then 0xF0 else if g = 7 then 2 else if g = 9 then 1 else 0)
  else if s.profCode = 3 then (if g = 4 then 0xC1 else if g = 6 then 5 else if g = 9 then 1 else 0)
  else match s.arb.prof with
    | none => 0
    | some p => (List.range 8).foldl (fun a i =>
        match lineByte g i with
        | some j => if ((p.lines[j]?).getD 0).getLsbD 7 then a ||| (1#32 <<< i) else a
        | none => a) 0

/-- Every line is released but those of the system controller's duties, which go on (11 R370, R372). -/
def keepDuties (s : State) : State := (List.range 10).foldl (fun t g => releaseLines t g (~~~ (dutyLines s g))) s

end Sys2Proof.Machine
end

