-- ==== Sys2Proof/Machine/Fp.lean ====
section
/-! DEFINITION. Floating-point arithmetic: exact values, one rounding, the flags (03 R92 to R94, 04 R112 to R123). -/

namespace Sys2Proof.Machine

/-- A format: significand bits and exponent bits (04 R112). -/
structure FpFmt where
  p : Nat
  ebits : Nat
  deriving DecidableEq, Repr

/-- binary32. -/
def fmt32 : FpFmt := { p := 24, ebits := 8 }
/-- binary64. -/
def fmt64 : FpFmt := { p := 53, ebits := 11 }
/-- The format that FMT selects (03 R92). -/
def fmtOf (dbl : Bool) : FpFmt := if dbl then fmt64 else fmt32

/-- The exponent bias, also the largest exponent. -/
def FpFmt.bias (f : FpFmt) : Nat := 2 ^ (f.ebits - 1) - 1
/-- The exponent of the smallest normal number. -/
def FpFmt.emin (f : FpFmt) : Int := 1 - (f.bias : Int)
/-- The width in bits. -/
def FpFmt.width (f : FpFmt) : Nat := f.p + f.ebits
/-- The exponent field of infinities and NaNs. -/
def FpFmt.eAll (f : FpFmt) : Nat := 2 ^ f.ebits - 1

/-- A decoded operand; a finite nonzero value is (−1)^s · m · 2^e. -/
inductive FpVal where
  | nan (signalling : Bool)
  | inf (s : Bool)
  | zero (s : Bool)
  | fin (s : Bool) (m : Nat) (e : Int)
  deriving DecidableEq, Repr

/-- Rounding modes, the FCSR.RM encodings (04 R113). -/
inductive Rm where
  | rne | rtz | rdn | rup | rna
  deriving DecidableEq, Repr

/-- The rounding mode of an encoding; FCSR.RM never holds the three others (02 R37). -/
def rmOf (k : BitVec 3) : Rm :=
  match k.toNat with
  | 0 => .rne
  | 1 => .rtz
  | 2 => .rdn
  | 3 => .rup
  | _ => .rna

/-- The mode of an FP word: its RM field, or FCSR.RM where the field is 0b111 (03 R92). -/
def fpMode (rm : BitVec 3) (fcsr : BitVec 8) : Rm := if rm = 7#3 then rmOf (fcsr.extractLsb' 5 3) else rmOf rm

/-- FCSR flag bits: [0] NX, [1] UF, [2] OF, [3] DZ, [4] NV (02, FCSR). -/
def fNX : BitVec 5 := 1#5
def fUF : BitVec 5 := 2#5
def fOF : BitVec 5 := 4#5
def fDZ : BitVec 5 := 8#5
def fNV : BitVec 5 := 16#5

/-- A result with the flags it raises. -/
structure FpRes where
  val : W64
  flags : BitVec 5 := 0
  deriving DecidableEq, Repr

/-- The sign bit of a bit pattern. -/
def fpSign (f : FpFmt) (x : W64) : Bool := x.getLsbD (f.width - 1)

/-- Decodes a bit pattern of a format. -/
def fpDecode (f : FpFmt) (x : W64) : FpVal :=
  let v := x.toNat
  let s := fpSign f x
  let frac := v % 2 ^ (f.p - 1)
  let ex := v / 2 ^ (f.p - 1) % 2 ^ f.ebits
  if ex = f.eAll then
    if frac = 0 then .inf s else .nan (!x.getLsbD (f.p - 2))
  else if ex = 0 then
    if frac = 0 then .zero s else .fin s frac (f.emin - (f.p - 1 : Nat))
  else .fin s (frac + 2 ^ (f.p - 1)) (f.emin + (ex - 1 : Nat) - (f.p - 1 : Nat))

/-- A bit pattern from sign, exponent field and fraction. -/
def fpPack (f : FpFmt) (s : Bool) (ex frac : Nat) : W64 :=
  BitVec.ofNat 64 (s.toNat * 2 ^ (f.width - 1) + ex * 2 ^ (f.p - 1) + frac)

/-- The canonical quiet NaN (04 R117). -/
def fpNaN (f : FpFmt) : W64 := fpPack f false f.eAll (2 ^ (f.p - 2))
/-- An infinity. -/
def fpInf (f : FpFmt) (s : Bool) : W64 := fpPack f s f.eAll 0
/-- The largest finite value. -/
def fpMax (f : FpFmt) (s : Bool) : W64 := fpPack f s (f.eAll - 1) (2 ^ (f.p - 1) - 1)
/-- A zero. -/
def fpZero (f : FpFmt) (s : Bool) : W64 := fpPack f s 0 0

/-- Whether rounding moves the magnitude up: `odd` the kept value is odd, `h` the remainder against one half (below, at, above), `nz` the remainder is not zero. -/
def roundUp (rm : Rm) (s odd : Bool) (h : Ordering) (nz : Bool) : Bool :=
  match rm with
  | .rne => h == .gt || (h == .eq && odd)
  | .rna => h != .lt
  | .rtz => false
  | .rdn => s && nz
  | .rup => !s && nz

/-- Rounds m · 2^e, plus a part of one unit where `sticky`, to a multiple of 2^q; answers the multiple and whether it is inexact. -/
def roundAt (rm : Rm) (s : Bool) (m : Nat) (e : Int) (sticky : Bool) (q : Int) : Nat × Bool :=
  if q ≤ e then (m * 2 ^ (e - q).toNat, sticky)
  else
    let k := (q - e).toNat
    let keep := m / 2 ^ k
    let rem := m % 2 ^ k
    let half := 2 ^ (k - 1)
    let h : Ordering := if rem < half then .lt else if rem = half then (if sticky then .gt else .eq) else .gt
    let nz := rem != 0 || sticky
    (if roundUp rm s (keep % 2 == 1) h nz then keep + 1 else keep, nz)

/-- The exponent of m · 2^e as a number 1.xxx · 2^E; m is not zero. -/
def expOf (m : Nat) (e : Int) : Int := e + Nat.log2 m

/-- Rounds a nonzero exact value to a format, once, with its flags (04 R113 to R115). With `sticky` the value has at least p + 2 bits in m. -/
def fpRound (f : FpFmt) (rm : Rm) (s : Bool) (m : Nat) (e : Int) (sticky : Bool) : FpRes :=
  let q := expOf m e - (f.p - 1 : Nat)
  let (mu, _) := roundAt rm s m e sticky q
  let eu := expOf mu q
  if (f.bias : Int) < eu then
    let toInf := match rm with
      | .rne | .rna => true
      | .rtz => false
      | .rdn => s
      | .rup => !s
    { val := if toInf then fpInf f s else fpMax f s, flags := fOF ||| fNX }
  else
    let tiny := decide (eu < f.emin)
    let qmin := f.emin - (f.p - 1 : Nat)
    let q2 := if q < qmin then qmin else q
    let (mr, nx) := roundAt rm s m e sticky q2
    let fl := (if nx then fNX else 0) ||| (if tiny && nx then fUF else 0)
    -- a carry out of the significand moves into the exponent field by itself
    let val :=
      if q2 = qmin then BitVec.ofNat 64 (s.toNat * 2 ^ (f.width - 1) + mr)
      else BitVec.ofNat 64 (s.toNat * 2 ^ (f.width - 1) + ((q2 - qmin).toNat) * 2 ^ (f.p - 1) + mr)
    { val := val, flags := fl }

/-- The canonical NaN with NV where an operand is a signalling NaN (04 R115, R117). -/
def fpNaNRes (f : FpFmt) (nv : Bool) : FpRes := { val := fpNaN f, flags := if nv then fNV else 0 }

/-- A signalling NaN. -/
def isSNaN : FpVal → Bool
  | .nan true => true
  | _ => false

/-- Any NaN. -/
def isNaN : FpVal → Bool
  | .nan _ => true
  | _ => false

/-- The sign of an exact zero sum of operands of unlike sign: −0 in RDN, else +0. -/
def zeroSum (rm : Rm) : Bool := rm == .rdn

/-- The exact sum of two finite values, rounded. -/
def fpAddFin (f : FpFmt) (rm : Rm) (s1 : Bool) (m1 : Nat) (e1 : Int) (s2 : Bool) (m2 : Nat) (e2 : Int) : FpRes :=
  let e := if e1 ≤ e2 then e1 else e2
  let a : Int := (if s1 then -1 else 1) * ((m1 * 2 ^ (e1 - e).toNat : Nat) : Int)
  let b : Int := (if s2 then -1 else 1) * ((m2 * 2 ^ (e2 - e).toNat : Nat) : Int)
  let t := a + b
  if t = 0 then { val := fpZero f (zeroSum rm) }
  else fpRound f rm (decide (t < 0)) t.natAbs e false

/-- FADD; FSUB adds the second operand with its sign inverted (04 R113, R115). -/
def fpAdd (f : FpFmt) (rm : Rm) (x y : FpVal) : FpRes :=
  match x, y with
  | .nan a, .nan b => fpNaNRes f (a || b)
  | .nan a, _ => fpNaNRes f a
  | _, .nan b => fpNaNRes f b
  | .inf s, .inf t => if s = t then { val := fpInf f s } else fpNaNRes f true
  | .inf s, _ => { val := fpInf f s }
  | _, .inf t => { val := fpInf f t }
  | .zero s, .zero t => { val := fpZero f (if s = t then s else zeroSum rm) }
  | .zero _, .fin t m e => fpRound f rm t m e false
  | .fin s m e, .zero _ => fpRound f rm s m e false
  | .fin s m e, .fin t n g => fpAddFin f rm s m e t n g

/-- The value with its sign inverted. -/
def fpNeg : FpVal → FpVal
  | .nan b => .nan b
  | .inf s => .inf (!s)
  | .zero s => .zero (!s)
  | .fin s m e => .fin (!s) m e

/-- FMUL (04 R113, R115). -/
def fpMul (f : FpFmt) (rm : Rm) (x y : FpVal) : FpRes :=
  match x, y with
  | .nan a, .nan b => fpNaNRes f (a || b)
  | .nan a, _ => fpNaNRes f a
  | _, .nan b => fpNaNRes f b
  | .inf s, .inf t => { val := fpInf f (s != t) }
  | .inf _, .zero _ => fpNaNRes f true
  | .zero _, .inf _ => fpNaNRes f true
  | .inf s, .fin t _ _ => { val := fpInf f (s != t) }
  | .fin s _ _, .inf t => { val := fpInf f (s != t) }
  | .zero s, .zero t => { val := fpZero f (s != t) }
  | .zero s, .fin t _ _ => { val := fpZero f (s != t) }
  | .fin s _ _, .zero t => { val := fpZero f (s != t) }
  | .fin s m e, .fin t n g => fpRound f rm (s != t) (m * n) (e + g) false

/-- FDIV: the quotient carries at least 66 bits and the remainder's sticky bit (04 R113, R115). -/
def fpDiv (f : FpFmt) (rm : Rm) (x y : FpVal) : FpRes :=
  match x, y with
  | .nan a, .nan b => fpNaNRes f (a || b)
  | .nan a, _ => fpNaNRes f a
  | _, .nan b => fpNaNRes f b
  | .inf _, .inf _ => fpNaNRes f true
  | .zero _, .zero _ => fpNaNRes f true
  | .inf s, .zero t => { val := fpInf f (s != t) }
  | .inf s, .fin t _ _ => { val := fpInf f (s != t) }
  | .zero s, .inf t => { val := fpZero f (s != t) }
  | .zero s, .fin t _ _ => { val := fpZero f (s != t) }
  | .fin s _ _, .inf t => { val := fpZero f (s != t) }
  | .fin s _ _, .zero t => { val := fpInf f (s != t), flags := fDZ }
  | .fin s m e, .fin t n g =>
    let num := m * 2 ^ 120
    fpRound f rm (s != t) (num / n) (e - g - 120) (num % n != 0)

/-- The integer square root of n below 4^k, bit by bit: the largest r with r² ≤ n, from r's bits k-1 down. -/
def isqrtFrom (n : Nat) (r : Nat) : Nat → Nat
  | 0 => r
  | k + 1 => if (r + 2 ^ k) * (r + 2 ^ k) ≤ n then isqrtFrom n (r + 2 ^ k) k else isqrtFrom n r k

/-- The integer square root of n below 2^320. -/
def isqrt (n : Nat) : Nat := isqrtFrom n 0 160

/-- FSQRT (04 R113, R115). -/
def fpSqrt (f : FpFmt) (rm : Rm) (x : FpVal) : FpRes :=
  match x with
  | .nan a => fpNaNRes f a
  | .zero s => { val := fpZero f s }
  | .inf s => if s then fpNaNRes f true else { val := fpInf f false }
  | .fin s m e =>
    if s then fpNaNRes f true
    else
      let odd := e % 2 = 1
      let n := (if odd then 2 * m else m) * 2 ^ 140
      let e2 := ((if odd then e - 1 else e) - 140) / 2
      let r := isqrt n
      fpRound f rm false r e2 (r * r != n)

/-- The value of a nonzero finite result of the first rounding of an estimate: 12 significant bits, to nearest even, exponent unbounded (04 R121). -/
def fpEst (f : FpFmt) (s : Bool) (m : Nat) (e : Int) (sticky : Bool) : FpRes :=
  let q := expOf m e - 11
  let (m12, _) := roundAt .rne s m e sticky q
  fpRound f .rne s m12 q false

/-- FRECE (04 R121, R122). -/
def fpRecE (f : FpFmt) (x : FpVal) : FpRes :=
  match x with
  | .nan a => fpNaNRes f a
  | .zero s => { val := fpInf f s, flags := fDZ }
  | .inf s => { val := fpZero f s }
  | .fin s m e =>
    let num := 2 ^ 120
    fpEst f s (num / m) (-e - 120) (num % m != 0)

/-- FRSQE: 1 ÷ √(m · 2^e) as √(2^240 ÷ m) · 2^(−e/2 − 120), e even (04 R121, R122). -/
def fpRsqE (f : FpFmt) (x : FpVal) : FpRes :=
  match x with
  | .nan a => fpNaNRes f a
  | .zero s => { val := fpInf f s, flags := fDZ }
  | .inf s => if s then fpNaNRes f true else { val := fpZero f false }
  | .fin s m e =>
    if s then fpNaNRes f true
    else
      let odd := e % 2 = 1
      let n := if odd then 2 * m else m
      let e1 := if odd then e - 1 else e
      let r := isqrt (2 ^ 240 / n)
      fpEst f false r (-(e1 / 2) - 120) (r * r * n != 2 ^ 240)

/-- The four variants of FMA: x·y + z with the signs of the variant (03 R94). -/
def fpFma (f : FpFmt) (rm : Rm) (x y z : FpVal) : FpRes :=
  let nanIn := isNaN x || isNaN y || isNaN z
  let sn := isSNaN x || isSNaN y || isSNaN z
  let invalid := match x, y with
    | .inf _, .zero _ => true
    | .zero _, .inf _ => true
    | _, _ => false
  if invalid then fpNaNRes f true
  else if nanIn then fpNaNRes f sn
  else
    let sg : FpVal → Bool := fun v => match v with
      | .nan _ => false
      | .inf s => s
      | .zero s => s
      | .fin s _ _ => s
    let ps := sg x != sg y
    match x, y, z with
    | .fin _ m e, .fin _ n g, .fin t k h => fpAddFin f rm ps (m * n) (e + g) t k h
    | .fin _ m e, .fin _ n g, .zero _ => fpRound f rm ps (m * n) (e + g) false
    | .inf _, _, .inf t => if ps = t then { val := fpInf f ps } else fpNaNRes f true
    | _, .inf _, .inf t => if ps = t then { val := fpInf f ps } else fpNaNRes f true
    | .inf _, _, _ => { val := fpInf f ps }
    | _, .inf _, _ => { val := fpInf f ps }
    | _, _, .inf t => { val := fpInf f t }
    | _, _, .fin t k h => fpRound f rm t k h false
    | _, _, .zero t => { val := fpZero f (if ps = t then ps else zeroSum rm) }
    | _, _, .nan _ => fpNaNRes f sn

/-- −1, 0 or 1 as x is less than, equal to or greater than y; neither is a NaN, and −0 equals +0 (04 R119). -/
def fpCmp (x y : FpVal) : Ordering :=
  let key : FpVal → Int := fun v => match v with
    | .nan _ => 0
    | .inf s => if s then -(2 ^ 2200) else 2 ^ 2200
    | .zero _ => 0
    | .fin s m e => (if s then -1 else 1) * ((m * 2 ^ (e + 1080).toNat : Nat) : Int)
  if key x < key y then .lt else if key x = key y then .eq else .gt

/-- The relation of a compare: less, equal, greater or unordered (02 R43). -/
inductive FpRel where
  | lt | eq | gt | un
  deriving DecidableEq, Repr

/-- The relation of two operands (04 R119). -/
def fpRel (x y : FpVal) : FpRel :=
  if isNaN x || isNaN y then .un
  else match fpCmp x y with
    | .lt => .lt
    | .eq => .eq
    | .gt => .gt

/-- CF after a compare with S (02 R43). -/
def fpCf : FpRel → BitVec 4
  | .eq => cfMk false true false false
  | .lt => cfMk true false false false
  | .gt => cfMk false false true false
  | .un => cfMk false false false true

/-- The compares' results and flags (03 R92, 04 R119). -/
def fpCompareRes (fn : FpFn) (x y : FpVal) : FpRes :=
  let r := fpRel x y
  let sn := isSNaN x || isSNaN y
  let un := isNaN x || isNaN y
  match fn with
  | .fcmpeq => { val := if r = .eq then 1 else 0, flags := if sn then fNV else 0 }
  | .fcmplt => { val := if r = .lt then 1 else 0, flags := if un then fNV else 0 }
  | .fcmple => { val := if r = .lt ∨ r = .eq then 1 else 0, flags := if un then fNV else 0 }
  | _ => { val := if r = .un then 1 else 0, flags := if sn then fNV else 0 }

/-- FMIN and FMAX: minimumNumber and maximumNumber, −0 below +0; the result is one of the operands' bit patterns (04 R118). -/
def fpMinMax (f : FpFmt) (isMax : Bool) (a b : W64) : FpRes :=
  let x := fpDecode f a
  let y := fpDecode f b
  let fl : BitVec 5 := if isSNaN x || isSNaN y then fNV else 0
  if isNaN x && isNaN y then { val := fpNaN f, flags := fl }
  else if isNaN x then { val := b, flags := fl }
  else if isNaN y then { val := a, flags := fl }
  else
    let aLess := match fpCmp x y with
      | .lt => true
      | .gt => false
      | .eq => fpSign f a && !fpSign f b
    { val := if aLess != isMax then a else b, flags := fl }

/-- Rounds to an integer in a mode; answers the magnitude and whether it is inexact. -/
def fpToIntMag (rm : Rm) (s : Bool) (m : Nat) (e : Int) : Nat × Bool := roundAt rm s m e false 0

/-- FCVTI and FCVTIU (04 R120). -/
def fpToInt (signed : Bool) (rm : Rm) (x : FpVal) : FpRes :=
  let top : W64 := if signed then 0x7FFFFFFFFFFFFFFF#64 else BitVec.allOnes 64
  let bot : W64 := if signed then 0x8000000000000000#64 else 0
  let hi : Int := if signed then 2 ^ 63 - 1 else 2 ^ 64 - 1
  let lo : Int := if signed then -(2 ^ 63) else 0
  match x with
  | .nan _ => { val := top, flags := fNV }
  | .inf s => { val := if s then bot else top, flags := fNV }
  | .zero _ => { val := 0 }
  | .fin s m e =>
    let (k, nx) := fpToIntMag rm s m e
    let v : Int := if s then -(k : Int) else k
    if hi < v then { val := top, flags := fNV }
    else if v < lo then { val := bot, flags := fNV }
    else { val := BitVec.ofInt 64 v, flags := if nx then fNX else 0 }

/-- ICVTF and IUCVTF (04 R120). -/
def fpOfInt (f : FpFmt) (rm : Rm) (v : Int) : FpRes :=
  if v = 0 then { val := 0 } else fpRound f rm (decide (v < 0)) v.natAbs 0 false

/-- FCVT from the other format (03 R92, 04 R117). -/
def fpCvt (f : FpFmt) (rm : Rm) (x : FpVal) : FpRes :=
  match x with
  | .nan a => fpNaNRes f a
  | .inf s => { val := fpInf f s }
  | .zero s => { val := fpZero f s }
  | .fin s m e => fpRound f rm s m e false

/-- FCLASS (03 R92). -/
def fpClass (f : FpFmt) (a : W64) : W64 :=
  let sub := (a.toNat / 2 ^ (f.p - 1)) % 2 ^ f.ebits = 0
  let bit : Nat := match fpDecode f a with
    | .inf s => if s then 0 else 7
    | .fin s _ _ => if s then (if sub then 2 else 1) else (if sub then 5 else 6)
    | .zero s => if s then 3 else 4
    | .nan sg => if sg then 8 else 9
  BitVec.ofNat 64 (2 ^ bit)

/-- A pattern with its sign bit set to `s`. -/
def fpWithSign (f : FpFmt) (a : W64) (s : Bool) : W64 :=
  BitVec.ofNat 64 (a.toNat % 2 ^ (f.width - 1) + s.toNat * 2 ^ (f.width - 1))

/-- Bits of a value that a format keeps (02 R33). -/
def fpTrim (f : FpFmt) (a : W64) : W64 := BitVec.ofNat 64 (a.toNat % 2 ^ f.width)

/-- The result of an FP operation: `a` and `b` the raw operands from their files (03 R92, 04). -/
def fpVal (dbl : Bool) (fn : FpFn) (rm : Rm) (a b : W64) : FpRes :=
  let f := fmtOf dbl
  let x := fpDecode f (fpTrim f a)
  let y := fpDecode f (fpTrim f b)
  match fn with
  | .fadd => fpAdd f rm x y
  | .fsub => fpAdd f rm x (fpNeg y)
  | .fmul => fpMul f rm x y
  | .fdiv => fpDiv f rm x y
  | .fsqrt => fpSqrt f rm x
  | .fmin => fpMinMax f false (fpTrim f a) (fpTrim f b)
  | .fmax => fpMinMax f true (fpTrim f a) (fpTrim f b)
  | .frece => fpRecE f x
  | .frsqe => fpRsqE f x
  | .fsgnj => { val := fpWithSign f (fpTrim f a) (fpSign f b) }
  | .fsgnjn => { val := fpWithSign f (fpTrim f a) (!fpSign f b) }
  | .fsgnjx => { val := fpWithSign f (fpTrim f a) (fpSign f a != fpSign f b) }
  | .fcmpeq | .fcmplt | .fcmple | .fcmpun => fpCompareRes fn x y
  | .fcvt => fpCvt f rm (fpDecode (fmtOf (!dbl)) (fpTrim (fmtOf (!dbl)) a))
  | .fcvti => fpToInt true rm x
  | .fcvtiu => fpToInt false rm x
  | .icvtf => fpOfInt f rm a.toInt
  | .iucvtf => fpOfInt f rm a.toNat
  | .fmvg => { val := fpTrim f a }
  | .gmvf => { val := fpTrim f a }
  | .fclass => { val := fpClass f (fpTrim f a) }

/-- The register files of an FP operation: the destination is a g register (03 R92). -/
def fpToG : FpFn → Bool
  | .fcmpeq | .fcmplt | .fcmple | .fcmpun | .fcvti | .fcvtiu | .fmvg | .fclass => true
  | _ => false

/-- The source ra is a g register (03 R92). -/
def fpFromG : FpFn → Bool
  | .icvtf | .iucvtf | .gmvf => true
  | _ => false

/-- The result of an FMA variant (03 R94): 0 FMADD, 1 FMSUB, 2 FNMSUB, 3 FNMADD. -/
def fmaVal (dbl : Bool) (v : BitVec 2) (rm : Rm) (a b c : W64) : FpRes :=
  let f := fmtOf dbl
  let x := fpDecode f (fpTrim f a)
  let y := fpDecode f (fpTrim f b)
  let z := fpDecode f (fpTrim f c)
  match v.toNat with
  | 0 => fpFma f rm x y z
  | 1 => fpFma f rm x y (fpNeg z)
  | 2 => fpFma f rm (fpNeg x) y z
  | _ => fpFma f rm (fpNeg x) y (fpNeg z)

end Sys2Proof.Machine
end

