-- ==== Sys2Proof/Machine/Lines.lean ====
section
/-! DEFINITION. Where a line of DRAM lives: its home slice, its code-filter counter, the newest copy of its data; the copies a cluster or the system cache holds. -/

namespace Sys2Proof.Machine

/-- f of the home function: the XOR of the seven 6-bit fields of the line number (08 R242). -/
def lineHash (l : LineNo) : Nat :=
  (l.extractLsb' 0 6 ^^^ l.extractLsb' 6 6 ^^^ l.extractLsb' 12 6 ^^^ l.extractLsb' 18 6 ^^^ l.extractLsb' 24 6
    ^^^ l.extractLsb' 30 6 ^^^ l.extractLsb' 36 6).toNat

/-- HT[f]: f[2:0] at device reset (08 R242). -/
def State.htOf (s : State) (f : Nat) : Oct := mget s.fab.ht f (BitVec.ofNat 3 f)

/-- The home slice of a line (08 R242). -/
def State.homeNo (s : State) (l : LineNo) : Nat := (s.htOf (lineHash l)).toNat

/-- The first line of a page. -/
def firstLine (p : PageNo) : LineNo := BitVec.ofNat 42 (p.toNat * 64)

/-- The home slice of a page's first line, which holds its code-seen bit (08 R259). -/
def State.pageHome (s : State) (p : PageNo) : Nat := s.homeNo (firstLine p)

/-- The code filter's index: the page number folded by XOR into 14 bits (08 R259). -/
def filterIndex (p : PageNo) : Nat :=
  (p.extractLsb' 0 14 ^^^ p.extractLsb' 14 14 ^^^ (p.extractLsb' 28 8).setWidth 14).toNat

/-- The slice's counter of the page is nonzero (08 R259). -/
def filterOn (h : Home) (p : PageNo) : Bool := mget h.filter (filterIndex p) 0 != 0#4

/-- The agent id of a cluster and of a home slice (08 R232). -/
def clusterAgent (k : Nat) : Agent := BitVec.ofNat 5 k
def homeAgent (k : Nat) : Agent := BitVec.ofNat 5 (8 + k)

/-- The home slices in service, ascending (15 R465). -/
def State.aliveHomes (s : State) : List Nat := (List.range 8).filter (fun k => !(s.home k).dead)

/-- The line that a cluster holds, if it holds it. -/
def State.l2 (s : State) (k : Nat) (l : LineNo) : Option L2Line := mget? (s.cluster k).l2 l.toNat
/-- Sets or drops a cluster's line. -/
def State.setL2 (s : State) (k : Nat) (l : LineNo) (v : Option L2Line) : State :=
  let c := s.cluster k
  s.setCluster k { c with l2 := mset? c.l2 l.toNat v }

/-- A core's L1D gives a line up; one that it held in M is written into the L2 (08 R236). -/
def leaveL1 (vc : Vc) (x : L2Line) : L2Line :=
  { x with pres := x.pres.filter (· != vc), dirtyIn := if x.dirtyIn == some vc then none else x.dirtyIn }

/-- A cluster's open request on a line. -/
def State.mshrOf (s : State) (k : Nat) (l : LineNo) : Option Mshr := mget? (s.cluster k).mshr l.toNat
/-- Opens, changes or closes a cluster's request. -/
def State.setMshr (s : State) (k : Nat) (l : LineNo) (v : Option Mshr) : State :=
  let c := s.cluster k
  s.setCluster k { c with mshr := mset? c.mshr l.toNat v }

/-- The open transaction on a line at its home. -/
def State.txnOf (s : State) (k : Nat) (l : LineNo) : Option Txn := mget? (s.home k).txns l.toNat
/-- Opens, changes or closes a transaction. -/
def State.setTxn (s : State) (k : Nat) (l : LineNo) (v : Option Txn) : State :=
  let h := s.home k
  s.setHome k { h with txns := mset? h.txns l.toNat v }

/-- The directory entry of a line. -/
def State.dirOf (s : State) (k : Nat) (l : LineNo) : Option DirEntry := mget? (s.home k).dir l.toNat
/-- Sets or frees a directory entry. -/
def State.setDir (s : State) (k : Nat) (l : LineNo) (v : Option DirEntry) : State :=
  let h := s.home k
  s.setHome k { h with dir := mset? h.dir l.toNat v }

/-- A line as the controllers hold it: a write gathered for its row stands before the slot (09 R280, R281). -/
def dramPeek (d : Dram) (l : LineNo) : Line :=
  let g := mget d.groups (l.toNat / 7) []
  match (g.reverse.find? (fun p => p.1 == l)) with
  | some p => p.2
  | none => dramRead d l.toNat

/-- A line as its home holds it: the system cache, the write-back buffer, then DRAM (08 R239, 09 R280). -/
def State.homeCopy (s : State) (l : LineNo) : Line :=
  let h := s.home (s.homeNo l)
  match mget? h.sc l.toNat with
  | some x => x.data
  | none =>
    match mget? h.wbuf l.toNat with
    | some v => v
    | none => dramPeek s.dram l

/-- The first of eight clusters in which a test succeeds. -/
def firstCluster {α : Type} (f : Nat → Option α) : Option α := (List.range 8).findSome? f

/-- The data of a line that a message in flight carries; `wb` says of which clusters a WB still counts (08 R254). -/
def msgData (l : LineNo) (wb : Oct → Bool) : Msg → Option Line
  | .data _ m d _ _ _ => if m = l then some d else none
  | .dataH _ m d _ => if m = l then some d else none
  | .wb k m d _ => if m = l ∧ wb k = true then some d else none
  | _ => none

/-- The home keeps the data of a WB only from the owner that the entry names, or from the cluster whose FWD_ACK 3 is pending or in (08 R254). -/
def State.wbCounts (s : State) (l : LineNo) (k : Oct) : Bool :=
  let h := s.homeNo l
  (match s.dirOf h l with
    | some e => e.st != .ds && e.owner == k
    | none => false)
  || (match s.txnOf h l with
    | some t => t.fwd == some k || t.wb == some k
    | none => false)

/-- The line's newest value: an owner's copy, a write-back under way, a message under way, the home's transaction, then the home's copy (08 R244). -/
def State.observe (s : State) (l : LineNo) : Line :=
  let owner (k : Nat) : Option Line :=
    match s.l2 k l with
    | some x => if x.st = .s then none else some x.data
    | none => none
  match firstCluster owner with
  | some v => v
  | none =>
    match s.net.findSome? (msgData l (s.wbCounts l)) with
    | some v => v
    | none =>
      match (s.txnOf (s.homeNo l) l).bind (·.data) with
      | some v => v
      | none => s.homeCopy l

/-- n bytes of memory from a physical address on, little-endian, as a coherent reader sees them; at most the rest of the line is read. -/
def State.peek (s : State) (pa n : Nat) : Nat :=
  if inKeep s pa then lineGet (dramPeek s.dram (lineOf pa)) (pa % 64) n
  else lineGet (s.observe (lineOf pa)) (pa % 64) n

/-- The ways that a class may allocate in: the device class always has all 16 (08 R240, 10 R322), less those retired (15 R456). -/
def allocWays (s : State) (h : Home) (c : ClassId) : BitVec 16 :=
  (if c = devClass then 0xFFFF else (s.qosOf c).ways) &&& ~~~ h.badWays

/-- The lines of the system cache in the set of a line: index PA[18:6] (08 R230). -/
def scSet (h : Home) (l : LineNo) : List (Nat × ScLine) := h.sc.filter (fun p => p.1 % 8192 == l.toNat % 8192)

/-- The line that a way of the set holds. -/
def scWay (h : Home) (l : LineNo) (w : Nat) : Option (Nat × ScLine) :=
  (scSet h l).find? (fun p => p.2.way.toNat == w)

/-- The way that an allocation takes among those of a mask: a free one, else one not recently used (08 R239). How the marks of that rule come and go the manual does not say. DESIGN CHOICE (log entry 92): every fill and every hit sets a line's mark, a set in which every way of the mask carries one loses them all, and of several ways the lowest is taken. -/
def scVictim (h : Home) (l : LineNo) (mask : BitVec 16) : Option Nat :=
  let ws := (List.range 16).filter (fun w => mask.getLsbD w)
  match ws.find? (fun w => (scWay h l w).isNone) with
  | some w => some w
  | none =>
    match ws.find? (fun w => match scWay h l w with | some (_, x) => !x.nru | none => true) with
    | some w => some w
    | none => ws.head?

/-- Every line of the set loses its mark where no way of the mask is without one (log entry 92). -/
def scAge (h : Home) (l : LineNo) (mask : BitVec 16) : Home :=
  let full := (List.range 16).all (fun w => !mask.getLsbD w || (match scWay h l w with | some (_, x) => x.nru | none => false))
  if full then
    { h with sc := h.sc.map (fun p => if p.1 % 8192 == l.toNat % 8192 then (p.1, { p.2 with nru := false }) else p) }
  else h

/-- The partner of slice k, which mirrors its write-back buffer (15 R464). -/
def State.partner (s : State) (k : Nat) : Nat :=
  let p := (k + 4) % 8
  if (s.home p).dead then (((List.range 8).map (fun i => (p + i) % 8)).find? (fun j => j != k && !(s.home j).dead)).getD p else p

/-- The write-back buffer of slice k takes a line with its class, or gives it up, and its mirror at the partner with it (09 R280; 15 R464). -/
def setWbuf (s : State) (k : Nat) (l : LineNo) (v : Option (Line × ClassId)) : State :=
  let h := s.home k
  let s1 := s.setHome k { h with wbuf := mset? h.wbuf l.toNat (v.map (·.1)), wcls := mset? h.wcls l.toNat (v.map (·.2)) }
  let p := s1.partner k
  let q := s1.home p
  s1.setHome p { q with mir := mset? q.mir l.toNat (v.map (·.1)) }

/-- A line of slice k's write-back buffer as its partner mirrors it (15 R464). -/
def State.mirrored (s : State) (k : Nat) (l : LineNo) : Option Line := mget? (s.home (s.partner k)).mir l.toNat

/-- Puts a line into a slice's system cache; a dirty line also stands in the write-back buffer until its controller has written it (08 R239, 09 R280). -/
def scPut (s : State) (k : Nat) (l : LineNo) (d : Line) (dirty : Bool) (c : ClassId) : State :=
  let s := if dirty then setWbuf s k l (some (d, c)) else s
  let h := s.home k
  match mget? h.sc l.toNat with
  | some x => s.setHome k { h with sc := mput h.sc l.toNat { x with data := d, dirty := x.dirty || dirty, nru := true } }
  | none =>
    let mask := allocWays s h c
    match scVictim h l mask with
    | none => s
    | some w =>
      let h1 := scAge h l mask
      let sc := match scWay h1 l w with
        | some (v, _) => mdel h1.sc v
        | none => h1.sc
      s.setHome k { h1 with sc := mput sc l.toNat { data := d, dirty := dirty, way := BitVec.ofNat 4 w, nru := true, cls := c } }

/-- The entries of the directory in the set of a line: index PA[17:6] (08 R256). -/
def dirSet (h : Home) (l : LineNo) : List (Nat × DirEntry) := h.dir.filter (fun p => p.1 % 4096 == l.toNat % 4096)

/-- The clusters that an entry names, as a vector. -/
def holders (e : DirEntry) : BitVec 8 :=
  match e.st with
  | .ds => e.sharers
  | _ => e.sharers ||| (1#8 <<< e.owner.toNat)

/-- The clusters of a vector, ascending. -/
def clustersOf (v : BitVec 8) : List Nat := (List.range 8).filter (fun k => v.getLsbD k)

/-- The vector of one cluster. -/
def bitOf (k : Nat) : BitVec 8 := 1#8 <<< k

/-- The directory victim: BUSY = 0, the fewest holders, then NRU = 0 (08 R257). Among entries equal in both the one of the lowest line goes: DESIGN CHOICE (log entry 93). -/
def dirVictim (h : Home) (l : LineNo) : Option (Nat × DirEntry) :=
  let free := (dirSet h l).filter (fun p => (mget? h.txns p.1).isNone)
  let cost (p : Nat × DirEntry) : Nat := 2 * (clustersOf (holders p.2)).length + p.2.nru.toNat
  free.foldl (fun b p => match b with | none => some p | some q => if cost p < cost q then some p else b) none

end Sys2Proof.Machine
end

