-- ==== Sys2Proof/Machine/Logs.lean ====
section
/-! DEFINITION. The fault policy, the log, the units' status, the notices and the uncore counters (15 R472, R478 to R481, R567; 17 R515). -/

namespace Sys2Proof.Machine

/-- The value in force of a FAULT_POLICY_SET item (15 R478). -/
def State.policy (s : State) (item : Nat) : Nat :=
  match mget? s.gate.policy item with
  | some v => v.toNat
  | none =>
    if item = 1 then 3 + 256 * 1000
    else if item = 2 then 2 + 65536 * 16
    else if item = 3 then 1 + 256
    else if item = 4 then 10
    else if item = 5 then 3 + 256 * 1000
    else if item = 6 then 4 + 256 * 10000
    else if item = 7 then 3 + 256 * 1000
    else if item = 8 then 1
    else if item = 9 then 60
    else 0

/-- What a log record says beside its number, time, boot count and notices (15 R479). -/
structure LogIn where
  cls : BitVec 8
  action : BitVec 8
  ukind : BitVec 8
  uindex : Nat
  /-- STALL: the interruption, at most this many ns; its value is free, for the model has no times (15 R455, R456). -/
  stallMax : Nat := 0
  /-- STALL as a value that the spec states. -/
  stall : Nat := 0
  vc : BitVec 16 := 0xFFFF
  owner : ClassId := noClass
  addr : W64 := 0
  /-- DETAIL; none: a unit-specific syndrome whose layout the manual does not give, a free value (15 R479). -/
  detail : Option Nat := none
  deriving DecidableEq, Repr

/-- A unit's status (15 R481). -/
def State.unit (s : State) (kind : BitVec 8) (i : Nat) : UnitStat := mget s.dev.units (kind.toNat * 65536 + i) {}
/-- Sets a unit's status. -/
def State.setUnit (s : State) (kind : BitVec 8) (i : Nat) (u : UnitStat) : State :=
  { s with dev := { s.dev with units := mput s.dev.units (kind.toNat * 65536 + i) u } }

/-- A record of the log that a corrected error or a rollback of the same unit, class and ACTION within 1 s joins (15 R479). -/
def logMerges (s : State) (e : LogIn) (r : LogRec) : Bool :=
  (e.action == 0 || e.action == 1) && r.cls == e.cls && r.action == e.action && r.ukind == e.ukind
    && r.uindex.toNat == e.uindex && decide (s.qz.time ≤ r.time + 1000000000)

/-- Adds an occurrence to the newest record that a test picks. -/
def bumpRec (f : LogRec → Bool) (l : List LogRec) : List LogRec :=
  match l.reverse.find? f with
  | none => l
  | some r =>
    l.map (fun x => if x.seq == r.seq then { x with count := BitVec.ofNat 16 (min (x.count.toNat + 1) 65535) } else x)

/-- STALL and DETAIL of a record, free where the spec states no value. -/
def logOpen (s : State) (e : LogIn) : BitVec 32 × BitVec 32 × State :=
  let (f, s1) := if e.stallMax = 0 then (BitVec.ofNat 64 e.stall, s) else s.free
  let st : BitVec 32 := if e.stallMax = 0 then f.setWidth 32 else BitVec.ofNat 32 (f.toNat % (e.stallMax + 1))
  match e.detail with
  | some d => (st, BitVec.ofNat 32 d, s1)
  | none => (st, s1.free.1.setWidth 32, s1.free.2)

/-- The devices of a channel that UNIT_STATUS reports as failed exceed the limit, and the channel is not lost already (09 R294). -/
def devicesOver (s : State) (c : Oct) : Bool :=
  decide (s.policy 2 % 256 < (s.dram.failedDevs.filter (fun x => x.extractLsb' 0 3 == c)).length)
    && !(s.dram.lost == some c && s.dram.rebuild.isNone)

/-- The uncorrectable bursts of a channel within an hour exceed the limit, and the channel is not lost already (09 R294). -/
def burstsOver (s : State) (c : Oct) : Bool :=
  decide (s.policy 2 / 65536 % 65536
    < (s.dram.bursts.filter (fun b => b.1 == c && decide (s.qz.time < b.2 + 3600000000000))).length)
    && !(s.dram.lost == some c && s.dram.rebuild.isNone)

/-- Makes or merges a log record; the newest 4,096 are kept (15 R479). -/
def logEvent (s0 : State) (e : LogIn) : State :=
  if s0.gate.log.any (logMerges s0 e) then
    { s0 with gate := { s0.gate with log := bumpRec (logMerges s0 e) s0.gate.log } }
  else
    let (st, dt, s) := logOpen s0 e
    let r : LogRec := {
      seq := s.gate.nextSeq, time := s.qz.time, boot := s.flash.bootCount.setWidth 16, cls := e.cls,
      action := e.action, ukind := e.ukind, uindex := BitVec.ofNat 16 e.uindex, stall := st,
      vc := e.vc, owner := e.owner, addr := e.addr, detail := dt, count := 1, flags := 0 }
    let l := s.gate.log ++ [r]
    { s with gate := { s.gate with log := l.drop (l.length - 4096), nextSeq := s.gate.nextSeq + 1 } }

/-- Sets a flag of a record (15 R479, FLAGS). -/
def flagRec (s : State) (seq : BitVec 64) (bit : BitVec 8) : State :=
  { s with gate := { s.gate with log := s.gate.log.map (fun r => if r.seq == seq then { r with flags := r.flags ||| bit } else r) } }

/-- A notice reaches a level of a core: one stands pending, a second is counted in the record of the first (15 R472). -/
def pendNotice (s : State) (vc : Vc) (hyp : Bool) (n : Notice) (fresh : Bool) : State :=
  let c := s.core vc
  let old := if hyp then c.noticeH else c.noticeS
  match old with
  | some o => if fresh then { s with gate := { s.gate with log := bumpRec (fun r => r.seq == o.seq) s.gate.log } } else s
  | none =>
    let s1 := s.setCore vc (if hyp then { c with noticeH := some n } else { c with noticeS := some n })
    flagRec s1 n.seq (if hyp then 2 else 1)

/-- SEQ of the record that an event makes, or of the one that it joins (15 R479). -/
def logSeq (s : State) (e : LogIn) : BitVec 64 := ((s.gate.log.find? (logMerges s e)).map (·.seq)).getD s.gate.nextSeq

/-- The notices of a fault at a virtual core, or of none, with the SEQ of its record: to the hypervisor, and for classes 0x01 to 0x06 to the pavilion that ran there (15 R472). -/
def notify (s : State) (cls : BitVec 8) (seq : BitVec 64) (vc : Option Vc) : State :=
  let n : Notice := { cls := cls, seq := seq }
  let hv : Vc := vc.getD 0
  let s1 := if (s.policy 0x200).testBit cls.toNat then pendNotice s hv true n true else s
  match vc with
  | none => s1
  | some v =>
    let a := (s1.core v).arch
    if 1 ≤ cls.toNat ∧ cls.toNat ≤ 6 ∧ a.run = true ∧ (s1.policy (0x100 + a.tr.vmid.toNat)).testBit cls.toNat = true then
      pendNotice s1 v false n true
    else s1

/-- A fault is recorded: its log record, the unit's last class and time, and its notices. -/
def recordFault (s : State) (e : LogIn) (vc : Option Vc) : State :=
  let u := s.unit e.ukind e.uindex
  let s1 := s.setUnit e.ukind e.uindex { u with lastClass := e.cls, lastTime := s.qz.time }
  notify (logEvent s1 e) e.cls (logSeq s1 e) vc

/-- A corrected error: the count of its unit and a record with ACTION 0x00 (15 R461, R567). -/
def recordCorrected (s : State) (cls kind : BitVec 8) (i : Nat) : State :=
  let u := s.unit kind i
  let s1 := s.setUnit kind i { u with
    state := if u.state = 0 then 1 else u.state, lastClass := cls, lastTime := s.qz.time,
    corrected := satAdd32 u.corrected 1 }
  let e : LogIn := { cls := cls, action := 0, ukind := kind, uindex := i }
  notify (logEvent s1 e) cls (logSeq s1 e) none

/-- One unit is set to a STATE of UNIT_STATUS. -/
def unitState (s : State) (kind : BitVec 8) (i : Nat) (st : BitVec 8) : State :=
  let u := s.unit kind i
  s.setUnit kind i { u with state := st }

/-- One event at an uncore counter: it wraps silently and sets its overflow bit (17 R515). -/
def ucBump (u : Uncore) (code : BitVec 8) (cls : ClassId) (j : Nat) : Uncore :=
  if mget u.evt j 0 = code ∧ code ≠ 0 ∧ (match mget? u.flt j with | none => true | some c => c == cls) = true then
    let v := mget u.cnt j 0
    { u with cnt := mput u.cnt j (v + 1), ovf := if v = BitVec.allOnes 64 then u.ovf ||| (1#4 <<< j) else u.ovf }
  else u

/-- An uncore event of a unit, by the allocation class that caused it (17 R515). -/
def uncoreEvent (s : State) (unit : Nat) (code : BitVec 8) (cls : ClassId) : State :=
  let u := mget s.uncore unit {}
  let u' := (List.range 4).foldl (fun a j => ucBump a code cls j) u
  if u' = u then s else { s with uncore := mput s.uncore unit u' }

/-- Some uncore events in succession. -/
def uncoreTimes (s : State) (unit : Nat) (code : BitVec 8) (cls : ClassId) : Nat → State
  | 0 => s
  | n + 1 => uncoreEvent (uncoreTimes s unit code cls n) unit code cls

end Sys2Proof.Machine
end

