-- ==== Sys2Proof/Machine/FabricNet.lean ====
section
/-! DEFINITION. How messages travel: stops and links, routes, headers' TAG and SEQ, virtual channels, acknowledgement and resending (08 R232 to R235, R250). -/

namespace Sys2Proof.Machine

/-- Class of a message: 1 REQ, 2 FWD, 3 RSP, 4 DAT (08 R245). -/
def msgClass : Msg → Nat
  | .mrd .. | .wb .. | .codeMark .. | .codeSet .. | .codeClr .. | .codeQuery .. => 1
  | .fwdS .. | .fwdX .. | .fwdRd .. | .inv .. | .binv .. | .drop .. | .kinv .. => 2
  | .data .. | .dataH .. | .mdata .. | .adata .. => 4
  | _ => 3

/-- The stop that an agent attaches to (08 R232). -/
def agentStop (a : Agent) : Nat :=
  let n := a.toNat
  if n < 8 then 2 * n
  else if n < 16 then 2 * (n - 8) + 1
  else if n < 24 then 2 * (n - 16) + 1
  else if n = 25 then 8
  else if n = 26 then 4
  else if n = 27 then 6
  else if n = 28 then 10
  else if n = 29 then 14
  else 0

/-- The stop from which an agent sends: agent 30 is at the stop of the spine copy that serves (08 R232, R265). -/
def State.stopOf (s : State) (a : Agent) : Nat := if a = 30 ∧ s.fab.spine.mirror = true then 8 else agentStop a

/-- DST of a message (08 R232, R245). -/
def msgDst (s : State) : Msg → Agent
  | .fwdS k .. | .fwdX k .. | .fwdRd k _ | .inv k .. | .binv k _ | .drop k _ | .grant k .. | .wbAck k _ | .data k .. => clusterAgent k.toNat
  | .kinv _ => 25
  | .ack _ a _ | .nack a .. | .retry a _ | .done a _ | .adata a .. => a
  | .fwdAck _ l _ | .notHeld _ l | .cmp _ l | .wb _ l .. | .dataH _ l .. => homeAgent (s.homeNo l)
  | .mdata l _ => if inKeep s (l.toNat * 64) then 30 else homeAgent (s.homeNo l)
  | .mrd l => BitVec.ofNat 5 (16 + readChannel s.dram (slotOf s.dram.mode l.toNat))
  | .dropAck _ p | .codeMark p _ | .codeQuery p _ => homeAgent (s.pageHome p)
  | .codeSet k _ | .codeClr k _ => homeAgent k.toNat
  | .codeDone _ k _ => homeAgent k.toNat

/-- The line that a message names; none: it names a page. -/
def msgLine : Msg → Option LineNo
  | .fwdS _ l _ | .fwdX _ l _ _ | .fwdRd _ l | .inv _ l _ _ | .binv _ l | .kinv l | .ack _ _ l | .fwdAck _ l _ | .notHeld _ l
  | .grant _ l _ | .cmp _ l | .wb _ l _ _ | .wbAck _ l | .nack _ l _ | .retry _ l | .done _ l | .data _ l _ _ _ _ | .dataH _ l _ _
  | .mrd l | .mdata l _ | .adata _ l _ | .codeMark _ l | .codeQuery _ l => some l
  | .drop .. | .dropAck .. | .codeSet .. | .codeClr .. | .codeDone .. => none

/-- The links of a stop and the stops that they lead to: up and down the ring, and across its diameter (08, the ring; 15 R481). -/
def linksAt (a : Nat) : List (Nat × Nat) := [(a, (a + 1) % 16), ((a + 15) % 16, (a + 15) % 16), (16 + a % 8, (a + 8) % 16)]

/-- The links of a stop that routing uses: those that have not failed (08 R234). -/
def liveLinks (s : State) (a : Nat) : List (Nat × Nat) := (linksAt a).filter (fun p => !(mget s.fab.links p.1 {}).failed)

/-- The stops from which a stop is at most n links away. -/
def within (s : State) (b : Nat) : Nat → List Nat
  | 0 => [b]
  | n + 1 => let r := within s b n; (List.range 16).filter (fun a => r.contains a || (liveLinks s a).any (fun p => r.contains p.2))

/-- The next link of a shortest way from stop a to stop b, and the stop behind it; of several links the ring's upward one, then the downward one. The manual names no routing rule but that failed links are left out: DESIGN CHOICE (log entry 81). -/
def nextHop (s : State) (a b : Nat) : Option (Nat × Nat) :=
  match (List.range 16).find? (fun n => (within s b n).contains a) with
  | some (n + 1) => (liveLinks s a).find? (fun p => (within s b n).contains p.2)
  | _ => none

/-- The links from stop a to stop b. -/
def routeOf (s : State) (b : Nat) : Nat → Nat → List Nat
  | 0, _ => []
  | f + 1, a => match nextHop s a b with
    | none => []
    | some (l, c) => l :: routeOf s b f c

/-- The links that a message has taken, or takes, from its source stop to its destination's (08 R234). -/
def fabRoute (s : State) (p : FabMsg) : List Nat := routeOf s (s.stopOf (msgDst s p.msg)) 16 (s.stopOf p.src)

/-- A message moves one link; past ST0 it stands in the upper buffer set of its class (08 R250). -/
def moveOne (s : State) (p : FabMsg) : FabMsg :=
  match nextHop s p.place.toNat (s.stopOf (msgDst s p.msg)) with
  | none => p
  | some (_, b) => { p with place := BitVec.ofNat 4 b, upper := p.upper || (p.place == 0 && s.stopOf p.src != 0) }

/-- Every message moves one link. -/
def moveAll (s : State) : State := { s with fab := { s.fab with net := s.fab.net.map (moveOne s) } }

/-- The virtual channel of a class on a link: its lower or upper buffer set holds the messages that go over the link next (08 R250). -/
def channel (s : State) (link cls : Nat) (upper : Bool) : List FabMsg :=
  s.fab.net.filter (fun p => msgClass p.msg == cls && p.upper == upper
    && ((nextHop s p.place.toNat (s.stopOf (msgDst s p.msg))).map (·.1) == some link))

/-- A transaction tag that the agent's open transactions do not carry: tags are given out in turn (08 R233). -/
def State.newTag (s : State) (a : Agent) : BitVec 16 × State :=
  let t := mget s.fab.tags a.toNat 0
  (t, { s with fab := { s.fab with tags := mput s.fab.tags a.toNat (t + 1) } })

/-- TAG of a message of an open transaction: that of the request that its home, its cluster or the spine holds (08 R233). -/
def txnTag (s : State) (m : Msg) : BitVec 16 :=
  match m with
  | .wb k l _ _ | .wbAck k l => ((mget? (s.cluster k.toNat).wb l.toNat).map (·.tag)).getD 0
  | _ => match msgLine m with
    | none => 0
    | some l => match s.txnOf (s.homeNo l) l, mget? s.fab.spine.open_ l.toNat with
      | some t, _ => t.req.tag
      | none, some p => p.1.tag
      | none, none => 0

/-- An agent injects a message with a tag, for an allocation class: its stop numbers and counts it (08 R233, R234; 17 R515). -/
def sendT (s : State) (src : Agent) (cls : ClassId) (tag : BitVec 16) (m : Msg) : State :=
  let n := s.stopOf src
  let q := mget s.fab.seqs n 0
  let p : FabMsg := { msg := m, src := src, cls := cls, tag := tag, seq := q, place := BitVec.ofNat 4 n }
  uncoreEvent { s with fab := { s.fab with net := s.fab.net ++ [p], seqs := mput s.fab.seqs n (q + 1) } } (16 + n)
    (BitVec.ofNat 8 (msgClass m)) cls

/-- An agent injects a message of an open transaction. -/
def sendM (s : State) (src : Agent) (cls : ClassId) (m : Msg) : State := sendT s src cls (txnTag s m) m

/-- Sends a message to each of some clusters. -/
def sendAll (s : State) (src : Agent) (cls : ClassId) (m : Nat → Msg) (ks : List Nat) : State :=
  ks.foldl (fun t k => sendM t src cls (m k)) s

/-- Removes the first message that a test picks. -/
def takeMsg (f : Msg → Bool) : List FabMsg → Option (FabMsg × List FabMsg)
  | [] => none
  | p :: t => if f p.msg then some (p, t) else (takeMsg f t).map (fun q => (q.1, p :: q.2))

/-- The key of the SEQs that one stop has taken from another. -/
def heardKey (a b : Nat) : Nat := 16 * a + b

/-- A message passes the check of its CRC at its destination stop, which notes its SEQ and acknowledges it; the source stop keeps its copy until the acknowledgement is in, and the links of its route have carried a good send (08 R234). `rest`: the other messages in flight. -/
def arrive (s : State) (p : FabMsg) (rest : List FabMsg) : State :=
  let a := s.stopOf p.src
  let key := heardKey a (s.stopOf (msgDst s p.msg))
  let good := fun (e : Nat × Link) => if e.2.fails != 0 && (fabRoute s p).contains e.1 then (e.1, { e.2 with fails := 0 }) else e
  { s with fab := { s.fab with
    net := rest, heard := mput s.fab.heard key ((p.seq :: mget s.fab.heard key []).take 128), kept := mput s.fab.kept a p,
    links := s.fab.links.map good } }

/-- The copies that a stop keeps of messages that go over a link: those in flight first, oldest first, then the one delivered last (08 R234). -/
def keptOver (s : State) (stop link : Nat) : Option FabMsg :=
  match s.fab.net.find? (fun p => s.stopOf p.src == stop && (fabRoute s p).contains link) with
  | some p => some p
  | none => (mget? s.fab.kept stop).filter (fun p => (fabRoute s p).contains link)

/-- A stop sends a message again. One that has arrived meets its SEQ at its destination stop, which discards it and acknowledges it once more, so that the copy goes; one that has not begins its way again at its source, with its SEQ (08 R234). -/
def resend (s : State) (stop : Nat) (p : FabMsg) : State :=
  let heard := (mget s.fab.heard (heardKey stop (s.stopOf (msgDst s p.msg))) []).contains p.seq
  if s.fab.net.contains p then
    { s with fab := { s.fab with net := s.fab.net.erase p ++ [{ p with place := BitVec.ofNat 4 stop, upper := false }] } }
  else if heard then { s with fab := { s.fab with kept := mdel s.fab.kept stop } }
  else s

end Sys2Proof.Machine
end

