-- ==== Sys2Proof/Machine/Trace.lean ====
section
/-! DEFINITION. The flow-trace encoder and the funnel's input (17 R516 to R525). -/

namespace Sys2Proof.Machine

/-- n bytes of a number, little-endian. -/
def leBytes (v : Nat) : Nat → List Byte
  | 0 => []
  | n + 1 => BitVec.ofNat 8 (v % 256) :: leBytes (v / 256) n

/-- The number that some bytes spell, little-endian. -/
def leNat : List Byte → Nat
  | [] => 0
  | b :: t => b.toNat + 256 * leNat t

/-- The packets that an encoder emits beside SYNC (17 R518). -/
inductive Pkt where
  | br (bits : List Bool)
  | ind (target : W64)
  | exc (cls : BitVec 6) (lvl : Level) (epc entry : W64)
  | ctx
  | ts
  | restIn
  | restOut
  | migrate (old new : BitVec 8)
  deriving DecidableEq, Repr

/-- The condition style in force for code of a core at a level: the CSTYLE of the pavilion that VMID_H names, C-style where that pavilion is NONE (02 R40, 10 R305). -/
def State.fStyleOf (s : State) (a : Arch) : Bool :=
  let p := s.pav a.tr.vmid
  p.st != .none && fStyle a.level p.ctl

/-- The ASID in force: HASID at H, else ASID_S (17 R518). -/
def asidOf (a : Arch) : BitVec 16 := if a.level = .h then a.tr.hasid else a.tr.asid

/-- SYNC byte 6: level and CSTYLE (17 R518). -/
def ctxByte (s : State) (a : Arch) : Byte := (levelCode a.level).setWidth 8 ||| (if s.fStyleOf a then 4#8 else 0#8)

/-- The smallest k from 1 to m whose low 8k bits reproduce v from `last` (17 R518). -/
def packK (last v : Nat) : Nat → Nat
  | 0 => 1
  | m + 1 => if v / 2 ^ (8 * m) = last / 2 ^ (8 * m) ∧ 1 ≤ m then packK last v m else m + 1

/-- A SYNC packet: the PC of the next instruction to commit and its context (17 R518). -/
def syncBytes (s : State) (vc : Vc) (a : Arch) (pc : W64) : List Byte :=
  [0x10#8, vc.setWidth 8] ++ leBytes pc.toNat 6 ++ [ctxByte s a, a.tr.vmid] ++ leBytes (asidOf a).toNat 2
    ++ leBytes a.vcpu.toNat 2 ++ leBytes s.qz.time 8 ++ leBytes 0 2

/-- W of a BR packet: outcome i in bit i and a one above them (17 R518). -/
def brWord : List Bool → Nat
  | [] => 1
  | b :: t => b.toNat + 2 * brWord t

/-- A packet's bytes, and the encoder with the compression values that it sets (17 R518). -/
def pktBytes (s : State) (vc : Vc) (a : Arch) (e : Encoder) (p : Pkt) : List Byte × Encoder :=
  let src : Byte := vc.setWidth 8
  let now := s.qz.time
  let timed (h : Nat) : List Byte × Encoder :=
    let k := packK e.lastTime now 8
    ([BitVec.ofNat 8 (16 * h + k), src] ++ leBytes now k, { e with lastTime := now })
  match p with
  | .br bits => ([0x20#8, src] ++ leBytes (brWord bits) 4, { e with held := [] })
  | .ind t =>
    let va := t.toNat % 2 ^ 48
    let k := packK (e.lastAddr.toNat % 2 ^ 48) va 6
    ([BitVec.ofNat 8 (0x30 + k), src] ++ leBytes va k, { e with lastAddr := t })
  | .exc c l epc entry =>
    ([0x40#8, src, c.setWidth 8 ||| ((levelCode l).setWidth 8 <<< 6)] ++ leBytes epc.toNat 6 ++ leBytes entry.toNat 6,
      { e with lastAddr := entry })
  | .ctx =>
    ([0x50#8, src, ctxByte s a, a.tr.vmid] ++ leBytes (asidOf a).toNat 2 ++ leBytes a.vcpu.toNat 2, { e with lastAddr := a.pc })
  | .ts => timed 6
  | .restIn => timed 8
  | .restOut => timed 9
  | .migrate o n => ([0xA0#8, src, o, n] ++ leBytes now 8, { e with lastTime := now })

/-- The priority class of a virtual core's packets (17 R522). -/
def traceClass (s : State) (vc : Vc) : BitVec 2 := s.funnel.classes.extractLsb' (2 * vc.toNat) 2

/-- Counts a dropped packet of a source: TRC_LOST, TF_DROPc and the gap (17 R525). -/
def dropPacket (s : State) (vc : Vc) : State :=
  let c := s.core vc
  let k := traceClass s vc
  let s1 := s.setCore vc { c with trc := { c.trc with
    lost := satAdd32 c.trc.lost 1, gap := min (c.trc.gap + 1) (2 ^ 32 - 1), gapClass := k, needSync := true } }
  uncoreEvent { s1 with funnel := { s1.funnel with drop := mput s1.funnel.drop k.toNat (satAdd32 (mget s1.funnel.drop k.toNat 0) 1) } }
    35 (BitVec.ofNat 8 (2 + k.toNat)) devClass

/-- The bytes that wait in a source's encoder output buffer. -/
def outBytes (s : State) (vc : Vc) : Nat :=
  (s.funnel.out.filter (fun p => p.1 == vc.setWidth 7)).foldl (fun a p => a + p.2.length) 0

/-- An encoder gives a packet to its 1 KiB output buffer; the newest packet is dropped where it does not fit (17 R524). -/
def pushPacket (s : State) (vc : Vc) (bs : List Byte) : State :=
  if outBytes s vc + bs.length ≤ 1024 then
    let c := s.core vc
    let s1 := s.setCore vc { c with trc := { c.trc with bytes := c.trc.bytes + bs.length } }
    { s1 with funnel := { s1.funnel with out := s1.funnel.out ++ [(vc.setWidth 7, bs)] } }
  else dropPacket s vc

/-- Emits one packet as it stands. -/
def emitRaw (s : State) (vc : Vc) (a : Arch) (p : Pkt) : State :=
  let c := s.core vc
  let (bs, e) := pktBytes s vc a c.trc p
  pushPacket (s.setCore vc { c with trc := e }) vc bs

/-- Emits the outcome bits held as a BR (17 R519); after a drop the SYNC must come first, so a BR that stands before it is dropped and counted too (17 R520, R525). -/
def emitHeld (s : State) (vc : Vc) (a : Arch) : State :=
  let c := s.core vc
  if c.trc.held = [] then s
  else if c.trc.needSync && c.trc.gap != 0 then dropPacket (s.setCore vc { c with trc := { c.trc with held := [] } }) vc
  else emitRaw s vc a (.br c.trc.held)

/-- Emits a SYNC where one is due (17 R520). -/
def emitSync (s : State) (vc : Vc) (a : Arch) (pc : W64) : State :=
  let c := s.core vc
  if c.trc.needSync || decide (2 ^ s.funnel.synck ≤ c.trc.bytes) then
    let s1 := s.setCore vc { c with trc := { c.trc with needSync := false, bytes := 0, lastAddr := pc, lastTime := s.qz.time } }
    pushPacket s1 vc (syncBytes s vc a pc)
  else s

/-- Emits a TS where a boundary of 2^TSK ns has passed since LAST_TIME (17 R520). -/
def emitTs (s : State) (vc : Vc) (a : Arch) : State :=
  let k := s.funnel.tsk
  if k ≠ 0 ∧ s.qz.time / 2 ^ k ≠ (s.core vc).trc.lastTime / 2 ^ k then emitRaw s vc a .ts else s

/-- Emits a packet with what must stand before it: the held bits, a SYNC, a TS (17 R519, R520). -/
def emit (s : State) (vc : Vc) (a : Arch) (pc : W64) (p : Pkt) : State :=
  emitRaw (emitTs (emitSync (emitHeld s vc a) vc a pc) vc a) vc a p

/-- The encoder's conditions hold at a level (17 R517). -/
def traceOn (s : State) (vc : Vc) (a : Arch) : Bool :=
  let t := (s.core vc).trc.ctl
  s.funnel.on && t.getLsbD 0 && t.getLsbD (1 + levelNum a.level)
    && (!t.getLsbD 4 || a.level == .h || a.tr.vmid == t.extractLsb' 8 8)

/-- Notes whether tracing is active; when it becomes active, a SYNC is the first packet (17 R517). -/
def traceEnter (s : State) (vc : Vc) (a : Arch) (pc : W64) : State :=
  let c := s.core vc
  if traceOn s vc a then
    if c.trc.active then s
    else emitSync (s.setCore vc { c with trc := { c.trc with active := true, needSync := true, held := [] } }) vc a pc
  else s.setCore vc { c with trc := { c.trc with active := false } }

/-- What a committed instruction gives the encoder (17 R519). `a` holds the context it executed in. -/
def traceRetire (s : State) (vc : Vc) (a : Arch) (r : Retire) : State :=
  let s0 := traceEnter s vc { a with level := r.level } r.pc
  if traceOn s0 vc { a with level := r.level } then
    let s1 := if (s0.core vc).trc.held.isEmpty && (s0.core vc).trc.gap == 0 then emitSync s0 vc { a with level := r.level } r.pc else s0
    let s2 := match r.cond with
      | none => s1
      | some (_, taken) =>
        let c := s1.core vc
        let s' := s1.setCore vc { c with trc := { c.trc with held := c.trc.held ++ [taken] } }
        if c.trc.held.length + 1 = 30 then emitTs (emitHeld s' vc a) vc a else s'
    match r.ind with
    | none => s2
    | some t => emit s2 vc a r.pc (.ind t)
  else s0

/-- CTX after a commit that changed the level, VMID_H, the ASID in force or VCPU_H; `old` and `new` are the registers before and after (17 R519). -/
def traceCtx (s : State) (vc : Vc) (old new : Arch) : State :=
  let changed := old.level != new.level || old.tr.vmid != new.tr.vmid || asidOf old != asidOf new || old.vcpu != new.vcpu
  if changed && traceOn s vc old then emit s vc new new.pc .ctx else s

/-- EXC at the entry of an exception, an interrupt or a notice (17 R519). -/
def traceExc (s : State) (vc : Vc) (old new : Arch) (cls : BitVec 6) (l : Level) (epc : W64) : State :=
  let s1 := traceEnter s vc old old.pc
  if traceOn s1 vc old then traceCtx (emit s1 vc new new.pc (.exc cls l epc new.pc)) vc old new else s1

end Sys2Proof.Machine
end

