-- ==== Sys2Proof/Machine/Undo.lean ====
section
/-! DEFINITION. Undoing uncommitted work in a core, and dropping regions (05 R132, R145, R156). -/

namespace Sys2Proof.Machine

/-- Work stands past the core's last commit point. -/
def uncommitted (c : Core) : Bool :=
  !c.retire.isEmpty || !c.ckpts.isEmpty || !c.tickets.isEmpty || c.sb.any (fun e => !e.committed)

/-- The pavilion controls in force for guest code of a core; none at H and where the pavilion is NONE (02 R38, 10 R305). -/
def State.ctlOf (s : State) (a : Arch) : BitVec 16 :=
  let p := s.pav a.tr.vmid
  if p.st = .none then 0 else p.ctl

/-- PRED_OFF is in force: a pavilion's control, at U and S (05 R153). -/
def State.predOff (s : State) (a : Arch) : Bool := a.level != .h && (s.ctlOf a).getLsbD 1
/-- STRICT_SPEC is in force (05 R156). -/
def State.strictSpec (s : State) (a : Arch) : Bool := a.level != .h && (s.ctlOf a).getLsbD 3

/-- A dirty line that a cluster gives up goes into its write-back buffer, and WB to its home (08 R236, R246, R254). -/
def sendWb (s : State) (k : Nat) (l : LineNo) (x : L2Line) : State :=
  let (tag, s0) := s.newTag (clusterAgent k)
  let c := s0.cluster k
  sendT (s0.setCluster k { c with wb := mput c.wb l.toNat { data := x.data, cls := x.cls, tag := tag } }) (clusterAgent k) x.cls tag
    (.wb (BitVec.ofNat 3 k) l x.data x.cls)

/-- Discards one fill of an undone access, unless another core has used it since: the L1D gives the line up; the cluster L2 writes a dirty line back and invalidates a clean one; an entry of the translation caches goes (05 R156). -/
def discardFill (vc : Vc) (s : State) (f : Fill) : State :=
  let k := s.clusterOf vc
  match f with
  | .l1d l => match s.l2 k l with
    | none => s
    | some x => s.setL2 k l (some (leaveL1 vc x))
  | .l2 l => match s.l2 k l with
    | none => s
    | some x =>
      if x.pres.all (· == vc) && x.unperf.isNone && (s.mshrOf k l).isNone then
        let s1 := s.setL2 k l none
        if x.st == .m || x.st == .o then sendWb s1 k l x else s1
      else s
  | .dtlb e => s.updCore vc (fun c => { c with micro := { c.micro with dtlb := c.micro.dtlb.filter (· != e) } })
  | .l2tlb e => s.updCore vc (fun c => { c with micro := { c.micro with l2tlb := c.micro.l2tlb.filter (· != e) } })
  | .walk w => s.updCore vc (fun c => { c with micro := { c.micro with walks := c.micro.walks.filter (· != w) } })
  | .kept => s

/-- The fills of the undone accesses that STRICT_SPEC has tagged are discarded, those past the first `n` (05 R156; 10 R304). -/
def discardFills (s : State) (vc : Vc) (n : Nat) : State :=
  let fs := (s.core vc).fills
  (fs.drop n).foldl (discardFill vc) (s.updCore vc (fun c => { c with fills := fs.take n }))

/-- The paces of some undone courses: all six slots of each are wasted (17 R513). -/
def wastedPaces (rs : List Retire) : List Level := rs.flatMap (fun r => List.replicate r.courses r.level)

/-- The core's registers, buffers and predictors as the last commit point left them (05 R145, R155). -/
def undoCore (c : Core) : Core :=
  { c with
    spec := c.arch, sb := c.sb.filter (·.committed), tickets := [], retire := [], ckpts := [], region := none, rix := 0,
    owait := false, entry := false, block := c.blockC, blockPa := c.blockPaC, fills := [], entered := [],
    irqAge := c.irqAge - c.retire.length,
    wasted := c.wasted ++ wastedPaces c.retire,
    micro := { c.micro with
      ghist := c.ghistC, ras := c.rasC, readMarks := [], syncMarks := c.micro.syncMarks.filter c.syncC.contains,
      fetchBuf := c.fetchC } }

/-- The fetch buffer of a core, and its copies that an undo would bring back, keep the lines that a test picks (05 R155, R160). -/
def keepFetch (c : Core) (f : LineNo → Bool) : Core :=
  let at_ (k : Ckpt) : Ckpt := { k with fetch := k.fetch.filter f }
  { c with
    fetchC := c.fetchC.filter f, ckpts := c.ckpts.map at_, retire := c.retire.map (fun r => { r with pt := r.pt.map at_ }),
    micro := { c.micro with fetchBuf := c.micro.fetchBuf.filter f } }

/-- Rollback to the last commit point; the core goes on in step mode (05 R145, R146). -/
def rollbackCore (s : State) (vc : Vc) : State :=
  let s1 := discardFills s vc 0
  s1.setCore vc (undoCore (s1.core vc))

/-- An event outside a commit waits to be counted (17 R507). -/
def queueEvent (s : State) (vc : Vc) (ev : BitVec 8) : State :=
  s.updCore vc (fun c => { c with evq := c.evq ++ [(ev, c.spec.level)] })

/-- A rollback for an exception condition, a load-order violation, a partial overlap or DEVICE discovery, which SPEC_ROLLBACK counts (05 R145, 17 R507). -/
def specRollback (s : State) (vc : Vc) : State := queueEvent (rollbackCore s vc) vc 0x14

/-- Every core of a cluster but one whose uncommitted load has read the line rolls back (08 R238). -/
def rollbackReaders (s : State) (k : Nat) (l : LineNo) (except : Option Vc) : State :=
  (s.coresOf k).foldl
    (fun t v => if some v != except && (t.core v).micro.readMarks.contains l then specRollback t v else t) s

/-- The physical address of an instruction of a region. -/
def Region.paOf (r : Region) (pc : W64) : BitVec 48 := BitVec.ofNat 48 (r.key.page.toNat * 4096 + pc.toNat % 4096)

/-- The blocks of some regions return to step mode with hot counts of zero; a request that has been sent stays (05 R131; 07 R222). -/
def coolBlocks (rs : List Region) (hot : List HotEntry) : List HotEntry :=
  let of (h : HotEntry) (r : Region) : Bool :=
    r.key.ctx == h.ctx && r.key.fstyle == h.fstyle && r.courses.any (fun x => r.paOf x.pc == h.pa)
  hot.filter (fun h => h.sent || !rs.any (of h))

/-- A commit point stands where the core is (05 R125, R143). -/
def atPoint (c : Core) : Bool :=
  match c.retire.getLast? with
  | none => true
  | some r => r.pt.isSome

/-- Drops the regions of a core that a test picks: the next block entry finds none of them, and their blocks count from zero (05 R132; 07 R222). A core that is in one of them goes on in step mode, from its last commit point where it stands past one (log entry 12). -/
def dropRegions (s : State) (vc : Vc) (f : Region → Bool) : State :=
  let c := s.core vc
  let gone := c.micro.regions.filter f
  if gone.isEmpty then s
  else
    let inOne := match c.region with
      | some k => gone.any (fun r => r.key == k)
      | none => false
    let c1 := { c with
      micro := { c.micro with regions := c.micro.regions.filter (fun r => !f r), hot := coolBlocks gone c.micro.hot },
      evq := c.evq ++ gone.map (fun _ => (0x17#8, c.spec.level)) }
    if !inOne then s.setCore vc c1
    else if atPoint c then s.setCore vc { c1 with region := none, rix := 0, entry := false }
    else rollbackCore (s.setCore vc c1) vc

/-- A request that is refused or discarded: the block's count restarts at zero (05 R126). -/
def forgetReq (s : State) (r : XlateReq) : State :=
  s.updCore r.vc (fun c => { c with micro := { c.micro with hot := c.micro.hot.map (fun h =>
    if h.pa == r.pa && h.ctx == r.key.ctx && h.fstyle == r.key.fstyle then { h with count := 0, due := false, sent := false } else h) } })

/-- Discards the translation requests and finished regions of a cluster that a test picks (05 R132). -/
def dropRequests (s : State) (k : Nat) (f : XlateReq → Bool) : State :=
  let c := s.cluster k
  ((c.xlq ++ c.ready).filter f).foldl forgetReq (s.setCluster k { c with
    xlq := c.xlq.filter (fun r => !f r), ready := c.ready.filter (fun r => !f r) })

/-- Forgets the regions that a translator keeps and a test picks (05 R129, R132). -/
def dropRecent (s : State) (k : Nat) (f : Region → Bool) : State :=
  let c := s.cluster k
  s.setCluster k { c with recent := c.recent.filter (fun r => !f r) }

/-- The core holds uncommitted courses fetched from a page (05 R162). -/
def fetchedFrom (c : Core) (p : PageNo) : Bool := c.retire.any (fun r => r.page == p)

/-- A cluster's part of a code drop: every core that holds uncommitted courses of the page rolls back, and every core and the translator drop what comes from it (05 R160, R162). -/
def dropPage (s : State) (k : Nat) (p : PageNo) : State :=
  let one (t : State) (v : Vc) : State :=
    let t1 := if fetchedFrom (t.core v) p then rollbackCore t v else t
    let t2 := dropRegions t1 v (fun r => r.key.page == p)
    t2.updCore v (fun c0 =>
      let c := keepFetch c0 (fun l => pageOfLine l != p)
      { c with micro := { c.micro with hot := c.micro.hot.filter (fun h => h.pa.extractLsb' 12 36 != p) } })
  dropRecent (dropRequests ((s.coresOf k).foldl one s) k (fun r => r.key.page == p)) k (fun r => r.key.page == p)

end Sys2Proof.Machine
end

