-- ==== Sys2Proof/Machine/Coherence.lean ====
section
/-! DEFINITION. The coherence protocol: what a home slice and a cluster do with each message (08 R246 to R260). -/

namespace Sys2Proof.Machine

/-- The request leaves a directory entry behind (08 R247). -/
def needsEntry : ReqKind → Bool
  | .rdS | .rdCode | .rdX | .upg => true
  | _ => false

/-- Changes a transaction if it is open. -/
def updTxn (s : State) (k : Nat) (l : LineNo) (f : Txn → Txn) : State :=
  match s.txnOf k l with
  | some t => s.setTxn k l (some (f t))
  | none => s

/-- A class with CAP = 1 whose memory charge has reached its budget (10 R322). -/
def cappedOver (s : State) (c : ClassId) : Bool :=
  let q := s.qosOf c
  c != devClass && q.cap && decide (q.mem ≤ q.memUsed)

/-- "Fill": the data comes from the system cache or the write-back buffer, or MRD is sent, or held where the class is capped and over (08 R247, 10 R322). -/
def fillTxn (s : State) (k : Nat) (l : LineNo) (t : Txn) : State :=
  let h := s.home k
  let c := t.req.cls
  match mget? h.sc l.toNat with
  | some x =>
    let s1 := s.setHome k { h with sc := mput h.sc l.toNat { x with nru := true } }
    (uncoreEvent s1 k 1 c).setTxn k l (some { t with data := some x.data })
  | none =>
    match mget? h.wbuf l.toNat with
    | some v => (uncoreEvent s k 2 c).setTxn k l (some { t with data := some v })
    | none =>
      let s1 := (uncoreEvent s k 2 c).setTxn k l (some { t with fill := true })
      if cappedOver s c || s.fab.heldReads.any (fun r => r.cls == c) then
        { s1 with fab := { s1.fab with heldReads := s1.fab.heldReads ++ [t.req] } }
      else sendM s1 (homeAgent k) c (.mrd l)

/-- The value that an atomic's operation code leaves in memory (03 R86). -/
def atomNew (op : BitVec 4) (size : Nat) (old opnd cmpv : W64) : W64 :=
  match atomOf op with
  | some fn => atomVal fn size old opnd cmpv
  | none => old

/-- Ends a transaction (08 R248). -/
def closeTxn (s : State) (k : Nat) (l : LineNo) : State := s.setTxn k l none

/-- The requester of a transaction as a cluster number. -/
def reqCluster (r : Req) : Nat := r.src.toNat % 8

/-- The transaction waits for nothing more at the home. -/
def txnReady (t : Txn) : Bool := !t.code && !t.fill && t.fwd.isNone && t.wb.isNone && t.acks == 0 && !t.cmp

/-- The request gives ownership, or writes: it may not pass a code-seen page (08 R259). -/
def needsQuery : ReqKind → Bool
  | .rdX | .upg | .ncWr | .atom => true
  | _ => false

/-- Grants a read for sharing: E where the line is in DI and the code filter is clear, else S (08 R247, R259). The manual does not say when an entry's NRU mark is set and cleared: every grant sets it and nothing clears it (DESIGN CHOICE, log entry 33). -/
def grantShared (s : State) (k : Nat) (l : LineNo) (t : Txn) (d : Line) : State :=
  let q := reqCluster t.req
  let sharers := match s.dirOf k l with
    | some e => holders e
    | none => 0
  let excl := (s.dirOf k l).isNone && t.req.kind == .rdS && !filterOn (s.home k) (pageOfLine l)
  let e : DirEntry :=
    if excl then { st := .dx, sharers := 0, owner := BitVec.ofNat 3 q, nru := true }
    else { st := .ds, sharers := sharers ||| bitOf q, owner := 0, nru := true }
  let s1 := (s.setDir k l (some e)).setTxn k l (some { t with cmp := true, data := none })
  sendM s1 (homeAgent k) t.req.cls (.data (BitVec.ofNat 3 q) l d (if excl then .e else .s) 0 false)

/-- Grants ownership with data (08 R247). -/
def grantOwned (s : State) (k : Nat) (l : LineNo) (t : Txn) (d : Line) : State :=
  let q : Oct := BitVec.ofNat 3 (reqCluster t.req)
  let s1 := (s.setDir k l (some { st := .dx, sharers := 0, owner := q, nru := true })).setTxn k l
    (some { t with cmp := true, data := none })
  sendM s1 (homeAgent k) t.req.cls (.data q l d .e t.n false)

/-- Performs an uncached access at the home, and ends it (08 R247, R248, R269). -/
def performNc (s : State) (k : Nat) (l : LineNo) (t : Txn) (d : Line) : State :=
  let r := t.req
  let old : W64 := BitVec.ofNat 64 (lineGet d r.off r.size)
  match r.kind with
  | .ncRd => sendT (closeTxn s k l) (homeAgent k) r.cls r.tag (.adata r.src l old)
  | .ncWr =>
    let s1 := scPut (s.setDir k l none) k l (lineMerge d r.data r.mask) true r.cls
    sendT (closeTxn s1 k l) (homeAgent k) r.cls r.tag (.done r.src l)
  | _ =>
    let v := atomNew r.op r.size old r.opnd r.cmpv
    let s1 := scPut (s.setDir k l none) k l (linePut d r.off r.size v.toNat) (t.dirty || v != old) r.cls
    sendT (closeTxn s1 k l) (homeAgent k) r.cls r.tag (.adata r.src l old)

/-- A transaction that waits for nothing grants or performs its request, or ends a back-invalidation (08 R247, R257); a page whose counter has risen meanwhile is asked about first (08 R259). -/
def finishTxn (s : State) (k : Nat) (l : LineNo) : State :=
  match s.txnOf k l with
  | none => s
  | some t =>
    if txnReady t then
      if needsQuery t.req.kind && !t.asked && filterOn (s.home k) (pageOfLine l) then
        sendM (s.setTxn k l (some { t with code := true, asked := true })) (homeAgent k) t.req.cls (.codeQuery (pageOfLine l) l)
      else if t.victim then
        let s1 := match t.data with
          | some d => if t.dirty then scPut s k l d true (t.dcls.getD t.req.cls) else s
          | none => s
        closeTxn (s1.setDir k l none) k l
      else if t.grant then
        let q : Oct := BitVec.ofNat 3 (reqCluster t.req)
        let s1 := (s.setDir k l (some { st := .dx, sharers := 0, owner := q, nru := true })).setTxn k l
          (some { t with cmp := true })
        sendM s1 (homeAgent k) t.req.cls (.grant q l t.n)
      else match t.data with
        | none => s
        | some d => match t.req.kind with
          | .rdS | .rdCode => grantShared s k l t d
          | .rdX | .upg => grantOwned s k l t d
          | _ => performNc s k l t d
    else s

/-- Claims ownership for a cluster: INV to the sharers, FWD_X to an owner, or a fill (08 R247, RD_X). -/
def claimOwned (s : State) (k : Nat) (l : LineNo) (t : Txn) : State :=
  let c := t.req.cls
  let q := reqCluster t.req
  match s.dirOf k l with
  | none => fillTxn s k l t
  | some e =>
    let others := clustersOf (e.sharers &&& ~~~ (bitOf q))
    match e.st with
    | .ds =>
      let s1 := sendAll s (homeAgent k) c (fun i => .inv (BitVec.ofNat 3 i) l t.req.src others.length) others
      fillTxn s1 k l { t with n := others.length }
    | _ =>
      let inv := others.filter (fun i => i != e.owner.toNat)
      let s1 := sendAll s (homeAgent k) c (fun i => .inv (BitVec.ofNat 3 i) l t.req.src inv.length) inv
      let s2 := s1.setDir k l (some { st := .dx, sharers := 0, owner := BitVec.ofNat 3 q, nru := true })
      let s3 := s2.setTxn k l (some { t with n := inv.length, fwd := some e.owner, cmp := true })
      sendM s3 (homeAgent k) c (.fwdX e.owner l t.req.src inv.length)

/-- Collects the line at the home for an uncached write or atomic (08 R247, R248). -/
def collectLine (s : State) (k : Nat) (l : LineNo) (t : Txn) : State :=
  let c := t.req.cls
  match s.dirOf k l with
  | none => fillTxn s k l t
  | some e =>
    let sh := clustersOf e.sharers
    match e.st with
    | .ds =>
      let s1 := sendAll s (homeAgent k) c (fun i => .inv (BitVec.ofNat 3 i) l (homeAgent k) sh.length) sh
      fillTxn s1 k l { t with acks := sh.length }
    | _ =>
      let inv := sh.filter (fun i => i != e.owner.toNat)
      let s1 := sendAll s (homeAgent k) c (fun i => .inv (BitVec.ofNat 3 i) l (homeAgent k) inv.length) inv
      let s2 := s1.setTxn k l (some { t with acks := inv.length, fwd := some e.owner })
      sendM s2 (homeAgent k) c (.fwdX e.owner l (homeAgent k) 0)

/-- Handles a request past its code query by the state of its directory entry (08 R247). -/
def proceedTxn (s : State) (k : Nat) (l : LineNo) (t : Txn) : State :=
  let c := t.req.cls
  let q := reqCluster t.req
  match t.req.kind with
  | .rdS | .rdCode => match s.dirOf k l with
    | some e => match e.st with
      | .ds => fillTxn s k l t
      | _ => sendM (s.setTxn k l (some { t with fwd := some e.owner })) (homeAgent k) c (.fwdS e.owner l t.req.src)
    | none => fillTxn s k l t
  | .rdX => claimOwned s k l t
  | .upg => match s.dirOf k l with
    | some e =>
      if e.st != .dx && (holders e).getLsbD q then
        let inv := clustersOf (holders e &&& ~~~ (bitOf q))
        let s1 := sendAll s (homeAgent k) c (fun i => .inv (BitVec.ofNat 3 i) l t.req.src inv.length) inv
        s1.setTxn k l (some { t with n := inv.length, grant := true })
      else claimOwned s k l t
    | none => claimOwned s k l t
  | .ncRd => match s.dirOf k l with
    | some e => match e.st with
      | .ds => fillTxn s k l t
      | _ => sendM (s.setTxn k l (some { t with fwd := some e.owner })) (homeAgent k) c (.fwdRd e.owner l)
    | none => fillTxn s k l t
  | .ncWr | .atom => collectLine s k l t
  | .wb => closeTxn s k l

/-- Opens a request as a transaction: it first marks its page for a fetch, or asks whether the page is code-seen before it gives ownership (08 R259, R260). -/
def startTxn (s : State) (k : Nat) (r : Req) : State :=
  let p := pageOfLine r.line
  let t : Txn := { req := r }
  let go : Txn := { t with went := true }
  if r.kind == .rdCode then
    sendM (s.setTxn k r.line (some { t with code := true })) (homeAgent k) r.cls (.codeMark p r.line)
  else if needsQuery r.kind && filterOn (s.home k) p then
    sendM (s.setTxn k r.line (some { t with code := true, asked := true })) (homeAgent k) r.cls (.codeQuery p r.line)
  else finishTxn (proceedTxn (s.setTxn k r.line (some go)) k r.line go) k r.line

/-- Ways of the line's directory set that are taken: its entries, and the transactions that will leave one (08 R257). -/
def dirWaysTaken (h : Home) (l : LineNo) : Nat :=
  (dirSet h l).length + (h.txns.filter (fun p => p.1 % 4096 == l.toNat % 4096 && needsEntry p.2.req.kind
    && (mget? h.dir p.1).isNone)).length

/-- The directory set of a line. -/
def setOf (l : LineNo) : BitVec 12 := l.extractLsb' 0 12

/-- The next way of the set is reserved for the oldest token held for it, where that is not the agent's own (08 R258). -/
def reservedWays (h : Home) (a : Agent) (l : LineNo) : Nat :=
  match h.tokens.find? (fun p => p.2 == setOf l) with
  | some p => if p.1 == a then 0 else 1
  | none => 0

/-- A request can be started: no way is needed, or one of its set is free (08 R257). -/
def hasWay (h : Home) (r : Req) : Bool :=
  !needsEntry r.kind || (mget? h.dir r.line.toNat).isSome || decide (dirWaysTaken h r.line + reservedWays h r.src r.line < 16)

/-- Sends BINV to every holder of a victim's line, as a transaction of its own (08 R257). -/
def startVictim (s : State) (k : Nat) (v : Nat) (e : DirEntry) (c : ClassId) : State :=
  let l : LineNo := BitVec.ofNat 42 v
  let hs := clustersOf (holders e)
  let (tag, s0) := s.newTag (homeAgent k)
  let t : Txn := { req := { kind := .wb, src := homeAgent k, line := l, cls := c, tag := tag }, acks := hs.length, victim := true }
  let s1 := uncoreEvent (s0.setTxn k l (some t)) k 3 c
  finishTxn (sendAll s1 (homeAgent k) c (fun i => .binv (BitVec.ofNat 3 i) l) hs) k l

/-- Puts a request at the end of the conflict queue (08 R248). -/
def queueReq (s : State) (k : Nat) (r : Req) : State :=
  let h := s.home k
  uncoreEvent (s.setHome k { h with confq := h.confq ++ [r] }) k 5 r.cls

/-- Refuses a request with NACK, and with the agent's reservation token where it is free (08 R258). -/
def nackReq (s : State) (k : Nat) (r : Req) : State :=
  let h := s.home k
  let token := !h.tokens.any (fun p => p.1 == r.src)
  let s1 := if token then s.setHome k { h with tokens := h.tokens ++ [(r.src, setOf r.line)] } else s
  let s2 := { s1 with fab := { s1.fab with retryq := s1.fab.retryq ++ [(r, token)] } }
  sendT (uncoreEvent s2 k 4 r.cls) (homeAgent k) r.cls r.tag (.nack r.src r.line token)

/-- The home can take a request now: its conflict queue has room (08 R248). -/
def reqFits (s : State) (l : LineNo) : Bool := decide ((s.home (s.homeNo l)).confq.length < 64)

/-- An older request for the same line waits in the conflict queue (08 R248). -/
def olderWaits (h : Home) (r : Req) : Bool :=
  match h.confq.find? (fun q => q.line == r.line) with
  | some q => q != r
  | none => false

/-- Starts the requests of the conflict queue that can start, those of a line in order of arrival (08 R248). -/
def pumpQueue (s : State) (k : Nat) : State :=
  (s.home k).confq.foldl
    (fun t r =>
      let h := t.home k
      let blocked := (mget? h.txns r.line.toNat).isSome || olderWaits h r || !hasWay h r
      if blocked then t
      else startTxn (t.setHome k { h with confq := h.confq.erase r }) k r) s

/-- A request that waits for a way takes a victim as soon as its set has one (08 R257). -/
def pumpVictim (s : State) (k : Nat) : State :=
  (s.home k).confq.foldl
    (fun t r =>
      let h := t.home k
      let vict := h.txns.any (fun p => p.2.victim && p.1 % 4096 == r.line.toNat % 4096)
      if (mget? h.txns r.line.toNat).isSome || hasWay h r || vict then t
      else match dirVictim h r.line with
        | some (v, e) => startVictim t k v e r.cls
        | none => t) s

/-- RETRY goes to the holder of the oldest token of a set that has a way again (08 R258). -/
def pumpTokens (s : State) (k : Nat) : State :=
  (s.home k).tokens.foldl
    (fun t p =>
      let asked := t.fab.retryq.find? (fun q => q.2 && q.1.src == p.1 && setOf q.1.line == p.2 && t.homeNo q.1.line == k)
      match asked with
      | none => t
      | some (r, _) =>
        let h := t.home k
        let sent := t.net.contains (.retry r.src r.line)
        let oldest := h.tokens.find? (fun q => q.2 == p.2) == some p
        let way := (dirVictim h r.line).isSome || decide (dirWaysTaken h r.line < 16)
        if sent || !oldest || !way || decide (64 ≤ h.confq.length) then t
        else sendT t (homeAgent k) r.cls r.tag (.retry r.src r.line)) s

/-- A request arrives at its home; `sure`: it has held a token, and is accepted (08 R247, R248, R257, R258). -/
def placeReqAs (s : State) (r : Req) (sure : Bool) : State :=
  let k := s.homeNo r.line
  let h := s.home k
  if (mget? h.txns r.line.toNat).isSome || h.confq.any (fun q => q.line == r.line) then queueReq s k r
  else if hasWay h r then startTxn s k r
  else match dirVictim h r.line with
    | some (v, e) => startVictim (queueReq s k r) k v e r.cls
    | none => if sure then queueReq s k r else nackReq s k r

/-- A request arrives at its home (08 R247, R248, R257, R258). -/
def placeReq (s : State) (r : Req) : State := placeReqAs s r false

/-- An owner gives a line to its home for a page that becomes code-seen: FWD_S from the home itself, as a transaction of its own, or before the request that waits for the answer about the page's code (08 R260). -/
def startDown (s : State) (k : Nat) (l : LineNo) (owner : Oct) : State :=
  match s.txnOf k l with
  | some t => sendM (s.setTxn k l (some { t with fwd := some owner, pre := true })) (homeAgent k) hypClass (.fwdS owner l (homeAgent k))
  | none =>
    let (tag, s0) := s.newTag (homeAgent k)
    let r : Req := { kind := .rdS, src := homeAgent k, line := l, cls := hypClass, tag := tag }
    sendM (s0.setTxn k l (some { req := r, fwd := some owner, went := true, down := true })) (homeAgent k) hypClass
      (.fwdS owner l (homeAgent k))

/-- The line has no transaction that the home has begun to serve: none, or one that waits for the answer about its page's code. -/
def notBegun (h : Home) (l : Nat) : Bool :=
  match mget? h.txns l with
  | none => true
  | some t => t.code && !t.went && !t.pre

/-- The lines of a page that a slice homes in DX or DO, with their owners, where no transaction has begun (08 R260). A line in DO stays as FWD_S leaves it, and is downgraded once for each CODE_SET. -/
def ownedLines (h : Home) (p : PageNo) : List (LineNo × Oct) :=
  let done (l : Nat) : Bool := (mget h.downs p.toNat []).contains (BitVec.ofNat 42 l)
  (h.dir.filter (fun q => (q.2.st == .dx || (q.2.st == .do_ && !done q.1)) && pageOfLine (BitVec.ofNat 42 q.1) == p && notBegun h q.1)).map
    (fun q => (BitVec.ofNat 42 q.1, q.2.owner))

/-- A line of the page has a transaction that the home has begun to serve, or a downgrade before one. -/
def pageBusy (h : Home) (p : PageNo) : Bool :=
  h.txns.any (fun q => pageOfLine (BitVec.ofNat 42 q.1) == p && (q.2.pre || (q.2.went && !q.2.code)))

/-- The slice notes that it downgrades a line for a page. -/
def noteDown (s : State) (k : Nat) (p : PageNo) (l : LineNo) : State :=
  let h := s.home k
  s.setHome k { h with downs := mput h.downs p.toNat (l :: (mget h.downs p.toNat []).filter (· != l)) }

/-- A slice goes on with a CODE_SET: owners of lines of the page are downgraded, and when none is left and no transaction under way can make one, DONE goes to the page's home (08 R260). -/
def pumpSet (s : State) (k : Nat) (p : PageNo) : State :=
  let s1 := (ownedLines (s.home k) p).foldl (fun t q => startDown (noteDown t k p q.1) k q.1 q.2) s
  let h := s1.home k
  if pageBusy h p then s1
  else sendM (s1.setHome k { h with sets := h.sets.filter (· != p), downs := mdel h.downs p.toNat }) (homeAgent k) hypClass
    (.codeDone (BitVec.ofNat 3 k) (BitVec.ofNat 3 (s1.pageHome p)) p)

/-- Every CODE_SET that a slice has not answered goes on (08 R260). -/
def pumpSets (s : State) (k : Nat) : State := (s.home k).sets.foldl (fun t p => pumpSet t k p) s

/-- Requests that were refused without a token, of agents that hold none here now, are sent again while the conflict queue has room (08 R258). -/
def pumpLeft (s : State) (k : Nat) : State :=
  (s.fab.retryq.filter (fun q => !q.2 && s.homeNo q.1.line == k)).foldl
    (fun t q =>
      let h := t.home k
      if h.tokens.any (fun p => p.1 == q.1.src) || decide (64 ≤ h.confq.length) then t
      else placeReq { t with fab := { t.fab with retryq := t.fab.retryq.erase q } } q.1) s

/-- A home goes on after a transaction has ended. -/
def pumpHome (s : State) (k : Nat) : State :=
  pumpTokens (pumpQueue (pumpVictim (pumpQueue (pumpSets (pumpLeft s k) k) k) k) k) k

/-- A request arrives at its home, which goes on with whatever that lets it do (08 R247, R248). -/
def openReq (s : State) (r : Req) : State := pumpHome (placeReq s r) (s.homeNo r.line)

/-- A core's older stores are performed, so that ownership asked for its store may be closed with CMP (08 R249, R266). -/
def oldersDone (s : State) (k : Nat) (l : LineNo) (vc : Vc) : Bool :=
  let mine := (s.l2 k l).any (fun x => x.unperf == some vc)
  let other := (s.cluster k).l2.any (fun p => p.1 != l.toNat && p.2.unperf == some vc)
  mine || (!other && (match (s.core vc).sb with | e :: _ => !e.nc && lineOf e.pa.toNat == l | [] => true))

/-- CMP ends a cluster's request: its stores in the line are performed with respect to every observer (08 R249, R267, R268). -/
def sendCmp (s : State) (k : Nat) (l : LineNo) (c : ClassId) : State :=
  let s1 := (s.setMshr k l none)
  let s2 := match s1.l2 k l with
    | some x => s1.setL2 k l (some { x with unperf := none })
    | none => s1
  let s3 := (s2.coresOf k).foldl
    (fun t v => t.updCore v (fun co => { co with micro := { co.micro with syncMarks := co.micro.syncMarks.filter (fun m => m != l) } })) s2
  sendM s3 (clusterAgent k) c (.cmp (BitVec.ofNat 3 k) l)

/-- Sends CMP for a request for ownership that holds its data and every acknowledgement (08 R249). -/
def tryCmp (s : State) (k : Nat) (l : LineNo) : State :=
  match s.mshrOf k l with
  | none => s
  | some m =>
    let done := (m.kind == .rdX || m.kind == .upg) && m.need == some m.got
      && (match m.core with | none => true | some vc => oldersDone s k l vc)
    if done then sendCmp s k l m.cls else s

/-- Every open request of a cluster is tried for CMP; one that closes can let a later one close. -/
def tryCmpAll (s : State) (k : Nat) : Nat → State
  | 0 => s
  | n + 1 =>
    let t := (mkeys (s.cluster k).mshr).foldl (fun t l => tryCmp t k (BitVec.ofNat 42 l)) s
    if (t.cluster k).mshr.length < (s.cluster k).mshr.length then tryCmpAll t k n else t

/-- The fetch buffer of a core takes a line; it holds four (05 R125). The line filled longest ago makes room: DESIGN CHOICE (log entry 91). -/
def fetchTake (c : Core) (l : LineNo) : Core :=
  { c with micro := { c.micro with fetchBuf := (l :: c.micro.fetchBuf.filter (fun x => x != l)).take 4 } }

/-- A cluster evicts a line: a clean one silently, a dirty one by WB from its write-back buffer (08 R246, R253, R254). -/
def evictLine (s : State) (k : Nat) (l : LineNo) : State :=
  match s.l2 k l with
  | none => s
  | some x =>
    let s1 := (rollbackReaders s k l none).setL2 k l none
    if x.st == .m || x.st == .o then sendWb s1 k l x else s1

/-- The lines that a cluster L2 holds in the set of a line: index PA[17:6] (08 R230). -/
def l2Set (c : Cluster) (l : LineNo) : List LineNo :=
  (c.l2.filter (fun p => p.1 % 4096 == l.toNat % 4096)).map (fun p => BitVec.ofNat 42 p.1)

/-- The ways of a cluster L2 that are in service (08 R230; 15 R456). -/
def l2Ways (c : Cluster) : Nat := ((List.range 16).filter (fun w => !c.badWays.getLsbD w)).length

/-- Makes room for a line in its set of the cluster L2. The victim is the line of the lowest address without an open request or a store not yet performed; the manual names no rule (08 R237; log entry 16). A request is sent only where there is such a line or a free way when it is answered (`l2Fits`). -/
def l2Room (s : State) (k : Nat) (l : LineNo) : State :=
  let c := s.cluster k
  let ls := l2Set c l
  if (mget? c.l2 l.toNat).isSome || decide (ls.length < l2Ways c) then s
  else match ls.find? (fun v => (s.mshrOf k v).isNone && (match s.l2 k v with | some x => x.unperf.isNone | none => true)) with
    | some v => evictLine s k v
    | none => s

/-- A line arrives at a cluster (08 R246, R249). A fetch buffer is no L1D; a line that the cluster still holds for its own RD_CODE stays in its state (08 R237, R246). DATA with DIRTY gives the duty to write the line back, so the line is M from its arrival: DESIGN CHOICE, for the table's "E on DATA, then M" does not say what DIRTY does (log entry 94). -/
def takeData (s0 : State) (k : Nat) (l : LineNo) (d : Line) (granted : L2St) (n : Nat) (dirty : Bool) : State :=
  match s0.mshrOf k l with
  | none => s0
  | some m =>
    let st := if dirty then .m else granted
    let s := l2Room s0 k l
    let s1 := match s.l2 k l with
      | some x => if m.kind == .rdX || m.kind == .upg then s.setL2 k l (some { x with st := st, data := d, cls := m.cls }) else s
      | none => s.setL2 k l (some { st := st, data := d, pres := [], cls := m.cls })
    let s2 := match m.kind, m.core with
      | .rdCode, some v => s1.updCore v (fun c => fetchTake c l)
      | _, _ => s1
    match m.kind with
    | .rdX | .upg => tryCmpAll (s2.setMshr k l (some { m with need := some n })) k 64
    | _ => sendCmp s2 k l m.cls

/-- GRANT arrives at a cluster: the line it holds becomes M (08 R246). -/
def takeGrant (s : State) (k : Nat) (l : LineNo) (n : Nat) : State :=
  match s.mshrOf k l with
  | none => s
  | some m =>
    let s1 := match s.l2 k l with
      | some x => s.setL2 k l (some { x with st := .m })
      | none => s
    tryCmpAll (s1.setMshr k l (some { m with need := some n })) k 64

/-- Gives up a line: every reader with uncommitted loads of it rolls back (08 R238). -/
def giveUp (s : State) (k : Nat) (l : LineNo) : State := (rollbackReaders s k l none).setL2 k l none

/-- A forward that finds its line in the write-back buffer: the requester, where it is a cluster, gets the line from there, for ownership with DIRTY, and the home FWD_ACK 3 (08 R254). -/
def fromWb (s : State) (k : Nat) (l : LineNo) (e : WbEntry) (req : Agent) (st : L2St) (n : Nat) : State :=
  let me := clusterAgent k
  let s1 := if req.toNat < 8 then sendM s me e.cls (.data (req.setWidth 3) l e.data st n (st == .e)) else s
  sendM s1 me e.cls (.fwdAck (BitVec.ofNat 3 k) l 3)

/-- FWD_S at a cluster (08 R246, R253, R254). -/
def onFwdS (s : State) (k : Nat) (l : LineNo) (req : Agent) : State :=
  let ko : Oct := BitVec.ofNat 3 k
  let me := clusterAgent k
  match mget? (s.cluster k).wb l.toNat with
  | some e => fromWb s k l e req .s 0
  | none => match s.l2 k l with
    | none => sendM s me hypClass (.notHeld ko l)
    | some x => match x.st with
      | .s => sendM s me x.cls (.notHeld ko l)
      | _ =>
        let clean := x.st == .e
        let s1 := s.setL2 k l (some { x with st := if clean then .s else .o, dirtyIn := none })
        let s2 := if req.toNat < 8 then sendM s1 me x.cls (.data (req.setWidth 3) l x.data .s 0 false) else s1
        sendM s2 me x.cls (.fwdAck ko l (if clean then 1 else 0))

/-- FWD_X at a cluster, for a cluster or for a home (08 R246, R253, R254). -/
def onFwdX (s : State) (k : Nat) (l : LineNo) (req : Agent) (n : Nat) : State :=
  let ko : Oct := BitVec.ofNat 3 k
  let me := clusterAgent k
  match mget? (s.cluster k).wb l.toNat with
  | some e => fromWb s k l e req .e n
  | none => match s.l2 k l with
    | none => sendM s me hypClass (.notHeld ko l)
    | some x => match x.st with
      | .s => sendM s me x.cls (.notHeld ko l)
      | _ =>
        let dirty := x.st != .e
        let m : Msg := if req.toNat < 8 then .data (req.setWidth 3) l x.data .e n dirty
          else .dataH ko l x.data dirty
        sendM (giveUp s k l) me x.cls m

/-- FWD_RD at a cluster (08 R246, R253, R254). -/
def onFwdRd (s : State) (k : Nat) (l : LineNo) : State :=
  let ko : Oct := BitVec.ofNat 3 k
  let me := clusterAgent k
  match mget? (s.cluster k).wb l.toNat with
  | some e => fromWb s k l e (homeAgent 0) .s 0
  | none => match s.l2 k l with
    | none => sendM s me hypClass (.notHeld ko l)
    | some x => match x.st with
      | .s => sendM s me x.cls (.notHeld ko l)
      | _ => sendM (s.setL2 k l (some { x with dirtyIn := none })) me x.cls (.dataH ko l x.data false)

/-- INV at a cluster: an O line is dropped without a write-back (08 R246). -/
def onInv (s : State) (k : Nat) (l : LineNo) (coll : Agent) : State :=
  sendM (giveUp s k l) (clusterAgent k) hypClass (.ack (clusterAgent k) coll l)

/-- BINV at a cluster (08 R246, R257). -/
def onBinv (s : State) (k : Nat) (l : LineNo) : State :=
  let me := clusterAgent k
  let h := homeAgent (s.homeNo l)
  match mget? (s.cluster k).wb l.toNat with
  | some e => fromWb s k l e h .s 0
  | none => match s.l2 k l with
  | none => sendM s me hypClass (.ack me h l)
  | some x =>
    let m : Msg := if x.st == .m || x.st == .o then .dataH (BitVec.ofNat 3 k) l x.data true else .ack me h l
    sendM (giveUp s k l) me x.cls m

/-- The entry after the WB of its owner: DX becomes DI, DO becomes DS (08 R247). -/
def wbEntry (s : State) (h : Nat) (l : LineNo) : State :=
  match s.dirOf h l with
  | none => s
  | some e => match e.st with
    | .ds => s
    | .dx => s.setDir h l none
    | .do_ => s.setDir h l (some { e with st := .ds, sharers := e.sharers &&& ~~~ (bitOf e.owner.toNat), owner := 0 })

/-- The entry loses a cluster that holds no copy (08 R253). -/
def dropHolder (s : State) (h : Nat) (l : LineNo) (k : Nat) : State :=
  match s.dirOf h l with
  | none => s
  | some e =>
    let sh := e.sharers &&& ~~~ (bitOf k)
    if e.owner.toNat = k ∧ e.st ≠ .ds ∨ e.st = .ds then
      if sh = 0 then s.setDir h l none
      else s.setDir h l (some { e with st := .ds, sharers := sh, owner := 0 })
    else s.setDir h l (some { e with sharers := sh })

/-- The forward has found nothing: the data comes from the home (08 R253). -/
def refill (s : State) (h : Nat) (l : LineNo) : State :=
  match s.txnOf h l with
  | none => s
  | some t =>
    let t1 := { t with fwd := none, cmp := false }
    finishTxn (fillTxn (s.setTxn h l (some t1)) h l t1) h l

/-- A downgrade before a request has ended: the request begins where the answer about its page's code is in (08 R259, R260). -/
def endPre (s : State) (h : Nat) (l : LineNo) (t : Txn) : State :=
  let t1 := { t with pre := false, fwd := none, wb := none, wbIn := false }
  if t.code then s.setTxn h l (some t1)
  else
    let go := { t1 with went := true }
    finishTxn (proceedTxn (s.setTxn h l (some go)) h l go) h l

/-- NOT_HELD at the home (08 R253). Where the home has already named the requester as owner, only the data is missing. -/
def onNotHeld (s : State) (h : Nat) (l : LineNo) (k : Nat) : State :=
  match s.txnOf h l with
  | none => s
  | some t =>
    if t.down then closeTxn (dropHolder s h l k) h l
    else if t.pre then endPre (dropHolder s h l k) h l t
    else refill (if t.cmp then s else dropHolder s h l k) h l

/-- A read for sharing whose forward has been answered: it ends with CMP, or now where CMP was early (08 R235, R248). -/
def endForward (s : State) (h : Nat) (l : LineNo) (t : Txn) : State :=
  if t.pre then endPre s h l t
  else if t.down || (t.early && t.wb.isNone) then closeTxn s h l else s.setTxn h l (some t)

/-- FWD_ACK 3 at the home: the line was supplied from the write-back buffer of cluster k, whose WB brings the home its data (08 R254). -/
def onFwdAck3 (s : State) (h : Nat) (l : LineNo) (k : Nat) (t : Txn) : State :=
  let ko : Oct := BitVec.ofNat 3 k
  let late : Option Oct := if t.wbIn then none else some ko
  if t.victim then finishTxn (s.setTxn h l (some { t with acks := t.acks - 1, wb := late })) h l
  else if t.down || t.pre then
    if t.wbIn then (if t.pre then endPre s h l t else closeTxn s h l) else s.setTxn h l (some { t with fwd := none, wb := late })
  else match t.req.kind with
    | .rdS | .rdCode =>
      let sh := match s.dirOf h l with
        | some e => e.sharers
        | none => 0
      let e : DirEntry := { st := .ds, sharers := (sh ||| bitOf (reqCluster t.req)) &&& ~~~ (bitOf k), owner := 0, nru := true }
      endForward (s.setDir h l (some e)) h l { t with fwd := none, cmp := true, wb := late }
    | .rdX | .upg => s.setTxn h l (some { t with fwd := none })
    | _ =>
      let t1 := { t with fwd := none, wb := late }
      if t.wbIn then finishTxn (fillTxn (s.setTxn h l (some t1)) h l t1) h l else s.setTxn h l (some t1)

/-- FWD_ACK at the home, from the cluster that the transaction has forwarded to (08 R247, R254, R260). One that carries the tag of a transaction that has ended, as the FWD_ACK 3 of an RD_X may behind its CMP, has nothing left to do (08 R233, R235). -/
def onFwdAck (s : State) (h : Nat) (l : LineNo) (k info : Nat) (tag : BitVec 16) : State :=
  match s.txnOf h l with
  | none => s
  | some t =>
    if t.req.tag != tag || (!t.victim && t.fwd != some (BitVec.ofNat 3 k)) then s
    else if info = 3 then onFwdAck3 s h l k t
    else
      let sh := match s.dirOf h l with
        | some e => e.sharers
        | none => 0
      let q := if t.down || t.pre then 0 else bitOf (reqCluster t.req)
      let e : DirEntry :=
        if info = 0 then { st := .do_, sharers := (sh ||| q) &&& ~~~ (bitOf k), owner := BitVec.ofNat 3 k, nru := true }
        else { st := .ds, sharers := sh ||| q ||| bitOf k, owner := 0, nru := true }
      endForward (s.setDir h l (some e)) h l { t with fwd := none, cmp := !t.pre }

/-- What the transaction of a line does with the WB of cluster k, with its data and its class; the entry of an uncached read's line loses the owner as it does where none is open (08 R247, R254). -/
def wbForTxn (s0 : State) (h : Nat) (l : LineNo) (k : Nat) (d : Line) (c : ClassId) (owner : Bool) (t : Txn) : State :=
  let s := if owner && (t.req.kind == .ncRd || t.down || t.pre) then wbEntry s0 h l else s0
  let ko : Oct := BitVec.ofNat 3 k
  if t.wb = some ko then
    let t1 := { t with wb := none }
    if t.victim then finishTxn (s.setTxn h l (some { t1 with data := some d, dirty := true, dcls := some c })) h l
    else if t.down then closeTxn s h l
    else if t.pre then endPre s h l t
    else if t.cmp then endForward s h l t1
    else finishTxn (fillTxn (s.setTxn h l (some t1)) h l t1) h l
  else if t.fwd = some ko then s.setTxn h l (some { t with wbIn := true })
  else s

/-- The home absorbs a write-back: it keeps the data where the entry names the sender, or a FWD_ACK 3 of the sender is pending, and acknowledges it (08 R247, R254). -/
def onWb (s : State) (h : Nat) (l : LineNo) (k : Nat) (d : Line) (c : ClassId) : State :=
  let owner : Bool := match s.dirOf h l with
    | some e => e.st != .ds && e.owner.toNat == k
    | none => false
  let s1 := uncoreEvent (if s.wbCounts l (BitVec.ofNat 3 k) then scPut s h l d true c else s) h 7 c
  let s2 := match s1.txnOf h l with
    | some t => wbForTxn s1 h l k d c owner t
    | none => if owner then wbEntry s1 h l else s1
  sendM s2 (homeAgent h) c (.wbAck (BitVec.ofNat 3 k) l)

/-- DATA_H at the home, for an uncached access or a back-invalidation; it carries the class recorded with the line (08 R240, R247, R257). -/
def onDataH (s : State) (h : Nat) (l : LineNo) (d : Line) (dirty : Bool) (c : ClassId) : State :=
  let s1 := updTxn s h l (fun t =>
    if t.victim then { t with acks := t.acks - 1, data := some d, dirty := dirty, dcls := some c }
    else { t with fwd := none, data := some d, dirty := dirty })
  finishTxn s1 h l

/-- ACK at the home (08 R248). -/
def onHomeAck (s : State) (h : Nat) (l : LineNo) : State :=
  finishTxn (updTxn s h l (fun t => { t with acks := t.acks - 1 })) h l

/-- ACK at a cluster that collects (08 R248). -/
def onClusterAck (s : State) (k : Nat) (l : LineNo) : State :=
  match s.mshrOf k l with
  | none => s
  | some m => tryCmpAll (s.setMshr k l (some { m with got := m.got + 1 })) k 64

/-- MDATA at the home: the line is allocated in the system cache (08 R239). -/
def onMdata (s : State) (h : Nat) (l : LineNo) (d : Line) : State :=
  match s.txnOf h l with
  | none => s
  | some t =>
    let s1 := scPut s h l d false t.req.cls
    finishTxn (s1.setTxn h l (some { t with fill := false, data := some d })) h l

/-- The answer to CODE_QUERY or CODE_MARK lets the request proceed, behind a downgrade of its line that is under way (08 R259, R260). -/
def onCodeAnswer (s : State) (h : Nat) (l : LineNo) : State :=
  match s.txnOf h l with
  | none => s
  | some t =>
    if t.code then
      let t1 := { t with code := false, went := true }
      if t.went then finishTxn (s.setTxn h l (some t1)) h l
      else if t.pre then s.setTxn h l (some { t with code := false })
      else finishTxn (proceedTxn (s.setTxn h l (some t1)) h l t1) h l
    else s

/-- A page is code-seen: its home's table holds it (08 R259). -/
def codeSeen (s : State) (p : PageNo) : Bool := (s.home (s.pageHome p)).pages.contains p

/-- CMP at the home: the transaction ends, unless the answer to its forward, or the WB that carries its data, is still on the way (08 R235, R248, R254). -/
def onCmp (s : State) (h : Nat) (l : LineNo) : State :=
  match s.txnOf h l with
  | none => s
  | some t =>
    let reads := t.req.kind == .rdS || t.req.kind == .rdCode
    if (reads && t.fwd.isSome) || t.wb.isSome then s.setTxn h l (some { t with early := true }) else closeTxn s h l

/-- CODE_SET at a slice: the counter rises, owners of the page's lines are downgraded, then DONE (08 R260). A counter at 15 stays there (DESIGN CHOICE, log entry 13). -/
def onCodeSet (s : State) (k : Nat) (p : PageNo) : State :=
  let h := s.home k
  let i := filterIndex p
  let v := mget h.filter i 0
  pumpSet (s.setHome k { h with filter := mput h.filter i (if v = 15 then 15 else v + 1), sets := h.sets ++ [p] }) k p

/-- The code filter's counter of a page falls at a slice; one at 15 stays (08 R259, R260). -/
def lowerCount (s : State) (k : Nat) (p : PageNo) : State :=
  let h := s.home k
  let i := filterIndex p
  let v := mget h.filter i 0
  let v' := if v = 15 ∨ v = 0 then v else v - 1
  s.setHome k { h with filter := if v' = 0 then mdel h.filter i else mput h.filter i v' }

/-- CODE_CLR at a slice (08 R260). -/
def onCodeClr (s : State) (k : Nat) (p : PageNo) : State :=
  sendM (lowerCount s k p) (homeAgent k) hypClass
    (.codeDone (BitVec.ofNat 3 k) (BitVec.ofNat 3 (s.pageHome p)) p)

/-- The slices in service as a vector. -/
def aliveMask (s : State) : BitVec 8 := s.aliveHomes.foldl (fun a k => a ||| bitOf k) 0

/-- Begins a code drop of a page: DROP to every cluster (08 R260). -/
def startDrop (s : State) (h : Nat) (p : PageNo) : State :=
  let ho := s.home h
  let s1 := uncoreEvent (s.setHome h { ho with drops := mput ho.drops p.toNat { waitAck := 0xFF, waitClr := 0 } }) h 6 hypClass
  sendAll s1 (homeAgent h) hypClass (fun k => .drop (BitVec.ofNat 3 k) p) (List.range 8)

/-- Records a page as code-seen and sends CODE_SET to every slice (08 R260). -/
def startMark (s : State) (h : Nat) (p : PageNo) : State :=
  let ho := s.home h
  let s1 := s.setHome h { ho with pages := ho.pages ++ [p], marks := mput ho.marks p.toNat (aliveMask s) }
  sendAll s1 (homeAgent h) hypClass (fun k => .codeSet (BitVec.ofNat 3 k) p) s.aliveHomes

/-- Answers some of the lines that wait on a page. -/
def answerLines (s : State) (h : Nat) (p : PageNo) (ls : List LineNo) : State :=
  let ho := s.home h
  let rest := (mget ho.queries p.toNat []).filter (fun l => !ls.contains l)
  let s1 := s.setHome h { ho with queries := if rest.isEmpty then mdel ho.queries p.toNat else mput ho.queries p.toNat rest }
  ls.foldl (fun t l => sendM t (homeAgent h) hypClass (.done (homeAgent (t.homeNo l)) l)) s1

/-- The line's request waits to be fetched, not written. -/
def waitsFetch (s : State) (l : LineNo) : Bool :=
  match s.txnOf (s.homeNo l) l with
  | some t => t.req.kind == .rdCode
  | none => true

/-- The page's home goes on with the lines that wait on a page: a mark, a drop, or answers; a full table first drops its oldest page (08 R259, R260; 05 R165). -/
def codeStep (s : State) (h : Nat) (p : PageNo) : State :=
  let ho := s.home h
  let ls := mget ho.queries p.toNat []
  if ls.isEmpty || (mget? ho.drops p.toNat).isSome || (mget? ho.marks p.toNat).isSome then s
  else if ho.pages.contains p then
    if ls.any (fun l => !waitsFetch s l) then startDrop s h p else answerLines s h p ls
  else
    let writers := ls.filter (fun l => !waitsFetch s l)
    let s1 := if writers.isEmpty then s else answerLines s h p writers
    if ls.all (fun l => !waitsFetch s l) then s1
    else if (s1.home h).pages.length < 4096 then startMark s1 h p
    else match (s1.home h).pages with
      | q :: _ => if (mget? (s1.home h).drops q.toNat).isSome then s1 else startDrop s1 h q
      | [] => s1

/-- Every page with waiting lines goes on. -/
def codeStepAll (s : State) (h : Nat) : State :=
  (mkeys (s.home h).queries).foldl (fun t p => codeStep t h (BitVec.ofNat 36 p)) s

/-- CODE_QUERY or CODE_MARK at the page's home (08 R259, R260). -/
def onCodeAsk (s : State) (p : PageNo) (l : LineNo) : State :=
  let h := s.pageHome p
  let ho := s.home h
  let ls := mget ho.queries p.toNat []
  codeStep (s.setHome h { ho with queries := mput ho.queries p.toNat (ls ++ [l]) }) h p

/-- DROP_ACK at the page's home: with all eight in, the bit is cleared and CODE_CLR goes to every slice (08 R260). -/
def onDropAck (s : State) (h : Nat) (p : PageNo) (k : Nat) : State :=
  let ho := s.home h
  match mget? ho.drops p.toNat with
  | none => s
  | some d =>
    let w := d.waitAck &&& ~~~ (bitOf k)
    if w = 0 then
      let s1 := s.setHome h { ho with
        pages := ho.pages.filter (fun q => q != p), drops := mput ho.drops p.toNat { waitAck := 0, waitClr := aliveMask s } }
      sendAll s1 (homeAgent h) hypClass (fun i => .codeClr (BitVec.ofNat 3 i) p) s.aliveHomes
    else s.setHome h { ho with drops := mput ho.drops p.toNat { d with waitAck := w } }

/-- A slice's DONE to CODE_SET or CODE_CLR at the page's home (08 R260). -/
def onCodeDone (s : State) (k h : Nat) (p : PageNo) : State :=
  let ho := s.home h
  match mget? ho.marks p.toNat with
  | some m =>
    let m' := m &&& ~~~ (bitOf k)
    if m' = 0 then codeStep (s.setHome h { ho with marks := mdel ho.marks p.toNat }) h p
    else s.setHome h { ho with marks := mput ho.marks p.toNat m' }
  | none =>
    match mget? ho.drops p.toNat with
    | none => s
    | some d =>
      let w := d.waitClr &&& ~~~ (bitOf k)
      if w = 0 then codeStepAll (s.setHome h { ho with drops := mdel ho.drops p.toNat }) h
      else s.setHome h { ho with drops := mput ho.drops p.toNat { d with waitClr := w } }

/-- The conflict queue of a line's home has room (08 R248). -/
def queueRoom (s : State) (l : LineNo) : Bool := decide ((s.home (s.homeNo l)).confq.length < 64)

/-- RETRY at the holder: the request is sent again and accepted; the agent's other refused requests follow it (08 R252, R258). -/
def onRetry (s : State) (a : Agent) (l : LineNo) : State :=
  let k := s.homeNo l
  let h := s.home k
  let s1 := s.setHome k { h with tokens := h.tokens.filter (fun p => p.1 != a) }
  match s.fab.retryq.find? (fun p => p.2 && p.1.src == a && p.1.line == l) with
  | none => pumpHome s1 k
  | some q => pumpHome (placeReqAs { s1 with fab := { s1.fab with retryq := s1.fab.retryq.erase q } } q.1 true) k

/-- Data of an uncached read or atomic reaches its requester. -/
def onAdata (s : State) (a : Agent) (l : LineNo) (v : W64) : State :=
  { s with fab := { s.fab with answers := (a, l, v) :: s.fab.answers.filter (fun p => !(p.1 == a && p.2.1 == l)) } }

/-- Rows of DRAM that a read needs are filled (09 R293). -/
def rowFilled (d : Dram) (l : LineNo) : Bool := decide ((slotOf d.mode l.toNat).r < d.fill)

/-- What fits into a tag cache of n entries: a dirty line takes two (09 R286). -/
def tagRoom : Nat → List (LineNo × Bool) → List (LineNo × Bool)
  | _, [] => []
  | n, p :: t =>
    let k := if p.2 then 2 else 1
    if k ≤ n then p :: tagRoom (n - k) t else []

/-- A controller takes the tag line of a row from its tag cache of 256 lines: a miss is counted and brings the line in; `dirty` says that a tag changes (09 R286; 17 R515). The cache is fully associative, and the line used longest ago leaves it: DESIGN CHOICE, for the manual gives neither (log entry 95). -/
def tagUse (s : State) (sl : Slot) (dirty : Bool) (c : ClassId) : State :=
  let tl : LineNo := BitVec.ofNat 42 (tagLineOf s.dram sl.r)
  let q := mget s.dram.tagCache sl.c []
  let d := dirty || q.any (fun p => p.1 == tl && p.2)
  let s1 : State := { s with dram := { s.dram with
    tagCache := mput s.dram.tagCache sl.c (tagRoom 256 ((tl, d) :: q.filter (fun p => p.1 != tl))) } }
  if q.any (fun p => p.1 == tl) then s1 else uncoreEvent s1 (8 + sl.c) 7 c

/-- The count of a line's write at its controller: the line, the burst length that Mica gives it, and its tag (09 R283, R286; 17 R515). -/
def countWrite (s : State) (l : LineNo) (v : Line) (c : ClassId) : State :=
  let sl := slotOf s.dram.mode l.toNat
  let u := 8 + sl.c
  let short := s.dram.mica && !isTagLine s.dram l.toNat && (micaEncode v).isSome
  let s1 := uncoreEvent (uncoreEvent s u 2 c) u (if short then 4 else 6) c
  if isTagLine s.dram l.toNat then s1 else tagUse s1 sl (short != slotTag s.dram sl) c

/-- A memory controller reads a line: the slot under its tag, or a reconstruction; the class is charged (09 R277, R283, R286, R295; 10 R322; 17 R515). -/
def readSlot (s : State) (l : LineNo) (c : ClassId) : Line × State :=
  let d := s.dram
  let sl := slotOf d.mode l.toNat
  let rec_ := slotLost d sl
  let u := 8 + readChannel d sl
  let bc8 := !rec_ && slotTag d sl
  let s1 := uncoreEvent (uncoreEvent s u 1 c) u (if rec_ then 8 else if bc8 then 3 else 5) c
  let s2 := if rec_ || isTagLine d l.toNat then s1 else tagUse s1 sl false c
  let q := s2.qosOf c
  let s3 := if c = devClass then s2 else s2.setQos c { q with memUsed := q.memUsed + 1 }
  (dramPeek d l, s3)

/-- The class of the read of a line that its home has sent; the spine's reads are of the device class. -/
def mrdClass (s : State) (l : LineNo) : ClassId :=
  match s.txnOf (s.homeNo l) l with
  | some t => t.req.cls
  | none => devClass

/-- A controller's rank of a class: the device class, then the classes within budget, then those that are over (10 R322). -/
def memRank (s : State) (c : ClassId) : Nat :=
  let q := s.qosOf c
  if c = devClass then 0 else if q.memUsed < q.mem then 1 else 2

/-- The reads that wait at a line's controller, oldest first; those of a row that the fill has not passed are not served yet (09 R293). -/
def readsWaiting (s : State) (ch : Nat) : List LineNo :=
  s.net.filterMap (fun m => match m with
    | .mrd l => if readChannel s.dram (slotOf s.dram.mode l.toNat) == ch && rowFilled s.dram l then some l else none
    | _ => none)

/-- A controller may serve a request of a rank: no read of a lower rank waits (10 R322). -/
def rankDue (s : State) (ch n : Nat) : Bool := (readsWaiting s ch).all (fun l => decide (n ≤ memRank s (mrdClass s l)))

/-- A read may be served: no read of a lower rank waits at its controller, and among the classes that are over it is the oldest (10 R322). -/
def mrdDue (s : State) (l : LineNo) : Bool :=
  let ch := readChannel s.dram (slotOf s.dram.mode l.toNat)
  let n := memRank s (mrdClass s l)
  rankDue s ch n && (n != 2 || ((readsWaiting s ch).find? (fun x => memRank s (mrdClass s x) == 2)) == some l)

/-- MRD: the line goes to its home, or to the spine, as MDATA (08 R245). -/
def onMrd (s : State) (l : LineNo) : State :=
  let c := mrdClass s l
  let (d, s1) := readSlot s l c
  sendM s1 (BitVec.ofNat 5 (16 + readChannel s.dram (slotOf s.dram.mode l.toNat))) c (.mdata l d)

/-- The spine records an access in the mirror before it performs it (08 R262). -/
def keepRecord (s : State) (l : LineNo) (w : Option Line) : State :=
  { s with fab := { s.fab with spine := { s.fab.spine with record := some (l, w) } } }

/-- The access of a line that the spine serves now; none: it has ended. -/
def setKeep (s : State) (l : LineNo) (v : Option (Req × SpineWait)) : State :=
  { s with fab := { s.fab with spine := { s.fab.spine with open_ := mset? s.fab.spine.open_ l.toNat v } } }

/-- Belvedere holds a line that it has read (08 R264). Its copy of the keep region is 4 MiB of its 8 MiB, beside a safety image of at most 4 MiB (08 R230; 15 R475; 18 R534). In a full copy the lowest line that need not be resident gives way: DESIGN CHOICE (log entry 99). -/
def blvTake (s : State) (l : LineNo) (d : Line) : State :=
  let sp := s.fab.spine
  let full := (mget? sp.blv l.toNat).isNone && decide (65536 ≤ sp.blv.length)
  let room := if full then
      match (mkeys sp.blv).find? (fun k => !sp.resident.contains (BitVec.ofNat 42 k)) with
      | some k => mdel sp.blv k
      | none => sp.blv
    else sp.blv
  { s with fab := { s.fab with spine := { sp with blv := mput room l.toNat d } } }

/-- A resident line that has been written is read again by Belvedere, which holds it at all times (11 R369). -/
def blvAgain (s : State) (l : LineNo) (d : Line) : State :=
  if s.fab.spine.resident.contains l then uncoreEvent (blvTake s l d) 36 1 devClass else s

/-- Writes a keep-region line through MWR, which the spine's stop counts (08 R245, R262). -/
def keepStore (s : State) (l : LineNo) (d : Line) : State :=
  let s1 := countWrite (uncoreEvent (keepRecord s l (some d)) (16 + s.stopOf 30) 1 devClass) l d devClass
  blvAgain { s1 with dram := dramWrite s1.dram l.toNat d } l d

/-- The spine performs a write that nothing holds up, and answers it (08 R262, R265). -/
def keepWrite (s : State) (r : Req) : State :=
  let s1 := keepStore (setKeep s r.line none) r.line (lineMerge (dramPeek s.dram r.line) r.data r.mask)
  sendT (uncoreEvent s1 36 2 r.cls) 30 r.cls r.tag (.done r.src r.line)

/-- The spine goes on with an access that Belvedere no longer holds up: a write is performed, once the fill has passed its row; a read or an atomic sends MRD (08 R262; 09 R293). -/
def keepServe (s : State) (r : Req) : State :=
  if r.kind == .ncWr then
    if rowFilled s.dram r.line then keepWrite s r else setKeep s r.line (some (r, .row))
  else sendM (setKeep s r.line (some (r, .mdata))) 30 devClass (.mrd r.line)

/-- The spine serves an access: it records it in the mirror, and a write to a line that Belvedere holds first sends KINV (08 R262, R264). -/
def keepStart (s : State) (r : Req) : State :=
  let s1 := keepRecord s r.line none
  if r.kind != .ncRd && (mget? s.fab.spine.blv r.line.toNat).isSome then
    sendM (uncoreEvent (setKeep s1 r.line (some (r, .kinv))) 36 4 r.cls) 30 r.cls (.kinv r.line)
  else keepServe s1 r

/-- The spine accepts an access: those of a line are served one at a time, in the order of acceptance (08 R262). -/
def keepAccept (s : State) (r : Req) : State :=
  let sp := s.fab.spine
  if (mget? sp.open_ r.line.toNat).isSome || sp.wait.any (fun q => q.line == r.line) then
    { s with fab := { s.fab with spine := { sp with wait := sp.wait ++ [r] } } }
  else keepStart s r

/-- The accesses that wait on a line are served, up to one that waits itself (08 R262). -/
def keepNext (s : State) (l : LineNo) : State :=
  (s.fab.spine.wait.filter (fun r => r.line == l)).foldl (fun t r =>
    let sp := t.fab.spine
    if (mget? sp.open_ l.toNat).isSome then t
    else keepStart { t with fab := { t.fab with spine := { sp with wait := sp.wait.erase r } } } r) s

/-- MDATA at the spine: the read or the atomic is performed and answered (08 R262, R263, R265). Belvedere keeps the lines it reads (08 R264). -/
def onSpineData (s : State) (l : LineNo) (d : Line) : State :=
  match mget? s.fab.spine.open_ l.toNat with
  | some (r, .mdata) =>
    let old : W64 := BitVec.ofNat 64 (lineGet d r.off r.size)
    let s0 := setKeep s l none
    let s1 := if r.kind == .atom then
        let v := atomNew r.op r.size old r.opnd r.cmpv
        uncoreEvent (if v = old then s0 else keepStore s0 l (linePut d r.off r.size v.toNat)) 36 3 r.cls
      else uncoreEvent (if r.src = 25 then blvTake s0 l d else s0) 36 1 r.cls
    keepNext (sendT s1 30 r.cls r.tag (.adata r.src l old)) l
  | _ => s

/-- KINV at Belvedere: it gives the line up and acknowledges to the spine (08 R264). -/
def onKinv (s : State) (l : LineNo) : State :=
  let sp := s.fab.spine
  sendM { s with fab := { s.fab with spine := { sp with blv := mdel sp.blv l.toNat } } } 25 devClass (.ack 25 30 l)

/-- ACK at the spine: the write goes on, and what waits behind it (08 R262, R264). -/
def onSpineAck (s : State) (l : LineNo) : State :=
  match mget? s.fab.spine.open_ l.toNat with
  | some (r, .kinv) => keepNext (keepServe s r) l
  | _ => s

/-- The spine goes on with the writes that waited for the fill of their row (09 R293). -/
def keepPump (s : State) : State :=
  s.fab.spine.open_.foldl (fun t p => match p.2 with
    | (r, .row) => if rowFilled t.dram r.line then keepNext (keepWrite t r) r.line else t
    | _ => t) s

/-- What an agent does with a message; none where it cannot take it yet. The burst of a read that is served within another command's step is a free value: one that needs a correction waits for its row MRD, which acts on what it holds (09 R275; log entry 105). -/
def deliver (s : State) (p : FabMsg) : Option State :=
  match p.msg with
  | .fwdS k l a => some (onFwdS s k.toNat l a)
  | .fwdX k l a n => some (onFwdX s k.toNat l a n)
  | .fwdRd k l => some (onFwdRd s k.toNat l)
  | .inv k l a _ => some (onInv s k.toNat l a)
  | .binv k l => some (onBinv s k.toNat l)
  | .drop k q => some (sendM (dropPage s k.toNat q) (clusterAgent k.toNat) hypClass (.dropAck k q))
  | .kinv l => some (onKinv s l)
  | .ack _ a l =>
    if a.toNat < 8 then some (onClusterAck s a.toNat l)
    else if a.toNat < 16 then some (pumpHome (onHomeAck s (a.toNat - 8) l) (a.toNat - 8))
    else some (onSpineAck s l)
  | .fwdAck k l i => some (pumpHome (onFwdAck s (s.homeNo l) l k.toNat i p.tag) (s.homeNo l))
  | .notHeld k l => some (pumpHome (onNotHeld s (s.homeNo l) l k.toNat) (s.homeNo l))
  | .grant k l n => some (takeGrant s k.toNat l n)
  | .cmp _ l => some (pumpHome (onCmp s (s.homeNo l) l) (s.homeNo l))
  | .wb k l d c => some (pumpHome (onWb s (s.homeNo l) l k.toNat d c) (s.homeNo l))
  | .wbAck k l =>
    let c := s.cluster k.toNat
    some (s.setCluster k.toNat { c with wb := mdel c.wb l.toNat })
  | .nack .. => some s
  | .retry a l => if queueRoom s l then some (onRetry s a l) else none
  | .done a l =>
    if 8 ≤ a.toNat ∧ a.toNat < 16 then some (pumpHome (onCodeAnswer s (a.toNat - 8) l) (a.toNat - 8)) else some s
  | .dropAck k q => some (onDropAck s (s.pageHome q) q k.toNat)
  | .data k l d st n dirty => some (takeData s k.toNat l d st n dirty)
  | .dataH _ l d dirty => some (pumpHome (onDataH s (s.homeNo l) l d dirty p.cls) (s.homeNo l))
  | .mrd l =>
    if rowFilled s.dram l && mrdDue s l && burstClean s.dram l.toNat (Config.readBurst s.fresh) then some (onMrd { s with fresh := s.fresh + 1 } l)
    else none
  | .mdata l d => some (if inKeep s (l.toNat * 64) then onSpineData s l d else pumpHome (onMdata s (s.homeNo l) l d) (s.homeNo l))
  | .adata a l v => some (onAdata s a l v)
  | .codeMark q l => some (onCodeAsk s q l)
  | .codeQuery q l => some (onCodeAsk s q l)
  | .codeSet k q => some (pumpHome (onCodeSet s k.toNat q) k.toNat)
  | .codeClr k q => some (onCodeClr s k.toNat q)
  | .codeDone k h q => some (onCodeDone s k.toNat h.toNat q)

/-- The first message that a test picks reaches its agent; none where none is in flight, or it cannot be taken yet. -/
def deliverFirst (s : State) (f : Msg → Bool) : Option State :=
  match takeMsg f s.fab.net with
  | none => none
  | some (p, rest) => deliver (arrive s p rest) p

/-- The page that a message names. -/
def msgPage : Msg → Option PageNo
  | .drop _ p | .dropAck _ p | .codeSet _ p | .codeClr _ p | .codeDone _ _ p | .codeMark p _ | .codeQuery p _ => some p
  | _ => none

/-- The message belongs to a line or to its page. -/
def msgFor (l : LineNo) (m : Msg) : Bool :=
  match msgPage m with
  | some p => p == pageOfLine l
  | none => msgLine m == some l

/-- The message belongs to a page or to one of its lines, but for the reads of DRAM. -/
def msgOfPage (p : PageNo) (m : Msg) : Bool :=
  match m with
  | .mrd _ => false
  | _ => match msgPage m with
    | some q => q == p
    | none => (msgLine m).map pageOfLine == some p

/-- Delivers the messages of a line, and those of its page that it may wait for, until none is left; a row of the line not yet filled stops it. -/
def settle (l : LineNo) : Nat → State → State
  | 0, s => s
  | n + 1, s =>
    match deliverFirst s (fun m => msgFor l m || msgOfPage (pageOfLine l) m) with
    | none => s
    | some t => settle l n t

/-- The messages of one access: enough for a drop of its page. -/
def settleFuel : Nat := 256

/-- No request or transaction on the line is open. -/
def lineQuiet (s : State) (l : LineNo) : Bool :=
  (s.txnOf (s.homeNo l) l).isNone && (List.range 8).all (fun k => (s.mshrOf k l).isNone)
    && !s.net.any (msgFor l)

/-- Runs an uncached access of an agent from its request to its answer (08 R247, R269); none where the line is not quiet afterwards. -/
def runNc (s : State) (r : Req) : Option State :=
  let s1 := settle r.line settleFuel s
  if lineQuiet s1 r.line && reqFits s1 r.line then
    let (tag, s2) := (uncoreEvent s1 (16 + agentStop r.src) 1 r.cls).newTag r.src
    let s3 := settle r.line settleFuel (openReq s2 { r with tag := tag })
    if lineQuiet s3 r.line then some s3 else none
  else none

/-- The answer that an agent received last for a line. -/
def answerOf (s : State) (a : Agent) (l : LineNo) : W64 :=
  match s.fab.answers.find? (fun p => p.1 == a && p.2.1 == l) with
  | some p => p.2.2
  | none => 0

end Sys2Proof.Machine
end

