-- ==== Sys2Proof/Machine/Irq.lean ====
section
/-! DEFINITION. Physical and virtual interrupts: the pavilion interrupt table, posts, latches, doorbells (02 R54; 10 R306 to R318, R322). -/

namespace Sys2Proof.Machine

/-- Inserts a number into an ascending list, once. -/
def insertNat (n : Nat) : List Nat → List Nat
  | [] => [n]
  | m :: t => if n < m then n :: m :: t else if n = m then m :: t else m :: insertNat n t

/-- Makes a physical interrupt pending at a core (02 R54). -/
def raisePhys (s : State) (vc : Vc) (id : Nat) : State :=
  s.updCore vc (fun c => { c with phys := insertNat id c.phys })

/-- The drop of a code-seen page, whole, for a write that takes its place at once; a drop or a mark under way goes on (05 R164; 08 R260). -/
def dropNow (s : State) (p : PageNo) : State :=
  if codeSeen s p then
    let h := s.pageHome p
    let busy := (mget? (s.home h).drops p.toNat).isSome || (mget? (s.home h).marks p.toNat).isSome
    let s1 := (List.range 8).foldl (fun t k => dropPage t k p) s
    if busy then s1
    else
      let ho := s1.home h
      let s2 := uncoreEvent (s1.setHome h { ho with pages := ho.pages.filter (· != p) }) h 6 hypClass
      s2.aliveHomes.foldl (fun t k => lowerCount t k p) s2
  else s

/-- Changes a line in every place that holds it, as a write of an allocation class: used where the line has a transaction open, so that the change takes its place before it. Its page's code is dropped first, and every reader with an uncommitted load of the line rolls back (05 R164; 08 R238, R240). -/
def pokeLine (s : State) (c : ClassId) (l : LineNo) (f : Line → Line) : State :=
  let s0 := dropNow s (pageOfLine l)
  let d := f (s0.observe l)
  let h := s0.homeNo l
  let s1 := (List.range 8).foldl (fun t k => match t.l2 k l with
    | some x => (rollbackReaders t k l none).setL2 k l (some { x with data := d, st := if x.st == .e then .m else x.st, dirtyIn := none })
    | none => t) s0
  let fix : Msg → Msg
    | .data k m v st n b => if m = l then .data k m d (if st == .e then .m else st) n b else .data k m v st n b
    | .dataH k m v b => if m = l then .dataH k m d true else .dataH k m v b
    | .mdata m v => if m = l then .mdata m d else .mdata m v
    | m => m
  let s2 := { s1 with fab := { s1.fab with net := s1.fab.net.map (fun p => { p with msg := fix p.msg }) } }
  let s3 := updTxn s2 h l (fun t => if t.data.isSome then { t with data := some d } else t)
  scPut s3 h l d true c

/-- An uncached request that the device makes and whose answer it does not need: it runs from its request to its answer where its line is free, else it waits at its home behind the transaction of its line, or for room in the home's queue, and is performed in its turn (08 R248, R251). -/
def deviceNc (s : State) (r : Req) : State :=
  match runNc s r with
  | some t => t
  | none =>
    let (tag, s1) := (uncoreEvent s (16 + agentStop r.src) 1 r.cls).newTag r.src
    if reqFits s r.line then openReq s1 { r with tag := tag }
    else { s1 with fab := { s1.fab with retryq := s1.fab.retryq ++ [({ r with tag := tag }, false)] } }

/-- A home atomic that the device makes on 8 bytes of memory (10 R314). -/
def homeAtomic (s : State) (a : Agent) (pa : Nat) (fn : AtomFn) (v : W64) : State :=
  deviceNc s { kind := .atom, src := a, line := lineOf pa, off := pa % 64, size := 8, op := atomCode fn, opnd := v, cls := devClass }

/-- A 4-byte write of the Gatehouse (10 R312). -/
def gateWrite32 (s : State) (pa : Nat) (v : W32) : State :=
  deviceNc s { kind := .ncWr, src := 24, line := lineOf pa, off := pa % 64, size := 4, data := linePut 0 (pa % 64) 4 v.toNat,
               mask := byteMask (pa % 64) 4, cls := devClass }

/-- PIT ENTRY i (10 R311). -/
def pitEntryPa (p : Pavilion) (i : Nat) : Nat := p.pit.toNat + 4 * i
/-- The doubleword of PEND v that holds ID i (10 R311). -/
def pitPendPa (p : Pavilion) (v i : Nat) : Nat := p.pit.toNat + 0x2000 + 0x200 * v + 8 * (i / 64)
/-- CTL v (10 R311). -/
def pitCtlPa (p : Pavilion) (v : Nat) : Nat := p.pit.toNat + 0x2100 + 0x200 * v

/-- Reads ENTRY i. -/
def pitEntry (s : State) (p : Pavilion) (i : Nat) : W32 := BitVec.ofNat 32 (s.peek (pitEntryPa p i) 4)
/-- Reads CTL v. -/
def pitCtl (s : State) (p : Pavilion) (v : Nat) : W64 := BitVec.ofNat 64 (s.peek (pitCtlPa p v) 8)

/-- EN, SEND and VCPU of an entry (10 R311). -/
def entryEn (e : W32) : Bool := e.getLsbD 0
def entrySend (e : W32) : Bool := e.getLsbD 1
def entryVcpu (e : W32) : Nat := (e.extractLsb' 8 6).toNat

/-- Sets bit i of PEND v with a home atomic (10 R314). -/
def setPend (s : State) (p : Pavilion) (v i : Nat) : State :=
  homeAtomic s 24 (pitPendPa p v i) .or (1#64 <<< (i % 64))

/-- The IDs of PEND v, ascending. -/
def pendIds (s : State) (p : Pavilion) (v : Nat) : List Nat :=
  (List.range 32).flatMap (fun j =>
    let w := s.peek (pitPendPa p v (64 * j)) 8
    ((List.range 64).filter (fun b => w.testBit b)).map (fun b => 64 * j + b))

/-- Swaps PEND v with zero (10 R306). -/
def clearPend (s : State) (a : Agent) (p : Pavilion) (v : Nat) : State :=
  (List.range 32).foldl (fun t j =>
    let pa := pitPendPa p v (64 * j)
    if t.peek pa 8 = 0 then t else homeAtomic t a pa .swap 0) s

/-- ORs IDs into PEND v (10 R306). -/
def orPend (s : State) (p : Pavilion) (v : Nat) (ids : List Nat) : State := ids.foldl (fun t i => setPend t p v i) s

/-- The virtual core on which a vCPU has RUN = 1 (10 R306). -/
def runningOn (s : State) (p : Pav) (v : Nat) : Option Vc :=
  s.allCores.find? (fun c =>
    let a := (s.core c).arch
    a.run && a.tr.vmid == p && a.vcpu.toNat == v)

/-- Sets a bit of a core's latch (10 R314). -/
def latchId (s : State) (vc : Vc) (i : Nat) : State := s.updCore vc (fun c => { c with latch := insertNat i c.latch })

/-- The doorbell of a vCPU that does not run, where DB_EN and DB_ARMED are 1 (10 R314). -/
def doorbell (s : State) (pn : Pav) (v : Nat) : State :=
  let p := s.pav pn
  let ctl := pitCtl s p v
  if ctl.getLsbD 8 && ctl.getLsbD 9 then
    raisePhys (homeAtomic s 24 (pitCtlPa p v) .and (~~~ 0x200#64)) (ctl.extractLsb' 0 6) (0x4000 + 64 * pn.toNat + v)
  else s

/-- A post is beyond the interrupt-rate budget of its epoch, or follows one that was (10 R322). -/
def postDeferred (s : State) (pn : Pav) : Bool :=
  let q := s.qosOf (pn.setWidth 16)
  (s.pav pn).deferring || (q.rate != 0 && decide (q.rate ≤ q.rateUsed))

/-- A post to ID i of a pavilion (10 R314, R322, R329). -/
def postVirq (s : State) (pn : Pav) (i : Nat) : State :=
  let p := s.pav pn
  if p.st = .none then s
  else if p.st = .resetting then
    s.setPav pn { p with
      discarded := satAdd32 p.discarded 1, wait := p.wait.map (fun w => { w with count := w.count + 1 }) }
  else if i < p.nirq ∧ entryEn (pitEntry s p i) = true then
    let v := entryVcpu (pitEntry s p i)
    let deferred := postDeferred s pn
    let cls : ClassId := pn.setWidth 16
    let q := s.qosOf cls
    let s1 := s.setQos cls { q with rateUsed := q.rateUsed + 1 }
    if deferred then
      setPend (s1.setPav pn { p with deferring := true, deferred := satAdd32 p.deferred 1 }) p v i
    else match runningOn s1 pn v with
      | some c => latchId s1 c i
      | none => doorbell (setPend s1 p v i) pn v
  else s

/-- The key of a PCI Express function: virtual function 1 to 64 of an endpoint link, 0 its physical function; a requester ID below a root port (13 R421). -/
def fnKey (l fn : Nat) : Nat := l * 65536 + fn

/-- A PCI Express function. -/
def State.pfn (s : State) (p : Bool) (l fn : Nat) : PcieFn := mget (s.port p).fns (fnKey l fn) {}

/-- The owner of a source: a session's, a function's or a channel's class; a lane belongs to none (13 R420). -/
def sourceOwner (s : State) (v : Nat) : Option ClassId :=
  match v % 16 with
  | 1 =>
    let e := s.ses (BitVec.ofNat 14 (v / 16))
    some (if e.st = .closed then noClass else e.owner.setWidth 16)
  | 2 => some (s.pfn ((v / 16) % 2 == 1) (v / 32 % 4) (v / 256 % 65536)).owner
  | 3 => some (s.timer (BitVec.ofNat 5 (v / 16))).owner
  | _ => none

/-- The source belongs to the class that the route serves; an unowned function counts for the hypervisor class (13 R420; 18 R530). -/
def sourceFits (s : State) (v : Nat) (c : ClassId) : Bool :=
  match sourceOwner s v with
  | none => true
  | some o => o == c || (v % 16 == 2 && c == hypClass && o == noClass)

/-- A route's source still belongs to the class that the route serves: only then does it post (10 R310). -/
def routeFits (s : State) (r : Route) : Bool := sourceFits s r.src.toNat (if r.hyp then hypClass else r.pav.setWidth 16)

/-- The routes of a source; each posts its ID where the source still belongs to its target (10 R310; 13 R420). -/
def postRoutes (s : State) (src : BitVec 64) : State :=
  (s.gate.routes.filter (fun r => r.src == src && routeFits s r)).foldl
    (fun t r => if r.hyp then raisePhys t (r.vc.setWidth 6) (0x2000 + r.id.toNat) else postVirq t r.pav r.id.toNat) s

/-- A source is the sub-source of an interrupt-map entry of a safety session that the safety image serves (11 R358, R370; 13 R420; 15 R469). -/
def safetySource (s : State) (src : BitVec 64) : Bool :=
  src.extractLsb' 0 4 == 1#4 && (s.ses (src.extractLsb' 4 14)).safety && (src >>> 18).toNat < 8 && s.dev.blv.image

/-- A source posts: in REST the post is held until the wake; in BELVEDERE those of safety sessions' interrupt-map entries go to the safety image, and there is no one else to post to (11 R370; 13 R420; 14 R445; 15 R474; 16 R504). -/
def postSource (s : State) (src : BitVec 64) : State :=
  match s.mode with
  | .rest => { s with dev := { s.dev with held := s.dev.held ++ [src] } }
  | .belvedere =>
    if safetySource s src then { s with dev := { s.dev with blv := { s.dev.blv with posts := s.dev.blv.posts ++ [src] } } } else s
  | _ => postRoutes s src

/-- The stop interrupt stands at a core whose pavilion is DEFINED, STOPPED or RESETTING (10 R309). -/
def stopIrq (s : State) (c : Core) : Option Nat :=
  match (s.pav c.arch.tr.vmid).st with
  | .defined | .stopped | .resetting => some (0x8000 + c.arch.tr.vmid.toNat)
  | _ => none

/-- The physical interrupts pending at a core, ascending (02 R54, 10 R309). -/
def physPending (s : State) (c : Core) : List Nat :=
  match stopIrq s c with
  | some i => insertNat i c.phys
  | none => c.phys

/-- Step 1 of a write of VCPU_H or VMID_H: the latch goes into PEND of the vCPU that ran, and RUN and RUNNING become 0 (10 R306, R311). A pavilion may have been destroyed while RUN stayed 1, and its record is clear then: the latch goes where PIT base 0 puts it. DESIGN CHOICE (log entry 97). -/
def spillLatch (s : State) (vc : Vc) : State :=
  let c := s.core vc
  if c.arch.run then
    let p := s.pav c.arch.tr.vmid
    let v := c.arch.vcpu.toNat
    let s1 := orPend s p v c.latch
    let s2 := homeAtomic s1 (clusterAgent (s1.clusterOf vc)) (pitCtlPa p v) .and (~~~ 0x10000#64)
    s2.updCore vc (fun d => { d with
      latch := [], noticeS := none, arch := { d.arch with run := false }, spec := { d.spec with run := false } })
  else s

/-- A vCPU can be loaded: its pavilion is RUNNING, its number below NVCPU, and it runs on no other core (10 R306). -/
def canLoad (s : State) (pn : Pav) (v : Nat) : Bool :=
  let p := s.pav pn
  p.st == .running && decide (v < p.nvcpu) && (runningOn s pn v).isNone

/-- Step 2: PEND is swapped with zero into the latch, RUN and RUNNING are set with RUN_VC, and the doorbell is armed again (10 R306, R311, R314). -/
def loadLatch (s : State) (vc : Vc) (pn : Pav) (v : Nat) : State :=
  let p := s.pav pn
  let ids := pendIds s p v
  let a := clusterAgent (s.clusterOf vc)
  let s1 := clearPend s a p v
  let ctl := (pitCtl s1 p v &&& ~~~ 0x3F000000#64) ||| 0x10200#64 ||| (vc.setWidth 64 <<< 24)
  (homeAtomic s1 a (pitCtlPa p v) .swap ctl).updCore vc (fun d => { d with
    latch := ids, arch := { d.arch with run := true, refused := false }, spec := { d.spec with run := true, refused := false } })

end Sys2Proof.Machine
end

