-- ==== Sys2Proof/Machine/Fabric.lean ====
section
/-! DEFINITION. The rows of the fabric: the requests that reach a home slice or the spine, and the messages that reach their agents (08 R233 to R265). -/

namespace Sys2Proof.Machine

/-- Requests travel and are served: ASSEMBLY and SERVICE (01 R24). -/
def fabricUp (s : State) : Bool := (s.mode == .assembly || s.mode == .service) && !s.dev.stopped

/-- A line of DRAM that a home slice serves: below the tags and outside the keep region (08 R242). -/
def homeLine (s : State) (l : LineNo) : Bool := inDram s.dram (l.toNat * 64) && !inKeep s (l.toNat * 64)

/-- Agents that send requests, with the allocation class that each gives them: the device class from the Gatehouse, Belvedere and the trace funnel, and no request of another agent's (08 R232, R240). -/
def sendsClass (a : Agent) (c : ClassId) : Bool :=
  let n := a.toNat
  if n = 24 ∨ n = 25 ∨ n = 29 then c == devClass else (decide (n < 8) || n == 26 || n == 27 || n == 28) && c != devClass

/-- The set of the cluster L2 has room for a line: the lines that must stay, with those that its open requests will bring, leave a way (08 R230, R251). -/
def l2Fits (s : State) (k : Nat) (l : LineNo) : Bool :=
  let c := s.cluster k
  let other (m : Nat) : Bool := m % 4096 == l.toNat % 4096 && m != l.toNat
  let stay := (c.l2.filter (fun p => other p.1 && ((mget? c.mshr p.1).isSome || p.2.unperf.isSome))).length
  let coming := (c.mshr.filter (fun p => other p.1 && (mget? c.l2 p.1).isNone)).length
  decide (stay + coming < l2Ways c)

/-- A cluster's request can be sent: nothing is open on the line, and its home and the set of its L2 have room (08 R230, R248, R251). -/
def canAsk (s : State) (k : Nat) (l : LineNo) : Bool :=
  fabricUp s && homeLine s l && (s.mshrOf k l).isNone && (mget? (s.cluster k).wb l.toNat).isNone && reqFits s l
    && l2Fits s k l

/-- A cluster sends a request of its own and waits for its answer (08 R249). -/
def askHome (s : State) (k : Nat) (l : LineNo) (kind : ReqKind) (core : Option Vc) (c : ClassId) : State :=
  let (tag, s0) := s.newTag (clusterAgent k)
  let s1 := s0.setMshr k l (some { kind := kind, core := core, need := none, got := 0, cls := c, tag := tag })
  let s2 := uncoreEvent s1 (16 + 2 * k) 1 c
  openReq s2 { kind := kind, src := clusterAgent k, line := l, cls := c, tag := tag }

/-- RD_S (08 R246, R247): a read that misses in the cluster L2. -/
def execRdS (clu : Oct) (line : LineNo) (cls : ClassId) (s : State) : Out :=
  let k := clu.toNat
  whenTrue (canAsk s k line && (s.l2 k line).isNone && cls != devClass) s (askHome s k line .rdS none cls)

/-- A fetch finds the line in its cluster: only the fetch buffer takes it, once its page is code-seen (05 R125, R159). -/
def fetchHeld (s : State) (k : Nat) (l : LineNo) (core : Option Vc) : Bool :=
  (s.l2 k l).isSome && codeSeen s (pageOfLine l) && (match core with | some v => s.clusterOf v == k | none => true)

/-- RD_CODE (08 R247, R260): a read by a fetch buffer or the translator. -/
def execRdCode (clu : Oct) (line : LineNo) (core : Option Vc) (cls : ClassId) (s : State) : Out :=
  let k := clu.toNat
  if fetchHeld s k line core then
    .next (match core with
      | some v => s.updCore v (fun c => fetchTake c line)
      | none => s)
  else
    whenTrue (canAsk s k line && (match core with
        | some v => s.clusterOf v == k && cls == classOf (s.core v).spec
        | none => cls != devClass)) s
      (askHome s k line .rdCode core cls)

/-- A core may ask for ownership of a line: one of its 16 oldest buffered committed stores goes to it, whose class it gives (08 R240, R266); without a core the request is an atomic's. -/
def mayOwn (s : State) (k : Nat) (l : LineNo) (store : Option Vc) (c : ClassId) : Bool :=
  match store with
  | none => c != devClass
  | some v => s.clusterOf v == k && decide (v.toNat < vcCount s.cmap.part)
      && (((s.core v).sb.filter (·.committed)).take 16).any (fun e => !e.nc && lineOf e.pa.toNat == l && e.cls == c)

/-- RD_X (08 R247, R266): a read for ownership by a cluster that does not hold the line. -/
def execRdX (clu : Oct) (line : LineNo) (store : Option Vc) (cls : ClassId) (s : State) : Out :=
  let k := clu.toNat
  whenTrue (canAsk s k line && (s.l2 k line).isNone && mayOwn s k line store cls) s
    (askHome s k line .rdX store cls)

/-- UPG (08 R246, R247, R255): ownership of a line held in S or O. -/
def execUpg (clu : Oct) (line : LineNo) (store : Option Vc) (cls : ClassId) (s : State) : Out :=
  let k := clu.toNat
  let held := match s.l2 k line with
    | some x => x.st == .s || x.st == .o
    | none => false
  whenTrue (canAsk s k line && held && mayOwn s k line store cls) s
    (askHome s k line .upg store cls)

/-- WB (08 R246, R254): the cluster evicts the line, or the WB that it has sent arrives at the home. -/
def execWb (clu : Oct) (line : LineNo) (s : State) : Out :=
  let k := clu.toNat
  if (s.l2 k line).isSome then whenTrue (fabricUp s && (s.mshrOf k line).isNone && (mget? (s.cluster k).wb line.toNat).isNone) s (evictLine s k line)
  else orStay s (deliverFirst s (fun m => match m with | .wb j l _ _ => j == clu && l == line | _ => false))

/-- An uncached request can be sent: it lies in one line that a home serves, and the home has room (08 R247). -/
def canNc (s : State) (pa size : Nat) : Bool :=
  fabricUp s && decide (pa % 64 + size ≤ 64) && homeLine s (lineOf pa) && reqFits s (lineOf pa)

/-- Sends an uncached request of an agent. -/
def askNc (s : State) (r : Req) : State :=
  let (tag, s1) := (uncoreEvent s (16 + agentStop r.src) 1 r.cls).newTag r.src
  openReq s1 { r with tag := tag }

/-- NC_RD (08 R247). -/
def execNcRd (agent : Agent) (cls : ClassId) (pa : BitVec 48) (size : Nat) (s : State) : Out :=
  whenTrue (canNc s pa.toNat size && sendsClass agent cls) s
    (askNc s { kind := .ncRd, src := agent, line := lineOf pa.toNat, off := pa.toNat % 64, size := size, cls := cls })

/-- NC_WR (08 R247). -/
def execNcWr (agent : Agent) (cls : ClassId) (line : LineNo) (mask : BitVec 64) (data : Line) (s : State) : Out :=
  whenTrue (canNc s (line.toNat * 64) 64 && sendsClass agent cls) s
    (askNc s { kind := .ncWr, src := agent, line := line, size := 64, data := data, mask := mask, cls := cls })

/-- ATOM (08 R247). -/
def execAtom (agent : Agent) (cls : ClassId) (pa : BitVec 48) (size : Nat) (op : BitVec 4) (opnd cmpv : W64) (s : State) : Out :=
  whenTrue (canNc s pa.toNat size && sendsClass agent cls && (atomOf op).isSome) s
    (askNc s { kind := .atom, src := agent, line := lineOf pa.toNat, off := pa.toNat % 64, size := size, op := op, opnd := opnd,
               cmpv := cmpv, cls := cls })

/-- A row that takes the first message of a kind. -/
def takeRow (s : State) (f : Msg → Bool) : Out := orStay s (deliverFirst s f)

/-- FWD_S (08 R246). -/
def execFwdS (clu : Oct) (line : LineNo) (s : State) : Out :=
  takeRow s (fun m => match m with | .fwdS k l _ => k == clu && l == line | _ => false)
/-- FWD_X (08 R246). -/
def execFwdX (clu : Oct) (line : LineNo) (s : State) : Out :=
  takeRow s (fun m => match m with | .fwdX k l _ _ => k == clu && l == line | _ => false)
/-- FWD_RD (08 R246). -/
def execFwdRd (clu : Oct) (line : LineNo) (s : State) : Out :=
  takeRow s (fun m => match m with | .fwdRd k l => k == clu && l == line | _ => false)
/-- INV (08 R246). -/
def execInv (clu : Oct) (line : LineNo) (s : State) : Out :=
  takeRow s (fun m => match m with | .inv k l _ _ => k == clu && l == line | _ => false)
/-- BINV (08 R257). -/
def execBinv (clu : Oct) (line : LineNo) (s : State) : Out :=
  takeRow s (fun m => match m with | .binv k l => k == clu && l == line | _ => false)
/-- DROP (05 R160, R162; 08 R260). -/
def execDrop (clu : Oct) (page : PageNo) (s : State) : Out :=
  takeRow s (fun m => match m with | .drop k p => k == clu && p == page | _ => false)
/-- FWD_ACK (08 R254). -/
def execFwdAck (clu : Oct) (line : LineNo) (s : State) : Out :=
  takeRow s (fun m => match m with | .fwdAck k l _ => k == clu && l == line | _ => false)
/-- NOT_HELD (08 R253). -/
def execNotHeld (clu : Oct) (line : LineNo) (s : State) : Out :=
  takeRow s (fun m => match m with | .notHeld k l => k == clu && l == line | _ => false)
/-- GRANT (08 R249). -/
def execGrant (clu : Oct) (line : LineNo) (s : State) : Out :=
  takeRow s (fun m => match m with | .grant k l _ => k == clu && l == line | _ => false)
/-- CMP (08 R248). -/
def execCmp (clu : Oct) (line : LineNo) (s : State) : Out :=
  takeRow s (fun m => match m with | .cmp k l => k == clu && l == line | _ => false)
/-- WB_ACK (08 R254). -/
def execWbAck (clu : Oct) (line : LineNo) (s : State) : Out :=
  takeRow s (fun m => match m with | .wbAck k l => k == clu && l == line | _ => false)
/-- NACK (08 R258). -/
def execNack (agent : Agent) (line : LineNo) (s : State) : Out :=
  takeRow s (fun m => match m with | .nack a l _ => a == agent && l == line | _ => false)
/-- RETRY (08 R258). -/
def execRetry (agent : Agent) (line : LineNo) (s : State) : Out :=
  takeRow s (fun m => match m with | .retry a l => a == agent && l == line | _ => false)
/-- DONE (08 R260, R269): of an uncached write, or the answer to a code message. -/
def execDone (agent : Agent) (line : LineNo) (s : State) : Out :=
  takeRow s (fun m => match m with
    | .done a l => a == agent && l == line
    | .codeDone _ h p => homeAgent h.toNat == agent && p == pageOfLine line
    | _ => false)
/-- DROP_ACK (08 R260). -/
def execDropAck (clu : Oct) (page : PageNo) (s : State) : Out :=
  takeRow s (fun m => match m with | .dropAck k p => k == clu && p == page | _ => false)
/-- DATA (08 R249). -/
def execData (clu : Oct) (line : LineNo) (s : State) : Out :=
  takeRow s (fun m => match m with | .data k l _ _ _ _ => k == clu && l == line | _ => false)
/-- DATA_H (08 R254). -/
def execDataH (clu : Oct) (line : LineNo) (s : State) : Out :=
  takeRow s (fun m => match m with | .dataH k l _ _ => k == clu && l == line | _ => false)
/-- MDATA (08 R239, R245). -/
def execMdata (line : LineNo) (s : State) : Out :=
  takeRow s (fun m => match m with | .mdata l _ => l == line | _ => false)
/-- ADATA (08 R269). -/
def execAdata (agent : Agent) (line : LineNo) (s : State) : Out :=
  takeRow s (fun m => match m with | .adata a l _ => a == agent && l == line | _ => false)
/-- CODE_MARK (08 R260). -/
def execCodeMark (page : PageNo) (s : State) : Out :=
  takeRow s (fun m => match m with | .codeMark p _ => p == page | _ => false)
/-- CODE_QUERY (08 R259). -/
def execCodeQuery (page : PageNo) (s : State) : Out :=
  takeRow s (fun m => match m with | .codeQuery p _ => p == page | _ => false)
/-- CODE_SET (08 R260). -/
def execCodeSet (slice : Oct) (page : PageNo) (s : State) : Out :=
  takeRow s (fun m => match m with | .codeSet k p => k == slice && p == page | _ => false)
/-- CODE_CLR (08 R260). -/
def execCodeClr (slice : Oct) (page : PageNo) (s : State) : Out :=
  takeRow s (fun m => match m with | .codeClr k p => k == slice && p == page | _ => false)

/-- A keep-region access at the spine (08 R262 to R264). -/
def keepLine (s : State) (pa size : Nat) : Bool :=
  fabricUp s && decide (pa % 64 + size ≤ 64) && inKeep s pa

/-- An agent sends the spine a keep-region access (08 R233, R262). -/
def askKeep (s : State) (r : Req) : State :=
  let (tag, s1) := (uncoreEvent s (16 + agentStop r.src) 1 r.cls).newTag r.src
  keepAccept s1 { r with tag := tag }

/-- KEEP_RD (08 R262). -/
def execKeepRd (agent : Agent) (pa : BitVec 48) (size : Nat) (s : State) : Out :=
  whenTrue (keepLine s pa.toNat size) s
    (askKeep s { kind := .ncRd, src := agent, line := lineOf pa.toNat, off := pa.toNat % 64, size := size })

/-- KEEP_WR (08 R264). -/
def execKeepWr (agent : Agent) (line : LineNo) (mask : BitVec 64) (data : Line) (s : State) : Out :=
  whenTrue (keepLine s (line.toNat * 64) 64) s
    (askKeep s { kind := .ncWr, src := agent, line := line, size := 64, data := data, mask := mask })

/-- KEEP_ATOM (08 R263). -/
def execKeepAtom (agent : Agent) (pa : BitVec 48) (size : Nat) (op : BitVec 4) (opnd cmpv : W64) (s : State) : Out :=
  whenTrue (keepLine s pa.toNat size && (atomOf op).isSome) s
    (askKeep s { kind := .atom, src := agent, line := lineOf pa.toNat, off := pa.toNat % 64, size := size, op := op,
                    opnd := opnd, cmpv := cmpv })

/-- KINV (08 R264). -/
def execKinv (line : LineNo) (s : State) : Out := takeRow s (fun m => m == .kinv line)

/-- ACK (08 R249): at a cluster or a home that collects, or at the spine. -/
def execAck (dst : Agent) (line : LineNo) (s : State) : Out :=
  takeRow s (fun m => match m with | .ack _ a l => a == dst && l == line | _ => false)

/-- The spine serves nothing on a line, and nothing waits for it. -/
def keepQuiet (s : State) (l : LineNo) : Bool :=
  (mget? s.fab.spine.open_ l.toNat).isNone && !s.fab.spine.wait.any (fun r => r.line == l) && !s.net.any (msgFor l)

/-- Runs a keep-region access of an agent from its request to its answer, behind those before it, with KINV and its ACK where Belvedere holds the line: the old value and the state; none where it must wait (02 R70; 08 R262, R264; 09 R293). -/
def runKeep (s : State) (r : Req) : Option (W64 × State) :=
  let s1 := settle r.line settleFuel s
  if keepQuiet s1 r.line then
    let old : W64 := BitVec.ofNat 64 (lineGet (dramPeek s1.dram r.line) r.off r.size)
    let s2 := settle r.line settleFuel (askKeep s1 r)
    if keepQuiet s2 r.line then some (old, s2) else none
  else none

/-- An agent's read of memory, whole: at the spine for the keep region, else at the home; n bytes within one line. None: the line is not quiet. -/
def agentRead (s : State) (a : Agent) (c : ClassId) (pa n : Nat) : Option (Nat × State) :=
  let l := lineOf pa
  let r : Req := { kind := .ncRd, src := a, line := l, off := pa % 64, size := n, cls := c }
  if inKeep s pa then (runKeep s r).map (fun t => (t.1.toNat, t.2))
  else
    let v := lineGet (s.observe l) (pa % 64) n
    (runNc s r).map (fun t => (v, t))

/-- An agent's write of memory, whole: n bytes of a number within one line. -/
def agentWrite (s : State) (a : Agent) (c : ClassId) (pa n v : Nat) : Option State :=
  let l := lineOf pa
  let r : Req := { kind := .ncWr, src := a, line := l, size := 64, data := linePut 0 (pa % 64) n v, mask := byteMask (pa % 64) n, cls := c }
  if inKeep s pa then (runKeep s r).map (·.2) else runNc s r

/-- An agent's atomic on memory, whole. -/
def agentAtom (s : State) (a : Agent) (c : ClassId) (pa n : Nat) (op : BitVec 4) (opnd cmpv : W64) : Option (W64 × State) :=
  let l := lineOf pa
  let r : Req := { kind := .atom, src := a, line := l, off := pa % 64, size := n, op := op, opnd := opnd, cmpv := cmpv, cls := c }
  if inKeep s pa then runKeep s r
  else
    let v : W64 := BitVec.ofNat 64 (lineGet (s.observe l) (pa % 64) n)
    (runNc s r).map (fun t => (v, t))

end Sys2Proof.Machine
end

