-- ==== Sys2Proof/Machine/Caches.lean ====
section
/-! DEFINITION. A core's use of its cluster: lines brought into the L2 and the L1D, code lines, reads of the keep region (05 R125, R159; 08 R230, R236 to R238, R263). -/

namespace Sys2Proof.Machine

/-- The core's uncommitted work has been undone, or its region dropped, between two states: the instruction does not go on. -/
def undone (s t : State) (vc : Vc) : Bool :=
  let a := s.core vc
  let b := t.core vc
  a.spec.pc != b.spec.pc || a.retire.length != b.retire.length || a.region != b.region

/-- Records fills of an uncommitted access where STRICT_SPEC is in force (05 R156; 10 R304). -/
def noteFills (s : State) (vc : Vc) (fs : List Fill) : State :=
  if s.strictSpec (s.core vc).spec then s.updCore vc (fun c => { c with fills := c.fills ++ fs }) else s

/-- The line stands in the cluster L2, brought in by RD_S where it was not (08 R246, R247); none: it cannot be yet. -/
def bringShared (s : State) (vc : Vc) (l : LineNo) : Option State :=
  let k := s.clusterOf vc
  let s1 := settle l settleFuel s
  if (s1.l2 k l).isSome then some s1
  else if canAsk s1 k l then
    let s2 := settle l settleFuel (askHome s1 k l .rdS none (classOf (s.core vc).spec))
    if (s2.l2 k l).isSome then some (if undone s s2 vc then s2 else noteFills s2 vc [.l2 l]) else none
  else none

/-- The line stands in the cluster L2 in M or E with every request on it closed, brought in by UPG or RD_X (03 R88; 08 R247); none: it cannot be yet. -/
def bringOwned (s : State) (vc : Vc) (l : LineNo) : Option State :=
  let k := s.clusterOf vc
  let owned (t : State) : Bool := match t.l2 k l with
    | some x => (x.st == .m || x.st == .e) && (t.mshrOf k l).isNone
    | none => false
  let s1 := settle l settleFuel s
  if owned s1 then some s1
  else if canAsk s1 k l then
    let kind : ReqKind := if (s1.l2 k l).isSome then .upg else .rdX
    let s2 := settle l settleFuel (askHome s1 k l kind (some vc) (classOf (s.core vc).spec))
    if owned s2 then some s2 else none
  else none

/-- States of a line in an L1D (08 R236); a line that it does not hold is in I. -/
inductive L1St where
  | m | e | s | i
  deriving DecidableEq, Repr

/-- The state in which a core's L1D holds a line: M after its own store, E only where the L2 holds it in M or E and no other L1D does (08 R236, R237). -/
def l1dState (s : State) (vc : Vc) (l : LineNo) : L1St :=
  match s.l2 (s.clusterOf vc) l with
  | none => .i
  | some x =>
    if !x.pres.contains vc then .i
    else if x.pres.all (· == vc) then
      if x.dirtyIn == some vc then .m
      else match x.st with
        | .m | .e => .e
        | _ => .s
    else .s

/-- The lines that a core's L1D holds in the set of a line: index PA[13:6] (08 R230). -/
def l1dSet (s : State) (vc : Vc) (l : LineNo) : List LineNo :=
  ((s.cluster (s.clusterOf vc)).l2.filter (fun p => p.1 % 256 == l.toNat % 256 && p.2.pres.contains vc)).map
    (fun p => BitVec.ofNat 42 p.1)

/-- A line leaves a core's L1D; a dirty one is written into the L2, which holds its data (08 R236). -/
def l1dEvict (s : State) (vc : Vc) (l : LineNo) : State :=
  let k := s.clusterOf vc
  let s1 := if (s.core vc).micro.readMarks.contains l then specRollback s vc else s
  match s1.l2 k l with
  | none => s1
  | some x => s1.setL2 k l (some (leaveL1 vc x))

/-- Makes room for a line among the 4 ways of its set of the L1D. The victim is the line of the lowest address that no uncommitted load has read, else the lowest, whose eviction undoes that load; the manual names no rule (08 R237, R238; 05 R148; log entry 16). -/
def l1dRoom (s : State) (vc : Vc) (l : LineNo) : State :=
  let ls := l1dSet s vc l
  if ls.contains l || decide (ls.length < 4) then s
  else match ls.find? (fun v => !(s.core vc).micro.readMarks.contains v) with
    | some v => l1dEvict s vc v
    | none => match ls with
      | v :: _ => l1dEvict s vc v
      | [] => s

/-- The L1D takes a line that its cluster holds; the L2 recalls it from an L1D that holds it in M (08 R236, R237). -/
def fillL1 (s0 : State) (vc : Vc) (l : LineNo) : State :=
  let s := l1dRoom s0 vc l
  let k := s.clusterOf vc
  match s.l2 k l with
  | none => s
  | some x =>
    if x.pres.contains vc then s else noteFills (s.setL2 k l (some { x with pres := vc :: x.pres, dirtyIn := none })) vc [.l1d l]

/-- A load reads a line that its cluster holds: the L1D takes it, and marks it until the load commits, and until the stores it carried are performed (08 R238, R268). -/
def readLine (s : State) (vc : Vc) (l : LineNo) (x : L2Line) : State :=
  (fillL1 s vc l).updCore vc (fun c =>
    let m := c.micro
    let sm := if x.unperf.isSome && x.unperf != some vc && !m.syncMarks.contains l then l :: m.syncMarks else m.syncMarks
    { c with micro := { m with readMarks := m.readMarks ++ [l], syncMarks := sm } })

/-- A committed access of the core uses a line: an uncommitted fill of it keeps no tag (05 R156). -/
def usedLine (c : Core) (l : LineNo) : Core :=
  { c with fills := c.fills.map (fun f => if f == .l1d l || f == .l2 l then .kept else f) }

/-- Writes bytes of a line that the cluster holds in M or E for one of its cores: other L1Ds are recalled, and their readers with uncommitted loads roll back (08 R238, R267). -/
def writeLine (s : State) (vc : Vc) (l : LineNo) (off n v : Nat) : State :=
  let s1 := (l1dRoom (rollbackReaders s (s.clusterOf vc) l (some vc)) vc l).updCore vc (fun c => usedLine c l)
  let k := s1.clusterOf vc
  match s1.l2 k l with
  | none => s1
  | some x =>
    s1.setL2 k l (some { x with
      st := .m, data := linePut x.data off n v, pres := [vc], dirtyIn := some vc
      unperf := if (s1.mshrOf k l).isSome then some vc else none })

/-- The events of a cached access: the L1D, the L2 did not hold the line at issue (17 R507). -/
def missEvents (s : State) (vc : Vc) (l : LineNo) : List (BitVec 8) :=
  match s.l2 (s.clusterOf vc) l with
  | some x => if x.pres.contains vc then [] else [0x0D#8]
  | none => [0x0D#8, 0x0E#8]

/-- A walk reads an entry in the keep region: an access at the spine, recorded in the mirror (08 R263); none: the spine has not answered it yet. -/
def keepTouch (s : State) (vc : Vc) (pa : Nat) : Option State :=
  (agentRead s (clusterAgent (s.clusterOf vc)) (classOf (s.core vc).spec) pa 8).map (·.2)

/-- Code is read from a line: its page is code-seen, marked by RD_CODE where it was not (05 R159; 08 R260). `core`: the fetch buffer that takes the line; none: the translator. None: the read has not ended yet. -/
def readCode (s : State) (k : Nat) (l : LineNo) (core : Option Vc) (c : ClassId) : Option State :=
  let seen (t : State) : Bool := codeSeen t (pageOfLine l) && (t.mshrOf k l).isNone && (t.l2 k l).isSome
  let take (t : State) : State := match core with
    | some v => t.updCore v (fun d => fetchTake d l)
    | none => t
  let fill (old t : State) : State := match core with
    | some v => if (old.l2 k l).isNone && !undone old t v then noteFills t v [.l2 l] else t
    | none => t
  let s1 := settle l settleFuel s
  if seen s1 then some (take s1)
  else if canAsk s1 k l then
    let s2 := settle l settleFuel (askHome s1 k l .rdCode core c)
    if seen s2 then some (fill s1 (take s2)) else none
  else none

end Sys2Proof.Machine
end

