-- ==== Sys2Proof/Machine/Pmu.lean ====
section
/-! DEFINITION. The core counters: what counts, overflow and sampling (17 R505 to R512). -/

namespace Sys2Proof.Machine

/-- Counter n; n = 6 is PMU_PACE (17 R505). -/
def pmuCnt (p : Pmu) (n : Nat) : W64 := mget p.cnt n 0
/-- PMU_CFGn (17 R507). -/
def pmuCfg (p : Pmu) (n : Nat) : BitVec 13 := mget p.cfg n 0
/-- Counter n is granted to the guest (17 R510). -/
def pmuGranted (p : Pmu) (n : Nat) : Bool := decide (n < 6) && p.grant.getLsbD n

/-- The counters count: EN = 1 and not frozen (17 R506, R509). -/
def pmuRuns (p : Pmu) : Bool := p.ctl.getLsbD 0 && !(p.ctl.getLsbD 1 && p.ovf != 0)

/-- The level filter admits a level; a granted counter counts at U and S only (17 R506). -/
def pmuAdmits (p : Pmu) (n : Nat) (l : Level) : Bool :=
  if n = 6 then p.ctl.getLsbD (2 + levelNum l)
  else (pmuCfg p n).getLsbD (8 + levelNum l) && !(pmuGranted p n && l == .h)

/-- Chained: counter n counts the carries of counter n - 1 (17 R508). -/
def pmuChained (p : Pmu) (n : Nat) : Bool := decide (1 ≤ n) && decide (n < 6) && (pmuCfg p n).getLsbD 12

/-- The overflow interrupts (17 R509). -/
def pmuIrqOn (p : Pmu) (n : Nat) : Bool := if n = 6 then p.ctl.getLsbD 5 else (pmuCfg p n).getLsbD 11

/-- An overflow of counter n: its OVF bit, and with IRQ = 1 the sample and the sampling interrupt (17 R509, R511, R512). -/
def pmuOverflow (s : State) (vc : Vc) (n : Nat) (pc : W64) (exact : Bool) : State :=
  let c := s.core vc
  let p := { c.pmu with ovf := c.pmu.ovf ||| (1#7 <<< n) }
  let info : BitVec 4 := BitVec.ofBool exact ++ BitVec.ofNat 3 n
  if pmuIrqOn p n then
    if pmuGranted p n then
      let s1 := s.setCore vc { c with pmu := { p with gspc := pc, gsinfo := info } }
      if c.arch.run then postVirq s1 c.arch.tr.vmid p.girq.toNat else s1
    else raisePhys (s.setCore vc { c with pmu := { p with spc := pc, sinfo := info } }) vc (0x1000 + n)
  else s.setCore vc { c with pmu := p }

/-- Counter n takes one event; a wrap overflows, and its carry is the event of the counter chained to it (17 R508, R509). -/
def pmuBump (s : State) (vc : Vc) (pc : W64) (exact : Bool) : Nat → Nat → State
  | 0, _ => s
  | f + 1, n =>
    let c := s.core vc
    let v := pmuCnt c.pmu n
    let s1 := s.setCore vc { c with pmu := { c.pmu with cnt := mput c.pmu.cnt n (v + 1) } }
    if v = BitVec.allOnes 64 then
      let s2 := if pmuChained c.pmu (n + 1) then pmuBump s1 vc pc exact f (n + 1) else s1
      pmuOverflow s2 vc n pc exact
    else s1

/-- One event of a core, at a level: every counter that names it and admits the level counts it (17 R506, R507). -/
def pmuEvent (s : State) (vc : Vc) (ev : BitVec 8) (l : Level) (pc : W64) (exact : Bool) : State :=
  (List.range 6).foldl (fun t n =>
    let p := (t.core vc).pmu
    if pmuRuns p && !pmuChained p n && (pmuCfg p n).setWidth 8 == ev && pmuAdmits p n l then pmuBump t vc pc exact 6 n else t) s

/-- Some events of one instruction. -/
def pmuEvents (s : State) (vc : Vc) (evs : List (BitVec 8)) (l : Level) (pc : W64) (exact : Bool) : State :=
  evs.foldl (fun t e => pmuEvent t vc e l pc exact) s

/-- One pace of a core at a level: PMU_PACE counts it, and its six slots count in the top-down classes, `used` of them as retired and the others as `rest` (17 R505, R506, R513). -/
def pmuPace (s : State) (vc : Vc) (l : Level) (pc : W64) (used : Nat) (rest : BitVec 8) : State :=
  let p := (s.core vc).pmu
  let s1 := if pmuRuns p && pmuAdmits p 6 l then pmuBump s vc pc false 6 6 else s
  pmuEvents s1 vc (List.replicate used 0x20#8 ++ List.replicate (6 - used) rest) l pc false

/-- The paces of courses that commit: their occupied slots have retired, the empty ones are front-starved (17 R513). -/
def pmuCourses (s : State) (vc : Vc) (l : Level) (pc : W64) : Nat → Nat → State
  | 0, _ => s
  | n + 1, used => pmuCourses (pmuPace s vc l pc (min used 6) 0x22) vc l pc n (used - 6)

/-- The paces of undone courses, all of whose slots are wasted (17 R513). -/
def pmuWasted (s : State) (vc : Vc) (pc : W64) (ls : List Level) : State := ls.foldl (fun t l => pmuPace t vc l pc 0 0x21) s

/-- The events that have waited for a commit are counted (17 R507). -/
def pmuQueued (s : State) (vc : Vc) (pc : W64) (q : List (BitVec 8 × Level)) : State :=
  q.foldl (fun t e => pmuEvent t vc e.1 e.2 pc false) s

end Sys2Proof.Machine
end

