-- ==== Sys2Proof/Machine/Mmu.lean ====
section
/-! DEFINITION. Address translation: entries, walks, checks, the caches of translations, the fault syndrome (07). -/

namespace Sys2Proof.Machine

/-- Types of a translation fault (07 R228). -/
inductive FType where
  | translation | permission | access | reserved | walkDevice | addressSize
  deriving DecidableEq, Repr

/-- Code of a fault type (07 R228). -/
def fTypeCode : FType → BitVec 3
  | .translation => 0 | .permission => 1 | .access => 2 | .reserved => 3 | .walkDevice => 4 | .addressSize => 5

/-- Code of an access kind (07 R228). -/
def accCode : Acc → BitVec 2
  | .read => 0 | .write => 1 | .exec => 2 | .rmw => 3

/-- An entry read by a walk: its stage, address, value and the page walked. -/
structure WRead where
  stage2 : Bool
  addr : Nat
  value : W64
  page : Nat
  deriving DecidableEq, Repr

/-- A fault of the walk (07 R228): PKIND is 0 rights, 1 privilege, 2 dirty, 3 memory type. -/
structure WFault where
  stage2 : Bool
  level : Nat
  type : FType
  pkind : BitVec 2 := 0
  s1walk : Bool := false
  s2level : Nat := 0
  /-- The IPA that stage 2 was translating. -/
  ipa : Nat := 0
  /-- The leafs that the walk has found make the access one to DEVICE memory (R210), whatever it meets besides (02 R57). -/
  dev : Bool := false
  /-- The entries that it has read (R202). -/
  reads : List WRead := []
  deriving DecidableEq, Repr

/-- A fault met after some entries have been read. -/
def WFault.after (f : WFault) (rs : List WRead) : WFault := { f with reads := rs ++ f.reads }

/-- ESYN[31:6] of a fault (07 R228). -/
def faultDetail (f : WFault) (acc : Acc) (split : Bool) : BitVec 26 :=
  BitVec.ofNat 26 (f.stage2.toNat + 2 * f.level + 8 * (fTypeCode f.type).toNat + 64 * (accCode acc).toNat
    + 256 * f.pkind.toNat + 1024 * f.s1walk.toNat + 2048 * f.s2level + 8192 * split.toNat)

/-- page(e): bits [47:12] of an entry as an address (07, the walk). -/
def entryPage (e : W64) : Nat := (e.extractLsb' 12 36).toNat * 4096

/-- Memory type of a leaf; 0b11 is reserved (07 R200). -/
def entryMt (e : W64) : MemType :=
  match (e.extractLsb' 9 2).toNat with
  | 0 => .normal
  | 1 => .normalNc
  | _ => .device

/-- The reserved bits of an entry, by stage and level (07 R200). -/
def reservedMask (stage2 : Bool) (lvl : Nat) : W64 :=
  let high : W64 := 0xF87F000000000000
  if lvl < 3 then high ||| 0xFFC else if stage2 then high ||| 0x9E2 else high ||| 0x802

/-- A valid entry faults as reserved (07 R201). -/
def entryReserved (e : W64) (stage2 : Bool) (lvl : Nat) : Bool :=
  (e &&& reservedMask stage2 lvl) != 0
    || (decide (lvl < 3) && !e.getLsbD 1)
    || (decide (lvl = 3) && (e.extractLsb' 9 2 == 3#2 || (e.getLsbD 3 && !e.getLsbD 2)))

/-- The more restrictive memory type (07 R210). -/
def combineMt (a b : MemType) : MemType :=
  match a, b with
  | .device, _ => .device
  | _, .device => .device
  | .normalNc, _ => .normalNc
  | _, .normalNc => .normalNc
  | _, _ => .normal

/-- What a walk reads through: memory, and which addresses lie in usable DRAM below the tags (07, in_dram). `rd` names the stage, for the walk cache. -/
structure WEnv where
  rd : Bool → Nat → W64
  dram : Nat → Bool

/-- Rights check of R207 and R208: what denies an access. -/
def rightsDenied (r w x : Bool) (acc : Acc) : Bool :=
  match acc with
  | .read => !r
  | .write => !w
  | .exec => !x
  | .rmw => !(r && w)

/-- Index of a level in an address (07, the walk). -/
def levelIndex (a lvl : Nat) : Nat := a / 2 ^ (39 - 9 * lvl) % 512

/-- Stage-2 table levels from lvl on, with fuel 4 - lvl (07, s2_walk). -/
def s2Levels (env : WEnv) (ipa : Nat) (s1 : Option Nat) : Nat → Nat → Nat → Except WFault (W64 × List WRead)
  | 0, _, _ => .error { stage2 := true, level := 3, type := .translation }
  | f + 1, lvl, table =>
    let mk (t : FType) : WFault :=
      { stage2 := true, level := s1.getD lvl, type := t, s1walk := s1.isSome, s2level := lvl, ipa := ipa }
    let ea := table + 8 * levelIndex ipa lvl
    if env.dram ea then
      let e := env.rd true ea
      let r : WRead := { stage2 := true, addr := ea, value := e, page := ipa / 4096 }
      if e.getLsbD 0 = false then .error ((mk .translation).after [r])
      else if entryReserved e true lvl then .error ((mk .reserved).after [r])
      else if lvl < 3 then
        match s2Levels env ipa s1 f (lvl + 1) (entryPage e) with
        | .error x => .error (x.after [r])
        | .ok (v, rs) => .ok (v, r :: rs)
      else .ok (e, [r])
    else .error (mk .walkDevice)

/-- s2_walk: the stage-2 leaf of an IPA, with the stage-2 checks (07). -/
def s2Walk (env : WEnv) (vtb : Nat) (ipa : Nat) (acc : Acc) (s1 : Option Nat) : Except WFault (W64 × List WRead) :=
  match s2Levels env ipa s1 4 0 vtb with
  | .error x => .error x
  | .ok (e, rs) =>
    let mk (t : FType) (k : BitVec 2) : WFault :=
      { stage2 := true, level := s1.getD 3, type := t, pkind := k, s1walk := s1.isSome, s2level := 3, ipa := ipa, reads := rs,
        dev := s1.isNone && (entryMt e == .device || !env.dram (entryPage e)) }
    if rightsDenied (e.getLsbD 2) (e.getLsbD 3) (e.getLsbD 4) acc then .error (mk .permission 0)
    else if acc = .exec ∧ entryMt e = .device then .error (mk .permission 3)
    else if s1.isSome ∧ (entryMt e = .device ∨ env.dram (entryPage e) = false) then .error (mk .walkDevice 0)
    else .ok (e, rs)

/-- What stage 1 leaves of a walk: its leaf, the entries read, and the IPA pages of its tables. -/
structure S1Res where
  leaf : W64
  reads : List WRead
  tables : List PageNo

/-- Stage-1 table levels; `vtb` is the stage-2 base in a guest context, none at H (07, s1_walk). -/
def s1Levels (env : WEnv) (vtb : Option Nat) (va : Nat) : Nat → Nat → Nat → Except WFault S1Res
  | 0, _, _ => .error { stage2 := false, level := 3, type := .translation }
  | f + 1, lvl, table =>
    let mk (t : FType) : WFault := { stage2 := false, level := lvl, type := t }
    let ea := table + 8 * levelIndex va lvl
    let at_ : Except WFault (Nat × List WRead) := match vtb with
      | none => if env.dram ea then .ok (ea, []) else .error (mk .walkDevice)
      | some b => match s2Walk env b ea .read (some lvl) with
        | .error x => .error x
        | .ok (e, rs) => .ok (entryPage e + ea % 4096, rs)
    match at_ with
    | .error x => .error x
    | .ok (pa, rs) =>
      let e := env.rd false pa
      let r : WRead := { stage2 := false, addr := pa, value := e, page := va / 4096 }
      if e.getLsbD 0 = false then .error ((mk .translation).after (rs ++ [r]))
      else if entryReserved e false lvl then .error ((mk .reserved).after (rs ++ [r]))
      else if lvl < 3 then
        match s1Levels env vtb va f (lvl + 1) (entryPage e) with
        | .error x => .error (x.after (rs ++ [r]))
        | .ok t => .ok { t with reads := rs ++ r :: t.reads, tables := BitVec.ofNat 36 (ea / 4096) :: t.tables }
      else .ok { leaf := e, reads := rs ++ [r], tables := [BitVec.ofNat 36 (ea / 4096)] }

/-- s1_walk: EPD0 and EPD1, the base that VA[47] selects, the levels (07). -/
def s1Walk (env : WEnv) (vtb : Option Nat) (va : Nat) (b0 b1 : W64) (epd0 epd1 : Bool) : Except WFault S1Res :=
  let hi := va / 2 ^ 47 % 2 = 1
  if (if hi then epd1 else epd0) then .error { stage2 := false, level := 0, type := .translation }
  else s1Levels env vtb va 4 0 (entryPage (if hi then b1 else b0))

/-- Stage-1 checks on an entry, in order: level, rights, memory type, access flag, dirty (07 R207). -/
def checkS1 (e : TlbEntry) (l : Level) (sgu : Bool) (acc : Acc) : Option WFault :=
  let mk (t : FType) (k : BitVec 2) : Option WFault := some { stage2 := false, level := 3, type := t, pkind := k }
  if !e.s1on then none
  else if l == .u && !e.u then mk .permission 1
  else if l != .u && e.u && (acc == .exec || sgu) then mk .permission 1
  else if rightsDenied e.r1 e.w1 e.x1 acc then mk .permission 0
  else if acc == .exec && e.mt1 == .device then mk .permission 3
  else if !e.a then mk .access 0
  else if (acc == .write || acc == .rmw) && !e.d then mk .permission 2
  else none

/-- Stage-2 checks on a cached entry (07 R208). -/
def checkS2 (e : TlbEntry) (acc : Acc) (ipa : Nat) : Option WFault :=
  let mk (k : BitVec 2) : Option WFault :=
    some { stage2 := true, level := 3, type := .permission, pkind := k, s2level := 3, ipa := ipa }
  if rightsDenied e.r2 e.w2 e.x2 acc then mk 0
  else if acc == .exec && e.mt == .device then mk 3
  else none

/-- The context of a core's accesses: the hypervisor mark at H, else the VMID (07 R197, R213). -/
def ctxOf (a : Arch) : ClassId := if a.level = .h then hypClass else a.tr.vmid.setWidth 16

/-- SGU in force (07 R207). -/
def sguOf (s : State) (a : Arch) : Bool :=
  if a.level = .h then a.tr.htctl.getLsbD 3 else (s.ctlOf a).getLsbD 4

/-- An entry with every right and no stage-1 check, for accesses with stage 1 off (07 R198); it is not global, for no entry gave it G = 1 (07 R213). -/
def plainEntry (ctx : ClassId) (asid : BitVec 16) (vpage : BitVec 36) : TlbEntry :=
  { ctx := ctx, asid := some asid, vpage := vpage, ppage := vpage, ipaPage := vpage, r1 := true, w1 := true, x1 := true, u := false,
    a := true, d := true, s1on := false, mt1 := .normal, r2 := true, w2 := true, x2 := true, mt := .normal, tables := [] }

/-- A stage-1 leaf as an entry, stage 2 left open (07 R213). -/
def entryOfS1 (ctx : ClassId) (asid : BitVec 16) (vpage : BitVec 36) (r : S1Res) : TlbEntry :=
  let e := r.leaf
  let p : PageNo := e.extractLsb' 12 36
  { ctx := ctx, asid := if e.getLsbD 6 then none else some asid, vpage := vpage, ppage := p, ipaPage := p,
    r1 := e.getLsbD 2, w1 := e.getLsbD 3, x1 := e.getLsbD 4, u := e.getLsbD 5, a := e.getLsbD 7, d := e.getLsbD 8,
    s1on := true, mt1 := entryMt e, r2 := true, w2 := true, x2 := true, mt := entryMt e, tables := r.tables }

/-- Adds the stage-2 leaf to an entry. -/
def withS2 (t : TlbEntry) (e2 : W64) : TlbEntry :=
  { t with ppage := e2.extractLsb' 12 36, r2 := e2.getLsbD 2, w2 := e2.getLsbD 3, x2 := e2.getLsbD 4, mt := combineMt t.mt (entryMt e2) }

/-- A guest context whose pavilion is NONE (10 R305). -/
def guestAbsent (s : State) (a : Arch) : Bool := a.level != .h && (s.pav a.tr.vmid).st == .none

/-- The walk of an access at a level, up to finish(): an entry and the entries read (07, translate). Where the pavilion is NONE, no memory is read and stage 2 faults at level 0 (10 R305). -/
def walkAccess (s : State) (env0 : WEnv) (a : Arch) (va : W64) (acc : Acc) : Except WFault (TlbEntry × List WRead) :=
  let absent := guestAbsent s a
  let env : WEnv := if absent then { rd := fun _ _ => 0, dram := fun _ => true } else env0
  let n := va.toNat % 2 ^ 48
  let vpage : BitVec 36 := va.extractLsb' 12 36
  if a.level = .h then
    if a.tr.htctl.getLsbD 0 = false then .ok (plainEntry hypClass a.tr.hasid vpage, [])
    else match s1Walk env none n a.tr.htb0 a.tr.htb1 (a.tr.htctl.getLsbD 1) (a.tr.htctl.getLsbD 2) with
      | .error x => .error x
      | .ok r =>
        let t := entryOfS1 hypClass a.tr.hasid vpage r
        match checkS1 t a.level (sguOf s a) acc with
        | some x => .error { x with dev := t.mt == .device || !env.dram (entryPage r.leaf), reads := r.reads }
        | none => .ok (t, r.reads)
  else
    let ctx : ClassId := a.tr.vmid.setWidth 16
    let vtb := a.tr.vtb.toNat
    let st1 : Except WFault (TlbEntry × List WRead) :=
      if a.tr.tctl.getLsbD 0 = false then .ok (plainEntry ctx a.tr.asid vpage, [])
      else match s1Walk env (some vtb) n a.tr.tb0 a.tr.tb1 (a.tr.tctl.getLsbD 1 && !absent) (a.tr.tctl.getLsbD 2 && !absent) with
        | .error x => .error x
        | .ok r =>
          let t := entryOfS1 ctx a.tr.asid vpage r
          match checkS1 t a.level (sguOf s a) acc with
          | some x => .error { x with dev := t.mt1 == .device, reads := r.reads }
          | none => .ok (t, r.reads)
    match st1 with
    | .error x => .error x
    | .ok (t, rs) =>
      let ipa := t.ipaPage.toNat * 4096 + n % 4096
      match s2Walk env vtb ipa acc none with
        | .error x => .error { x.after rs with dev := x.dev || t.mt1 == .device }
        | .ok (e2, rs2) => .ok (withS2 t e2, rs ++ rs2)

/-- Bytes of memory with a core's own buffered stores laid over them, oldest first (02 R64, 07 R203). -/
def overlay (sb : List SbEntry) (pa n : Nat) (v : Nat) : Nat :=
  sb.foldl (fun acc e =>
    (List.range n).foldl (fun w i =>
      let at_ := pa + i
      if e.pa.toNat ≤ at_ ∧ at_ < e.pa.toNat + e.size then
        w - (w / 2 ^ (8 * i) % 256) * 2 ^ (8 * i) + (e.data.toNat / 2 ^ (8 * (at_ - e.pa.toNat)) % 256) * 2 ^ (8 * i)
      else w) acc) v

/-- A walk's read of an entry: memory as the core sees it (07 R202, R203). -/
def walkRead (s : State) (c : Core) (pa : Nat) : W64 := BitVec.ofNat 64 (overlay c.sb pa 8 (s.peek pa 8))

/-- A table entry in the walk cache under the context (07 R213). -/
def walkCached (c : Core) (stage2 : Bool) (addr : Nat) : Option W64 :=
  let a := c.spec
  (c.micro.walks.find? (fun w => w.ctx == ctxOf a && w.stage2 == stage2 && w.addr.toNat == addr
    && (stage2 || w.asid == asidOf a))).map (·.value)

/-- What a core's walk reads through, with the walk cache or fresh. -/
def coreEnv (s : State) (vc : Vc) (fresh : Bool) : WEnv :=
  let c := s.core vc
  { rd := fun st2 pa => if fresh then walkRead s c pa else (walkCached c st2 pa).getD (walkRead s c pa),
    dram := fun pa => inDram s.dram pa }

/-- The entries that a walk leaves in the walk cache: table entries, and stage-2 leafs of table pages (07 R213). -/
def walkFill (c : Core) (tables : List PageNo) (rs : List WRead) : List WalkEntry :=
  let a := c.spec
  let keep (r : WRead) : Bool := r.value.getLsbD 0 && (r.value.getLsbD 1 || (r.stage2 && tables.contains (BitVec.ofNat 36 r.page)))
  (rs.filter keep).map (fun r =>
    { ctx := ctxOf a, asid := asidOf a, stage2 := r.stage2, addr := BitVec.ofNat 48 r.addr, value := r.value,
      page := BitVec.ofNat 36 r.page })

/-- Stage 1 translates the accesses of a context (07 R198). -/
def s1Enabled (a : Arch) : Bool := if a.level = .h then a.tr.htctl.getLsbD 0 else a.tr.tctl.getLsbD 0

/-- An entry matches the current context and page; one made with stage 1 off serves only while it is off (07 R198, R214). -/
def tlbMatches (a : Arch) (vpage : BitVec 36) (e : TlbEntry) : Bool :=
  e.ctx == ctxOf a && e.vpage == vpage && e.s1on == s1Enabled a && (match e.asid with | none => true | some i => i == asidOf a)

/-- A combined entry that a core holds for an access, and whether the first level held it (07 R213). -/
def tlbFind (m : Micro) (a : Arch) (fetch : Bool) (vpage : BitVec 36) : Option (TlbEntry × Bool) :=
  match (if fetch then m.ftlb else m.dtlb).find? (tlbMatches a vpage) with
  | some e => some (e, true)
  | none => (m.l2tlb.find? (tlbMatches a vpage)).map (fun e => (e, false))

/-- Installs an element in a structure of `ways` ways per set, most recently used first; the least recently used of a full set goes (07 R217; log entry 26). -/
def putWay {α : Type} [BEq α] (ways : Nat) (set : α → Nat) (l : List α) (e : α) : List α :=
  let l1 := l.filter (fun x => x != e)
  match (l1.filter (fun x => set x == set e)).drop (ways - 1) with
  | [] => e :: l1
  | old => e :: l1.filter (fun x => !old.contains x)

/-- The set of the L2 TLB that an entry stands in, of 256; of the walk cache, of 64 (07 R213). The index is a DESIGN CHOICE (log entry 26). -/
def tlbSet (e : TlbEntry) : Nat := e.vpage.toNat % 256
def walkSet (w : WalkEntry) : Nat := w.addr.toNat / 8 % 64

/-- An element that a structure does not hold yet is a fill (05 R156). -/
def newFill {α : Type} [BEq α] (l : List α) (e : α) (f : α → Fill) : List Fill := if l.contains e then [] else [f e]

/-- Installs an entry: in the L2 TLB, and in the L1 DTLB or the fetch TLB; a fetch that the core is not certain to execute leaves the fetch TLB alone (07 R213, R217). -/
def tlbInstall (c : Core) (fetch : Bool) (e : TlbEntry) : Core :=
  let m := c.micro
  let m1 := { m with l2tlb := putWay 12 tlbSet m.l2tlb e }
  if fetch then { c with
    fills := c.fills ++ newFill m.l2tlb e .l2tlb
    micro := if c.ckpts.isEmpty then { m1 with ftlb := putWay 16 (fun _ => 0) m.ftlb e } else m1 }
  else { c with
    fills := c.fills ++ newFill m.l2tlb e .l2tlb ++ newFill m.dtlb e .dtlb
    micro := { m1 with dtlb := putWay 64 (fun _ => 0) m.dtlb e } }

/-- Puts the entries that a walk has read into the walk cache (07 R213). -/
def walksInstall (c : Core) (ws : List WalkEntry) : Core :=
  ws.foldl (fun d w => { d with
    fills := d.fills ++ newFill d.micro.walks w .walk, micro := { d.micro with walks := putWay 4 walkSet d.micro.walks w } }) c

/-- Keeps the list of fills only under STRICT_SPEC, which is in force when they are made (05 R156; 10 R304). -/
def keepFills (strict : Bool) (old : List Fill) (c : Core) : Core := if strict then c else { c with fills := old }

/-- Removes the cached table entries of a walk, before a fresh one (07 R215). Every entry of the context goes, for the upper levels of the walk are shared; the device may choose any victim (07 R217). -/
def walksRemove (m : Micro) (ctx : ClassId) : Micro := { m with walks := m.walks.filter (fun w => w.ctx != ctx) }

/-- Removes an entry and the cached table entries of its walk (07 R215). -/
def tlbRemove (m : Micro) (ctx : ClassId) (e : TlbEntry) : Micro :=
  let keep (x : TlbEntry) : Bool := x != e
  { walksRemove m ctx with dtlb := m.dtlb.filter keep, ftlb := m.ftlb.filter keep, l2tlb := m.l2tlb.filter keep }

/-- A translated access: physical address, memory type, the entry used, and what it missed. -/
structure Xlat where
  pa : Nat
  mt : MemType
  entry : TlbEntry
  miss : Bool
  walked : Bool

/-- Why an access is not translated: a fault of classes 0x08 and 0x09, or a physical-address error. -/
inductive XFault where
  | walk (f : WFault)
  | phys
  deriving DecidableEq, Repr

/-- The access is one to DEVICE memory, though it faults (02 R57; R210). -/
def xlateDev : XFault → Bool
  | .walk f => f.dev
  | .phys => true

/-- finish(): the ranges of R20, DEVICE outside DRAM, no fetch from DEVICE memory or from the keep region (07). -/
def finishXlat (s : State) (a : Arch) (e : TlbEntry) (va : W64) (acc : Acc) : Except XFault (Nat × MemType) :=
  let pa := e.ppage.toNat * 4096 + va.toNat % 4096
  let k := paKind s pa
  if k = .hole ∨ k = .tags then .error .phys
  else
    let mt := if inDram s.dram pa then e.mt else .device
    if acc = .exec ∧ (mt = .device ∨ inKeep s pa = true) then
      .error (.walk { stage2 := a.level != .h, level := 3, type := .permission, pkind := 3,
                      s2level := if a.level = .h then 0 else 3,
                      ipa := if a.level = .h then 0 else e.ipaPage.toNat * 4096 + va.toNat % 4096 })
    else .ok (pa, mt)

/-- One read of a walk is a NORMAL read of the core, which takes the line into its L1D; a read in the keep region is an access at the spine (07 R202; 08 R263). None: the line, or the spine, cannot answer it yet. -/
def walkRead1 (s : State) (vc : Vc) (pa : Nat) : Option State :=
  if inKeep s pa then keepTouch s vc pa
  else (bringShared s vc (lineOf pa)).map (fun t => if undone s t vc then t else fillL1 t vc (lineOf pa))

/-- The reads of a walk, in their order, up to one whose line takes the place of a line that an uncommitted load had read; none: one of them waits. -/
def walkTouch (vc : Vc) : List WRead → State → Option State
  | [], s => some s
  | r :: t, s =>
    match walkRead1 s vc r.addr with
    | none => none
    | some s1 => if undone s s1 vc then some s1 else walkTouch vc t s1

/-- The entries that a walk takes from memory: those that the walk cache does not hold, none where the pavilion is NONE (07 R213; 10 R305). -/
def walkFresh (s : State) (vc : Vc) (fromMem : Bool) (rs : List WRead) : List WRead :=
  if guestAbsent s (s.core vc).spec then []
  else if fromMem then rs
  else rs.filter (fun r => (walkCached (s.core vc) r.stage2 r.addr).isNone)

/-- A fresh walk: its entry is cached, a fault caches nothing (07 R215). None: a read of it waits, and the access with it. -/
def freshXlat (s : State) (vc : Vc) (va : W64) (acc : Acc) (fetch fromMem : Bool) : Option (Except XFault Xlat) × State :=
  let a := (s.core vc).spec
  let w := walkAccess s (coreEnv s vc fromMem) a va acc
  let rs := match w with
    | .error f => f.reads
    | .ok (_, l) => l
  match walkTouch vc (walkFresh s vc fromMem rs) s, w with
  | none, _ => (none, s)
  | some s1, .error f => (some (.error (.walk f)), s1)
  | some s1, .ok (e, _) =>
    match finishXlat s1 a e va acc with
    | .error f => (some (.error f), s1)
    | .ok (pa, mt) =>
      let c := s1.core vc
      let c1 := walksInstall (tlbInstall c fetch e) (walkFill c e.tables rs)
      (some (.ok { pa := pa, mt := mt, entry := e, miss := true, walked := true }),
        s1.setCore vc (keepFills (s1.strictSpec a) c.fills c1))

/-- EPD0 or EPD1 forbids translation of the address at the context's stage 1 (07, TCTL_S, HTCTL); a guest of a pavilion in NONE faults at stage 2 before (10 R305). -/
def epdDenied (s : State) (a : Arch) (va : W64) : Bool :=
  let bit := if va.getLsbD 47 then 2 else 1
  s1Enabled a && !guestAbsent s a && (if a.level = .h then a.tr.htctl.getLsbD bit else a.tr.tctl.getLsbD bit)

/-- Translates an access of a core at its level (07, translate; R213 to R215). None: the access waits for a read of its walk (R202). -/
def xlate (s : State) (vc : Vc) (va : W64) (acc : Acc) (fetch : Bool) : Option (Except XFault Xlat) × State :=
  let c := s.core vc
  let a := c.spec
  let vpage : BitVec 36 := va.extractLsb' 12 36
  let forget (t : State) (e : TlbEntry) : State := t.updCore vc (fun d => { d with micro := tlbRemove d.micro (ctxOf a) e })
  let fault (f : XFault) (t : State) : Option (Except XFault Xlat) × State := (some (.error f), t)
  if !canonical va then fault (.walk { stage2 := false, level := 0, type := .addressSize }) s
  else if epdDenied s a va then fault (.walk { stage2 := false, level := 0, type := .translation }) s
  else if a.level = .h ∧ a.tr.htctl.getLsbD 0 = false then
    let e := plainEntry hypClass a.tr.hasid vpage
    match finishXlat s a e va acc with
    | .error f => fault f s
    | .ok (pa, mt) => (some (.ok { pa := pa, mt := mt, entry := e, miss := false, walked := false }), s)
  else match (if guestAbsent s a then none else tlbFind c.micro a fetch vpage) with
    | some (e, first) =>
      let ipa := e.ipaPage.toNat * 4096 + va.toNat % 4096
      let bad := (checkS1 e a.level (sguOf s a) acc).isSome || (checkS2 e acc ipa).isSome
      if bad then
        freshXlat (forget s e) vc va acc fetch true
      else
        let s1 := s.setCore vc (keepFills (s.strictSpec a) c.fills (tlbInstall c fetch e))
        match finishXlat s a e va acc with
        | .error (.walk _) => freshXlat (forget s1 e) vc va acc fetch true
        | .error .phys => fault .phys s1
        | .ok (pa, mt) => (some (.ok { pa := pa, mt := mt, entry := e, miss := !first, walked := false }), s1)
    | none =>
      match freshXlat s vc va acc fetch false with
      | (some (.error (.walk f)), s1) =>
        if c.micro.walks.isEmpty || undone s s1 vc then fault (.walk f) s1
        else freshXlat (s1.updCore vc (fun d => { d with micro := walksRemove d.micro (ctxOf a) })) vc va acc fetch true
      | r => r

/-- The level that takes a translation fault: S for stage 1 in a guest, else H (07 R229). -/
def xlateLevel (a : Arch) (f : WFault) : Level := if f.stage2 || a.level == .h then .h else .s

/-- A stage-2 translation for inbound traffic of a pavilion: the page, or the fault, with the entries read (07 R199, R202, R208). -/
def inboundWalk (s : State) (p : Pavilion) (ipa : Nat) (acc : Acc) : Except WFault (TlbEntry × List WRead) :=
  let env : WEnv := { rd := fun _ pa => BitVec.ofNat 64 (s.peek pa 8), dram := fun pa => inDram s.dram pa }
  match s2Walk env p.vtb.toNat ipa acc none with
  | .error f => .error f
  | .ok (e2, rs) => .ok (withS2 { plainEntry 0 0 (BitVec.ofNat 36 (ipa / 4096)) with asid := none } e2, rs)

/-- The entries of an inbound walk that lie in the keep region are read at the spine by the agent that walks. One that has to wait there is left with the spine: the walk goes on with the value that memory holds (08 R263; DESIGN CHOICE, log entry 100). -/
def inboundTouch (a : Agent) (c : ClassId) (rs : List WRead) (s : State) : State :=
  (rs.filter (fun r => inKeep s r.addr)).foldl (fun t r =>
    let q : Req := { kind := .ncRd, src := a, line := lineOf r.addr, off := r.addr % 64, size := 8, cls := c }
    match runKeep t q with
    | some (_, u) => u
    | none => askKeep t q) s

end Sys2Proof.Machine
end

