-- ==== Sys2Proof/Machine/CoreExec.lean ====
section
/-! DEFINITION. Running an instruction on a core: when it may run, its commit, taking an exception, returning from one, prediction (02 R48 to R58; 05 R124 to R155). -/

namespace Sys2Proof.Machine

/-- A synchronous exception: class, detail, EADDR, the level that takes it, EIPA_H for a stage-2 fault, and whether EPC is the next instruction (02 R48, R51, R52). The manual gives a detail for classes 0x05 to 0x09, 0x20 and 0x21 only; the bits of ESYN[31:6] that it does not state are written zero: DESIGN CHOICE (log entry 88). -/
structure Exc where
  cls : BitVec 6
  detail : BitVec 26 := 0
  addr : W64 := 0
  lvl : Level
  ipa : Option W64 := none
  next : Bool := false
  deriving DecidableEq, Repr

/-- "Current level if S or H; S if U" (02 R48). -/
def ownLevel (l : Level) : Level := if l = .h then .h else .s

/-- Class 0x01 with the word in EADDR (02 R48, 03 R98). -/
def excIllegal (a : Arch) (w : W32) : Exc := { cls := 0x01, addr := zext w, lvl := ownLevel a.level }
/-- Class 0x02 with the target (02 R48). -/
def excTarget (a : Arch) (t : W64) : Exc := { cls := 0x02, addr := t, lvl := ownLevel a.level }
/-- Class 0x03 with the access address (02 R48). -/
def excAlign (a : Arch) (va : W64) : Exc := { cls := 0x03, addr := va, lvl := ownLevel a.level }
/-- Class 0x04 with g31 (02 R48). -/
def excStack (a : Arch) (sp : W64) : Exc := { cls := 0x04, addr := sp, lvl := ownLevel a.level }
/-- Class 0x0A with the VA (02 R48). -/
def excPhys (va : W64) : Exc := { cls := 0x0A, addr := va, lvl := .h }
/-- Class 0x0C with the VA (02 R48). -/
def excDevice (a : Arch) (va : W64) : Exc := { cls := 0x0C, addr := va, lvl := ownLevel a.level }

/-- A translation fault, class 0x08 for a fetch and 0x09 for data (02 R48; 07 R228, R229). -/
def excXlate (a : Arch) (fetch : Bool) (va : W64) (acc : Acc) (split : Bool) (f : XFault) : Exc :=
  match f with
  | .phys => excPhys va
  | .walk x =>
    { cls := if fetch then 0x08 else 0x09, detail := faultDetail x acc split, addr := va, lvl := xlateLevel a x,
      ipa := if x.stage2 then some (BitVec.ofNat 64 x.ipa) else none }

/-- A control transfer to a non-canonical target: class 0x08, TYPE address size (02 R53; 07 R228). -/
def excNonCanonical (a : Arch) (t : W64) : Exc :=
  excXlate a true t .exec false (.walk { stage2 := false, level := 0, type := .addressSize })

/-- The offset of an entry in the vector table (02, "Vector table"); kinds: 0 synchronous, 1 interrupt, 2 notice. -/
def vectorOffset (old new : Level) (kind : Nat) : W64 :=
  if kind = 2 then 0x400
  else if old = new then (if kind = 1 then 0x100 else 0x000)
  else if kind = 1 then 0x300
  else 0x200

/-- TAKING AN EXCEPTION (02 R51): the syndrome, the return address, the saved status, IE cleared, the level and the vector. `fs` is the style in force, PCF is zero in C-style. Where EVB holds an address that is not canonical, PC takes it all the same: DESIGN CHOICE (log entry 87). -/
def excEntry (a : Arch) (fs : Bool) (x : Exc) (epc : W64) (kind : Nat) : Arch :=
  let b0 := if x.lvl = .h then a.excH else a.excS
  let ie := if x.lvl = .h then a.ieH else a.ieS
  let pcf : BitVec 4 := if fs then a.cf else 0
  let stat : W64 := (levelCode a.level).setWidth 64 ||| (if ie then 4 else 0) ||| (pcf.setWidth 64 <<< 4)
  let b : ExcBank := { b0 with
    epc := epc &&& ~~~ 3#64, estat := stat, esyn := x.cls.setWidth 64 ||| (x.detail.setWidth 64 <<< 6), eaddr := x.addr }
  let a1 := if x.lvl = .h then { a with excH := b, ieH := false } else { a with excS := b, ieS := false }
  { a1 with
    eipaH := x.ipa.getD a.eipaH, level := x.lvl, pc := b.evb + vectorOffset a.level x.lvl kind }

/-- THE RETURN FROM AN EXCEPTION (02 R53): IE, CF in an F-style pavilion, the level and the pc. `guestF` is the CSTYLE of the pavilion in force. -/
def excReturn (a : Arch) (p : Level) (guestF : Bool) : Arch :=
  let b := if a.level = .h then a.excH else a.excS
  let pie := b.estat.getLsbD 2
  let a1 := if a.level = .h then { a with ieH := pie } else { a with ieS := pie }
  { a1 with cf := if guestF then b.estat.extractLsb' 4 4 else a.cf, level := p, pc := b.epc }

/-- Everything that has executed can become architectural: no ticket is outstanding, no branch waits to be undone, a commit point stands behind it (05 R144). -/
def canCommit (c : Core) : Bool := c.tickets.isEmpty && c.ckpts.isEmpty && atPoint c

/-- A physical interrupt can be taken (02 R54). -/
def physTakes (s : State) (c : Core) : Bool :=
  !(physPending s c).isEmpty && (c.spec.level != .h || c.spec.ieH)

/-- A virtual interrupt can be taken (02 R54). -/
def virtTakes (c : Core) : Bool :=
  !c.latch.isEmpty && (match c.spec.level with
    | .u => true
    | .s => c.spec.ieS
    | .h => false)

/-- An enabled interrupt is pending (02 R58, R59). -/
def irqDue (s : State) (c : Core) : Bool := physTakes s c || virtTakes c

/-- Instructions that may still complete with an enabled interrupt pending: 64, with a sampling interrupt pending 24 (02 R59; 17 R511, R512). -/
def irqLimit (s : State) (c : Core) : Nat :=
  if (physPending s c).any (fun i => decide (0x1000 ≤ i ∧ i ≤ 0x1006)) || (c.pmu.grant != 0 && c.latch.contains c.pmu.girq.toNat) then 24 else 64

/-- The next instruction may execute before a pending interrupt is taken: the bound is not reached, or a DEVICE access of the instruction has left the core (02 R59). -/
def irqOpen (s : State) (c : Core) : Bool := !irqDue s c || decide (c.irqAge < irqLimit s c) || !c.frame.isEmpty

/-- A direction counter moves one step toward an outcome (05 R149); unlisted counters hold 0b01 (05 R150). -/
def trainCounter (p : SMap (BitVec 2)) (i : Nat) (taken : Bool) : SMap (BitVec 2) :=
  let v := mget p i 1
  mput p i (if taken then (if v = 3 then 3 else v + 1) else (if v = 0 then 0 else v - 1))

/-- The threshold in force for a block (05 R126). -/
def hotThreshold (s : State) (a : Arch) : Nat :=
  if a.level = .h then 8 else ((s.ctlOf a).extractLsb' 8 8).toNat

/-- Counts the completion of a block in step mode; an entry that is incremented becomes the most recent (05 R126, R127). -/
def countHot (s : State) (vc : Vc) (a : Arch) (va : W64) (pa : BitVec 48) : State :=
  let c := s.core vc
  let ctx := ctxOf a
  let fs := s.fStyleOf a
  let thr := hotThreshold s a
  let is (h : HotEntry) : Bool := h.pa == pa && h.ctx == ctx && h.fstyle == fs
  let hot := match c.micro.hot.find? is with
    | some h =>
      if h.sent || decide (thr ≤ h.count) then
        c.micro.hot.map (fun x => if is x then { x with va := va, due := decide (thr ≤ x.count) } else x)
      else c.micro.hot.filter (fun x => !is x) ++ [{ h with va := va, count := h.count + 1, due := decide (thr ≤ h.count + 1) }]
    | none =>
      let l := if c.micro.hot.length < 1024 then c.micro.hot else c.micro.hot.drop 1
      l ++ [{ pa := pa, ctx := ctx, fstyle := fs, va := va, count := 1, due := decide (thr ≤ 1), sent := false }]
  s.setCore vc { c with micro := { c.micro with hot := hot } }

/-- One instruction commits: events, slots, trace, direction counter, hot count (05 R144, R149, R126; 17 R507, R513, R519). -/
def commitOne (vc : Vc) (a : Arch) (s : State) (r : Retire) : State :=
  let a1 := { a with level := r.level }
  let s1 := pmuCourses (pmuEvents s vc r.events r.level r.pc true) vc r.level r.pc r.courses r.used
  let s2 := traceRetire s1 vc a1 r
  let s3 := match r.cond with
    | some (i, taken) => s2.updCore vc (fun c => { c with micro := { c.micro with pred := trainCounter c.micro.pred i.toNat taken } })
    | none => s2
  match r.blockEnd with
  | some (va, pa) => countHot s3 vc a1 va pa
  | none => s3

/-- The regions that were entered become the most recently entered ones (05 R131); the order changes at commit only (05 R155). -/
def touchRegions (ks : List RegionKey) (rs : List Region) : List Region :=
  ks.foldl (fun l k => l.filter (fun r => r.key != k) ++ l.filter (fun r => r.key == k)) rs

/-- The registers, stores and predictors of a core become architectural (05 R144). -/
def adoptSpec (c : Core) : Core :=
  { c with
    arch := c.spec, sb := c.sb.map (fun e => { e with committed := true }), retire := [], ghistC := c.micro.ghist,
    rasC := c.micro.ras, blockC := if c.entry then some c.spec.pc else c.block, blockPaC := c.blockPa,
    syncC := c.micro.syncMarks, fetchC := c.micro.fetchBuf, fills := [], entered := [],
    micro := { c.micro with readMarks := [], regions := touchRegions c.entered c.micro.regions } }

/-- A younger point of the stream, counted from a commit point. -/
def Ckpt.past (p k : Ckpt) : Ckpt :=
  { k with sbLen := k.sbLen - p.sbLen, retLen := k.retLen - p.retLen, fillLen := k.fillLen - p.fillLen,
           markLen := k.markLen - p.markLen, entLen := k.entLen - p.entLen }

/-- The first n uncommitted stores are committed. -/
def commitStores (n : Nat) (sb : List SbEntry) : List SbEntry :=
  let new := sb.filter (fun e => !e.committed)
  sb.filter (·.committed) ++ (new.take n).map (fun e => { e with committed := true }) ++ new.drop n

/-- What has executed up to a commit point becomes architectural; what is younger stays as it is (05 R142, R144). -/
def adoptAt (c : Core) (p : Ckpt) : Core :=
  { c with
    arch := p.actual, sb := commitStores p.sbLen c.sb,
    retire := (c.retire.drop p.retLen).map (fun r => { r with pt := r.pt.map p.past }), ckpts := c.ckpts.map p.past,
    ghistC := p.ghist, rasC := p.ras, blockC := if p.entry then some p.actual.pc else p.block, blockPaC := p.blockPa,
    syncC := p.syncs, fetchC := p.fetch, fills := c.fills.drop p.fillLen, entered := c.entered.drop p.entLen,
    micro := { c.micro with
      readMarks := c.micro.readMarks.drop p.markLen, regions := touchRegions (c.entered.take p.entLen) c.micro.regions } }

/-- A commit: first the registers, then what the instruments count of it (05 R144; 17 R507, R513). -/
def commitWith (s : State) (vc : Vc) (adopt : Core → Core) (rs : List Retire) : State :=
  let c := s.core vc
  let s1 := s.setCore vc (adopt { c with evq := [], wasted := [] })
  let s2 := pmuWasted (pmuQueued s1 vc c.arch.pc c.evq) vc c.arch.pc c.wasted
  rs.foldl (commitOne vc c.arch) s2

/-- COMMIT of everything that has executed (05 R144). -/
def commitCore (s : State) (vc : Vc) : State := commitWith s vc adoptSpec (s.core vc).retire

/-- The youngest commit point at which every older operation has completed and no older branch waits to be undone (05 R144). -/
def openPoint (c : Core) : Option Ckpt :=
  (c.retire.filterMap (·.pt)).reverse.find? (fun p =>
    p.tick.isEmpty && (match c.ckpts with
      | [] => true
      | k :: _ => decide (p.retLen < k.retLen)))

/-- COMMIT of what has executed up to a commit point (05 R125, R144). -/
def commitAt (s : State) (vc : Vc) (p : Ckpt) : State :=
  commitWith s vc (fun c => adoptAt c p) ((s.core vc).retire.take p.retLen)

/-- The core takes a new instruction stream at its PC: the PC is a block entry and no region is entered yet (05 R124). -/
def startBlock (c : Core) : Core := { c with entry := true, region := none, rix := 0, block := none, blockC := some c.spec.pc }

/-- Both copies of the registers. -/
def setArch (c : Core) (a : Arch) : Core := { c with arch := a, spec := a }

/-- Enters an exception, an interrupt or a notice on a core whose work has committed (02 R51; 17 R507, R519). An enabled interrupt that is still due keeps its age (02 R59). -/
def enterExc (s : State) (vc : Vc) (x : Exc) (epc : W64) (kind : Nat) : State :=
  let c := s.core vc
  let old := c.arch
  let new := excEntry old (s.fStyleOf old) x epc kind
  let s0 := s.setCore vc (startBlock (setArch { c with wfe := false, wait := none, frame := [], owait := false } new))
  let s1 := if irqDue s0 (s0.core vc) then s0 else s0.updCore vc (fun d => { d with irqAge := 0 })
  let s2 := pmuEvent s1 vc (if kind = 0 then 0x1C else 0x1D) old.level new.pc false
  traceExc s2 vc old new x.cls x.lvl epc

/-- An enabled interrupt comes before a synchronous exception of the next instruction (02 R58), but for an instruction whose DEVICE access has left the core (02 R59). -/
def irqFirst (s : State) (vc : Vc) : Bool := irqDue s (s.core vc) && (s.core vc).frame.isEmpty

/-- Raises a synchronous exception at the instruction at PC: in a region the core rolls back to meet it in step mode; else every older instruction commits first. None: older work is not complete, or an interrupt comes first (02 R56, R58; 05 R146). -/
def raise (s : State) (vc : Vc) (x : Exc) : Option State :=
  let c := s.core vc
  if c.region.isSome then some (specRollback s vc)
  else if canCommit c && !irqFirst s vc then
    let s1 := commitCore s vc
    let pc := (s1.core vc).arch.pc
    some (enterExc s1 vc x (if x.next then pc + 4 else pc) 0)
  else none

/-- Every store of the core is performed with respect to every observer (08 R267); those on their way to a device are left aside. -/
def storesDone (s : State) (vc : Vc) : Bool :=
  (s.core vc).sb.isEmpty && !(s.cluster (s.clusterOf vc)).l2.any (fun p => p.2.unperf == some vc)

/-- A suspended core has what ends its WFE: an interrupt pending, masked or not, or a timer event routed to it (02 R60; 10 R315). -/
def wfeDue (s : State) (c : Core) : Bool := !(physPending s c).isEmpty || !c.latch.isEmpty || c.wfeEvent

/-- The vCPU resumes (02 R60; 17 R519). -/
def endSuspend (s : State) (vc : Vc) : State :=
  let s1 := s.updCore vc (fun c => { c with wfe := false, wfeEvent := false })
  let a := (s1.core vc).arch
  let s2 := traceEnter s1 vc a a.pc
  if traceOn s2 vc a then emit s2 vc a a.pc .restOut else s2

/-- A suspended core whose WFE has an end resumes. -/
def wakeDue (s : State) (vc : Vc) : State := if (s.core vc).wfe && wfeDue s (s.core vc) && s.mode == .service then endSuspend s vc else s

/-- The core executes instructions: SERVICE, begun, not suspended, not waiting for a DEVICE access nor, after a store to code, for the store; a guest only of a RUNNING pavilion, or of none, whose fetch faults, but for a RET that has read a part of its frame from a device and ends (14 R441; 02 R60, R70; 05 R147; 10 R305, R309). -/
def coreRuns (s : State) (vc : Vc) : Bool :=
  let c := s.core vc
  s.mode == .service && c.started && !c.wfe && c.wait.isNone && (!c.codeWait || storesDone s vc) && !s.therm.trip && !s.dev.stopped
    && decide (vc.toNat < vcCount s.cmap.part)
    && (c.spec.level == .h || (let st := (s.pav c.spec.tr.vmid).st; st == .running || st == .none || !c.frame.isEmpty))

/-- At most SPEC courses, 32 of them, stand past the oldest unresolved branch (05 R137, R142), and at most 64 instructions past the commit point (05 R143). -/
def windowOpen (c : Core) : Bool :=
  decide (c.retire.length < 64) &&
  match c.ckpts with
  | [] => true
  | k :: _ => decide (c.retire.length < k.retLen + k.spec)

/-- A region that the core may enter at a block entry: key of the context, rights of the level (05 R124; 07 R216). -/
def regionAt (s : State) (c : Core) : Option Region :=
  let a := c.spec
  c.micro.regions.reverse.find? (fun r =>
    r.key.ctx == ctxOf a && (match r.key.asid with | none => true | some i => i == asidOf a) && r.key.va == a.pc
      && r.key.fstyle == s.fStyleOf a && (if a.level = .u then r.u else !r.u))

/-- The region under way. -/
def regionOf (c : Core) : Option Region := c.region.bind (fun k => c.micro.regions.find? (fun r => r.key == k))

/-- The course of the region that comes next. -/
def courseNow (c : Core) : Option RCourse := (regionOf c).bind (fun r => r.courses[c.rix]?)

/-- The next instruction is that of the region's next course (05 R128). -/
def insideRegion (c : Core) : Bool :=
  match courseNow c with
  | none => false
  | some x => x.pc == c.spec.pc

/-- Where an instruction of a region leads: to the next course; by a branch back to the entry to the first; else out of the region. A transfer whose target a register or memory holds leaves it (05 R128, R152). -/
def regionNext (c : Core) (pc : W64) (out : Bool) : Option RegionKey × Nat :=
  match (if out then none else regionOf c) with
  | none => (none, 0)
  | some r =>
    if (r.courses[c.rix + 1]?).any (fun x => x.pc == pc) then (some r.key, c.rix + 1)
    else if (r.courses[c.rix]?).any (·.loop) && pc == r.key.va then (some r.key, 0)
    else (none, 0)

/-- Enters a region: it becomes the most recently entered, and its entry page stands for the fetch (05 R131; 07 R216). -/
def enterRegion (c : Core) (r : Region) : Core :=
  { c with
    region := some r.key, rix := 0, entry := false, block := some c.spec.pc,
    blockPa := BitVec.ofNat 48 (r.key.page.toNat * 4096 + c.spec.pc.toNat % 4096), entered := c.entered ++ [r.key] }

/-- What fetch finds at PC. -/
inductive Fetched where
  /-- The word may execute. `entered`: a region has been entered with it. -/
  | ok (s : State) (entered : Bool)
  | fault (s : State) (x : Exc)
  /-- Nothing executes yet. -/
  | wait (s : State)

/-- A step-mode fetch of the instruction at PC, from the fetch buffer or through it; its page becomes code-seen (05 R125, R159). -/
def fetchLine (s : State) (vc : Vc) (l : LineNo) : Option State :=
  if (s.core vc).micro.fetchBuf.contains l then some s
  else readCode s (s.clusterOf vc) l (some vc) (classOf (s.core vc).spec)

/-- A step-mode instruction's place: its page, and the block that begins with it (05 R124, R162). -/
def stepAt (c : Core) (atEntry : Bool) (pa : Nat) : Core :=
  let d := { c with region := none, rix := 0, fetchPage := BitVec.ofNat 36 (pa / 4096) }
  if atEntry || c.block == some c.spec.pc then
    { d with entry := false, block := some c.spec.pc, blockPa := BitVec.ofNat 48 pa }
  else d

/-- FETCH at PC: inside a region nothing is translated; a block entry looks for a region, but not past a store to code, where the next instruction comes from memory; step mode translates, and waits where an unresolved branch, or other work that may yet be undone, stands before a page not code-seen, for undone work leaves no code-seen bit (05 R124, R125, R155, R161; 07 R216; log entry 86). -/
def fetchAt (s : State) (vc : Vc) : Fetched :=
  let c := s.core vc
  if insideRegion c then .ok s false
  else
    let atEntry := c.entry || c.region.isSome
    match (if atEntry && !c.codeWait then regionAt s c else none) with
    | some r => .ok (s.setCore vc (enterRegion c r)) true
    | none =>
      match xlate s vc c.spec.pc .exec true with
      | (none, s1) => .wait (if undone s s1 vc then s1 else s)
      | (some (.error f), s1) =>
        if undone s s1 vc then .wait s1
        else .fault (s1.updCore vc (fun d => { d with region := none, rix := 0 })) (excXlate c.spec true c.spec.pc .exec false f)
      | (some (.ok x), s1) =>
        if undone s s1 vc then .wait s1
        else if uncommitted c && !codeSeen s1 (BitVec.ofNat 36 (x.pa / 4096)) then .wait s
        else match fetchLine s1 vc (lineOf x.pa) with
          | none => .wait s
          | some s2 => if undone s1 s2 vc then .wait s2 else .ok (s2.updCore vc (fun d => stepAt d atEntry x.pa)) false

/-- Registers that an operation reads or writes; a long operation still on its way to one of them holds the operation back (05 R135, R139). -/
def opRegs : CoreOp → List Dest
  | .alu _ _ d a b => [.g d, .g a, .g b]
  | .shi _ _ d a _ => [.g d, .g a]
  | .alu2 _ _ d a b => [.g d, .g a, .g b]
  | .un _ _ d a => [.g d, .g a]
  | .muldiv _ _ d a b => [.g d, .g a, .g b]
  | .ri _ d a _ => [.g d, .g a]
  | .addpc d _ => [.g d]
  | .insh d _ _ => [.g d]
  | .ld fn d a _ => [if fn == .flds || fn == .fldd then .f d else .g d, .g a]
  | .ldx fn d a b _ => [if fn == .flds || fn == .fldd then .f d else .g d, .g a, .g b]
  | .st fn d a _ => [if fn == .fsts || fn == .fstd then .f d else .g d, .g a]
  | .stx fn d a b _ => [if fn == .fsts || fn == .fstd then .f d else .g d, .g a, .g b]
  | .atom _ _ _ d a b => [.g d, .g a, .g b]
  | .br _ a b _ => [.g a, .g b]
  | .bri _ a _ _ => [.g a]
  | .fp _ _ fn _ d a b =>
    [if fpToG fn then .g d else .f d, if fpFromG fn then .g a else .f a] ++ (if fpUnary fn then [] else [.f b])
  | .fma _ _ d a b c => [.f d, .f a, .f b, .f c]
  | .callr a _ => [.g a, .g 31]
  | .jr a => [.g a]
  | _ => []

/-- The operation reads or writes CF. -/
def opCf : CoreOp → Bool
  | .alu sf .. | .shi sf .. | .un sf .. | .muldiv sf .. => sf
  | .alu2 sf fn .. => sf || fn == .adc || fn == .sbc
  | .fp sf .. => sf
  | .fb .. => true
  | _ => false

/-- The operation must find every ticket complete: the calls and returns touch a set of registers that memory names (02 R45, R46), a folly instruction any (06 R171). -/
def opAll : CoreOp → Bool
  | .call .. | .callr .. | .ret | .folly .. => true
  | _ => false

/-- The operation waits for a ticket: in a region for those of its course's AWAIT, in step mode for those whose result it reads or writes (05 R125, R135, R137, R139). -/
def awaits (c : Core) (op : CoreOp) : Bool :=
  match courseNow c with
  | some x => c.tickets.any (fun t => x.await.getLsbD t.1)
  | none => (opAll op && !c.tickets.isEmpty) || c.tickets.any (fun t => (t.2.dest != .none && t.2.dest != .g 0 && (opRegs op).contains t.2.dest) || (opCf op && t.2.cf.isSome))

/-- The last word of a page ends a block (05 R124). -/
def lastWord (pc : W64) : Bool := pc.extractLsb' 0 12 == 0xFFC#12

/-- Where the core stands once an instruction has executed: `ends`: it ends its block; `taken`: control goes to a block entry; what follows a region is a block entry too (05 R124, R142). `due`: an enabled interrupt is pending (02 R59). -/
def coreAfter (c : Core) (due : Bool) (a : Arch) (ends taken : Bool) (ind : Option W64) : Core :=
  let next := regionNext c a.pc ind.isSome
  { c with
    spec := a, entry := taken || (c.region.isSome && next.1.isNone), codeWait := false,
    block := if ends || lastWord c.spec.pc then none else c.block, region := next.1, rix := next.2,
    evq := c.evq ++ [(0x02#8, c.spec.level)], irqAge := if due then c.irqAge + 1 else 0 }

/-- SPEC of the course in execution: the translator and the step-mode decoder write 32 (05 R137). -/
def specNow (c : Core) : Nat := ((courseNow c).map (·.spec)).getD 32

/-- The point of the stream at which a core stands, past n instructions (05 R144, R145). -/
def pointAt (c : Core) (n spec : Nat) : Ckpt :=
  { actual := c.spec, sbLen := (c.sb.filter (fun e => !e.committed)).length, retLen := n, ghist := c.micro.ghist, ras := c.micro.ras,
    block := c.block, blockPa := c.blockPa, entry := c.entry, region := c.region, rix := c.rix, tick := mkeys c.tickets,
    fillLen := c.fills.length, markLen := c.micro.readMarks.length, entLen := c.entered.length, syncs := c.micro.syncMarks,
    fetch := c.micro.fetchBuf, spec := spec }

/-- A commit point follows the instruction at PC: every instruction in step mode, and the courses of a region whose COMMIT is set (05 R125, R137). -/
def pointAfter (c : Core) : Bool := c.region.isNone || (courseNow c).any (·.commit)

/-- The slots that an instruction occupies: the frame accesses of a CALL or a RET fill M0 and M1 beside I0 and I1, any other instruction has one (05 R133; 17 R513; log entry 12). -/
def slotsUsed (evs : List (BitVec 8)) : Nat := if 1 < (evs.filter (fun e => e == 0x0A#8 || e == 0x0B#8)).length then 4 else 1

/-- An instruction has executed: its results stand in the shadow file, and its retirement waits for the commit (05 R142). -/
def executed (s : State) (vc : Vc) (a : Arch) (evs : List (BitVec 8)) (ends taken : Bool)
    (cond : Option (BitVec 15 × Bool)) (ind : Option W64) : State :=
  let due := irqDue s (s.core vc)
  s.updCore vc (fun c =>
    let step := c.region.isNone
    let d := coreAfter c due a ends taken ind
    let r : Retire := {
      pc := c.spec.pc, level := c.spec.level,
      events := [0x01#8, 0x03#8] ++ (if step then [0x04#8] else []) ++ evs, cond := cond, ind := ind,
      blockEnd := if (ends || lastWord c.spec.pc) && step then c.block.map (fun b => (b, c.blockPa)) else none,
      page := (c.region.map (·.page)).getD c.fetchPage, used := slotsUsed evs,
      pt := if pointAfter c then some (pointAt d (c.retire.length + 1) 32) else none }
    { d with retire := c.retire ++ [r] })

/-- The next instruction follows (02 R30, PC). Past the last word of the lower canonical half PC holds the address that is not canonical, and the fetch there faults: DESIGN CHOICE (log entry 87). -/
def nextPc (a : Arch) : Arch := { a with pc := a.pc + 4 }

/-- The index of a conditional branch's direction counter (05 R149). -/
def predIndex (pc : W64) (g : BitVec 15) : BitVec 15 :=
  pc.extractLsb' 3 15 ^^^ g ^^^ (if pc.getLsbD 2 then 0x4000#15 else 0#15)

/-- A mispredicted transfer waits for its undo: `k` is where the core will stand then, and the commit point behind the transfer, if there is one, stands there too (05 R145). -/
def mispredict (c : Core) (k : Ckpt) : Core :=
  { c with
    ckpts := c.ckpts ++ [k],
    retire := c.retire.dropLast ++ (c.retire.getLast?.map (fun r => { r with pt := r.pt.map (fun _ => k) })).toList }

/-- The core with a global history. -/
def withHist (c : Core) (g : BitVec 15) : Core := { c with micro := { c.micro with ghist := g } }

/-- A conditional branch: predicted by its counter, or, with PRED_OFF, resolved first; a misprediction goes on along the predicted path until it is undone (05 R145, R149, R153). -/
def branchExec (s : State) (vc : Vc) (taken : Bool) (target : W64) : State :=
  let c := s.core vc
  let a := c.spec
  let g := c.micro.ghist
  let i := predIndex a.pc g
  let out (b : Bool) : Arch := { a with pc := if b then target else a.pc + 4 }
  let push (b : Bool) : BitVec 15 := (g <<< 1) ||| (BitVec.ofBool b).setWidth 15
  let go (b : Bool) (evs : List (BitVec 8)) : State :=
    executed (s.updCore vc (fun d => withHist d (push b))) vc (out b) evs true b (some (i, taken)) none
  if s.predOff a then go taken [0x05#8]
  else
    let guess := decide (2#2 ≤ mget c.micro.pred i.toNat 1)
    if guess = taken then go taken [0x05#8]
    else
      let d := coreAfter (withHist c (push taken)) (irqDue s c) (out taken) true taken none
      (go guess [0x05#8, 0x06#8]).updCore vc (fun x => mispredict x (pointAt d (c.retire.length + 1) (specNow c)))

/-- Pushes a return address on the return-address stack; the oldest of 32 is overwritten (05 R151). -/
def rasPush (c : Core) (ra : W64) : Core := { c with micro := { c.micro with ras := (ra :: c.micro.ras).take 32 } }

/-- RET's transfer: predicted by the return-address stack, or by the decode-time path where it is empty or not used (05 R151, R153). `a` holds the registers after the return. -/
def retExec (s : State) (vc : Vc) (a : Arch) (evs : List (BitVec 8)) : State :=
  let c := s.core vc
  let t := a.pc
  let go (u : State) (b : Arch) (e : List (BitVec 8)) : State := executed u vc b (e ++ evs) true true none (some t)
  if s.predOff c.spec then go s a [0x07#8, 0x09#8]
  else match c.micro.ras with
    | [] => go s a [0x07#8, 0x09#8]
    | p :: rest =>
      let pop (d : Core) : Core := { d with micro := { d.micro with ras := rest } }
      let s1 := s.updCore vc pop
      if p = t then go s1 a [0x07#8]
      else
        let d := coreAfter (pop c) (irqDue s c) a true true (some t)
        (go s1 { a with pc := p } [0x07#8, 0x08#8]).updCore vc (fun x =>
          mispredict x (pointAt d (c.retire.length + 1) (specNow c)))

/-- The ticket of the next long operation: its course's in a region, in step mode the lowest that is free (05 R125, R135). None: it is outstanding, or all 16 are. -/
def nextTicket (c : Core) : Option Nat :=
  match (courseNow c).bind (·.ticket) with
  | some k => if (mget? c.tickets k.toNat).isNone then some k.toNat else none
  | none => (List.range 16).find? (fun i => (mget? c.tickets i).isNone)

/-- A long operation takes its ticket; its result waits there (05 R125, R135). -/
def issueTicket (c : Core) (t : Ticket) : Option Core := (nextTicket c).map (fun i => { c with tickets := mput c.tickets i t })

/-- Writes a long operation's result to a copy of the registers (05 R135). -/
def landTicket (a : Arch) (t : Ticket) : Arch :=
  let a1 := match t.dest with
    | .none => a
    | .g r => gWrite a r t.val
    | .f r => fWrite a r t.val
  { a1 with cf := t.cf.getD a1.cf, fcsr := a1.fcsr ||| t.flags.setWidth 8 }

/-- A SYS-group instruction, an atomic or a DEVICE access begins only when every older instruction has completed and committed (03 R97; 05 R143, R147). -/
def drained (s : State) (vc : Vc) : Option State :=
  if canCommit (s.core vc) then some (commitCore s vc) else none

/-- An instruction that is a commit region of its own has executed (03 R97; 05 R143). -/
def committedAlone (s : State) (vc : Vc) (a : Arch) (evs : List (BitVec 8)) (ends taken : Bool) (ind : Option W64) : State :=
  let old := (s.core vc).arch
  let s1 := commitCore (executed s vc a evs ends taken none ind) vc
  traceCtx s1 vc old a

/-- The entry into a region counts when the region's first instruction commits (17 R507, REGION_ENTRY); `n` instructions stood before it. -/
def noteEntry (s : State) (vc : Vc) (n : Nat) : State :=
  let c := s.core vc
  match c.retire.reverse with
  | r :: t =>
    if n < c.retire.length then s.setCore vc { c with retire := t.reverse ++ [{ r with events := r.events ++ [0x16#8] }] } else s
  | [] => if c.region.isSome then queueEvent s vc 0x16 else s

/-- A pending interrupt can wait no longer, and no commit point stands where the core is: it rolls back and goes on in step mode (02 R59; 05 R146; 17 R512). -/
def irqStop (s : State) (vc : Vc) : State :=
  if (s.core vc).tickets.isEmpty && (s.core vc).ckpts.isEmpty && !atPoint (s.core vc) then rollbackCore s vc else s

/-- What a core row does with its word: the word of another row changes nothing; an illegal word raises class 0x01 (03 R98). -/
def instrRow (s0 : State) (vc : Vc) (w : W32) (mine : CoreOp → Bool) (run : CoreOp → State → Option State) : State :=
  let s := wakeDue s0 vc
  if coreRuns s vc && windowOpen (s.core vc) then
    if !irqOpen s (s.core vc) then irqStop s vc
    else match fetchAt s vc with
    | .wait s1 => s1
    | .fault s1 x => (raise s1 vc x).getD s
    | .ok s1 entered =>
      let a := (s1.core vc).spec
      match decodeCore (s1.fStyleOf a) w with
      | none => (raise s1 vc (excIllegal a w)).getD s
      | some op =>
        if mine op && !awaits (s1.core vc) op then
          match run op s1 with
          | none => s
          | some s2 => if entered then noteEntry s2 vc (s1.core vc).retire.length else s2
        else s
  else s

end Sys2Proof.Machine
end

