-- ==== Sys2Proof/Machine/Reply.lean ====
section
/-! DEFINITION. Packets, replies and the lanes that carry them (13 R407, R409 to R414, R429; 18 R538). -/

namespace Sys2Proof.Machine

/-- A little-endian field of a packet: n bytes at an offset (13 R413). -/
def pkGet (p : Packet) (off n : Nat) : Nat := p.toNat / 2 ^ (8 * off) % 2 ^ (8 * n)

/-- The header of a command (13 R413). -/
def pkOpcode (p : Packet) : Nat := pkGet p 0 2
def pkTag (p : Packet) : Nat := pkGet p 2 2
def pkSlate (p : Packet) : Nat := pkGet p 4 2
def pkLength (p : Packet) : Nat := pkGet p 6 1
def pkFlags (p : Packet) : Nat := pkGet p 7 1
def pkTarget (p : Packet) : Nat := pkGet p 8 8

/-- A reply: STATUS, TAG, DETAIL, RESULT, and the payload from byte 16 on (13 R414). -/
def mkReply (status tag detail result payload : Nat) : Packet :=
  BitVec.ofNat 2048 (status + 2 ^ 16 * tag + 2 ^ 32 * (detail % 2 ^ 32) + 2 ^ 64 * (result % 2 ^ 64) + 2 ^ 128 * payload)

/-- The device's own write to memory, within one line: as NC_WR of the device class, or in place where the line has a transaction open (13 R406); one to a row that the fill has not passed waits at its home (09 R293). -/
def deviceWrite (s : State) (pa n v : Nat) : State :=
  let l := lineOf pa
  let r : Req := { kind := .ncWr, src := 24, line := l, size := 64, data := linePut 0 (pa % 64) n v,
                   mask := byteMask (pa % 64) n, cls := devClass }
  match runNc s r with
  | some t => t
  | none =>
    if rowFilled s.dram l then pokeLine s devClass l (fun d => linePut d (pa % 64) n v) else deviceNc s r

/-- The address of slot i of a ring of 2^k slots (13 R405). -/
def ringSlot (base : W64) (k : BitVec 4) (i : W32) : Nat := base.toNat + 256 * (i.toNat % 2 ^ k.toNat)

/-- A reply goes into a slot in two parts: bytes 8 to 255, then bytes 0 to 7 (13 R407). -/
def writeSlot (s : State) (pa : Nat) (r : Packet) : State :=
  let s1 := deviceWrite s (pa + 8) 56 (pkGet r 8 56)
  let s2 := deviceWrite s1 (pa + 64) 64 (pkGet r 64 64)
  let s3 := deviceWrite s2 (pa + 128) 64 (pkGet r 128 64)
  let s4 := deviceWrite s3 (pa + 192) 64 (pkGet r 192 64)
  deviceWrite s4 pa 8 (pkGet r 0 8)

/-- MB_STAT.READY of lane 0 has become 1: the board manager is signalled (18 R538). -/
def signalBoard (s : State) : State :=
  { s with mgmt := { s.mgmt with alert := true, ibi := s.mgmt.ibi || s.mgmt.enec } }

/-- The SOURCE of a lane (13 R420). -/
def laneSource (n : LaneNo) : BitVec 64 := 4#64 ||| (n.setWidth 64 <<< 4)

/-- The reply of a lane's command is written and the command is over. `store`: it is kept with its packet for R429, and is not itself such a stored reply. While the Gatehouse restarts the reply is owed (13 R430). -/
def finishCmd (s : State) (n : LaneNo) (r : Packet) (store : Bool) : State :=
  let l0 := s.lane n
  match l0.cur with
  | none => s
  | some cmd =>
    if s.gate.restart then s.setLane n { l0 with begun := true, owed := some (r, store) } else
    let s1 := if l0.curRing then writeSlot s (ringSlot l0.rrBase l0.size l0.rrTail) r else s
    let l1 := s1.lane n
    let l2 := { l1 with cur := none, begun := false, recent := if store then ((cmd, r) :: l1.recent).take 64 else l1.recent }
    let l3 := if l0.curRing then { l2 with rrTail := l2.rrTail + 1 } else { l2 with mbRpl := r, busy := false, ready := true }
    let s2 := s1.setLane n l3
    let s3 := if !l0.curRing && n == 0 then signalBoard s2 else s2
    if l0.postEn then postSource s3 (laneSource n) else s3

/-- A reply with the tag of the lane's command (13 R414). -/
def reply (s : State) (n : LaneNo) (status detail result payload : Nat) : State :=
  match (s.lane n).cur with
  | none => s
  | some cmd => finishCmd s n (mkReply status (pkTag cmd) detail result payload) true

/-- DONE. -/
def replyDone (s : State) (n : LaneNo) (detail result payload : Nat) : State := reply s n 0 detail result payload
/-- BAD_PARAM, with DETAIL. -/
def stBadParam : Nat := 0x11
/-- NO_RIGHT. -/
def stNoRight : Nat := 0x12
/-- WRONG_MODE. -/
def stWrongMode : Nat := 0x13
/-- NO_RESOURCE. -/
def stNoResource : Nat := 0x14
/-- BUSY_OBJECT. -/
def stBusy : Nat := 0x15

/-- The mode codes of WRONG_MODE and DEVICE_INFO (13 R415). -/
def modeCode : Mode → Nat
  | .cold => 0
  | .assembly => 1
  | .service => 2
  | .repair => 3
  | .rest => 4
  | .belvedere => 5

end Sys2Proof.Machine
end

