-- ==== Sys2Proof/Machine/Tlbi.lean ====
section
/-! DEFINITION. The reach of the TLBI instructions, and the inbound translation caches (07 R213 to R220). -/

namespace Sys2Proof.Machine

/-- Combined entries in reach (07 R218). -/
def tlbHit (t : Tlbi) (e : TlbEntry) : Bool :=
  match t.op with
  | .va => e.ctx == t.ctx && e.vpage == t.page && (match e.asid with | none => true | some i => i == t.asid)
  | .vaa => e.ctx == t.ctx && e.vpage == t.page
  | .asid => e.ctx == t.ctx && e.asid == some t.asid
  | .ipa => e.ctx == t.ctx && (e.ipaPage == t.page || e.tables.contains t.page)
  | .vmid => e.ctx == t.ctx
  | .all => true

/-- Walk-cache entries in reach: for a page, every stage-1 table entry of the context, which R219 allows (07 R218, R219). -/
def walkHit (t : Tlbi) (w : WalkEntry) : Bool :=
  match t.op with
  | .va | .vaa => w.ctx == t.ctx && !w.stage2
  | .asid => w.ctx == t.ctx && !w.stage2 && w.asid == t.asid
  | .ipa => w.ctx == t.ctx && w.stage2
  | .vmid => w.ctx == t.ctx
  | .all => true

/-- Regions in reach, by key and IPA page (07 R218). -/
def regionHit (t : Tlbi) (k : RegionKey) (ipaPage : PageNo) : Bool :=
  match t.op with
  | .va => k.ctx == t.ctx && k.va.extractLsb' 12 36 == t.page && (match k.asid with | none => true | some i => i == t.asid)
  | .vaa => k.ctx == t.ctx && k.va.extractLsb' 12 36 == t.page
  | .asid => k.ctx == t.ctx && k.asid == some t.asid
  | .ipa => k.ctx == t.ctx && ipaPage == t.page
  | .vmid => k.ctx == t.ctx
  | .all => true

/-- A core holds something in reach. -/
def coreHit (t : Tlbi) (c : Core) : Bool :=
  c.micro.dtlb.any (tlbHit t) || c.micro.ftlb.any (tlbHit t) || c.micro.l2tlb.any (tlbHit t)
    || c.micro.regions.any (fun r => regionHit t r.key r.ipaPage)

/-- The core's uncommitted work is of the context that a TLBI acts on. The entry that an access of it used may have been evicted since, so what the core still holds does not matter (07 R220, R224). -/
def ctxHit (t : Tlbi) (c : Core) : Bool := uncommitted c && (t.op == .all || ctxOf c.spec == t.ctx)

/-- A TLBI at one core: uncommitted work that may rest on a removed entry is undone, entries and regions go (07 R218, R220). -/
def tlbiCore (t : Tlbi) (s : State) (vc : Vc) : State :=
  let c := s.core vc
  let s1 := if ctxHit t c || (coreHit t c && uncommitted c) then rollbackCore s vc else s
  let s2 := dropRegions s1 vc (fun r => regionHit t r.key r.ipaPage)
  s2.updCore vc (fun d0 =>
    let d := keepFetch d0 (fun _ => false)
    { d with micro := { d.micro with
    dtlb := d.micro.dtlb.filter (fun e => !tlbHit t e), ftlb := d.micro.ftlb.filter (fun e => !tlbHit t e),
    l2tlb := d.micro.l2tlb.filter (fun e => !tlbHit t e), walks := d.micro.walks.filter (fun w => !walkHit t w) } })

/-- A TLBI at a cluster's translator (07 R218). -/
def tlbiCluster (t : Tlbi) (s : State) (k : Nat) : State :=
  dropRecent (dropRequests s k (fun r => regionHit t r.key r.ipaPage)) k (fun r => regionHit t r.key r.ipaPage)

/-- The TLBI reaches the inbound translation caches (07 R218). -/
def tlbiInbound (t : Tlbi) : Bool := t.op == .ipa || t.op == .vmid || t.op == .all

/-- A TLBI at every holder but the cores in a list (07 R218, R220). -/
def tlbiEverywhere (s : State) (t : Tlbi) : State :=
  let s1 := (List.range 8).foldl (tlbiCluster t) (s.allCores.foldl (tlbiCore t) s)
  if tlbiInbound t then
    { s1 with
      arb := { s1.arb with itlb := s1.arb.itlb.filter (fun e => !tlbHit t e) },
      ports := s1.ports.map (fun p => (p.1, { p.2 with itlb := p.2.itlb.filter (fun e => !tlbHit t e) })) }
  else s1

/-- The removal of a pavilion's translations and regions, as TLBI.VMID followed by SYNC.T (10 R302, R325). -/
def dropVmid (s : State) (p : Pav) : State :=
  tlbiEverywhere s { op := .vmid, ctx := p.setWidth 16, asid := 0, page := 0 }

/-- An inbound translation under a pavilion's stage 2: the cached entry where it allows the access, else a fresh walk; with the cache afterwards, and the walk's reads of the keep region made by the agent (07 R213, R215; 08 R263; 11 R346). -/
def inboundXlate (s : State) (a : Agent) (cache : List TlbEntry) (pn : Pav) (ipa : Nat) (acc : Acc) : Option (Nat × MemType) × List TlbEntry × State :=
  let vp : BitVec 36 := BitVec.ofNat 36 (ipa / 4096)
  let ctx : ClassId := pn.setWidth 16
  let is (e : TlbEntry) : Bool := e.ctx == ctx && e.vpage == vp
  let pa (e : TlbEntry) : Nat := e.ppage.toNat * 4096 + ipa % 4096
  let walk : Option (Nat × MemType) × List TlbEntry × State :=
    let rest := cache.filter (fun e => !is e)
    if (s.pav pn).st = .none then (none, rest, s)
    else match inboundWalk s (s.pav pn) ipa acc with
      | .error f => (none, rest, inboundTouch a ctx f.reads s)
      | .ok (e, rs) =>
        let e1 := { e with ctx := ctx, vpage := vp, ipaPage := vp }
        (some (pa e1, e1.mt), e1 :: rest, inboundTouch a ctx rs s)
  match cache.find? is with
  | some e => match checkS2 e acc ipa with
    | none => (some (pa e, e.mt), cache, s)
    | some _ => walk
  | none => walk

end Sys2Proof.Machine
end

