-- ==== Sys2Proof/Machine/ArborOps.lean ====
section
/-! DEFINITION. Arbor's shared operations: the profile in force, windows and their bus addresses, byte order, errors, posts, the order of cycles and the bus tenure (11, 12; 10 R322). -/

namespace Sys2Proof.Machine

/-- Arbor's agent id (08 R232). -/
def arborAgent : Agent := 26

/-- Address bits of a space (11 R339). -/
def spaceBits (sp : BitVec 3) : Nat :=
  match sp.toNat with
  | 1 => 24
  | 2 => 32
  | 3 => 64
  | _ => 16

/-- The bus address of a window offset (11 R339). -/
def busAddrOf (w : OutWin) (off : Nat) : W64 := BitVec.ofNat 64 ((w.busBase.toNat + off) % 2 ^ spaceBits w.space)

/-- Bytes of one single cycle of a window: D64 carries single accesses as D32 under P-VITA1 (12 R388). -/
def beatBytes (s : State) (w : OutWin) : Nat :=
  if s.profCode = 2 ∧ w.width = 3 then 4 else 2 ^ w.width.toNat

/-- The BLT or MBLT code of an AM (12 R387); none: the AM has no block code. -/
def blockAm (mblt : Bool) (am : BitVec 8) : Option (BitVec 8) :=
  match am.toNat with
  | 0x39 | 0x3A => some (if mblt then 0x38 else 0x3B)
  | 0x3D | 0x3E => some (if mblt then 0x3C else 0x3F)
  | 0x09 | 0x0A => some (if mblt then 0x08 else 0x0B)
  | 0x0D | 0x0E => some (if mblt then 0x0C else 0x0F)
  | 0x01 => some (if mblt then 0x00 else 0x03)
  | _ => none

/-- The lowest n bytes of a number in the other order (11 R352). -/
def revBytes : Nat → Nat → Nat
  | 0, _ => 0
  | n + 1, v => v % 256 * 256 ^ n + revBytes n (v / 256)

/-- The bytes that stand on the bus in ascending bus address, as a little-endian number, for a value of n bytes; and back (11 R352). -/
def busOrder (s : State) (addrOrder : Bool) (n v : Nat) : Nat :=
  if s.caps.bigEndian && !addrOrder then revBytes n v else v % 256 ^ n

/-- The outbound window that holds a physical address (11 R340). -/
def findWindow (s : State) (pa : Nat) : Option (Ses × Nat × OutWin) :=
  s.arb.ses.findSome? (fun p =>
    (p.2.outw.find? (fun w => decide (w.2.base ≤ pa ∧ pa < w.2.base + 2 ^ w.2.logSize))).map
      (fun w => (BitVec.ofNat 14 p.1, w.1, w.2)))

/-- The SOURCE of a session's sub-source (13 R420; 11 R358). -/
def sesSource (n : Ses) (sub : Nat) : BitVec 64 := 1#64 ||| (n.setWidth 64 <<< 4) ||| (BitVec.ofNat 64 sub <<< 18)

/-- A write to memory that takes its place even where the line has a transaction open. -/
def forceWrite (s : State) (a : Agent) (c : ClassId) (pa n v : Nat) : State :=
  match agentWrite s a c pa n v with
  | some t => t
  | none => pokeLine s c (lineOf pa) (fun d => linePut d (pa % 64) n v)

/-- The oldest posted inbound writes are performed, in order, as far as their homes take them (11 R348, R349). -/
def drainSome : Nat → State → State
  | 0, s => s
  | n + 1, s =>
    match s.arb.inbuf with
    | [] => s
    | w :: rest =>
      match agentWrite s arborAgent w.cls w.pa.toNat w.size w.data.toNat with
      | none => s
      | some t => drainSome n { t with arb := { t.arb with inbuf := rest } }

/-- The inbound write buffer drains, one entry for each DONE (11 R348). -/
def drainInbound (s : State) : State := drainSome 64 s

/-- Every posted inbound write is performed before what follows (11 R349 orders 4 and 5, R365). -/
def forceInbound (s : State) : State :=
  let s1 := { s with arb := { s.arb with inbuf := [] } }
  s.arb.inbuf.foldl (fun t w => forceWrite t arborAgent w.cls w.pa.toNat w.size w.data.toNat) s1

/-- The committed stores of a core's store buffer are performed at once, oldest first (07 R199, R220). -/
def forceStores (s : State) (vc : Vc) : State :=
  let c := s.core vc
  let s1 := s.updCore vc (fun d => { d with sb := d.sb.filter (fun e => !e.committed) })
  (c.sb.filter (·.committed)).foldl
    (fun t e => forceWrite t (clusterAgent (t.clusterOf vc)) e.cls e.pa.toNat e.size e.data.toNat) s1

/-- A post of a session's sub-source, after the session's earlier writes (11 R349, R358; 10 R320). -/
def sesPost (s : State) (n : Ses) (sub : Nat) : State := postSource (forceInbound s) (sesSource n sub)

/-- An outbound error in the session page: counted, and captured where ERR_CODE is zero (11 R362). -/
def recordArbErr (s : State) (n : Ses) (code : ArbErr) (addr : W64) : State :=
  let e := s.ses n
  let e1 := { e with errCount := satAdd32 e.errCount 1 }
  if e.errCode = .none then
    let s1 := s.setSes n { e1 with errCode := code, errAddr := addr, errTime := BitVec.ofNat 64 s.qz.time }
    if e.errPost then sesPost s1 n 8 else s1
  else s.setSes n e1

/-- A value as a load delivers it: zero- or sign-extended from its size (03 R84). -/
def extendVal (size : Nat) (sx : Bool) (v : W64) : W64 :=
  match size with
  | 1 => if sx then (v.setWidth 8).signExtend 64 else (v.setWidth 8).setWidth 64
  | 2 => if sx then (v.setWidth 16).signExtend 64 else (v.setWidth 16).setWidth 64
  | 4 => if sx then (v.setWidth 32).signExtend 64 else (v.setWidth 32).setWidth 64
  | _ => v

/-- The value of a DEVICE load or atomic reaches its core, which goes on (02 R70; 05 R147). -/
def finishWait (s : State) (vc : Vc) (v : W64) : State :=
  match (s.core vc).wait with
  | none => s
  | some w =>
    let s1 := s.updCore vc (fun c => { c with wait := none })
    match w.slot with
    | some i => s1.updCore vc (fun c => { c with frame := mput c.frame i v })
    | none =>
      let a := (s1.core vc).arch
      let x := extendVal w.size w.sext v
      committedAlone s1 vc (nextPc (if w.fp then fWrite a w.rd x else gWrite a w.rd x)) w.events false false none

/-- A DEVICE load or atomic meets an error: class 0x0C with the VA (02 R48; 11 R362). -/
def failWait (s : State) (vc : Vc) : State :=
  match (s.core vc).wait with
  | none => s
  | some w =>
    let s1 := s.updCore vc (fun c => { c with wait := none })
    let a := (s1.core vc).arch
    enterExc s1 vc (excDevice a w.va) a.pc 0

/-- A DEVICE store of a core has ended (02 R67; 11 R343). -/
def storeEnded (s : State) (vc : Option Vc) : State :=
  match vc with
  | none => s
  | some v => s.updCore v (fun c => { c with devStores := c.devStores - 1 })

/-- The access reads: a load or an atomic waits for its value. -/
def outReturns : OutKind → Bool
  | .load | .atomic _ => true
  | _ => false

/-- The access is a block-mover transfer. -/
def outMoves : OutKind → Bool
  | .mover .. => true
  | _ => false

/-- A block-mover transfer ends (11 R344): BUSY, DONE, ERR, BM_DONE, and its post. -/
def endMover (s : State) (n : Ses) (code : ArbErr) (moved : Nat) : State :=
  let e := s.ses n
  sesPost (s.setSes n { e with bmBusy := false, bmDone := true, bmErr := code, bmMoved := BitVec.ofNat 24 moved }) n 9

/-- The requester of an access learns that it has ended in error, and the session page records it (11 R362). `run`: a cycle of it has run. -/
def accessError (s : State) (n : Ses) (acc : OutAcc) (code : ArbErr) (addr : W64) (run : Bool) : State :=
  match acc.kind with
  | .mover .. => endMover s n code acc.done
  | .store =>
    let s1 := storeEnded (recordArbErr s n code addr) acc.vc
    let e := s1.ses n
    if run then s1 else s1.setSes n { e with discards := satAdd32 e.discards 1 }
  | _ =>
    let s1 := recordArbErr s n code addr
    match acc.vc with
    | some v => failWait s1 v
    | none => s1

/-- The requester of an access learns that it has completed, with the value of a load or atomic (11 R343). -/
def accessDone (s : State) (n : Ses) (acc : OutAcc) (v : W64) : State :=
  match acc.kind with
  | .mover .. => endMover s n .none acc.done
  | .store => storeEnded s acc.vc
  | _ => match acc.vc with
    | some vc => finishWait s vc v
    | none => s.answer v

/-- Accepted outbound accesses of all sessions (11 R343). -/
def acceptedCount (s : State) : Nat := (s.arb.ses.map (fun p => p.2.queue.length)).foldl (· + ·) 0

/-- Puts an access into its session's queue (11 R343). -/
def enqueue (s : State) (n : Ses) (acc : OutAcc) : State :=
  let e := s.ses n
  let a := { acc with seq := s.arb.accepted, headAt := if e.queue.isEmpty then some s.qz.time else none }
  let s1 := s.setSes n { e with queue := e.queue ++ [a] }
  { s1 with arb := { s1.arb with accepted := s1.arb.accepted + 1 } }

/-- The code with which a session that is not OPEN completes an access at once (11 R335). -/
def closedCode : SesSt → ArbErr
  | .halted => .halted
  | .wedged => .wedged
  | .resetting => .squashed
  | _ => .none

/-- An atomic that its window cannot carry (11 R356). -/
def atomRefused (s : State) (w : OutWin) (op : BitVec 4) (size : Nat) : Bool :=
  !w.rmw || !s.caps.rmw || (decide (beatBytes s w < size) && !(op == 0 || op == 1 || op == 2 || op == 3 || op == 4))

/-- An access that arrives while its session is RESETTING is one of those that the reset squashes (11 R365 steps 1 and 5). -/
def countSquashed (s : State) (n : Ses) : State :=
  let e := s.ses n
  if e.st = .resetting then s.setSes n { e with wait := e.wait.map (fun w => { w with squashed := w.squashed + 1 }) } else s

/-- An access that meets the conditions of R341 is refused at once, or queued, or waits for room, its own or that of an earlier access of its session or of its core (11 R335, R342, R343, R356). -/
def acceptAccess (s : State) (n : Ses) (acc : OutAcc) : State :=
  let e := s.ses n
  let addr := busAddrOf acc.win acc.off
  let behind := s.arb.waiting.any (fun p => p.1 == n || (acc.vc.isSome && p.2.vc == acc.vc))
  if e.st != .open_ then accessError (countSquashed s n) n acc (closedCode e.st) addr false
  else if !s.arb.roles.master then accessError s n acc .norole addr false
  else if (match acc.kind with | .atomic op => atomRefused s acc.win op acc.size | _ => false) then
    accessError s n acc .noatom addr false
  else if behind || decide (32 ≤ e.queue.length) || decide (4096 ≤ acceptedCount s) then
    { s with arb := { s.arb with waiting := s.arb.waiting ++ [(n, { acc with waited := true })] } }
  else enqueue s n acc

/-- The class of an Arbor access may use the session: its owner, which a CLOSED session has not, or the hypervisor (11 R341, R368). -/
def sesAllows (e : Session) (c : ClassId) : Bool := c == hypClass || (e.st != .closed && c == e.owner.setWidth 16)

/-- An access that R341 refuses: no cycle; a load or atomic raises class 0x0C, a store is discarded (11 R341). -/
def refuseUnmapped (s : State) (vc : Option Vc) (kind : OutKind) : State :=
  let s1 := { s with arb := { s.arb with unmapped := satAdd32 s.arb.unmapped 1 } }
  if outReturns kind then match vc with
    | some v => failWait s1 v
    | none => s1
  else storeEnded s1 vc

/-- A waiting access is accepted under the windows in force now: those of its arrival no longer bind it (11 R338, R341, R343). A block-mover transfer keeps its session. -/
def readmit (s : State) (n : Ses) (acc : OutAcc) : State :=
  let pa := acc.win.base + acc.off
  match findWindow s pa with
  | none => if outMoves acc.kind then accessError s n acc .memory (busAddrOf acc.win acc.off) false else refuseUnmapped s acc.vc acc.kind
  | some (m, _, w) =>
    if outMoves acc.kind then
      if m = n then acceptAccess s n { acc with win := w, off := pa - w.base }
      else accessError s n acc .memory (busAddrOf acc.win acc.off) false
    else if sesAllows (s.ses m) acc.cls then acceptAccess s m { acc with win := w, off := pa - w.base }
    else refuseUnmapped s acc.vc acc.kind

/-- Waiting accesses that find room, in arrival order (11 R343). -/
def admitWaiting (s : State) : State :=
  s.arb.waiting.foldl (fun t p => readmit t p.1 p.2) { s with arb := { s.arb with waiting := [] } }

/-- The head access of a session leaves its queue. -/
def popHead (s : State) (n : Ses) : State :=
  let e := s.ses n
  let q := match e.queue.drop 1 with
    | [] => []
    | a :: r => { a with headAt := some s.qz.time } :: r
  let s1 := s.setSes n { e with queue := q }
  admitWaiting { s1 with arb := { s1.arb with beats := if s1.arb.lastSes = n then 0 else s1.arb.beats } }

/-- Arbor resolves an access in the outbound window space (11 R340, R341). -/
def arborAccess (s : State) (vc : Option Vc) (kind : OutKind) (c : ClassId) (pa size : Nat) (data cmpv : W64) : State :=
  match findWindow s pa with
  | none => refuseUnmapped s vc kind
  | some (n, _, w) =>
    if sesAllows (s.ses n) c then
      acceptAccess s n { kind := kind, vc := vc, cls := c, off := pa - w.base, size := size, data := data, cmpv := cmpv, win := w }
    else refuseUnmapped s vc kind

/-- The inbound window of an address phase (11 R345). -/
def camFind (s : State) (space : BitVec 3) (am : BitVec 8) (addr : W64) : Option (Ses × Nat × InWin) :=
  s.arb.ses.findSome? (fun p =>
    (p.2.inw.find? (fun w => w.2.space == space && (am &&& w.2.amMask) == (w.2.amMatch &&& w.2.amMask)
        && decide (w.2.busBase.toNat ≤ addr.toNat ∧ addr.toNat < w.2.busBase.toNat + 2 ^ w.2.logSize))).map
      (fun w => (BitVec.ofNat 14 p.1, w.1, w.2)))

/-- A transfer uses block cycles, in BELVEDERE none; the shipped profiles have none at D8 (11 R344, R370; 12 R386, R387). -/
def usesBlock (s : State) (acc : OutAcc) : Option (BitVec 8) :=
  match acc.kind with
  | .mover _ _ true =>
    let mblt := s.profCode == 2 && acc.win.width == 3
    if s.caps.block && (acc.win.width != 0 || decide (0x80 ≤ s.profCode.toNat)) && s.mode != .belvedere then
      if s.vme then blockAm mblt acc.win.am else some acc.win.am
    else none
  | _ => none

/-- Bytes of the next cycle of an access, and its byte offset within the access in bus order (11 R353, R356). -/
def nextPart (s : State) (acc : OutAcc) : Nat × Nat :=
  let w := if (usesBlock s acc).isSome then 2 ^ acc.win.width.toNat else beatBytes s acc.win
  let n := min w (acc.size - acc.done)
  match acc.kind with
  | .atomic 1 => if s.caps.bigEndian && !acc.win.addrOrder then (n, acc.size - acc.done - n) else (n, acc.done)
  | _ => (n, acc.done)

/-- The bus address and the attribute of the next cycle of an access (11 R339, R354; 12 R387). -/
def nextAddr (s : State) (acc : OutAcc) : W64 × BitVec 8 :=
  (busAddrOf acc.win (acc.off + (nextPart s acc).2), (usesBlock s acc).getD acc.win.am)

/-- In BELVEDERE a session runs where it is a safety session, a safety image is there, and VDD_BLV and VDD_IO18 are in range (11 R370; 15 R469, R474). -/
def safetyRuns (s : State) (e : Session) : Bool :=
  e.safety && s.dev.blv.image && s.dev.rails.getLsbD 2 && s.dev.rails.getLsbD 8

/-- The window of a phase; in BELVEDERE the windows of sessions that are not safety sessions answer nothing (11 R345, R370). -/
def phaseWindow (s : State) (space : BitVec 3) (am : BitVec 8) (addr : W64) : Option (Ses × Nat × InWin) :=
  match camFind s space am addr with
  | none => none
  | some (n, i, w) => if s.mode == .belvedere && !safetyRuns s (s.ses n) then none else some (n, i, w)

/-- The inbound window that the next cycle of an access loops into (01 R27; 11 R360, R370). -/
def loopTarget (s : State) (acc : OutAcc) : Option (Ses × Nat × InWin) :=
  if s.arb.roles.slave then phaseWindow s acc.win.space (nextAddr s acc).2 (nextAddr s acc).1 else none

/-- Beats of the burst that starts at an access's next beat: to the end of the transfer or of its block of BURST bytes (11 R344; 12 R386, R399). -/
def burstBeats (s : State) (acc : OutAcc) : Nat :=
  let w := (nextPart s acc).1
  let left := (acc.size - acc.done) / max w 1
  if s.caps.burst = 0 then left else min left ((s.caps.burst - (nextAddr s acc).1.toNat % s.caps.burst) / max w 1)

/-- The head access of a session is the first of its ordering domain (11 R349). -/
def firstInDomain (s : State) (n : Ses) (a : OutAcc) : Bool :=
  let d := (s.ses n).domain
  d == 0 || s.arb.ses.all (fun p => p.2.domain != d || (match p.2.queue with | [] => true | b :: _ => decide (a.seq ≤ b.seq)))

/-- Sessions whose queues run: OPEN, and RESETTING while an access that has begun ends whole (11 R335, R366); only safety sessions in BELVEDERE (11 R370). -/
def sesRuns (s : State) (e : Session) : Bool :=
  (e.st == .open_ || e.st == .resetting) && (s.mode != .belvedere || safetyRuns s e)

/-- The head of a session's queue, where it has a cycle ready for the bus or for the loop (11 R349). -/
def readyHead (s : State) (n : Ses) : Option OutAcc :=
  let e := s.ses n
  match e.queue with
  | [] => none
  | a :: _ => if sesRuns s e && firstInDomain s n a then some a else none

/-- The session has a cycle ready for the bus. -/
def busReady (s : State) (n : Ses) : Bool :=
  match readyHead s n with
  | some a => (loopTarget s a).isNone
  | none => false

/-- A pavilion beyond its tenure budget of the window (10 R322). -/
def tenureOver (s : State) (p : Pav) : Bool :=
  let q := s.qosOf (p.setWidth 16)
  decide (q.arb ≤ q.arbUsed)

/-- The place of a session in the choice of the next cycle: within budget in PRIO order, then over, in rotation (10 R322). -/
def pickKey (s : State) (n : Ses) : Nat :=
  let p := (s.ses n).owner
  let rot := (n - s.arb.lastSes - 1).toNat
  if tenureOver s p then 4 * 16384 + rot else (s.qosOf (p.setWidth 16)).prio.toNat * 16384 + rot

/-- The session whose access has run some of its cycles, or whose burst is on the bus: they stay in one tenure (11 R344, R353, R356). -/
def underWay (s : State) : Option Ses :=
  match s.arb.ses.find? (fun p => match p.2.queue with
    | a :: _ => decide (0 < a.done) && !outMoves a.kind
    | [] => false) with
  | some p => some (BitVec.ofNat 14 p.1)
  | none => if s.arb.beats = 0 then none else some s.arb.lastSes

/-- The session whose cycle runs next on the bus (10 R322; 11 R349, R353). -/
def arbPick (s : State) : Option Ses :=
  match underWay s with
  | some n => if busReady s n then some n else none
  | none =>
    let l := (s.arb.ses.map (fun p => BitVec.ofNat 14 p.1)).filter (busReady s)
    l.foldl (fun b n => match b with
      | none => some n
      | some m => if pickKey s n < pickKey s m then some n else some m) none

/-- Adds to an uncore counter at once. -/
def ucAdd (u : Uncore) (code : BitVec 8) (cls : ClassId) (n j : Nat) : Uncore :=
  if mget u.evt j 0 = code ∧ code ≠ 0 ∧ (match mget? u.flt j with | none => true | some c => c == cls) = true then
    let v := (mget u.cnt j 0).toNat + n
    { u with cnt := mput u.cnt j (BitVec.ofNat 64 v), ovf := if 2 ^ 64 ≤ v then u.ovf ||| (1#4 <<< j) else u.ovf }
  else u

/-- A number of uncore events of a unit at once (17 R515). -/
def uncoreAdd (s : State) (unit : Nat) (code : BitVec 8) (cls : ClassId) (n : Nat) : State :=
  let u := mget s.uncore unit {}
  let u' := (List.range 4).foldl (fun a j => ucAdd a code cls n j) u
  if u' = u then s else { s with uncore := mput s.uncore unit u' }

/-- The tenure since the grant is charged to the owner of the session last served (10 R322). -/
def chargeTenure (s : State) : State :=
  let c : ClassId := (s.ses s.arb.lastSes).owner.setWidth 16
  let n := (s.qz.time - s.arb.ownedAt) / 125
  let q := s.qosOf c
  let s1 := uncoreAdd (s.setQos c { q with arbUsed := q.arbUsed + n }) 32 5 c n
  { s1 with arb := { s1.arb with ownedAt := s.qz.time } }

/-- Arbor releases the bus (12 R389). -/
def releaseBus (s : State) : State :=
  if s.arb.owned then
    let s1 := chargeTenure s
    { s1 with arb := { s1.arb with owned := false, yield_ := false, beats := 0 } }
  else s

/-- After a cycle: the bus is released on YIELD, which cuts a block burst after its beat, or when no further cycle is ready; the cycles of one access stay together (12 R389). -/
def afterCycle (s : State) : State :=
  if s.arb.owned && s.arb.cycle.isNone && s.arb.ack.isNone then
    if (underWay s).isSome && s.arb.beats == 0 && (arbPick s).isSome then s
    else if s.arb.yield_ || (arbPick s).isNone then releaseBus s else s
  else s

end Sys2Proof.Machine
end

