-- ==== Sys2Proof/Machine/ArborSes.lean ====
section
/-! DEFINITION. The reset and close of a session, the end of a pavilion reset, the release of interrupt levels (11 R357 to R359, R365 to R367; 10 R325 to R329). -/

namespace Sys2Proof.Machine

/-- A reset of the pavilion has passed step 1: new inbound cycles and DMA of what it owns are refused (10 R325 step 2). -/
def pavDraining (s : State) (pn : Pav) : Bool :=
  match (s.pav pn).wait with
  | some w => decide (2 ≤ w.step)
  | none => false

/-- IDs pending in PEND v of a pavilion's vCPUs, and the latches of cores that still hold its context, are cleared; the count of the bits cleared (10 R325 step 4). -/
def clearPavPends (s : State) (pn : Pav) : State × Nat :=
  let p := s.pav pn
  let counts := (List.range p.nvcpu).map (fun v => (pendIds s p v).length)
  let mine := s.allCores.filter (fun c => (s.core c).arch.tr.vmid == pn)
  let latched := mine.map (fun c => (s.core c).latch.length)
  let s1 := (List.range p.nvcpu).foldl (fun t v => clearPend t 24 p v) s
  let s2 := mine.foldl (fun t c => t.updCore c (fun d => { d with latch := [] })) s1
  (s2, (counts ++ latched).foldl (· + ·) 0)

/-- DB_ARMED of every vCPU is set (10 R325 step 4). -/
def armDoorbells (s : State) (pn : Pav) : State :=
  let p := s.pav pn
  (List.range p.nvcpu).foldl (fun t v => homeAtomic t 24 (pitCtlPa p v) .or 0x200#64) s

/-- Steps 4 and 5 of a pavilion reset (10 R325, R327, R329). -/
def finishPavReset (s : State) (pn : Pav) (w : PavWait) : State :=
  let (s1, n) := clearPavPends s pn
  let s2 := dropVmid (armDoorbells s1 pn) pn
  let p := s2.pav pn
  let s3 := s2.setPav pn { p with
    st := .defined, wait := none, discarded := satAdd32 p.discarded n,
    ctl := (p.ctl &&& ~~~ 1#16) ||| (BitVec.ofBool p.heldStyle).setWidth 16 }
  let total := min (w.count + n) (2 ^ 32 - 1)
  let detail := if w.noFlr then total % 2 ^ 31 + 2 ^ 31 else total
  match w.lane with
  | some l => replyDone s3 l detail s3.qz.time 0
  | none => s3

/-- The functions that a pavilion owns: port, key, function (13 R421). -/
def ownedFns (s : State) (pn : Pav) : List (Bool × Nat × PcieFn) :=
  [false, true].flatMap (fun b => ((s.port b).fns.filter (fun f => f.2.owner == pn.setWidth 16)).map (fun f => (b, f.1, f.2)))

/-- The sessions that a pavilion owns. -/
def ownedSes (s : State) (pn : Pav) : List Ses :=
  (s.arb.ses.filter (fun p => p.2.st != .closed && p.2.owner == pn)).map (fun p => BitVec.ofNat 14 p.1)

/-- A pavilion reset whose sessions and functions have been reset ends (10 R325 steps 3 to 5). -/
def tryPav (s : State) (pn : Pav) : State :=
  match (s.pav pn).wait with
  | some w =>
    if w.step == 3 && (ownedSes s pn).all (fun n => (s.ses n).wait.isNone)
        && (ownedFns s pn).all (fun f => f.2.2.flr.isNone) then finishPavReset s pn w
    else s
  | none => s

/-- Pushes a vector into a session's FIFO and posts its entry (11 R357). -/
def pushVector (s : State) (n : Ses) (v : VecEntry) : State :=
  let e := s.ses n
  let s1 := s.setSes n { e with vecs := e.vecs ++ [v] }
  let s2 := if v.rora then { s1 with arb := { s1.arb with heldLv := s1.arb.heldLv ++ [(v.level, n, v.entry)] } } else s1
  sesPost s2 n v.entry.toNat

/-- A vector kept for a session enters its FIFO as soon as an entry is free (11 R359). -/
def pushKept (s : State) (n : Ses) : State :=
  if 16 ≤ (s.ses n).vecs.length then s
  else match s.arb.kept.find? (fun k => k.ses == n) with
    | none => s
    | some k => pushVector { s with arb := { s.arb with kept := s.arb.kept.erase k } } n k.vec

/-- Every level that a session holds is released, so that no vector in its FIFO holds one any more, and the kept vectors of some of its entries are dropped and counted (11 R359). -/
def releaseLevels (s0 : State) (n : Ses) (f : BitVec 3 → Bool) : State :=
  let e := s0.ses n
  let s := s0.setSes n { e with vecs := e.vecs.map (fun v => { v with rora := false }) }
  let gone := s.arb.kept.filter (fun k => k.ses == n && f k.vec.entry)
  { s with arb := { s.arb with
    heldLv := s.arb.heldLv.filter (fun h => h.2.1 != n),
    kept := s.arb.kept.filter (fun k => !(k.ses == n && f k.vec.entry)),
    vecNomatch := satAdd32 s.arb.vecNomatch gone.length } }

/-- A session with its page at reset values; owner, settings, windows and entries stay (11 R366, R368). -/
def pageReset (e : Session) : Session :=
  { st := e.st, owner := e.owner, safety := e.safety, domain := e.domain, tsK := e.tsK, wedgeMs := e.wedgeMs,
    retryLim := e.retryLim, outw := e.outw, inw := e.inw, imap := e.imap, queue := e.queue, wait := e.wait }

/-- The head access of a session has begun: its cycle is on the bus, or some of its cycles have ended (11 R365, R366). -/
def headBegun (s : State) (n : Ses) : Bool :=
  (match s.arb.cycle with | some c => c.ses == n && !c.dead | none => false)
    || (match (s.ses n).queue with | a :: _ => decide (0 < a.done) && !outMoves a.kind | [] => false)

/-- Accesses that complete with an error before any cycle: every waiting one and every queued one but a head that has begun (11 R364, R365). `run`: the head has run a cycle, and is no discard of R362. -/
def squashQueue (s : State) (n : Ses) (code : ArbErr) (keepHead run : Bool) : State × Nat :=
  let e := s.ses n
  let hd := if keepHead then e.queue.take 1 else []
  let out := if keepHead then e.queue.drop 1 else e.queue
  let late := (s.arb.waiting.filter (fun p => p.1 == n)).map (·.2)
  let s1 := s.setSes n { e with queue := hd }
  let s2 := { s1 with arb := { s1.arb with
    beats := if s1.arb.lastSes = n && !keepHead then 0 else s1.arb.beats, waiting := s1.arb.waiting.filter (fun p => p.1 != n) } }
  let err (t : State) (a : OutAcc) (r : Bool) : State := accessError t n a code (busAddrOf a.win (a.off + a.done)) r
  let s3 := if run then (out.take 1).foldl (fun t a => err t a true) s2 else s2
  (((if run then out.drop 1 else out) ++ late).foldl (fun t a => err t a false) s3, (out ++ late).length)

/-- An inbound cycle of the session is past its address phase and has had no data phase: it completes first (11 R365 step 3, R366). One that has had data phases goes on as its master drives it. -/
def phaseFresh (s : State) (n : Ses) : Bool :=
  match s.arb.phase with
  | some ph => ph.ses == n && ph.answer == .accept && ph.beats == 0
  | none => false

/-- Step 3 is over: no access of the session has begun and not ended, and no inbound cycle of it awaits its data (11 R365). -/
def resetDue (s : State) (n : Ses) : Bool := !headBegun s n && (s.ses n).queue.isEmpty && !phaseFresh s n

/-- Steps 3 to 5 of a session reset, or the close of R337 (11 R365). -/
def endReset (s : State) (n : Ses) (w : SesWait) : State :=
  let s1 := forceInbound s
  let e := s1.ses n
  let s2 := s1.setSes n (if w.close then {} else { pageReset e with st := if w.halt then .halted else .open_, wait := none })
  let s3 := { s2 with arb := { s2.arb with resets := s2.arb.resets.filter (· != n) } }
  let s4 := match w.lane with
    | some l => replyDone s3 l (if w.close then 0 else w.squashed) s3.qz.time 0
    | none => s3
  tryPav s4 e.owner

/-- Steps 1 and 2 of a session reset or close (11 R365). -/
def startReset (s : State) (n : Ses) : State :=
  let e := s.ses n
  let s1 := s.setSes n { e with st := .resetting, wait := e.wait.map (fun w => { w with started := true }) }
  let (s2, k) := squashQueue s1 n .squashed (headBegun s1 n) false
  let e2 := s2.ses n
  let s3 := s2.setSes n { e2 with vecs := [], wait := e2.wait.map (fun w => { w with squashed := w.squashed + k }) }
  afterCycle (admitWaiting (releaseLevels s3 n (fun _ => true)))

/-- A session reset ends where it can, and the next one of its domain begins (11 R365, R367). -/
def runResets : Nat → Ses → State → State
  | 0, _, s => s
  | k + 1, n, s =>
    match (s.ses n).wait with
    | none => s
    | some w =>
      if !w.started || !resetDue s n then s
      else
        let d := (s.ses n).domain
        let s1 := endReset s n w
        match (if d = 0 then none else s1.arb.resets.find? (fun m => (s1.ses m).domain == d)) with
        | some m => runResets k m (startReset s1 m)
        | none => s1

/-- A session reset under way goes on where its step 3 is over (11 R365). -/
def trySes (s : State) (n : Ses) : State := runResets (s.arb.resets.length + 1) n s

/-- A session reset or close is issued: it begins at once, or waits for an earlier one of its domain (11 R365, R367). -/
def resetSession (s : State) (n : Ses) (close halt : Bool) (lane : Option LaneNo) (tag : BitVec 16) : State :=
  let e := s.ses n
  let busy := e.domain != 0 && s.arb.resets.any (fun m => (s.ses m).domain == e.domain)
  let w : SesWait := { close := close, halt := halt, lane := lane, tag := tag, squashed := 0, started := !busy }
  let s1 := s.setSes n { e with wait := some w }
  let s2 := { s1 with arb := { s1.arb with resets := s1.arb.resets ++ [n] } }
  if busy then s2 else trySes (startReset s2 n) n

end Sys2Proof.Machine
end

