-- ==== Sys2Proof/Machine/ArborBus.lean ====
section
/-! DEFINITION. Outbound traffic of Arbor: accesses, bus cycles and their ends, loopback, timers, the block mover, arbitration (11 R339 to R364; 12 R389, R393 to R396). -/

namespace Sys2Proof.Machine

/-- Arbor serves accesses from the fabric, in BELVEDERE with VDD_BLV and VDD_IO18 in range (11 R334, R370; 14 R444; 15 R474). -/
def arborServes (s : State) : Bool :=
  (s.mode == .service || (s.mode == .belvedere && s.dev.rails.getLsbD 2 && s.dev.rails.getLsbD 8)) && !s.dev.porst

/-- An engine field (12 R382). -/
def setField (s : State) (i : Nat) (v : W32) : State := { s with arb := { s.arb with fields := mput s.arb.fields i v } }

/-- An engine event becomes pending (12 R382). -/
def raiseEvent (s : State) (i : Nat) : State := { s with arb := { s.arb with events := s.arb.events ||| (1#16 <<< i) } }

/-- The engine gives MST a cycle: its fields, and the event CYCLE; a further beat of a burst is NEXT (12 R381, R382). -/
def giveCycle (s : State) (kind : Nat) (addr : W64) (attr : W32) (data : W64) (next : Bool) : State :=
  let s1 := setField (setField (setField s 0 (BitVec.ofNat 32 kind)) 1 (addr.setWidth 32)) 2 ((addr >>> 32).setWidth 32)
  let s2 := setField (setField (setField s1 3 attr) 4 (data.setWidth 32)) 5 ((data >>> 32).setWidth 32)
  if s.arb.running then raiseEvent s2 (if next then 12 else 0) else s2

/-- The byte lanes of AD[31:0] that a cycle uses: under P-1014 and P-VITA1 D15–D08 for a byte at an even address and D07–D00 for one at an odd address, the lower lanes for wider cycles; under P-796 DAT0/–DAT7/, but DAT8/–DATF/ for an odd byte of a D16 window. A P-GEN profile gets the lanes that the address names: DESIGN CHOICE (log entry 103) (12 R382, R388). -/
def lanesOf (s : State) (width : BitVec 2) (addr : W64) (n : Nat) : Nat :=
  if s.vme then (if n = 1 then (if addr.toNat % 2 = 0 then 2 else 1) else 2 ^ min n 4 - 1)
  else if s.profCode = 3 then (if n = 1 then (if width != 0 && addr.toNat % 2 == 1 then 2 else 1) else 3)
  else (2 ^ min n 4 - 1) * 2 ^ (addr.toNat % 4) % 16

/-- The ATTR field of a cycle: AM, SPACE, write, byte lanes, bytes per beat (12 R382). -/
def attrOf (am : BitVec 8) (space : BitVec 3) (write : Bool) (lanes n : Nat) : W32 :=
  BitVec.ofNat 32 (am.toNat + 256 * space.toNat + (if write then 2048 else 0) + 4096 * lanes + 65536 * (n % 16))

/-- The lines that a cycle needs beside MST's: under P-796 an odd byte of a D16 window and a word assert BHEN/, which a D8 window leaves released, and a read-modify-write runs under LOCK/ (12 R378, R386, R388). -/
def cycleLines (s : State) (kind lanes : Nat) : State :=
  if s.profCode = 3 then driveLock (portLine s 1 24 (some (decide (lanes < 2)))) (kind == 3) else s

/-- Memory at a session's IPA as inbound traffic of its owner may reach it (11 R346): the physical address. -/
def inbTarget (s : State) (n : Ses) (ipa : Nat) (acc : Acc) : Option Nat × State :=
  let e := s.ses n
  let (r, cache, s0) := inboundXlate s arborAgent s.arb.itlb e.owner ipa acc
  let s1 := { s0 with arb := { s0.arb with itlb := cache } }
  match r with
  | none => (none, s1)
  | some (pa, mt) =>
    if mt != .device && inDram s.dram pa && (!inKeep s pa || e.safety) then (some pa, s1) else (none, s1)

/-- Memory as a cycle of Arbor reads it: at its home, at the spine, or in BELVEDERE from Belvedere's resident copy (11 R348, R370). -/
def arborRead (s : State) (c : ClassId) (pa n : Nat) : Option (Nat × State) :=
  if s.mode = .belvedere then
    let l := lineOf pa
    some (lineGet (mget s.fab.spine.blv l.toNat (dramPeek s.dram l)) (pa % 64) n, s)
  else agentRead s arborAgent c pa n

/-- Memory as a cycle of Arbor writes it. -/
def arborWrite (s : State) (c : ClassId) (pa n v : Nat) : Option State :=
  if s.mode = .belvedere then
    let l := lineOf pa
    let d := linePut (mget s.fab.spine.blv l.toNat (dramPeek s.dram l)) (pa % 64) n v
    some { s with fab := { s.fab with spine := { s.fab.spine with blv := mput s.fab.spine.blv l.toNat d } } }
  else agentWrite s arborAgent c pa n v

/-- A write of Arbor that takes its place even where the line has a transaction open. -/
def arborForce (s : State) (c : ClassId) (pa n v : Nat) : State := (arborWrite s c pa n v).getD (forceWrite s arborAgent c pa n v)

/-- The bytes that a store, an atomic or a transfer from memory places on the bus, in bus order; none: the memory side must wait (11 R344, R352). -/
def cycleData (s : State) (n : Ses) (a : OutAcc) (cnt off : Nat) : Option (Except Unit (Nat × State)) :=
  match a.kind with
  | .store => some (.ok (busOrder s a.win.addrOrder a.size a.data.toNat / 256 ^ off % 256 ^ cnt, s))
  | .mover toMem ipa _ =>
    match inbTarget s n (ipa.toNat + a.done) (if toMem then .write else .read) with
    | (none, _) => some (.error ())
    | (some pa, s1) =>
      if toMem then some (.ok (0, s1))
      else (arborRead s1 ((s.ses n).owner.setWidth 16) pa cnt).map
        (fun r => .ok (busOrder s a.win.addrOrder cnt r.1, r.2))
  | _ => some (.ok (0, s))

/-- An access under way ends in error: it leaves its queue, its requester learns of it (11 R362). -/
def failHead (s : State) (n : Ses) (a : OutAcc) (code : ArbErr) (addr : W64) : State :=
  trySes (accessError (popHead s n) n a code addr true) n

/-- The old value of a part of an atomic, in value order, gives the new part and its carry (11 R356). -/
def atomPart (s : State) (a : OutAcc) (op : BitVec 4) (cnt off data : Nat) : Nat × Bool :=
  let old := busOrder s a.win.addrOrder cnt data
  if a.size ≤ cnt then
    (busOrder s a.win.addrOrder cnt (atomNew op a.size (BitVec.ofNat 64 old) a.data a.cmpv).toNat, false)
  else if op = 1 then
    let sum := old + a.data.toNat / 256 ^ a.done % 256 ^ cnt + a.carry.toNat
    (busOrder s a.win.addrOrder cnt (sum % 256 ^ cnt), decide (256 ^ cnt ≤ sum))
  else
    let opnd := busOrder s a.win.addrOrder a.size a.data.toNat / 256 ^ off % 256 ^ cnt
    ((atomNew op 8 (BitVec.ofNat 64 data) (BitVec.ofNat 64 opnd) 0).toNat % 256 ^ cnt, false)

/-- The cycle of an access writes: a CAS that does not match writes nothing (03 R86). -/
def cycleWrites (s : State) (a : OutAcc) (cnt data : Nat) : Bool :=
  match a.kind with
  | .load | .mover true _ _ => false
  | .atomic op => !(op == 9 && BitVec.ofNat 64 (busOrder s a.win.addrOrder cnt data) != BitVec.ofNat 64 (a.cmpv.toNat % 256 ^ cnt))
  | _ => true

/-- A cycle of the head access has completed with `data` on the bus, in bus order (11 R344, R352, R353, R356). A transfer that memory refuses stops there, and the beat is not moved. -/
def cycleDone (s : State) (n : Ses) (a : OutAcc) (cnt off : Nat) (addr : W64) (sent data : Nat) : State :=
  let (wr, carry) := match a.kind with
    | .atomic op => atomPart s a op cnt off data
    | _ => (sent, false)
  let reads := outReturns a.kind
  let a1 := { a with
    done := a.done + cnt, retries := 0, carry := carry,
    got := if reads then a.got ||| BitVec.ofNat 64 (data % 256 ^ cnt * 256 ^ off) else a.got }
  let s1 := if cycleWrites s a cnt data then { s with arb := { s.arb with wrote := some (addr, cnt, BitVec.ofNat 64 wr) } } else s
  let (moved, s2) : Bool × State := match a.kind with
    | .mover true ipa _ =>
      match inbTarget s1 n (ipa.toNat + a.done) .write with
      | (some pa, t) => (true, arborForce t ((s.ses n).owner.setWidth 16) pa cnt (busOrder s a.win.addrOrder cnt data))
      | (none, t) => (false, t)
    | _ => (true, s1)
  if !moved then failHead s2 n a .memory addr
  else if a1.done < a.size then
    let e := s2.ses n
    let s3 := s2.setSes n { e with queue := a1 :: e.queue.drop 1 }
    if outMoves a.kind && e.st != .open_ then failHead s3 n a1 .squashed addr else s3
  else
    trySes (accessDone (popHead s2 n) n a1 (BitVec.ofNat 64 (busOrder s a.win.addrOrder a.size a1.got.toNat))) n

/-- A cycle of the head access meets a retry response: it runs again, up to RETRY_LIMIT times (11 R362). -/
def cycleRetry (s : State) (n : Ses) (a : OutAcc) (addr : W64) : State :=
  let e := s.ses n
  if a.retries < e.retryLim then s.setSes n { e with queue := { a with retries := a.retries + 1 } :: e.queue.drop 1 }
  else failHead s n a .retry addr

/-- The cycle on the bus ends: its result is discarded where the session has wedged meanwhile, else it goes to the head access (11 R361 to R364). -/
def endCycle (s : State) (c : BusCycle) (resp : BusResp) (timeout : Bool) (data : W64) : State :=
  let s0 := driveLock s false
  let s1 := { s0 with arb := { s0.arb with cycle := none, beats := if resp == .ack && !timeout then s.arb.beats - 1 else 0 } }
  match c.dead, (s1.ses c.ses).queue with
  | false, a :: _ =>
    let (cnt, off) := nextPart s1 a
    let t :=
      if timeout then failHead s1 c.ses a .timeout c.addr
      else match resp with
        | .ack => cycleDone (if c.read then forceInbound s1 else s1) c.ses a cnt off c.addr c.data.toNat data.toNat
        | .busError => failHead s1 c.ses a .berr c.addr
        | .parityError => failHead s1 c.ses a .parity c.addr
        | .retry => cycleRetry s1 c.ses a c.addr
    afterCycle t
  | _, _ => afterCycle (trySes s1 c.ses)

/-- ARBOR_OUTBOUND_ACCESS (11 R339 to R343, R356): an aligned access of 1, 2, 4 or 8 bytes in the outbound window space. -/
def execArborOutboundAccess (kind : OutKind) (cls : ClassId) (pa : BitVec 48) (size : Nat) (data cmpv : W64) (s : State) : Out :=
  let ok := arborServes s && paKind s pa.toNat == .arborWin && (size == 1 || size == 2 || size == 4 || size == 8)
    && pa.toNat % size == 0 && !outMoves kind
    && (s.mode != .belvedere || (match findWindow s pa.toNat with | some (n, _, _) => safetyRuns s (s.ses n) | none => false))
  whenTrue ok s (arborAccess s none kind cls pa.toNat size data cmpv)

/-- The next cycle of the session that is due goes onto the bus that Arbor owns; the beats of a block burst follow one address (11 R344, R349, R352, R353, R356; 12 R382, R387, R388). None: there is none. -/
def startCycle (s : State) (ses : Ses) : Option State :=
    if arborServes s && s.arb.roles.master && s.arb.owned && s.arb.cycle.isNone && s.arb.ack.isNone && !arstLow s && arbPick s == some ses then
      match (s.ses ses).queue with
      | [] => none
      | a :: _ =>
        let (cnt, off) := nextPart s a
        let (addr, am) := nextAddr s a
        match cycleData s ses a cnt off with
        | none => none
        | some (.error _) => some (afterCycle (failHead s ses a .memory addr))
        | some (.ok (d, s1)) =>
          let s2 := if s1.arb.lastSes = ses then s1 else chargeTenure s1
          let reads := outReturns a.kind || (match a.kind with | .mover true _ _ => true | _ => false)
          let writes := match a.kind with | .load => false | .mover true _ _ => false | _ => true
          let blk := (usesBlock s a).isSome
          let next := blk && s1.arb.beats != 0 && s1.arb.lastSes == ses
          let beats := if !blk then 0 else if next then s1.arb.beats else burstBeats s a
          let kind := match a.kind with
            | .load => 1
            | .store => 2
            | .atomic _ => 3
            | .mover true _ _ => if blk then 4 else 1
            | .mover false _ _ => if blk then 5 else 2
          let cy : BusCycle := {
            ses := ses, dead := false, addr := addr, size := cnt, read := reads, write := writes, data := BitVec.ofNat 64 d,
            am := am, started := s.qz.time }
          let s3 := setField { s2 with arb := { s2.arb with cycle := some cy, lastSes := ses, beats := beats } } 6 (BitVec.ofNat 32 beats)
          let lanes := lanesOf s a.win.width addr cnt
          let s4 := cycleLines (giveCycle s3 kind addr (attrOf am a.win.space writes lanes cnt) cy.data next) kind lanes
          some (if next then s4 else uncoreEvent s4 32 1 ((s.ses ses).owner.setWidth 16))
    else none

/-- OUTBOUND_BUS_CYCLE (11 R344, R349, R353; 12 R392): the next cycle, or the next beat of a burst. -/
def execOutboundBusCycle (ses : Ses) (s : State) : Out := orStay s (startCycle s ses)

/-- OUTBOUND_CYCLE_END (11 R353, R355, R361, R362): the slave's response ends the cycle on the bus; a parity error needs lanes with parity and a read, a retry a profile that has it. -/
def execOutboundCycleEnd (resp : BusResp) (data : W64) (s : State) : Out :=
  match s.arb.cycle with
  | none => .next s
  | some c =>
    let ok := match resp with
      | .retry => s.caps.retry
      | .parityError => c.read && s.caps.parity != 0
      | _ => true
    whenTrue ok s (endCycle s c resp false data)

/-- What memory gives or takes under a looped cycle, as its inbound window checks it (11 R346, R360). -/
def loopMemory (s : State) (n : Ses) (w : InWin) (addr : W64) (reads writes : Bool) : Option Nat × State :=
  let e := s.ses n
  let ipa := w.ipaBase + (addr.toNat - w.busBase.toNat)
  if (reads && !w.rd) || (writes && !w.wr) || e.st != .open_ || pavDraining s e.owner then (none, s)
  else inbTarget s n ipa (if reads && writes then .rmw else if writes then .write else .read)

/-- A refusal of an inbound phase or looped cycle is counted (11 R346; 17 R515). -/
def countRefusal (s : State) (c : ClassId) : State :=
  uncoreEvent { s with arb := { s.arb with inbRefused := satAdd32 s.arb.inbRefused 1 } } 32 3 c

/-- The response of a refusal: RESP while the session is not OPEN, and in REST, and retry only where the profile has it (11 R335, R346; 12 R391; 14 R447). -/
def refusalOf (s : State) (e : Session) (w : InWin) : Answer :=
  if (e.st != .open_ || s.mode == .rest) && !w.respErr && s.caps.retry then .retry
  else if s.profCode = 3 then .none
  else .busError

/-- No cycle of the session's head access is on the bus. -/
def offBus (s : State) (n : Ses) : Bool :=
  match s.arb.cycle with
  | some c => c.dead || c.ses != n
  | none => true

/-- LOOPBACK_CYCLE (01 R27; 11 R360, R370): the next cycle of a session's head access loops into an inbound window. -/
def execLoopbackCycle (ses : Ses) (s : State) : Out :=
  let go : Option State :=
    match readyHead s ses with
    | none => none
    | some a =>
      match loopTarget s a with
      | none => none
      | some (n, _, w) =>
        let (cnt, off) := nextPart s a
        let (addr, _) := nextAddr s a
        let reads := outReturns a.kind || (match a.kind with | .mover true _ _ => true | _ => false)
        let writes := match a.kind with | .load => false | .mover true _ _ => false | _ => true
        let owner : ClassId := (s.ses ses).owner.setWidth 16
        match cycleData s ses a cnt off with
        | none => none
        | some (.error _) => some (failHead s ses a .memory addr)
        | some (.ok (d, s0)) =>
          let s1 := uncoreEvent (forceInbound s0) 32 4 owner
          let tcls : ClassId := (s.ses n).owner.setWidth 16
          match loopMemory s1 n w addr reads writes with
          | (none, s2) =>
            let s3 := countRefusal s2 tcls
            some (if refusalOf s (s.ses n) w == .retry then cycleRetry s3 ses a addr else failHead s3 ses a .berr addr)
          | (some pa, s2) =>
            match arborRead s2 tcls pa cnt with
            | none => none
            | some (v, s3) =>
              let onBus := busOrder s w.addrOrder cnt v
              let put := match a.kind with
                | .atomic op => (atomPart s a op cnt off onBus).1
                | _ => d
              let s4 := if cycleWrites s a cnt onBus then arborForce s3 tcls pa cnt (busOrder s w.addrOrder cnt put) else s3
              some (cycleDone s4 ses a cnt off addr d onBus)
  whenTrue (arborServes s && s.arb.roles.master && !arstLow s && offBus s ses) s (go.getD s)

/-- The idle entry of a thread: entries 0, 7, 8, 9 (12 R379). -/
def idlePc (s : State) (th : Thread) : BitVec 12 :=
  match s.arb.prof with
  | some p =>
    let i := if th = 0 then 0 else 6 + th.toNat
    ((p.entry[i]?).getD 0).setWidth 12
  | none => 0

/-- A thread of the sequencer. -/
def State.thread (s : State) (th : Thread) : SeqThread := mget s.arb.threads th.toNat {}
/-- Sets a thread. -/
def State.setThread (s : State) (th : Thread) (t : SeqThread) : State :=
  { s with arb := { s.arb with threads := mput s.arb.threads th.toNat t } }

/-- Arbor ends the cycle that MST runs: the strobes and every other line of MST are released, and MST is restarted at its idle entry (11 R363; 12 R394). -/
def restartMst (s : State) : State :=
  let s1 := releaseMst s
  let t := s1.thread 0
  let s2 := s1.setThread 0 { t with pc := idlePc s1 0, wait := .ready, idle := true }
  { s2 with arb := { s2.arb with path := if s2.arb.path == some 0 then none else s2.arb.path } }

/-- SESSION_CYCLE_TIMER_EXPIRY (11 R363; 12 R394): T_S of the session expires on the cycle that Arbor masters. -/
def execSessionCycleTimerExpiry (s : State) : Out :=
  match s.arb.cycle with
  | none => .next s
  | some c =>
    let s1 := s.reach (c.started + 1000 * 2 ^ (s.ses c.ses).tsK)
    .next (endCycle (restartMst s1) c .ack true 0)

/-- BUS_TIMER_EXPIRY (12 R393; 11 R361): with SYSCON = 1 the system bus timer ends the data phase on the bus, whoever masters it, or the acknowledge cycle: it asserts BERR*, XACK/ or the line that the profile declares until the strobes are released. A cycle of Arbor's own has then lasted 2^BUS_TIMER µs. -/
def execBusTimerExpiry (s : State) : Out :=
  let t0 := match s.arb.cycle with
    | some c => s.reach (c.started + 1000 * 2 ^ s.arb.roles.busTimer)
    | none => s
  let s1 := timerOut { t0 with arb := { t0.arb with busTimeouts := satAdd32 s.arb.busTimeouts 1 } } true
  let s2 := match s1.arb.cycle, s1.arb.ack with
    | some c, _ => endCycle s1 c .ack true 0
    | none, some _ => afterCycle { s1 with arb := { s1.arb with ack := none } }
    | none, none => { s1 with arb := { s1.arb with phase := none } }
  whenTrue (s.arb.roles.syscon && !s.dev.porst) s s2

/-- A session wedges (11 R364): every queued access completes with WEDGED, and the cycle on the bus runs to its end for nothing. -/
def wedgeSession (s : State) (n : Ses) : State :=
  let s1 := match s.arb.cycle with
    | some c => if c.ses == n then { s with arb := { s.arb with cycle := some { c with dead := true } } } else s
    | none => s
  let e := s1.ses n
  let addr := match e.queue with | a :: _ => (nextAddr s1 a).1 | [] => 0
  let moverHead := match e.queue with | a :: _ => outMoves a.kind | [] => true
  let s2 := s1.setSes n { e with st := .wedged }
  let s3 := if moverHead then recordArbErr s2 n .wedged addr else s2
  afterCycle (admitWaiting (squashQueue s3 n .wedged false (headBegun s n)).1)

/-- SESSION_WEDGE (11 R364): the head access of an OPEN session has not completed within WEDGE_LIMIT of reaching the head. -/
def execSessionWedge (ses : Ses) (s : State) : Out :=
  let e := s.ses ses
  match e.queue with
  | [] => .next s
  | a :: _ =>
    let t := (a.headAt.getD s.qz.time) + 1000000 * e.wedgeMs
    whenTrue (e.st == .open_ && arborServes s) s (wedgeSession (s.reach t) ses)

/-- BUS_GRANTED (12 R389): Arbor, which has a cycle ready, receives the grant of its level; as system controller it granted itself. -/
def execBusGranted (s : State) : Out :=
  let ok := arborServes s && s.arb.roles.master && !s.arb.owned && !arstLow s && (arbPick s).isSome
    && (!s.arb.roles.syscon || s.arb.granting == some s.arb.roles.reqLevel)
  whenTrue ok s { s with arb := { s.arb with
    owned := true, ownedAt := s.qz.time, granting := none, yield_ := false, lastSes := (arbPick s).getD s.arb.lastSes } }

/-- YIELD is raised: MST is told, and the tenure ends after the beat under way (12 R382, R389). -/
def raiseYield (s : State) : State :=
  let s1 := if s.arb.running then raiseEvent s 4 else s
  afterCycle { s1 with arb := { s1.arb with yield_ := true } }

/-- BUS_YIELD (12 R389): BCLR*, with ROR another BRn*, or CBRQ/ raises YIELD while Arbor owns the bus. -/
def execBusYield (s : State) : Out := whenTrue s.arb.owned s (raiseYield s)

/-- The level that the arbiter serves among those requested: PRI the highest, RRS the next below the last, SGL level 3; P-796 has one (12 R386, R389, R397). -/
def arbiterPick (s : State) (req : BitVec 4) : Option (BitVec 2) :=
  match s.arb.prof with
  | none => none
  | some p =>
    let order : List Nat :=
      if p.code = 3 then [0]
      else if p.arbMode = 1 then (List.range 4).map (fun i => (s.arb.lastLevel.toNat + 3 - i) % 4)
      else if p.arbMode = 2 then [3]
      else [3, 2, 1, 0]
    (order.find? (fun i => req.getLsbD i)).map (BitVec.ofNat 2)

/-- Arbor has a request of its own before the arbiter. -/
def ownRequest (s : State) : Bool := s.arb.roles.master && (arbPick s).isSome && !arstLow s

/-- The requests before the arbiter: those of other boards, and Arbor's own on REQ_LEVEL (12 R389). -/
def allRequests (s : State) (req : BitVec 4) : BitVec 4 :=
  if ownRequest s then req ||| (1#4 <<< s.arb.roles.reqLevel.toNat) else req

/-- The arbitration mode is PRI, under P-1014, P-VITA1 or P-GEN (12 R386, R397). -/
def priMode (s : State) : Bool := match s.arb.prof with | some p => p.code != 3 && p.arbMode == 0 | none => false

/-- A request of a level above another (12 R389). -/
def higherThan (req : BitVec 4) (l : BitVec 2) : Bool := decide (l.toNat < 3 ∧ 2 ^ (l.toNat + 1) ≤ req.toNat)

/-- The requests at the balls are kept: BRn* on AB[n], low = asserted (12 R378). -/
def noteRequests (s : State) (req : BitVec 4) : State :=
  if s.vme then
    { s with arb := { s.arb with bus := mput s.arb.bus 6 ((mget s.arb.bus 6 0xFFFFFFFF &&& ~~~ 0xF#32) ||| ((~~~ req).setWidth 32)) } }
  else s

/-- The arbiter serves the requests before it: the grant of a level stands at the balls, but for Arbor's own, which is the first of its level's chain; P-796 passes its priority down the chain. BCLR* is asserted while a request of a higher level than the last grant's waits under PRI (12 R386, R389). -/
def arbitrate (s : State) (req : BitVec 4) : State :=
  match arbiterPick s (allRequests s req) with
  | none => s
  | some l =>
    let own := ownRequest s && l == s.arb.roles.reqLevel
    let bclr := priMode s && (match s.arb.granting with | some g => higherThan (allRequests s req) g | none => false)
    let s1 := driveChain (driveBclr (driveGrant s (if own then none else some l)) bclr) (ownRequest s)
    { s1 with arb := { s1.arb with granting := some l, lastLevel := l } }

/-- BUS_REQUEST_ARBITRATION (12 R389): as system controller Arbor grants a level; while it owns the bus itself, a higher level under PRI raises BCLR*, and with ROR any other request raises YIELD. -/
def execBusRequestArbitration (req : BitVec 4) (s : State) : Out :=
  if s.arb.roles.syscon && !s.dev.porst then
    if s.arb.owned then
      let higher := priMode s && higherThan req s.arb.roles.reqLevel
      let ror := (match s.arb.prof with | some p => p.options.getLsbD 0 && p.code != 3 | none => false) && req != 0
      .next (if higher || ror then raiseYield (driveBclr (noteRequests s req) higher) else s)
    else .next (arbitrate (noteRequests s req) req)
  else .next s

/-- ARBITRATION_GRANT_TIMEOUT (12 R389): the grant that no requester took within 8 µs is withdrawn, and the arbiter arbitrates again among the requests at the balls. -/
def execArbitrationGrantTimeout (s : State) : Out :=
  let s1 := driveGrant { s with arb := { s.arb with granting := none } } none
  let req : BitVec 4 := if s.vme then ~~~ ((mget s.arb.bus 6 0xFFFFFFFF).setWidth 4) else 0
  whenTrue (s.arb.roles.syscon && s.arb.granting.isSome) s (arbitrate s1 req)

/-- The error that a free value names: the spec states none for a transfer through a window that is not enabled. -/
def freeError (v : W64) : ArbErr :=
  match v.toNat % 10 with
  | 0 => .berr | 1 => .timeout | 2 => .parity | 3 => .retry | 4 => .squashed | 5 => .wedged | 6 => .halted
  | 7 => .noatom | 8 => .memory | _ => .norole

/-- A write of BM_CTL (11 R344, R368): DIR, WIN and BLOCK, and GO queues a transfer unless one is under way or BM_LEN is zero. -/
def writeBmCtl (s : State) (n : Ses) (v : W32) : State :=
  let e := { s.ses n with bmDir := v.getLsbD 1, bmWin := v.extractLsb' 2 2, bmBlock := v.getLsbD 4 }
  let s1 := s.setSes n e
  if v.getLsbD 0 && !e.bmBusy && e.bmLen != 0 then
    let s2 := s1.setSes n { e with bmBusy := true }
    match mget? e.outw e.bmWin.toNat with
    | some w =>
      acceptAccess s2 n { kind := .mover e.bmDir (e.bmIpa.setWidth 48) e.bmBlock, vc := none, cls := e.owner.setWidth 16,
                          off := e.bmOff.toNat, size := e.bmLen.toNat, data := 0, cmpv := 0, win := w }
    | none =>
      let (f, s3) := s2.free
      endMover s3 n (freeError f) 0
  else s1

/-- BM_GO (11 R344): a write of BM_CTL of a session. -/
def execBmGo (ses : Ses) (v : W32) (s : State) : Out :=
  whenTrue (s.mode == .service) s (writeBmCtl s ses v)

/-- A write of SES_CTL (11 R367, R368). -/
def writeSesCtl (s : State) (n : Ses) (v : W32) : State :=
  let e := s.ses n
  s.setSes n { e with errPost := v.getLsbD 1, st := if v.getLsbD 0 && e.st == .halted then .open_ else e.st }

/-- SES_RUN_WRITE (11 R367). -/
def execSesRunWrite (ses : Ses) (v : W32) (s : State) : Out :=
  whenTrue (s.mode == .service) s (writeSesCtl s ses v)

/-- The code of an outbound error (11 R361). -/
def errCodeOf : ArbErr → Nat
  | .none => 0 | .berr => 1 | .timeout => 2 | .parity => 3 | .retry => 4 | .squashed => 5 | .wedged => 6 | .halted => 7
  | .noatom => 8 | .memory => 9 | .norole => 10

/-- A read of ERR_CODE re-arms capture (11 R368). -/
def readErrCode (s : State) (n : Ses) : Nat × State :=
  let e := s.ses n
  (errCodeOf e.errCode, s.setSes n { e with errCode := .none })

/-- ERR_CODE_READ (11 R368): a class that may not use the session reads zero and changes nothing. -/
def execErrCodeRead (ses : Ses) (cls : ClassId) (s : State) : Out :=
  if s.mode = .service then
    if sesAllows (s.ses ses) cls then
      let (v, s1) := readErrCode s ses
      .next (s1.answer (BitVec.ofNat 64 v))
    else .next (s.answer 0)
  else .next s

/-- A write of VEC_POP (11 R359, R368). -/
def writeVecPop (s : State) (n : Ses) : State :=
  let e := s.ses n
  match e.vecs with
  | [] => s
  | v :: rest =>
    let s1 := s.setSes n { e with vecs := rest }
    let s2 := if v.rora then { s1 with arb := { s1.arb with heldLv := s1.arb.heldLv.erase (v.level, n, v.entry) } } else s1
    pushKept s2 n

/-- VEC_POP (11 R359), in BELVEDERE by the safety image (11 R370; 15 R474). -/
def execVecPop (ses : Ses) (s : State) : Out :=
  whenTrue ((s.mode == .service || (s.mode == .belvedere && safetyRuns s (s.ses ses))) && (s.ses ses).st != .closed) s (writeVecPop s ses)

/-- ARST_N has gone low, whoever asserts it: the cycle that Arbor has on the bus ends with BERR, an acknowledge cycle with no vector, and Arbor leaves the bus (12 R395). -/
def arstFell (s : State) : State :=
  let s1 := match s.arb.cycle with
    | some c => endCycle s c .busError false 0
    | none => s
  releaseBus { s1 with arb := { s1.arb with granting := none, ack := none } }

/-- ARST_INPUT (12 R395): another board asserts ARST_N. -/
def execArstInput (s : State) : Out :=
  whenTrue (!s.arb.arstIn && !s.dev.porst) s
    (arstFell { s with arb := { s.arb with arstIn := true, arstEvents := satAdd32 s.arb.arstEvents 1 } })

/-- ARST_N_RISE (12 R395): the other board releases ARST_N. -/
def execArstNRise (s : State) : Out := whenTrue s.arb.arstIn s { s with arb := { s.arb with arstIn := false } }

/-- BACKPLANE_RESET_END (12 R395): Arbor's own assertion of ARST_N ends after RST_TIME. -/
def execBackplaneResetEnd (s : State) : Out :=
  match s.arb.arstUntil with
  | none => .next s
  | some t => let s1 := s.reach t; .next { s1 with arb := { s1.arb with arstUntil := none } }

/-- AFAIL_INPUT (12 R396): another board's assertion of AFAIL is counted; P-796 has no AFAIL. -/
def execAfailInput (level : Bool) (s : State) : Out :=
  let edge := level && !s.arb.afailIn && s.profCode != 3
  whenTrue (!s.dev.porst) s { s with arb := { s.arb with
    afailIn := level, afailEdges := if edge then satAdd32 s.arb.afailEdges 1 else s.arb.afailEdges } }

end Sys2Proof.Machine
end

