-- ==== Sys2Proof/Machine/PcieOps.lean ====
section
/-! DEFINITION. PCI Express ports: links and their windows, functions and their reset, inbound targets, messages (10 R330 to R332; 18 R526 to R532). -/

namespace Sys2Proof.Machine

/-- The fabric agent of a port (08 R232). -/
def pcieAgent (p : Bool) : Agent := if p then 28 else 27

/-- A link. -/
def State.link (s : State) (p : Bool) (l : Nat) : PcieLink := mget (s.port p).links l {}
/-- Sets a link. -/
def State.setLink (s : State) (p : Bool) (l : Nat) (v : PcieLink) : State :=
  s.setPort p { s.port p with links := mput (s.port p).links l v }

/-- Sets a function. -/
def State.setPfn (s : State) (p : Bool) (l fn : Nat) (v : PcieFn) : State :=
  s.setPort p { s.port p with fns := mput (s.port p).fns (fnKey l fn) v }

/-- Links of a port under its bifurcation (18 R527). -/
def linkCount (b : BitVec 2) : Nat := 2 ^ b.toNat

/-- The link is in L0 and takes accesses (18 R532). -/
def linkLive (v : PcieLink) : Bool := v.present && v.up

/-- An event at an uncore counter of a port (17 R515). -/
def pcieCount (s : State) (p : Bool) (code : BitVec 8) (c : ClassId) : State := uncoreEvent s (33 + p.toNat) code c

/-- The unit index of a link (15 R481). -/
def linkUnit (p : Bool) (l : Nat) : Nat := p.toNat + 2 * l

/-- An event of a link that is logged and is no recovery; the manual names no class for it: a free value (18 R529, R530). -/
def logLink (s : State) (p : Bool) (l : Nat) : State :=
  let (f, s1) := s.free
  logEvent s1 { cls := f.setWidth 8, action := 0x10, ukind := 0x0B, uindex := linkUnit p l }

/-- Adds to an 8-bit count, which saturates. -/
def satInc8 (c : BitVec 8) : BitVec 8 := if c = 255 then 255 else c + 1

/-- A posted write ends in error: counted and logged (18 R529). -/
def postedError (s : State) (p : Bool) (l : Nat) : State :=
  let k := s.link p l
  logLink (s.setLink p l { k with posted := satInc8 k.posted }) p l

/-- An access to a window performs no request: a load or atomic raises class 0x0C, a store is discarded (18 R528, R532). -/
def refusePcie (s : State) (vc : Option Vc) (kind : OutKind) : State :=
  if outReturns kind then match vc with
    | some v => failWait s v
    | none => s
  else storeEnded s vc

/-- A request without completion leaves in the port's transmit order (02 R67). -/
def sendPosted (s : State) (p : Bool) (l : Nat) (addr : W64) (d : Line) (n : Nat) (c : ClassId) : State :=
  let k := s.link p l
  pcieCount (s.setLink p l { k with sent := (addr, d, n) :: k.sent }) p 2 c

/-- A request that a completion answers. -/
def sendNonPosted (s : State) (p : Bool) (l : Nat) (r : PcieReq) : State :=
  let k := s.link p l
  pcieCount (s.setLink p l { k with reqs := k.reqs ++ [r] }) p 2 r.cls

/-- The function from which a class's upstream request goes: the physical function for the hypervisor class, else its lowest virtual function (18 R528). -/
def upstreamFn (s : State) (p : Bool) (l : Nat) (c : ClassId) : Option Nat :=
  if c = hypClass then some 0
  else (((s.port p).fns.filter (fun f => f.1 / 65536 == l && f.1 % 65536 != 0 && f.2.owner == c)).map (fun f => f.1 % 65536)).head?

/-- The atomics that PCI Express has: Swap, FetchAdd and CAS of 4 or 8 bytes (03 R88). -/
def pcieAtom (op : BitVec 4) (size : Nat) : Bool := (op == 0 || op == 1 || op == 9) && (size == 4 || size == 8)

/-- A memory request of the port: a posted write, a read, or the AtomicOp of the operation, with its operand and for CAS its compare value, in the sizes that PCI Express has (03 R88; 18 R526). -/
def memRequest (s : State) (p : Bool) (l : Nat) (vc : Option Vc) (kind : OutKind) (c : ClassId) (fn : Nat) (addr : W64) (size : Nat)
    (data cmpv : W64) : State :=
  match kind with
  | .store => storeEnded (sendPosted s p l addr (data.setWidth 512) size c) vc
  | .atomic op =>
    if pcieAtom op size then
      sendNonPosted s p l {
        vc := vc, config := false, reads := true, addr := addr, size := size, cls := c, fn := fn, at_ := s.qz.time,
        op := some op, data := data, cmpv := if op == 9 then cmpv else 0 }
    else refusePcie s vc kind
  | _ => sendNonPosted s p l { vc := vc, config := false, reads := true, addr := addr, size := size, cls := c, fn := fn, at_ := s.qz.time }

/-- An access to the ECAM of a root-port link: a configuration request; the root port's own registers answer at once (18 R528). An atomic to the ECAM part sends no request and raises class 0x0C: DESIGN CHOICE, for PCI Express has no configuration AtomicOp and R88 does not name this part of the window (log entry 89). -/
def ecamRequest (s : State) (p : Bool) (l : Nat) (vc : Option Vc) (kind : OutKind) (c : ClassId) (off size : Nat) (data : W64) : State :=
  match kind with
  | .atomic _ => refusePcie s vc kind
  | _ =>
    let fn := off / 4096
    if fn = 0 then
      if outReturns kind then
        let (f, s1) := s.free
        match vc with
        | some v => finishWait s1 v f
        | none => s1.answer f
      else storeEnded s vc
    else sendNonPosted s p l
      { vc := vc, config := true, reads := outReturns kind, addr := BitVec.ofNat 64 off, size := size, cls := c, fn := fn, at_ := s.qz.time,
        data := if outReturns kind then 0 else data }

/-- A DEVICE access to the PCI Express window space (18 R528). -/
def pcieAccess (s : State) (vc : Option Vc) (kind : OutKind) (c : ClassId) (pa size : Nat) (data cmpv : W64) : State :=
  let p := (pa / 2 ^ 39) % 2 == 1
  let w := 2 ^ 39 / linkCount (s.port p).bifur
  let l := pa % 2 ^ 39 / w
  let off := pa % 2 ^ 39 % w
  let k := s.link p l
  if !linkLive k then
    if kind = .store then storeEnded (postedError s p l) vc else refusePcie s vc kind
  else if k.endpoint then
    match upstreamFn s p l c with
    | none => refusePcie s vc kind
    | some fn =>
      let f := s.pfn p l fn
      if f.bme && f.flr.isNone then memRequest s p l vc kind c fn (BitVec.ofNat 64 off) size data cmpv else refusePcie s vc kind
  else if off < 2 ^ 28 then ecamRequest s p l vc kind c off size data
  else memRequest s p l vc kind c 0 (BitVec.ofNat 64 off) size data cmpv

/-- The write of Initiate Function Level Reset to the Device Control register of a function below a root port (10 R331). The register's place is the model's (log entry 40). -/
def flrWrite (s : State) (p : Bool) (l fn : Nat) : State :=
  if linkLive (s.link p l) then
    sendNonPosted s p l {
      vc := none, config := true, reads := false, addr := BitVec.ofNat 64 (4096 * fn + 72), size := 4, cls := devClass, fn := fn,
      at_ := s.qz.time, data := 0x8000 }
  else s

/-- A function reset begins; true: the function reports no FLR capability and is left to the hypervisor (10 R331). -/
def startFlr (s : State) (p : Bool) (l fn : Nat) (who : Option LaneNo × BitVec 16) : State × Bool :=
  let k := s.link p l
  let kill (t : State) : State :=
    let k := t.link p l
    t.setLink p l { k with reqs := k.reqs.map (fun r => if r.fn = fn then { r with dead := true } else r) }
  let f := s.pfn p l fn
  if k.endpoint then (kill (s.setPfn p l fn { owner := f.owner, flr := some who }), false)
  else
    let (b, s1) := s.free
    if b.getLsbD 0 then (s1, true) else (flrWrite (kill (s1.setPfn p l fn { f with flr := some who })) p l fn, false)

/-- The functions of an endpoint link: the physical one and its virtual ones (18 R527). -/
def linkFns (k : PcieLink) : List Nat := List.range (k.numVf + 1)

/-- The effect of FLR on every function of an endpoint link; the link goes down (18 R532). -/
def resetLink (s : State) (p : Bool) (l : Nat) : State :=
  let s1 := (linkFns (s.link p l)).foldl (fun t f => (startFlr t p l f (match (t.pfn p l f).flr with | some w => w | none => (none, 0))).1) s
  s1.setLink p l { s1.link p l with up := false }

/-- The class of a function: its owner, or the hypervisor class (18 R530). -/
def fnClass (s : State) (p : Bool) (l fn : Nat) : ClassId :=
  let o := (s.pfn p l fn).owner
  if o = noClass then hypClass else o

/-- A range that MEM_ASSIGN gives a class holds n bytes from an address on (13 R422). -/
def inRangeOf (s : State) (c : ClassId) (pa n : Nat) : Bool :=
  s.gate.ranges.any (fun r => r.owner == c && decide (r.base ≤ pa ∧ pa + n ≤ r.base + r.len))

/-- The physical address and the memory type of an inbound request, where it may be performed (18 R530). -/
def pcieTarget (s : State) (p : Bool) (l fn : Nat) (addr : W64) (n : Nat) (acc : Acc) : Option (Nat × MemType) × State :=
  let k := s.link p l
  let c := fnClass s p l fn
  let a := if k.endpoint then (if fn = 0 then k.pfBase.toNat else (mget k.vfIpa fn 0).toNat) + addr.toNat else addr.toNat
  let allowed (pa : Nat) : Bool := inDram s.dram pa && inDram s.dram (pa + n - 1) && !inKeep s pa && inRangeOf s c pa n
  if c = hypClass then
    (if allowed a then some (a, .normal) else none, s)
  else if pavDraining s (c.setWidth 8) then (none, s)
  else
    let (r, cache, s0) := inboundXlate s (pcieAgent p) (s.port p).itlb (c.setWidth 8) a acc
    let s1 := s0.setPort p { s0.port p with itlb := cache }
    match r with
    | some (pa, mt) => (if allowed pa then some (pa, mt) else none, s1)
    | none => (none, s1)

/-- The parts of a request within one line each: offset and number of bytes; a request here spans at most two lines. -/
def lineParts (addr n : Nat) : List (Nat × Nat) :=
  let k := min n (64 - addr % 64)
  if k < n then [(0, k), (k, n - k)] else [(0, n)]

/-- The targets of every part, or none where one may not be performed. -/
def partTargets (s : State) (p : Bool) (l fn : Nat) (addr : W64) (acc : Acc) :
    List (Nat × Nat) → Option (List (Nat × Nat × Nat)) × State
  | [] => (some [], s)
  | (o, n) :: t =>
    match pcieTarget s p l fn (addr + BitVec.ofNat 64 o) n acc with
    | (none, s1) => (none, s1)
    | (some (pa, _), s1) =>
      match partTargets s1 p l fn addr acc t with
      | (none, s2) => (none, s2)
      | (some r, s2) => (some ((pa, o, n) :: r), s2)

/-- A completion goes to its requester (18 R530). -/
def sendCpl (s : State) (p : Bool) (l fn : Nat) (d : Line) (st : Cpl) (c : ClassId) : State :=
  let k := s.link p l
  pcieCount (s.setLink p l { k with cpls := (fn, d, st) :: k.cpls }) p 2 c

/-- The SOURCE of a function's vector (13 R420). -/
def pcieSource (p : Bool) (l fn vec : Nat) : BitVec 64 :=
  BitVec.ofNat 64 (2 + 16 * p.toNat + 32 * l + 256 * (fn % 65536) + 2 ^ 32 * (vec % 65536))

/-- An interrupt message posts through its route, or is counted (18 R531). -/
def msiArrive (s : State) (p : Bool) (l fn : Nat) (data : BitVec 16) : State :=
  let src := pcieSource p l fn data.toNat
  if s.gate.routes.any (fun r => r.src == src && routeFits s r) then postSource s src
  else
    let k := s.link p l
    s.setLink p l { k with msiDrop := satInc8 k.msiDrop }

/-- Sends the message that the host programmed for a vector (18 R531). -/
def sendMsix (s : State) (p : Bool) (l fn v : Nat) (c : ClassId) : State :=
  let (a, d) := mget (s.pfn p l fn).table v (0, 0)
  sendPosted s p l a (d.setWidth 512) 4 c

/-- A vector that may be sent: MSI-X is enabled, the function and the vector unmasked, the function a bus master. -/
def msixReady (f : PcieFn) (v : Nat) : Bool := f.msixEn && !f.fmask && !f.masks.getLsbD v && f.bme

/-- Pending vectors that are no longer masked are sent. -/
def flushMsix (s : State) (p : Bool) (l fn : Nat) : State :=
  (List.range 32).foldl (fun t v =>
    let f := t.pfn p l fn
    if f.pend.getLsbD v && msixReady f v then
      sendMsix (t.setPfn p l fn { f with pend := f.pend &&& ~~~ (1#32 <<< v) }) p l fn v (fnClass t p l fn)
    else t) s

end Sys2Proof.Machine
end

