-- ==== Sys2Proof/Machine/ArborIn.lean ====
section
/-! DEFINITION. Inbound traffic of Arbor and its interrupts: address and data phases, read-modify-write, acknowledge cycles, the acknowledge chain (11 R345 to R351, R357 to R363; 12 R390, R391, R447). -/

namespace Sys2Proof.Machine

/-- Arbor answers address phases: SLAVE, ARST_N high; in BELVEDERE with VDD_BLV and VDD_IO18 in range (11 R333, R334; 12 R395; 14 R447; 15 R474). -/
def answersPhases (s : State) : Bool :=
  s.arb.roles.slave && !arstLow s && !s.dev.porst && s.mode != .cold
    && (s.mode != .belvedere || (s.dev.rails.getLsbD 2 && s.dev.rails.getLsbD 8))

/-- SLV can take a further address phase: it has executed END since it accepted the last one (12 R380, R401). -/
def slvFree (s : State) : Bool := s.arb.path != some 1

/-- The IPA of a bus address in an inbound window (11 R346). -/
def windowIpa (w : InWin) (addr : W64) : Nat := w.ipaBase + (addr.toNat - w.busBase.toNat)

/-- A refused phase is counted, and its answer recorded (11 R346; 12 R391). -/
def refusePhase (s : State) (n : Ses) (i : Nat) (w : InWin) (addr : W64) (write : Bool) : State :=
  let e := s.ses n
  let c : ClassId := e.owner.setWidth 16
  let s1 := countRefusal s c
  let s2 := if s.profCode = 3 ∧ write = false then s1.answer 0 else s1
  { s2 with arb := { s2.arb with phase := some {
      ses := n, win := BitVec.ofNat 2 i, w := w, answer := refusalOf s e w, busAddr := addr, pa := 0, write := write, cls := c, ahead := [] } } }

/-- The decision on an inbound address phase (11 R345 to R347): no window, refused, or accepted with its physical address. -/
def decidePhase (s : State) (space : BitVec 3) (am : BitVec 8) (addr : W64) (write parityOk : Bool) : Option State :=
  match phaseWindow s space am addr with
  | none => none
  | some (n, i, w) =>
    let e := s.ses n
    let bad := e.st != .open_ || pavDraining s e.owner || s.mode == .rest || (if write then !w.wr else !w.rd) || (s.caps.parity != 0 && !parityOk)
    if bad then some (refusePhase s n i w addr write)
    else match inbTarget s n (windowIpa w addr) (if write then .write else .read) with
      | (none, s1) => some (refusePhase s1 n i w addr write)
      | (some pa, s1) =>
        let c : ClassId := e.owner.setWidth 16
        let s2 := uncoreEvent s1 32 2 c
        some { s2 with arb := { s2.arb with phase := some {
          ses := n, win := BitVec.ofNat 2 i, w := w, answer := .accept, busAddr := addr, pa := BitVec.ofNat 48 pa, write := write,
          cls := c, ahead := [] } } }

/-- INBOUND_ADDRESS_PHASE (11 R345 to R347): a phase without a window is counted when no other slave answers it. The phase before it is over (11 R365 step 3). -/
def execInboundAddressPhase (space : BitVec 3) (am : BitVec 8) (addr : W64) (write parityOk answered : Bool) (s : State) : Out :=
  if answersPhases s && slvFree s then
    let old := s.arb.phase.map (·.ses)
    let ended (t : State) : State := match old with
      | some n => trySes t n
      | none => t
    match decidePhase s space am addr write parityOk with
    | some t => .next (ended t)
    | none =>
      .next (ended { s with arb := { s.arb with
        phase := none, inbNomatch := if answered then s.arb.inbNomatch else satAdd32 s.arb.inbNomatch 1 } })
  else .next s

/-- An accepted cycle of a pavilion's session begins its translation again, for a removed entry may have given it: its coming beats go where the tables now say, or are refused (07 R199, R220). -/
def rewalkPhase (s : State) (f : Pav → Bool) : State :=
  match s.arb.phase with
  | none => s
  | some ph =>
    if ph.answer = .accept && f (s.ses ph.ses).owner then
      match inbTarget s ph.ses (windowIpa ph.w ph.busAddr) (if ph.write then .write else .read) with
      | (some pa, s1) => { s1 with arb := { s1.arb with phase := some { ph with pa := BitVec.ofNat 48 pa, ahead := [] } } }
      | (none, s1) => refusePhase s1 ph.ses ph.win.toNat ph.w ph.busAddr ph.write
    else s

/-- The posted PCI Express writes of a pavilion's functions that a link still holds are performed (07 R199, R220). -/
def forceRx (s : State) (pn : Pav) : State :=
  [false, true].foldl (fun t p => (mkeys (t.port p).links).foldl (fun u l =>
    let rx := (u.link p l).rx
    let mine (x : PcieRx) : Bool := x.cls == pn.setWidth 16
    let u1 := (rx.filter mine).foldl (fun v x => x.parts.foldl (fun w q =>
      forceWrite w (pcieAgent p) x.cls q.1 q.2.2 (lineGet x.data q.2.1 q.2.2)) v) u
    u1.setLink p l { u1.link p l with rx := rx.map (fun x => if mine x then { x with parts := [] } else x) }) t) s

/-- A pavilion's stage-2 base has changed or gone: what rests on the old tables is performed or begun again, and every cached translation and region goes, as TLBI.VMID followed by SYNC.T would (07 R199; 10 R302, R305). DEVICE accesses that have left a core go on (log entry 26). -/
def purgeVmid (s : State) (pn : Pav) : State :=
  let mine := s.allCores.filter (fun v => (s.core v).arch.tr.vmid == pn)
  rewalkPhase (dropVmid (forceRx (forceInbound (mine.foldl forceStores s)) pn) pn) (· == pn)

/-- The inbound cycle past its address phase, with its window. -/
def phaseUnder (s : State) : Option (InPhase × InWin) :=
  match s.arb.phase with
  | none => none
  | some ph =>
    if ph.answer = .accept then some (ph, ph.w) else none

/-- A data phase of 1, 2, 4 or 8 bytes at an aligned address. -/
def beatOk (ph : InPhase) (size : Nat) : Bool :=
  (size == 1 || size == 2 || size == 4 || size == 8) && ph.pa.toNat % size == 0

/-- The phase after a data phase goes on to its next beat; outside the window, or where the next page refuses it, no further beat is answered (11 R346, R351). -/
def nextPhase (s : State) (ph0 : InPhase) (w : InWin) (size : Nat) (ahead : List (BitVec 48 × Line)) : State :=
  let ph := { ph0 with beats := ph0.beats + 1 }
  let addr := ph.busAddr + BitVec.ofNat 64 size
  let put (t : State) (p : InPhase) : State := { t with arb := { t.arb with phase := some p } }
  if w.busBase.toNat + 2 ^ w.logSize ≤ addr.toNat then put s { ph with answer := .none }
  else if (ph.pa.toNat + size) % 4096 = 0 then
    match inbTarget s ph.ses (windowIpa w addr) (if ph.write then .write else .read) with
    | (some pa, s1) => put s1 { ph with busAddr := addr, pa := BitVec.ofNat 48 pa, ahead := [] }
    | (none, s1) => refusePhase s1 ph.ses ph.win.toNat w addr ph.write
  else put s { ph with busAddr := addr, pa := ph.pa + BitVec.ofNat 48 size, ahead := ahead }

/-- A data phase has ended: the phase goes on, and a reset of its session that waited for it too (11 R365 step 3). -/
def advancePhase (s : State) (ph : InPhase) (w : InWin) (size : Nat) (ahead : List (BitVec 48 × Line)) : State :=
  trySes (nextPhase s ph w size ahead) ph.ses

/-- Memory as an accepted cycle reads it (11 R348, R370). -/
def phaseRead (s : State) (ph : InPhase) (n : Nat) : Option (Nat × State) := arborRead s ph.cls ph.pa.toNat n

/-- Memory as an accepted cycle writes it. -/
def phaseWrite (s : State) (ph : InPhase) (n v : Nat) : Option State := arborWrite s ph.cls ph.pa.toNat n v

/-- The lines that a block read may hold ahead of a beat: up to 256 bytes past it, within the page (11 R351). They lie within the window wherever a later beat does. -/
def aheadLines (s : State) (pa size : Nat) : List (BitVec 48 × Line) :=
  let base := pa / 64 * 64
  (((List.range 5).map (fun i => base + 64 * i)).filter (fun b => (b == base || decide (b + 64 ≤ pa + size + 256)) && b / 4096 == pa / 4096)).map
    (fun b => (BitVec.ofNat 48 b, BitVec.ofNat 512 (s.peek b 64)))

/-- INBOUND_WRITE_DATA (11 R348, R349, R352, R355): posted into the buffer or performed before the acknowledge; a write whose wait outlasts the bus timer is refused. `data`: the bytes on the bus in ascending bus address. -/
def execInboundWriteData (size : Nat) (data : W64) (parityOk timedOut : Bool) (s : State) : Out :=
  match phaseUnder s with
  | none => .next s
  | some (ph, w) =>
    if ph.write && beatOk ph size && answersPhases s then
      let v := busOrder s w.addrOrder size data.toNat
      let lost (t : State) : State :=
        let t1 := countRefusal t ph.cls
        { t1 with arb := { t1.arb with phase := some { ph with answer := .none } } }
      if s.caps.parity != 0 && !parityOk then .next (refusePhase s ph.ses ph.win.toNat w ph.busAddr true)
      else
        let s1 := drainInbound s
        if w.post && s.mode != .belvedere then
          if s1.arb.inbuf.length < 64 then
            let wr : InWrite := { ses := ph.ses, pa := ph.pa, size := size, data := BitVec.ofNat 64 v, cls := ph.cls }
            .next (advancePhase (drainInbound { s1 with arb := { s1.arb with inbuf := s1.arb.inbuf ++ [wr] } }) ph w size [])
          else .next (if timedOut then lost s1 else s1)
        else if timedOut then .next (lost s1)
        else if s1.arb.inbuf.isEmpty then
          match phaseWrite s1 ph size v with
          | some s2 => .next (advancePhase s2 ph w size [])
          | none => .next s1
        else .next s1
    else .next s

/-- INBOUND_READ_DATA (11 R349, R351, R352): the bytes that stand on the bus, in ascending bus address, are the answer; bytes read ahead with an earlier beat may be older. -/
def execInboundReadData (size : Nat) (s : State) : Out :=
  match phaseUnder s with
  | none => .next s
  | some (ph, w) =>
    if !ph.write && beatOk ph size && answersPhases s then
      let s1 := drainInbound s
      if s1.arb.inbuf.isEmpty then
        let base : BitVec 48 := BitVec.ofNat 48 (ph.pa.toNat / 64 * 64)
        let held := (ph.ahead.find? (fun x => x.1 == base)).map (·.2)
        let (f, s2) := if ph.ahead.isEmpty then (0, s1) else s1.free
        let old := match held with
          | some d => if f.getLsbD 0 then some (lineGet d (ph.pa.toNat % 64) size) else none
          | none => none
        match old with
        | some v => .next (advancePhase (s2.answer (BitVec.ofNat 64 (busOrder s w.addrOrder size v))) ph w size ph.ahead)
        | none =>
          match phaseRead s2 ph size with
          | none => .next s
          | some (v, s3) =>
            let new := aheadLines s2 ph.pa.toNat size
            let kept := if f.getLsbD 1 then ph.ahead.filter (fun x => x.1 != base) else []
            let ahead := kept ++ new.filter (fun x => !kept.any (fun y => y.1 == x.1))
            .next (advancePhase (s3.answer (BitVec.ofNat 64 (busOrder s w.addrOrder size v))) ph w size ahead)
      else .next s1
    else .next s

/-- INBOUND_RMW_CYCLE (11 R346, R350, R355): the read phase answers the old bytes, and the write phase, if it comes, replaces them, with no other access to the line between; a refusal meets its read phase (12 R391), but for a parity error in its data refuses the cycle. -/
def execInboundRmwCycle (size : Nat) (data : RmwWrite) (s : State) : Out :=
  match phaseUnder s with
  | none => .next s
  | some (ph, w) =>
    if beatOk ph size && answersPhases s then
      let s1 := drainInbound s
      if !s1.arb.inbuf.isEmpty then .next s1
      else if !w.rd || !w.wr then .next (refusePhase s1 ph.ses ph.win.toNat w ph.busAddr false)
      else match inbTarget s1 ph.ses (windowIpa w ph.busAddr) .rmw with
        | (none, s2) => .next (refusePhase s2 ph.ses ph.win.toNat w ph.busAddr false)
        | (some _, s2) =>
          match phaseRead s2 ph size with
          | none => .next s
          | some (v, s3) =>
            let s4 := s3.answer (BitVec.ofNat 64 (busOrder s w.addrOrder size v))
            match data.data with
            | none => .next (advancePhase s4 ph w size [])
            | some d =>
              if s.caps.parity != 0 && !data.parityOk then .next (refusePhase s4 ph.ses ph.win.toNat w ph.busAddr true)
              else match phaseWrite s4 ph size (busOrder s w.addrOrder size d.toNat) with
                | some s5 => .next (advancePhase s5 ph w size [])
                | none => .next s
    else .next s

/-- A level that a vector holds (11 R359). -/
def levelHeld (s : State) (l : Nat) : Bool :=
  s.arb.heldLv.any (fun h => h.1.toNat == l) || s.arb.kept.any (fun k => k.vec.level.toNat == l)

/-- The level whose request is acknowledged next: the highest asserted one in HANDLER that is not held (11 R357, R359). -/
def ackLevel (s : State) (ai : BitVec 8) : Option Nat :=
  [7, 6, 5, 4, 3, 2, 1, 0].find? (fun l => ai.getLsbD l && s.arb.roles.handler.getLsbD l && !levelHeld s l)

/-- A session's entries take interrupts: OPEN, and in BELVEDERE a safety session (11 R357, R370). -/
def takesVectors (s : State) (e : Session) : Bool := e.st == .open_ && (s.mode != .belvedere || safetyRuns s e)

/-- The width of the acknowledge read: the widest of the level's enabled entries, else D8 (11 R357). -/
def ackWidth (s : State) (l : Nat) : Nat :=
  (s.arb.ses.filter (fun p => takesVectors s p.2)).foldl
    (fun m p => p.2.imap.foldl (fun m q => if q.2.level.toNat = l then max m q.2.width.toNat else m) m) 0

/-- A vector truncated to D8, D16 or D32 (11 R357). -/
def truncVec (k : Nat) (v : W32) : W32 := BitVec.ofNat 32 (v.toNat % 2 ^ (8 * 2 ^ k))

/-- The first entry that a vector matches, by session and entry (11 R357). -/
def matchVector (s : State) (l : Nat) (v : W32) : Option (Ses × Nat × IMap) :=
  (s.arb.ses.filter (fun p => takesVectors s p.2)).findSome? (fun p =>
    (p.2.imap.find? (fun q => q.2.level.toNat == l && (truncVec q.2.width.toNat v &&& q.2.vmask) == (q.2.vmatch &&& q.2.vmask))).map
      (fun q => (BitVec.ofNat 14 p.1, q.1, q.2)))

/-- A vector that Arbor has read: pushed and posted, kept where the FIFO is full, or counted where nothing matches (11 R357, R359). -/
def takeVector (s : State) (l : Nat) (v : W32) : State :=
  match matchVector s l v with
  | none => { s with arb := { s.arb with vecNomatch := satAdd32 s.arb.vecNomatch 1 } }
  | some (n, i, m) =>
    let ent : VecEntry := { vec := truncVec m.width.toNat v, level := BitVec.ofNat 3 l, entry := BitVec.ofNat 3 i, rora := m.rora }
    if (s.ses n).vecs.length < 16 then pushVector s n ent
    else { s with arb := { s.arb with kept := s.arb.kept ++ [{ ses := n, vec := ent }] } }

/-- Arbor can run an acknowledge cycle, in ASSEMBLY too: it has the bus, or wins it from no one that its own arbiter has granted; the bus is free of its own cycles, and ARST_N is high; none in REST (11 R333, R357; 12 R389, R395; 14 R447). -/
def canAck (s : State) : Bool :=
  (s.mode == .assembly || s.mode == .service || s.mode == .belvedere) && !s.dev.porst
    && s.arb.prof.isSome && !arstLow s && s.arb.cycle.isNone && s.arb.ack.isNone
    && (s.arb.owned || s.arb.granting.isNone || s.arb.granting == some s.arb.roles.reqLevel)

/-- The vector that the cycle reads; non-bus-vectored under P-796 it is the INT number, without a cycle (12 R378, R390). -/
def readVector (s : State) (l : Nat) (v : W32) : W32 × Bool :=
  match s.arb.prof with
  | some p =>
    if p.code = 3 then if p.options.getLsbD 1 then (BitVec.ofNat 32 (7 - l), false) else (truncVec 0 v, true)
    else (truncVec (ackWidth s l) v, true)
  | none => (v, true)

/-- Arbor wins the bus for an acknowledge cycle where it does not hold it. The cycle's fields: KIND 6 and the LEVEL; under P-1014 and P-VITA1 A03 to A01 carry the level, and the lanes are those of D8(O), D16 or D32; under P-796 it is two commands of 8 bits under LOCK/ (11 R357; 12 R382, R389, R390). -/
def beginAck (s : State) (l : Nat) : State :=
  let s1 := if s.arb.owned then s else { s with arb := { s.arb with owned := true, ownedAt := s.qz.time, granting := none, yield_ := false } }
  let n := 2 ^ (if s.profCode = 3 then 0 else ackWidth s l)
  let addr : W64 := if s.vme then BitVec.ofNat 64 (2 * l) else 0
  let s2 := setField (setField s1 7 (BitVec.ofNat 32 l)) 6 (if s.profCode = 3 then 2 else 0)
  let run := s2.arb.running
  let s3 := giveCycle { s2 with arb := { s2.arb with running := false } } 6 addr (attrOf 0 0 false (2 ^ min n 4 - 1) n) 0 false
  driveLock { s3 with arb := { s3.arb with running := run } } true

/-- A P-GEN image runs: its MST runs the cycles that the engine gives it, step by step (12 R379, R381). -/
def imageRuns (s : State) : Bool := s.arb.running && (match s.arb.prof with | some p => !p.insn.isEmpty | none => false)

/-- The acknowledge cycle is over. -/
def endAck (s : State) : State :=
  let s1 := driveLock s false
  afterCycle { s1 with arb := { s1.arb with ack := none } }

/-- INTERRUPT_ACKNOWLEDGE_CYCLE (11 R357; 12 R381, R390). `ai`: the lines asserted. A shipped profile's MST runs the whole cycle, in which `vector` is what the interrupter drives; a P-GEN image's begins it, and gives the vector with event VECTOR. -/
def execInterruptAcknowledgeCycle (ai : BitVec 8) (vector : W32) (s : State) : Out :=
  let s0 := { s with arb := { s.arb with ai := ai } }
  if canAck s then
    match ackLevel s ai with
    | none => .next s0
    | some l =>
      let (v, cyc) := readVector s l vector
      if !cyc then .next (takeVector s0 l v)
      else
        let s1 := uncoreEvent (beginAck s0 l) 32 6 noClass
        .next (if imageRuns s then raiseEvent { s1 with arb := { s1.arb with ack := some (BitVec.ofNat 3 l) } } 0
          else endAck (takeVector s1 l v))
  else .next s

/-- ACK_CYCLE_TIMEOUT (11 R363): the acknowledge cycle under way, else that of the level that is due, is ended after 1,024 µs by releasing its strobes and counted, and its level stays free. -/
def execAckCycleTimeout (ai : BitVec 8) (s : State) : Out :=
  let s0 := { s with arb := { s.arb with ai := ai } }
  let done (t : State) : State := endAck (restartMst { t with arb := { t.arb with vecNomatch := satAdd32 t.arb.vecNomatch 1 } })
  if s.arb.ack.isSome then .next (done s0)
  else if canAck s then
    match ackLevel s ai with
    | none => .next s0
    | some l => .next (done (uncoreEvent (beginAck s0 l) 32 6 noClass))
  else .next s

/-- IACK_CHAIN_PASS (12 R390): IACKOUT* is low while IACKIN* and AS* are both low, and released otherwise. -/
def execIackChainPass (iackIn as_ : Bool) (s : State) : Out :=
  let d := mget s.arb.drive 7 {}
  let d1 : Drive := if !iackIn && !as_ then { en := d.en ||| 2, val := d.val &&& ~~~ 2#32 } else { d with en := d.en &&& ~~~ 2#32 }
  whenTrue (s.vme && s.arb.running && !s.dev.porst) s { s with arb := { s.arb with drive := mput s.arb.drive 7 d1 } }

end Sys2Proof.Machine
end

