-- ==== Sys2Proof/Machine/FollyFmt.lean ====
section
/-! DEFINITION. Folly images: courses, micro-ops and the format rules (06 R169 to R177, R195). -/

namespace Sys2Proof.Machine

/-- A little-endian field of some bytes. -/
def leField (l : List Byte) (off n : Nat) : Nat := ((l.drop off).take n).foldr (fun b a => b.toNat + 256 * a) 0

/-- One byte of CRC-32 with the polynomial of IEEE 802.3 (06 R195, 12 R399). -/
def crcByte (c : W32) (b : Byte) : W32 :=
  let step (x : W32) : W32 := if x.getLsbD 0 then (x >>> 1) ^^^ 0xEDB88320 else x >>> 1
  step (step (step (step (step (step (step (step (c ^^^ b.setWidth 32))))))))

/-- CRC-32 of some bytes. -/
def crc32 (l : List Byte) : W32 := ~~~ (l.foldl crcByte 0xFFFFFFFF)

/-- A micro-op (06 R171). -/
structure Uop where
  uop : Nat
  v : Bool
  dst : Nat
  srca : Nat
  srcb : Nat
  srcc : Nat
  ticket : Nat
  rm : BitVec 3
  sf : Bool
  res : Bool
  shift : Nat
  imm : BitVec 16
  deriving DecidableEq, Repr

/-- The fields of a micro-op word (06 R171). -/
def uopOf (w : W64) : Uop where
  uop := (w.extractLsb' 0 8).toNat
  v := w.getLsbD 8
  dst := (w.extractLsb' 9 7).toNat
  srca := (w.extractLsb' 16 7).toNat
  srcb := (w.extractLsb' 23 7).toNat
  srcc := (w.extractLsb' 30 7).toNat
  ticket := (w.extractLsb' 37 4).toNat
  rm := w.extractLsb' 41 3
  sf := w.getLsbD 44
  res := w.getLsbD 45
  shift := (w.extractLsb' 46 2).toNat
  imm := w.extractLsb' 48 16

/-- A course: its header and the words of its six slots, M0 to F1, and its trailer (06 R169, R170). -/
structure Course where
  hdr : W64
  slots : List W64
  trl : W64
  deriving DecidableEq, Repr

/-- Fields of a course header (06 R170). -/
def crAwait (c : Course) : BitVec 16 := c.hdr.extractLsb' 0 16
def crLast (c : Course) : Bool := c.hdr.getLsbD 23
def crSpec (c : Course) : Nat := (c.hdr.extractLsb' 17 6).toNat

/-- Course k of an image (06 R195). -/
def courseAt (l : List Byte) (k : Nat) : Course :=
  let w (i : Nat) : W64 := BitVec.ofNat 64 (leField l (64 + 64 * k + 8 * i) 8)
  { hdr := w 0, slots := [w 1, w 2, w 3, w 4, w 5, w 6], trl := w 7 }

/-- The courses of an image. -/
def coursesOf (l : List Byte) : List Course := (List.range (leField l 6 1)).map (courseAt l)

/-- The operation of a micro-op (06 R174). -/
inductive UopFn where
  | alu (fn : AluFn)
  | shi (fn : ShFn)
  | alu2 (fn : Alu2Fn)
  | un (fn : UnFn)
  | muldiv (fn : MdFn)
  | load (fn : LdFn)
  | store (fn : StFn)
  | fp (dbl : Bool) (fn : FpFn)
  | fma (dbl : Bool) (v : BitVec 2)
  | mbr
  | mj
  deriving DecidableEq, Repr

/-- The operation of a UOP code; none: reserved (06 R174). -/
def uopFn (u : Nat) : Option UopFn :=
  let k : BitVec 4 := BitVec.ofNat 4 u
  if u < 0x10 then
    match aluOf k with
    | some f => some (.alu f)
    | none => (shOf k).map .shi
  else if u < 0x20 then
    match alu2Of k with
    | some f => some (.alu2 f)
    | none => (unOf k).map .un
  else if u < 0x28 then (mdOf k).map .muldiv
  else if 0x40 ≤ u ∧ u < 0x50 then
    match ldxOf k with
    | some f => some (.load f)
    | none => (stxOf k).map .store
  else if 0x80 ≤ u ∧ u < 0xC0 then (fpOf (BitVec.ofNat 6 (u % 32))).map (.fp (u / 32 % 2 == 1))
  else if (0xC0 ≤ u ∧ u < 0xC4) ∨ (0xD0 ≤ u ∧ u < 0xD4) then some (.fma (u / 16 % 2 == 1) (BitVec.ofNat 2 u))
  else if u = 0xE0 then some .mbr
  else if u = 0xE1 then some .mj
  else none

/-- The slots, M0 to F1, in which an operation may stand (06 R174). -/
def slotOk (f : UopFn) (slot : Nat) : Bool :=
  match f with
  | .load _ | .store _ => decide (slot < 2)
  | .fp .. | .fma .. => decide (4 ≤ slot)
  | .mbr | .mj => slot == 3
  | _ => slot == 2 || slot == 3

/-- An assigned specifier (06 R172); a destination is no immediate. -/
def specOk (x : Nat) : Bool := decide (x ≤ 0x4A) || decide (0x4C ≤ x ∧ x ≤ 0x4E) || x == 0x50 || x == 0x51 || x == 0x53 || x == 0x54
/-- A destination specifier (06 R172). -/
def dstOk (x : Nat) : Bool := specOk x && decide (x < 0x50)
/-- A specifier of a g register or of a temporary. -/
def specG (x : Nat) : Bool := decide (x < 0x20) || decide (0x40 ≤ x ∧ x ≤ 0x4A)
/-- A specifier of an f register or of a temporary. -/
def specF (x : Nat) : Bool := decide (0x20 ≤ x ∧ x < 0x48) || decide (0x4C ≤ x ∧ x ≤ 0x4E)

/-- Which of DST, SRCA, SRCB and SRCC an operation uses (06 R171, R174 to R176). -/
def usesSpecs : UopFn → Bool × Bool × Bool × Bool
  | .alu _ | .alu2 _ | .muldiv _ | .load _ => (true, true, true, false)
  | .shi _ | .un _ => (true, true, false, false)
  | .store _ => (false, true, true, true)
  | .fp _ fn => (true, true, !fpUnary fn, false)
  | .fma .. => (true, true, true, true)
  | .mbr => (false, true, true, false)
  | .mj => (false, false, false, false)

/-- Reason 0x07: the specifiers (06 R174, R177). -/
def specsOk (f : UopFn) (u : Uop) : Bool :=
  let (d, a, b, c) := usesSpecs f
  (if d then dstOk u.dst else u.dst == 0) && (if a then specOk u.srca else u.srca == 0)
    && (if b then specOk u.srcb else u.srcb == 0) && (if c then specOk u.srcc else u.srcc == 0)
    && (match f with
      | .load fn => if fn == .flds || fn == .fldd then specF u.dst else specG u.dst
      | _ => true)

/-- A long operation carries a ticket (06 R174). -/
def uopLong : UopFn → Bool
  | .muldiv _ | .load _ | .fp .. | .fma .. => true
  | _ => false

/-- Reason 0x0A: RM, S and TICKET (06 R177; 03 R82, R92, R93). The table names no reason for a nonzero RM of a micro-op that is neither FP nor MBR: DESIGN CHOICE, this one (log entry 33). -/
def modesOk (f : UopFn) (u : Uop) : Bool :=
  let rm := match f with
    | .fp _ fn => if fpExact fn then u.rm == 0 else u.rm != 5 && u.rm != 6
    | .mbr => true
    | _ => u.rm == 0
  let sf := match f with
    | .alu _ | .shi _ | .alu2 _ | .un _ | .muldiv _ => true
    | .fp _ fn => !u.sf || fpCompare fn
    | _ => !u.sf
  rm && sf && (uopLong f || u.ticket == 0)

/-- Reason 0x08: the target of a micro-branch of course k of n (06 R176). -/
def targetOk (f : UopFn) (u : Uop) (k n : Nat) : Bool :=
  if f = .mbr ∨ f = .mj then decide (u.imm.toNat < 64 ∧ k < u.imm.toNat ∧ u.imm.toNat ≤ n) else true

/-- The rule from 0x05 on that a slot breaks, by reason (06 R177). The table names no reason for a slot with V = 0 that is not zero (R171): DESIGN CHOICE, reason 0x09 (log entry 33). -/
def slotBad (w : W64) (k n slot reason : Nat) : Bool :=
  let u := uopOf w
  if !u.v then reason == 9 && w != 0
  else match uopFn u.uop with
    | none => reason == 6
    | some f =>
      match reason with
      | 5 => !slotOk f slot
      | 7 => !specsOk f u
      | 8 => !targetOk f u k n
      | 9 => u.res
      | 10 => !modesOk f u
      | _ => false

/-- The header's part of reason 0x09: COMMIT, SPEC, reserved bits, the trailer (06 R170, R177). -/
def headerBad (c : Course) : Bool :=
  c.hdr.getLsbD 16 || decide (32 < crSpec c) || c.hdr.extractLsb' 24 40 != 0 || c.trl != 0

/-- The first slot of a course that breaks a rule. -/
def firstSlot (k n reason : Nat) : List W64 → Nat → Option Nat
  | [], _ => none
  | w :: t, i => if slotBad w k n i reason then some i else firstSlot k n reason t (i + 1)

/-- The first course and slot that break a rule. A fault of the header or the trailer stands in no slot: DESIGN CHOICE, the slot field is 0 (log entry 33). -/
def firstCourse (n reason : Nat) : List Course → Nat → Option (Nat × Nat)
  | [], _ => none
  | c :: t, k =>
    if reason = 9 ∧ headerBad c = true then some (k, 0)
    else match firstSlot k n reason c.slots 0 with
      | some i => some (k, i)
      | none => firstCourse n reason t (k + 1)

/-- The place of the 49th micro-op (06 R177, reason 0x04). -/
def overCount : List Course → Nat → Nat → Option (Nat × Nat)
  | [], _, _ => none
  | c :: t, k, seen =>
    let vs := (List.range 6).filter (fun i => ((c.slots[i]?).getD 0).getLsbD 8)
    if 48 < seen + vs.length then some (k, (vs[48 - seen]?).getD 0) else overCount t (k + 1) (seen + vs.length)

/-- LAST stands on the last course only (06 R177, reason 0x03); the first course at fault. DESIGN CHOICE: the slot field of this reason is 0, and both fields are 0 where the count is at fault (log entry 33). -/
def lastBad : List Course → Nat → Option Nat
  | [], _ => none
  | [c], k => if crLast c then none else some k
  | c :: t, k => if crLast c then some k else lastBad t (k + 1)

/-- The first of some reasons that an image breaks, with course and slot. -/
def firstReason (cs : List Course) : List Nat → Option (Nat × Nat × Nat)
  | [] => none
  | r :: t => match firstCourse cs.length r cs 0 with
    | some (k, i) => some (r, k, i)
    | none => firstReason cs t

/-- Why an image is refused: the lowest reason it breaks, with the first course and slot at fault (06 R177, R195). The table names no reason for a nonzero byte among bytes 20 to 63 of the header: DESIGN CHOICE, reason 0x01 (log entry 33). -/
def follyRefused (l : List Byte) : Option (Nat × Nat × Nat) :=
  let n := leField l 6 1
  let cs := coursesOf l
  if leField l 0 4 ≠ 0x594C4F46 ∨ leField l 4 2 ≠ 1 ∨ l.length ≠ 64 + 64 * n ∨ leField l 20 44 ≠ 0 then some (1, 0, 0)
  else if crc32 (l.drop 64) ≠ BitVec.ofNat 32 (leField l 16 4) then some (2, 0, 0)
  else if n < 1 ∨ 32 < n then some (3, 0, 0)
  else match lastBad cs 0 with
    | some k => some (3, k, 0)
    | none => match overCount cs 0 0 with
      | some (k, i) => some (4, k, i)
      | none => firstReason cs [5, 6, 7, 8, 9, 10]

end Sys2Proof.Machine
end

