-- ==== Sys2Proof/Machine/PavSteps.lean ====
section
/-! DEFINITION. The steps of PAV_STOP and PAV_RESET that wait for the hypervisor (10 R325, R328). -/

namespace Sys2Proof.Machine

/-- No core has a vCPU of the pavilion loaded, and none runs at U or S in its context (10 R325 step 1). -/
def pavExited (s : State) (pn : Pav) : Bool :=
  s.allCores.all (fun v =>
    let a := (s.core v).arch
    a.tr.vmid != pn || (!a.run && a.level == .h))

/-- The stores that the pavilion's vCPUs may have left behind have drained (10 R325 step 2). -/
def pavDrained (s : State) (pn : Pav) : Bool :=
  s.allCores.all (fun v => (s.core v).arch.tr.vmid != pn || (s.core v).sb.isEmpty)

/-- Step 3 of a pavilion reset begins: every owned session is reset and every owned function receives FLR (10 R325; 10 R331). -/
def pavUnits (s : State) (pn : Pav) : State :=
  let s1 := (ownedSes s pn).foldl (fun t n => if (t.ses n).wait.isSome then t else resetSession t n false false none 0) s
  let (s2, bad) := (ownedFns s1 pn).foldl (fun (r : State × Bool) f =>
    if f.2.2.flr.isSome then r
    else
      let (t, b) := startFlr r.1 f.1 (f.2.1 / 65536) (f.2.1 % 65536) (none, 0)
      (t, r.2 || b)) (s1, false)
  let p := s2.pav pn
  tryPav (s2.setPav pn { p with wait := p.wait.map (fun w => { w with noFlr := w.noFlr || bad }) }) pn

/-- Step 2 begins: the outbound cycles queued at owned sessions are squashed; the model sends every PCI Express request at once, so none is unsent (10 R325). -/
def pavSquash (s : State) (pn : Pav) : State :=
  let p := s.pav pn
  let s1 := s.setPav pn { p with wait := p.wait.map (fun w => { w with step := 2 }) }
  (ownedSes s1 pn).foldl (fun t n => admitWaiting (squashQueue t n .squashed (headBegun t n) false).1) s1

/-- The PAV_STOPs of a pavilion whose vCPUs have left are answered (10 R325 step 1, R328). -/
def answerStops (s : State) (pn : Pav) : State :=
  let p := s.pav pn
  if p.stops.isEmpty then s
  else p.stops.foldl (fun t l => replyDone t l 0 t.qz.time 0) (s.setPav pn { p with stops := [] })

/-- A pavilion reset past step 1 goes on once the stores have drained (10 R325). -/
def resumeReset (s : State) (pn : Pav) : State :=
  let p := s.pav pn
  match p.wait with
  | none => s
  | some w =>
    if w.step = 2 ∧ pavDrained s pn = true then pavUnits (s.setPav pn { p with wait := some { w with step := 3 } }) pn else s

/-- No guest instruction of the pavilion executes any more: what its vCPUs have executed and not committed is undone, so that each core stands at an instruction boundary, where it takes the stop interrupt (10 R309, R325 step 1). -/
def recallGuests (s : State) (pn : Pav) : State :=
  s.allCores.foldl (fun t v =>
    let c := t.core v
    if c.arch.tr.vmid == pn && c.arch.level != .h && uncommitted c then rollbackCore t v else t) s

/-- A PAV_STOP or PAV_RESET of a pavilion goes on where its wait is over (10 R325, R328). -/
def advancePav (s : State) (pn : Pav) : State :=
  let s1 := if pavExited s pn then answerStops s pn else s
  match (s1.pav pn).wait with
  | none => s1
  | some w => resumeReset (if w.step = 1 ∧ pavExited s1 pn = true then pavSquash s1 pn else s1) pn

/-- The same for every pavilion. -/
def advancePavs (s : State) : State :=
  ((s.pavs.filter (fun p => p.2.wait.isSome || !p.2.stops.isEmpty)).map (fun p => BitVec.ofNat 8 p.1)).foldl advancePav s

end Sys2Proof.Machine
end

