-- ==== Sys2Proof/Machine/Funnel.lean ====
section
/-! DEFINITION. The trace funnel: arrivals, the sink, flush, start and stop (17 R518, R522 to R525). -/

namespace Sys2Proof.Machine

/-- The fabric agent of the funnel (08 R232). -/
def funnelAgent : Agent := 29

/-- Bytes of the funnel's buffer: 256 KiB (17 R524). -/
def funnelBytes : Nat := 262144

/-- The funnel accepts a packet of a class at an occupancy (17 R524). -/
def funnelAccepts (cls occ len : Nat) : Bool :=
  match cls with
  | 3 => decide (occ < funnelBytes / 2)
  | 2 => decide (4 * occ < 3 * funnelBytes)
  | 1 => decide (10 * occ < 9 * funnelBytes)
  | _ => decide (occ + len ≤ funnelBytes - 4096)

/-- The packet is a SYNC (17 R518). -/
def isSync : List Byte → Bool
  | b :: _ => b.extractLsb' 4 4 == 1#4
  | [] => false

/-- A LOST packet that names a source (17 R518, R525). -/
def lostBytes (vc : Vc) (n : Nat) (cls : BitVec 2) : List Byte := [0x70#8, vc.setWidth 8] ++ leBytes n 4 ++ [cls.setWidth 8]

/-- Packets of a source that stand behind a dropped one and before its next SYNC: none can be accepted (17 R520). -/
def gapPackets (src : BitVec 7) : List (BitVec 7 × List Byte) → Nat × List (BitVec 7 × List Byte)
  | [] => (0, [])
  | p :: t =>
    if p.1 = src then
      if isSync p.2 then (0, p :: t)
      else
        let (n, r) := gapPackets src t
        (n + 1, r)
    else
      let (n, r) := gapPackets src t
      (n, p :: r)

/-- Counts n dropped packets of a source. -/
def dropMany (vc : Vc) : Nat → State → State
  | 0, s => s
  | n + 1, s => dropPacket (dropMany vc n s) vc

/-- TRACE_PACKET_ARRIVAL (17 R524, R525): the oldest packet reaches the funnel, which accepts it whole or drops it whole; a LOST stands before an accepted SYNC of a source with a gap. -/
def execTracePacketArrival (s : State) : Out :=
  match s.funnel.out with
  | [] => .next s
  | (src, bs) :: rest =>
    let vc : Vc := src.setWidth 6
    let f := s.funnel
    if funnelAccepts (traceClass s vc).toNat f.buf.length bs.length then
      let c := s.core vc
      if isSync bs && c.trc.gap != 0 then
        let s1 := s.setCore vc { c with trc := { c.trc with gap := 0 } }
        .next { s1 with funnel := { f with buf := f.buf ++ lostBytes vc c.trc.gap c.trc.gapClass ++ bs, out := rest } }
      else .next { s with funnel := { f with buf := f.buf ++ bs, out := rest } }
    else
      let (n, rest') := gapPackets src rest
      .next (dropMany vc (n + 1) { s with funnel := { f with out := rest' } })

/-- The RATE in force: lines per epoch (17 R522). -/
def funnelRate (f : Funnel) : Nat := if f.rate = 0 then 4000 else f.rate

/-- The next line would reach TF_RPTR of a ring that stops there (17 R523). -/
def ringFull (f : Funnel) : Bool :=
  f.full && !f.pcie && (f.wptr.toNat + 64) % 2 ^ f.ringK == f.rptr.toNat % 2 ^ f.ringK

/-- A line goes to the sink: the DRAM ring as the device class, or a posted PCI Express write (17 R523). -/
def sinkLine (s : State) (d : Line) : State :=
  let f := s.funnel
  let pa := f.base + f.wptr.toNat % 2 ^ f.ringK
  if f.pcie then
    let p := (pa / 2 ^ 39) % 2 == 1
    let w := 2 ^ 39 / linkCount (s.port p).bifur
    let l := pa % 2 ^ 39 / w
    if linkLive (s.link p l) then sendPosted s p l (BitVec.ofNat 64 (pa % 2 ^ 39 % w)) d 64 devClass else postedError s p l
  else forceWrite s funnelAgent devClass pa 64 d.toNat

/-- Nothing is left to write: a stopping funnel has drained, a flush is done (17 R522). -/
def funnelIdle (s : State) : State :=
  let f := s.funnel
  if f.buf.isEmpty && f.out.isEmpty then
    { s with funnel := { f with flush := false, draining := false, drained := f.drained || f.draining } }
  else s

/-- TRACE_SINK_WRITE (17 R522, R523): one line within RATE; a draining or flushing funnel pads its partial line with PAD. -/
def execTraceSinkWrite (s : State) : Out :=
  let f := s.funnel
  let part := (f.draining || f.flush) && f.out.isEmpty
  if f.on || f.draining then
    if decide (funnelRate f ≤ f.used) then .next s
    else if decide (64 ≤ f.buf.length) || (part && !f.buf.isEmpty) then
      if ringFull f then .next { s with funnel := { f with stopped := true } }
      else
        let d : Line := BitVec.ofNat 512 (leNat (f.buf.take 64))
        let s1 := uncoreEvent (sinkLine s d) 35 1 devClass
        let f1 := s1.funnel
        .next (funnelIdle { s1 with funnel := { f1 with
          buf := f1.buf.drop 64, used := f1.used + 1, wptr := BitVec.ofNat 64 ((f1.wptr.toNat + 64) % 2 ^ f1.ringK) } })
    else .next (if part then funnelIdle s else s)
  else .next s

/-- A half of a 64-bit register is replaced. -/
def putHalf64 (r : W64) (high : Bool) (v : W32) : W64 :=
  if high then v ++ r.extractLsb' 0 32 else r.extractLsb' 32 32 ++ v

/-- TF_RPTR_WRITE (17 R523): the offset is 64-byte aligned; a ring that has stopped resumes where the pointer has moved. -/
def execTfRptrWrite (high : Bool) (v : W32) (s : State) : Out :=
  let f := s.funnel
  let r := putHalf64 f.rptr high v &&& ~~~ 0x3F#64
  .next { s with funnel := { f with rptr := r, stopped := f.stopped && ringFull { f with rptr := r } } }

/-- Every encoder emits the outcome bits that it holds (17 R522, TF_FLUSH). -/
def flushEncoders (s : State) : State := s.allCores.foldl (fun t v => emitHeld t v (t.core v).arch) s

/-- TF_FLUSH (17): encoders emit the outcome bits held, and the funnel writes its partial line. -/
def execTfFlush (v : W32) (s : State) : Out :=
  if v.getLsbD 0 && s.funnel.on then
    let s1 := flushEncoders s
    .next (funnelIdle { s1 with funnel := { s1.funnel with flush := true } })
  else .next s

/-- The commit of TRACE_CONFIG: a change of EN starts or stops the funnel (17 R522). -/
def applyTrace (s : State) (on pcie : Bool) (ringK : Nat) (full : Bool) (tsk synck rate base : Nat) (classes : BitVec 128) : State :=
  let stop := s.funnel.on && !on
  let start := !s.funnel.on && on
  let s1 := if stop then flushEncoders s else s
  let f := s1.funnel
  if stop then
    funnelIdle { s1 with
      cores := s1.cores.map (fun p => (p.1, { p.2 with trc := { p.2.trc with active := false } }))
      funnel := { f with on := false, draining := true, drained := false } }
  else if start then
    { s1 with funnel := { f with
        on := true, pcie := pcie, ringK := ringK, full := full, tsk := tsk, synck := synck, rate := rate, base := base,
        classes := classes, drained := false, draining := false, stopped := false } }
  else if on then
    { s1 with funnel := { f with
        pcie := pcie, ringK := ringK, full := full, tsk := tsk, synck := synck, rate := rate, base := base, classes := classes } }
  else s1

end Sys2Proof.Machine
end

