-- ==== Sys2Proof/Machine/Lanes.lean ====
section
/-! DEFINITION. Lane pages: the registers of a lane, the command ring, the mailbox, the junction temperatures (13 R402 to R413; 18 R538; 19 R563). -/

namespace Sys2Proof.Machine

/-- BUSY of a lane's mailbox: a command is executing, or the Gatehouse does not serve the lane yet (13, MB_STAT). -/
def laneBusy (l : Lane) : Bool := l.busy || l.cur.isSome

/-- RING_ON: the ring is served; a ring that has been turned off, until its command under way has its reply (13 R405). -/
def ringOn (l : Lane) : Bool := l.ringEn || (l.cur.isSome && l.curRing)

/-- The bytes of a packet that count: LENGTH × 16 of them, or the header alone where LENGTH is 0 or above 16 (13 R406, R413). -/
def trimPacket (p : Packet) : Packet :=
  let n := pkLength p
  BitVec.ofNat 2048 (p.toNat % 2 ^ (128 * (if 1 ≤ n ∧ n ≤ 16 then n else 1)))

/-- The opcodes of the opcode table (13 R416). -/
def assignedOp (op : Nat) : Bool :=
  [0x0101, 0x0102, 0x0103, 0x0104, 0x0105, 0x0201, 0x0202, 0x0203, 0x0204, 0x0205, 0x0206, 0x0207, 0x0301, 0x0302, 0x0303,
   0x0304, 0x0305, 0x0401, 0x0402, 0x0403, 0x0404, 0x0405, 0x0406, 0x0501, 0x0502, 0x0503, 0x0504, 0x0601, 0x0602, 0x0701,
   0x0702, 0x0703, 0x0704, 0x0801, 0x0802, 0x0803, 0x0901, 0x0902, 0x0903, 0x0904, 0x0A01, 0x0A02, 0x0B01, 0x0B02, 0x0C01,
   0x0C02].contains op

/-- A command is presented; a packet that equals one of the lane's 64 completed last is answered with its stored reply, and an unassigned opcode with BAD_OPCODE (13 R404, R415, R429). -/
def presentCmd (s : State) (n : LaneNo) (p : Packet) (ring : Bool) : State :=
  let l := s.lane n
  let q := trimPacket p
  let s1 := s.setLane n { l with cur := some q, curRing := ring, begun := false }
  match l.recent.find? (fun r => r.1 == q) with
  | some r => finishCmd s1 n r.2 false
  | none => if assignedOp (pkOpcode q) then s1 else reply s1 n 0x10 0 0 0

/-- The Gatehouse serves a lane: lane 0 in every mode once its firmware runs, the others in SERVICE and REPAIR; none after DEVICE_RESET or while it restarts (13 R412, R417, R418, R430). -/
def laneServed (s : State) (n : LaneNo) : Bool :=
  !s.dev.porst && !s.gate.restart && s.gate.resetAt.isNone && !s.therm.trip
    && (n == 0 || s.mode == .service || s.mode == .repair)

/-- A log record of an event that is no fault (15 R568). -/
def logEventOnly (s : State) (cls : BitVec 8) (index detail : Nat) (addr : W64) : State :=
  logEvent s { cls := cls, action := 0x10, ukind := 0x09, uindex := index, addr := addr, detail := some detail }

/-- The Gatehouse stops a ring (13 R408; 15 R568). -/
def stopRing (s : State) (n : LaneNo) (cause : Nat) (base : W64) : State :=
  let l := s.lane n
  logEventOnly (s.setLane n { l with ringEn := false, ringErr := true }) 0x30 n.toNat cause base

/-- Bytes of a ring (13 R405). -/
def ringBytes (l : Lane) : Nat := 256 * 2 ^ l.size.toNat

/-- A ring may lie there: usable DRAM below the tags, outside the keep region and every range of a pavilion (13 R408). -/
def ringPlaceOk (s : State) (base len : Nat) : Bool :=
  inDram s.dram (base + len - 1)
    && (match s.fab.spine.keep with | some (b, k) => decide (base + len ≤ b.toNat ∨ b.toNat + k ≤ base) | none => true)
    && s.gate.ranges.all (fun r => decide (256 ≤ r.owner.toNat) || decide (base + len ≤ r.base ∨ r.base + r.len ≤ base))

/-- Stops a ring that breaks a condition of R408: an index overrun, or a ring in memory that is not permitted. -/
def checkRing (s : State) (n : LaneNo) : State :=
  let l := s.lane n
  if !l.ringEn then s
  else if decide (2 ^ l.size.toNat < (l.crTail - l.crHead).toNat) then stopRing s n 1 l.crBase
  else if !ringPlaceOk s l.crBase.toNat (ringBytes l) then stopRing s n 2 l.crBase
  else if !ringPlaceOk s l.rrBase.toNat (ringBytes l) then stopRing s n 2 l.rrBase
  else s

/-- A write of CR_TAIL, the doorbell of the ring (13 R405, R408). -/
def writeCrTail (s : State) (n : LaneNo) (v : W32) : State :=
  let l := s.lane n
  checkRing (s.setLane n { l with crTail := v }) n

/-- A write of LN_CTL: RING_EN rising clears the indices and RING_ERR; lane 0 has no ring (13 R405, R408). -/
def writeLaneCtl (s : State) (n : LaneNo) (v : W32) : State :=
  let l := s.lane n
  let en := v.getLsbD 0 && n != 0
  let l1 := { l with ringEn := en, postEn := v.getLsbD 1, ringErr := if en then false else l.ringErr }
  let l2 := if en && !l.ringEn then { l1 with crTail := 0, crHead := 0, rrTail := 0, rrHead := 0 } else l1
  checkRing (s.setLane n l2) n

/-- The doorbell of the mailbox (13 R410, R412, R430). -/
def writeDoorbell (s : State) (n : LaneNo) (v : W32) : State :=
  let l := s.lane n
  if !v.getLsbD 0 then s
  else if laneBusy l || l.ringEn then s.setLane n { l with overrun := true }
  else if s.gate.restart then s.setLane n { l with held := true }
  else if !laneServed s n then s.setLane n { l with overrun := true }
  else
    let s1 := s.setLane n { l with
      busy := true, ready := false, mbRpl := mkReply 1 (pkTag l.mbCmd) 0 0 0 }
    presentCmd s1 n l.mbCmd false

/-- A word of a 256-byte packet. -/
def pkWord (p : Packet) (i : Nat) : W32 := p.extractLsb' (32 * i) 32

/-- A packet with one word replaced. -/
def setPkWord (p : Packet) (i : Nat) (v : W32) : Packet :=
  (p &&& ~~~ ((0xFFFFFFFF#2048) <<< (32 * i))) ||| (v.setWidth 2048 <<< (32 * i))

/-- The highest reading of the sensors that have reported; zero while none has (19 R563). -/
def tjMax (t : Thermal) : BitVec 16 :=
  match t.temp with
  | [] => 0
  | p :: r => r.foldl (fun a q => if a.toInt < q.2.toInt then q.2 else a) p.2

/-- A read of TJ_PEAK (19 R563). -/
def readPeak (s : State) : W32 × State :=
  let v : W32 := match s.therm.peak with
    | some p => p.setWidth 32 ||| 0x10000#32
    | none => 0
  (v, { s with therm := { s.therm with peak := none } })

/-- A bit as a word. -/
def bit32 (b : Bool) : W32 := (BitVec.ofBool b).setWidth 32

/-- A read of MB_STAT; on lane 0 it ends MGMT_ALERT_N (13 R410; 18 R538). -/
def readMbStat (s : State) (n : LaneNo) : W32 × State :=
  let l := s.lane n
  (bit32 (laneBusy l || s.gate.restart) ||| (bit32 l.ready <<< 1) ||| (bit32 l.overrun <<< 2),
    if n = 0 then { s with mgmt := { s.mgmt with alert := false } } else s)

/-- A 32-bit read of a lane page (13, section "Lane page"; 19 R563). -/
def laneRead (s : State) (n : LaneNo) (off : Nat) : W32 × State :=
  let l := s.lane n
  if off = 0x000 then (n.setWidth 32, s)
  else if off = 0x004 then (l.rights.setWidth 32, s)
  else if off = 0x008 then (bit32 l.ringEn ||| (bit32 l.postEn <<< 1), s)
  else if off = 0x00C then
    (bit32 (ringOn l) ||| (bit32 l.ringErr <<< 1) ||| (bit32 s.gate.restart <<< 2) ||| (bit32 l.cur.isNone <<< 3), s)
  else if off = 0x010 then (l.crBase.setWidth 32, s)
  else if off = 0x014 then (l.crBase.extractLsb' 32 32, s)
  else if off = 0x018 then (l.rrBase.setWidth 32, s)
  else if off = 0x01C then (l.rrBase.extractLsb' 32 32, s)
  else if off = 0x020 then (l.size.setWidth 32, s)
  else if off = 0x024 then (l.crTail, s)
  else if off = 0x028 then (l.crHead, s)
  else if off = 0x02C then (l.rrTail, s)
  else if off = 0x030 then (l.rrHead, s)
  else if off = 0x038 then readMbStat s n
  else if off = 0x040 then
    ((tjMax s.therm).setWidth 32 ||| (bit32 (s.therm.temp.length == 20) <<< 16) ||| (bit32 s.therm.alert <<< 17), s)
  else if off = 0x044 then readPeak s
  else if 0x050 ≤ off ∧ off < 0x0A0 ∧ off % 4 = 0 then ((mget s.therm.temp ((off - 0x050) / 4) 0).setWidth 32, s)
  else if 0x100 ≤ off ∧ off < 0x200 ∧ off % 4 = 0 then (pkWord l.mbCmd ((off - 0x100) / 4), s)
  else if 0x200 ≤ off ∧ off < 0x300 ∧ off % 4 = 0 then (pkWord l.mbRpl ((off - 0x200) / 4), s)
  else (0, s)

/-- A 32-bit write of a lane page (13, section "Lane page", R405, R411). -/
def laneWrite (s : State) (n : LaneNo) (off : Nat) (v : W32) : State :=
  let l := s.lane n
  let low (old : W64) : W64 := putHalf64 old false (v &&& ~~~ 0xFFF#32)
  let high (old : W64) : W64 := putHalf64 old true (v &&& 0xFFFF#32)
  if off = 0x008 then writeLaneCtl s n v
  else if off = 0x010 then if l.ringEn then s else s.setLane n { l with crBase := low l.crBase }
  else if off = 0x014 then if l.ringEn then s else s.setLane n { l with crBase := high l.crBase }
  else if off = 0x018 then if l.ringEn then s else s.setLane n { l with rrBase := low l.rrBase }
  else if off = 0x01C then if l.ringEn then s else s.setLane n { l with rrBase := high l.rrBase }
  else if off = 0x020 then
    let k : BitVec 4 := v.setWidth 4
    if l.ringEn || decide (k.toNat < 2) || decide (12 < k.toNat) then s else s.setLane n { l with size := k }
  else if off = 0x024 then writeCrTail s n v
  else if off = 0x030 then s.setLane n { l with rrHead := v }
  else if off = 0x034 then writeDoorbell s n v
  else if off = 0x038 then s.setLane n { l with overrun := l.overrun && !v.getLsbD 2 }
  else if 0x100 ≤ off ∧ off < 0x200 ∧ off % 4 = 0 then
    if laneBusy l || s.gate.restart then s else s.setLane n { l with mbCmd := setPkWord l.mbCmd ((off - 0x100) / 4) v }
  else s

/-- A core's lane: lanes 1 to 63; the lane 0 page reads zero and changes nothing (13 R402). -/
def coreLane (s : State) (n : LaneNo) : Bool := n != 0 && s.mode == .service

/-- Lanes 1 to 63 are served: in SERVICE, and in REPAIR, where most commands complete with WRONG_MODE (13 R417). -/
def lanesServed (s : State) : Bool := s.mode == .service || s.mode == .repair

/-- The lane page takes the access: lane 0 through the management transports in any mode, the others from cores in SERVICE and REPAIR (13 R402, R417). -/
def laneReached (s : State) (n : LaneNo) : Bool := if n = 0 then !s.dev.porst && !s.therm.trip else lanesServed s

/-- CR_TAIL_DOORBELL (13 R405, R408). -/
def execCrTailDoorbell (lane : LaneNo) (v : W32) (s : State) : Out := whenTrue (laneReached s lane) s (writeCrTail s lane v)

/-- RING_EN_WRITE (13 R405). -/
def execRingEnWrite (lane : LaneNo) (v : W32) (s : State) : Out := whenTrue (laneReached s lane) s (writeLaneCtl s lane v)

/-- MB_DOORBELL_WRITE (13 R410, R412). -/
def execMbDoorbellWrite (lane : LaneNo) (v : W32) (s : State) : Out := whenTrue (laneReached s lane) s (writeDoorbell s lane v)

/-- MB_STAT_READ (13 R410; 18 R538). -/
def execMbStatRead (lane : LaneNo) (s : State) : Out :=
  if laneReached s lane then
    let (v, s1) := readMbStat s lane
    .next (s1.answer (v.setWidth 64))
  else .next s

/-- TJ_PEAK_READ (19 R563). -/
def execTjPeakRead (lane : LaneNo) (s : State) : Out :=
  if laneReached s lane then
    let (v, s1) := readPeak s
    .next (s1.answer (v.setWidth 64))
  else .next s

/-- A packet in memory: 16 bytes, or as many as its LENGTH says (13 R406). -/
def readSlotPacket (s : State) (pa : Nat) : Packet :=
  let w (i : Nat) : Nat := s.peek (pa + 64 * i) 64
  trimPacket (BitVec.ofNat 2048 (w 0 + 2 ^ 512 * w 1 + 2 ^ 1024 * w 2 + 2 ^ 1536 * w 3))

/-- The 64-byte pieces of a slot that a packet's bytes lie in. -/
def slotPieces (p : Packet) : List Nat :=
  let n := pkLength p
  List.range ((16 * (if 1 ≤ n ∧ n ≤ 16 then n else 1) + 63) / 64)

/-- The Gatehouse's reads of a slot, as the device class; none where a line must wait (13 R406). -/
def readPieces (pa : Nat) : List Nat → State → Option State
  | [], s => some s
  | i :: t, s =>
    match agentRead s 24 devClass (pa + 64 * i) 64 with
    | none => none
    | some (_, s1) => readPieces pa t s1

/-- RING_COMMAND_TAKE (13 R404, R406, R408): the command at CR_HEAD is taken once the lane is idle and a reply slot is free, whose row the fill has passed (09 R293; log entry 107). -/
def execRingCommandTake (lane : LaneNo) (s : State) : Out :=
  let s0 := checkRing s lane
  let l := s0.lane lane
  if laneServed s lane && lanesServed s && l.ringEn && l.cur.isNone && l.crHead != l.crTail
      && decide ((l.rrTail - l.rrHead).toNat < 2 ^ l.size.toNat)
      && rowFilled s.dram (lineOf (ringSlot l.rrBase l.size l.rrTail + 255)) then
    let pa := ringSlot l.crBase l.size l.crHead
    let p := readSlotPacket s0 pa
    match readPieces pa (slotPieces p) s0 with
    | none => .next s
    | some s1 =>
      let l1 := s1.lane lane
      .next (presentCmd (s1.setLane lane { l1 with crHead := l1.crHead + 1 }) lane p true)
  else .next (if laneServed s lane && lanesServed s then s0 else s)

end Sys2Proof.Machine
end

