-- ==== Sys2Proof/Machine/Pcie.lean ====
section
/-! DEFINITION. The rows of the PCI Express ports (10 R330 to R332; 15 R456, R470; 18 R526 to R532). -/

namespace Sys2Proof.Machine

/-- The link takes traffic: it is up, the device is in ASSEMBLY or SERVICE, and nothing that arrived in REST waits before it. -/
def linkRuns (s : State) (p : Bool) (l : Nat) : Bool := fabricUp s && linkLive (s.link p l) && (s.link p l).heldIn.isEmpty

/-- What arrives waits: the device is in REST, or something that arrived there waits before it (14 R445). -/
def linkHolds (s : State) (p : Bool) (l : Nat) : Bool :=
  linkLive (s.link p l) && (s.mode == .rest || (fabricUp s && !(s.link p l).heldIn.isEmpty))

/-- What arrives on a link in REST is held until the wake (14 R445). -/
def holdIn (s : State) (p : Bool) (l : Nat) (x : PcieHeld) : State :=
  let k := s.link p l
  s.setLink p l { k with heldIn := k.heldIn ++ [x] }

/-- The function exists: on an endpoint link, up to its virtual functions. -/
def fnExists (s : State) (p : Bool) (l fn : Nat) : Bool := !(s.link p l).endpoint || decide (fn ≤ (s.link p l).numVf)

/-- A request of a function below a root port is discarded while its FLR runs (10 R331). -/
def fnMuted (s : State) (p : Bool) (l fn : Nat) : Bool := !(s.link p l).endpoint && (s.pfn p l fn).flr.isSome

/-- A non-posted request to an endpoint function whose FLR runs receives UR (10 R331). -/
def fnRefuses (s : State) (p : Bool) (l fn : Nat) : Bool := (s.link p l).endpoint && (s.pfn p l fn).flr.isSome

/-- Writes the parts of an inbound write in order, as far as their lines take them; with the parts that still wait. -/
def writeParts (p : Bool) (c : ClassId) (d : Line) : List (Nat × Nat × Nat) → State → List (Nat × Nat × Nat) × State
  | [], s => ([], s)
  | (pa, o, n) :: t, s =>
    match agentWrite s (pcieAgent p) c pa n (lineGet d o n) with
    | none => ((pa, o, n) :: t, s)
    | some s1 => writeParts p c d t (pcieCount s1 p 3 c)

/-- Sets what waits in a link's receive order. -/
def setRx (s : State) (p : Bool) (l : Nat) (q : List PcieRx) : State := s.setLink p l { s.link p l with rx := q }

/-- The posted requests of a link's receive order, oldest first, as far as memory takes them (05 R164; 10 R320; 18 R531). -/
def drainRxN (p : Bool) (l : Nat) : Nat → State → State
  | 0, s => s
  | n + 1, s =>
    match (s.link p l).rx with
    | [] => s
    | x :: rest =>
      match x.msi with
      | some (f, d) => drainRxN p l n (msiArrive (setRx s p l rest) p l f d)
      | none => match writeParts p x.cls x.data x.parts s with
        | ([], t) => drainRxN p l n (setRx t p l rest)
        | (ps, t) => setRx t p l ({ x with parts := ps } :: rest)

/-- A link's receive order drains (05 R164). -/
def drainRx (s : State) (p : Bool) (l : Nat) : State := drainRxN p l (s.link p l).rx.length s

/-- A posted request takes its place in a link's receive order (05 R164). -/
def postRx (s : State) (p : Bool) (l : Nat) (x : PcieRx) : State := drainRx (setRx s p l ((s.link p l).rx ++ [x])) p l

/-- Reads every part of an inbound read. -/
def readParts (p : Bool) (c : ClassId) : List (Nat × Nat × Nat) → Line → State → Option (Line × State)
  | [], d, s => some (d, s)
  | (pa, o, n) :: t, d, s =>
    match agentRead s (pcieAgent p) c pa n with
    | none => none
    | some (v, s1) => readParts p c t (linePut d o n v) (pcieCount s1 p 4 c)

/-- PCIE_INBOUND_WRITE, its effect (18 R530, R531): performed as NC_WR; on a root-port link, a write to MSI_ADDR is an interrupt message; a poisoned write is discarded and logged. One that memory cannot take yet waits in the receive order (05 R164). -/
def inboundWrite (port : Bool) (link : BitVec 2) (fn : BitVec 16) (addr : W64) (size : Nat) (data : Line) (poisoned : Bool)
    (s : State) : State :=
  let l := link.toNat
  let f := fn.toNat
  if linkRuns s port l && fnExists s port l f && decide (1 ≤ size ∧ size ≤ 64) && !fnMuted s port l f then
    let k := s.link port l
    let c := fnClass s port l f
    let s0 := pcieCount s port 1 c
    if poisoned then logLink s0 port l
    else if !k.endpoint && addr == k.msiAddr then
      (postRx s0 port l { cls := c, data := data, parts := [], msi := some (f, data.setWidth 16) })
    else match partTargets s0 port l f addr .write (lineParts addr.toNat size) with
      | (none, s1) => s1
      | (some parts, s1) => postRx s1 port l { cls := c, data := data, parts := parts, msi := none }
  else s

/-- PCIE_INBOUND_WRITE (14 R445): in REST it is held until the wake. -/
def execPcieInboundWrite (port : Bool) (link : BitVec 2) (fn : BitVec 16) (addr : W64) (size : Nat) (data : Line) (poisoned : Bool) (s : State) : Out :=
  .next (if linkHolds s port link.toNat then holdIn s port link.toNat (.write fn addr size data poisoned) else inboundWrite port link fn addr size data poisoned s)

/-- PCIE_INBOUND_READ, its effect (18 R530; 10 R331): completed with the data, or with UR; behind the posted writes of the receive order, which it lets drain. -/
def inboundRead (port : Bool) (link : BitVec 2) (fn : BitVec 16) (addr : W64) (size : Nat) (s : State) : State :=
  let l := link.toNat
  let f := fn.toNat
  if linkRuns s port l && fnExists s port l f && decide (1 ≤ size ∧ size ≤ 64) && !fnMuted s port l f then
    let c := fnClass s port l f
    let s0 := pcieCount (drainRx s port l) port 1 c
    if !(s0.link port l).rx.isEmpty then drainRx s port l
    else if fnRefuses s port l f then sendCpl s0 port l f 0 .ur c
    else match partTargets s0 port l f addr .read (lineParts addr.toNat size) with
      | (none, s1) => sendCpl s1 port l f 0 .ur c
      | (some parts, s1) =>
        match readParts port c parts 0 s1 with
        | none => s
        | some (d, s2) => (sendCpl s2 port l f d .sc c).answer (d.setWidth 64)
  else s

/-- PCIE_INBOUND_READ (14 R445): in REST it is held until the wake. -/
def execPcieInboundRead (port : Bool) (link : BitVec 2) (fn : BitVec 16) (addr : W64) (size : Nat) (s : State) : Out :=
  .next (if linkHolds s port link.toNat then holdIn s port link.toNat (.read fn addr size) else inboundRead port link fn addr size s)

/-- PCIE_INBOUND_ATOMICOP, its effect (18 R526, R530): FetchAdd, Swap and CAS of 32 and 64 bits to NORMAL DRAM; a target that is not NORMAL is answered with a completer abort. -/
def inboundAtomic (port : Bool) (link : BitVec 2) (fn : BitVec 16) (addr : W64) (size : Nat) (op : BitVec 4) (opnd cmpv : W64)
    (s : State) : State :=
  let l := link.toNat
  let f := fn.toNat
  if linkRuns s port l && fnExists s port l f && !fnMuted s port l f then
    let c := fnClass s port l f
    let s0 := pcieCount (drainRx s port l) port 1 c
    if !(s0.link port l).rx.isEmpty then drainRx s port l
    else if fnRefuses s port l f || !((size == 4 || size == 8) && addr.toNat % size == 0 && (op == 0 || op == 1 || op == 9)) then
      (sendCpl s0 port l f 0 .ur c)
    else match pcieTarget s0 port l f addr size .rmw with
      | (none, s1) => sendCpl s1 port l f 0 .ur c
      | (some (pa, mt), s1) =>
        if mt ≠ .normal then sendCpl s1 port l f 0 .ca c
        else match agentAtom s1 (pcieAgent port) c pa size op opnd cmpv with
          | none => s
          | some (v, s2) => (sendCpl s2 port l f (v.setWidth 512) .sc c).answer v
  else s

/-- PCIE_INBOUND_ATOMICOP (14 R445): in REST it is held until the wake. -/
def execPcieInboundAtomicop (port : Bool) (link : BitVec 2) (fn : BitVec 16) (addr : W64) (size : Nat) (op : BitVec 4) (opnd cmpv : W64) (s : State) : Out :=
  .next (if linkHolds s port link.toNat then holdIn s port link.toNat (.atomic fn addr size op opnd cmpv) else inboundAtomic port link fn addr size op opnd cmpv s)

/-- PCIE_MSI_MESSAGE, its effect (18 R531): an interrupt message from below a root port. -/
def inboundMsi (port : Bool) (link : BitVec 2) (fn data : BitVec 16) (s : State) : State :=
  let l := link.toNat
  if linkRuns s port l && !(s.link port l).endpoint && !fnMuted s port l fn.toNat then
    postRx (pcieCount s port 1 (fnClass s port l fn.toNat)) port l
      { cls := fnClass s port l fn.toNat, data := 0, parts := [], msi := some (fn.toNat, data) }
  else s

/-- PCIE_MSI_MESSAGE (14 R445): in REST it is held until the wake. -/
def execPcieMsiMessage (port : Bool) (link : BitVec 2) (fn data : BitVec 16) (s : State) : Out :=
  .next (if linkHolds s port link.toNat then holdIn s port link.toNat (.msi fn data) else inboundMsi port link fn data s)

/-- Removes the first request that a test picks. -/
def takeReq (f : PcieReq → Bool) : List PcieReq → Option (PcieReq × List PcieReq)
  | [] => none
  | r :: t => if f r then some (r, t) else (takeReq f t).map (fun p => (p.1, r :: p.2))

/-- An outbound non-posted request ends: with data, or in error; a configuration read in error returns all ones, a configuration write raises nothing (18 R529). -/
def endRequest (s : State) (r : PcieReq) (ok : Bool) (data : W64) : State :=
  if !r.reads then storeEnded s r.vc
  else
    let v := if ok then data else if r.config then BitVec.allOnes 64 else 0
    match r.vc with
    | none => s.answer v
    | some vc => if ok || r.config then finishWait s vc v else failWait s vc

/-- PCIE_COMPLETION, its effect (18 R529; 10 R331): the oldest request whose completion is not discarded. `ok` is false for UR, CA and a poisoned completion. -/
def inboundCompletion (port : Bool) (link : BitVec 2) (ok : Bool) (data : W64) (s : State) : State :=
  let l := link.toNat
  let k := s.link port l
  if linkRuns s port l then
    match takeReq (fun r => !r.dead) k.reqs with
    | none => s
    | some (r, rest) => endRequest (pcieCount (s.setLink port l { k with reqs := rest }) port 1 r.cls) r ok data
  else s

/-- PCIE_COMPLETION (14 R445): in REST it is held until the wake. -/
def execPcieCompletion (port : Bool) (link : BitVec 2) (ok : Bool) (data : W64) (s : State) : Out :=
  .next (if linkHolds s port link.toNat then holdIn s port link.toNat (.completion ok data) else inboundCompletion port link ok data s)

/-- A held request is taken up; none: a read or an atomic must wait for its line (14 R445). -/
def takeHeld (port : Bool) (link : BitVec 2) (x : PcieHeld) (s : State) : Option State :=
  let l := link.toNat
  let answered (t : State) (fn : BitVec 16) : Option State :=
    if (t.link port l).cpls.length = (s.link port l).cpls.length ∧ fnMuted s port l fn.toNat = false ∧ fnExists s port l fn.toNat = true then none
    else some t
  match x with
  | .write fn addr size data poisoned => some (inboundWrite port link fn addr size data poisoned s)
  | .msi fn data => some (inboundMsi port link fn data s)
  | .completion ok data => some (inboundCompletion port link ok data s)
  | .read fn addr size => if 1 ≤ size ∧ size ≤ 64 then answered (inboundRead port link fn addr size s) fn else some s
  | .atomic fn addr size op opnd cmpv => answered (inboundAtomic port link fn addr size op opnd cmpv s) fn

/-- What a link has held is taken up in the order of its arrival, up to a request that must wait (14 R445). -/
def takeAll (port : Bool) (link : BitVec 2) : List PcieHeld → State → State
  | [], s => s
  | x :: t, s =>
    match takeHeld port link x s with
    | some s1 => takeAll port link t s1
    | none => s.setLink port link.toNat { s.link port link.toNat with heldIn := x :: t }

/-- The requests that a link held in REST are taken up once the device has left it (14 R445). -/
def deliverHeld (s : State) (port : Bool) (l : Nat) : State :=
  let k := s.link port l
  if fabricUp s && linkLive k then takeAll port (BitVec.ofNat 2 l) k.heldIn (s.setLink port l { k with heldIn := [] }) else s

/-- PCIE_COMPLETION_TIMEOUT (18 R529): 50 ms after it was sent, the oldest request ends in error. -/
def execPcieCompletionTimeout (port : Bool) (link : BitVec 2) (s : State) : Out :=
  let l := link.toNat
  let k := s.link port l
  match k.reqs with
  | [] => .next s
  | r :: rest => .next (endRequest ((s.setLink port l { k with reqs := rest }).reach (r.at_ + 50000000)) r false 0)

/-- MSIX_SEND (18 R531): a vector of an endpoint function is sent, or left pending while masked. -/
def execMsixSend (port : Bool) (link : BitVec 2) (cls : ClassId) (fn : BitVec 16) (v : W32) (s : State) : Out :=
  let l := link.toNat
  let f := s.pfn port l fn.toNat
  let i := (v.extractLsb' 0 5).toNat
  if linkRuns s port l && (s.link port l).endpoint && fnExists s port l fn.toNat && f.msixEn then
    if msixReady f i then .next (sendMsix s port l fn.toNat i cls)
    else if f.fmask || f.masks.getLsbD i then .next (s.setPfn port l fn.toNat { f with pend := f.pend ||| (1#32 <<< i) })
    else .next s
  else .next s

/-- PCIE_PERST_INPUT (18 R532): the ball of an endpoint link, or a Hot Reset. -/
def execPciePerstInput (port : Bool) (link : BitVec 2) (asserted hot : Bool) (s : State) : Out :=
  let l := link.toNat
  let k := s.link port l
  if k.present && k.endpoint then
    if hot then (if k.up then .next (resetLink s port l) else .next s)
    else if asserted then .next (resetLink (s.setLink port l { k with perstIn := true }) port l)
    else .next (s.setLink port l { k with perstIn := false })
  else .next s

/-- ROOT_PERST_RELEASE (18 R532, 19 R551): 100 ms after PCIE_ROLE_SET, the balls of the port's root-port links are released. -/
def execRootPerstRelease (port : Bool) (s : State) : Out :=
  let p := s.port port
  let waits := p.links.filter (fun k => k.2.present && !k.2.endpoint && k.2.perstOut)
  match waits with
  | [] => .next s
  | k :: _ =>
    .next ((s.setPort port { p with links := p.links.map (fun k =>
      if k.2.present && !k.2.endpoint then (k.1, { k.2 with perstOut := false }) else k) }).reach (k.2.roleAt + 100000000))

/-- FLR_COMPLETE (10 R325, R331): the removal that asked for it is answered; a pavilion reset that waited for it goes on. -/
def execFlrComplete (port : Bool) (link : BitVec 2) (fn : BitVec 16) (s : State) : Out :=
  let l := link.toNat
  let f := s.pfn port l fn.toNat
  match f.flr with
  | none => .next s
  | some (some lane, _) =>
    let s1 := s.setPfn port l fn.toNat { f with flr := none, owner := noClass }
    .next (tryPav (replyDone s1 lane 0 s1.qz.time 0) (f.owner.setWidth 8))
  | some (none, _) =>
    .next (tryPav (s.setPfn port l fn.toNat { f with flr := none }) (f.owner.setWidth 8))

/-- PCIE_LINK_UP (18 R527, R532): a link under its committed role, whose PERST_N is high, has trained. -/
def execPcieLinkUp (port : Bool) (link : BitVec 2) (speed : BitVec 3) (width : BitVec 5) (s : State) : Out :=
  let l := link.toNat
  let k := s.link port l
  let free := if k.endpoint then !k.perstIn else !k.perstOut
  whenTrue (k.present && !k.up && free && decide (1 ≤ speed.toNat ∧ speed.toNat ≤ 5)) s
    (s.setLink port l { k with up := true, speed := speed, width := width, full := width, reduced := false })

/-- A configuration register of an endpoint function, by dword: the identity, Command, Device Control, the MSI-X control and table where the model places them (log entry 40), any other as the host wrote it, and free before that. -/
def readCfg (s : State) (f : PcieFn) (reg : Nat) : W32 × State :=
  if reg = 0 then ((match s.dev.hdr with | some h => h.pciId | none => 0), s)
  else if reg = 1 then (if f.bme then 4 else 0, s)
  else if reg = 32 then ((BitVec.ofBool f.msixEn).setWidth 32 <<< 31 ||| (BitVec.ofBool f.fmask).setWidth 32 <<< 30 ||| 0x001F0000#32, s)
  else if 256 ≤ reg ∧ reg < 384 then
    let v := (reg - 256) / 4
    let (a, d) := mget f.table v (0, 0)
    (match reg % 4 with
      | 0 => a.setWidth 32
      | 1 => a.extractLsb' 32 32
      | 2 => d
      | _ => if f.masks.getLsbD v then 1 else 0, s)
  else if reg = 384 then (f.pend, s)
  else match mget? f.cfg reg with
    | some v => (v, s)
    | none => let (x, s1) := s.free; (x.setWidth 32, s1)

/-- A host write of a configuration register; a one in Initiate Function Level Reset starts the FLR (10 R331). -/
def writeCfg (s : State) (p : Bool) (l fn reg : Nat) (v : W32) : State :=
  let f := s.pfn p l fn
  if reg = 0 ∨ reg = 384 then s
  else if reg = 1 then flushMsix (s.setPfn p l fn { f with bme := v.getLsbD 2 }) p l fn
  else if reg = 18 then
    if v.getLsbD 15 then (startFlr s p l fn (none, 0)).1 else s.setPfn p l fn { f with cfg := mput f.cfg reg v }
  else if reg = 32 then flushMsix (s.setPfn p l fn { f with msixEn := v.getLsbD 31, fmask := v.getLsbD 30 }) p l fn
  else if 256 ≤ reg ∧ reg < 384 then
    let i := (reg - 256) / 4
    let (a, d) := mget f.table i (0, 0)
    match reg % 4 with
    | 0 => s.setPfn p l fn { f with table := mput f.table i ((a.extractLsb' 32 32 ++ v), d) }
    | 1 => s.setPfn p l fn { f with table := mput f.table i ((v ++ a.extractLsb' 0 32), d) }
    | 2 => s.setPfn p l fn { f with table := mput f.table i (a, v) }
    | _ => flushMsix (s.setPfn p l fn { f with masks := if v.getLsbD 0 then f.masks ||| (1#32 <<< i) else f.masks &&& ~~~ (1#32 <<< i) }) p l fn
  else s.setPfn p l fn { f with cfg := mput f.cfg reg v }

/-- PCIE_INBOUND_CONFIG_REQUEST (18 R527; 10 R331): the host's configuration access to a function of an endpoint link. -/
def execPcieInboundConfigRequest (port : Bool) (link : BitVec 2) (fn : BitVec 16) (reg : BitVec 10) (write : Option W32) (s : State) : Out :=
  let l := link.toNat
  let f := fn.toNat
  if linkRuns s port l && (s.link port l).endpoint then
    let c := fnClass s port l f
    let s0 := pcieCount s port 1 c
    if !fnExists s port l f || fnRefuses s port l f then .next (sendCpl s0 port l f 0 .ur c)
    else match write with
      | some v => .next (sendCpl (writeCfg s0 port l f reg.toNat v) port l f 0 .sc c)
      | none =>
        let (v, s1) := readCfg s0 (s0.pfn port l f) reg.toNat
        .next ((sendCpl s1 port l f (v.setWidth 512) .sc c).answer (v.setWidth 64))
  else .next s

end Sys2Proof.Machine
end

