-- ==== Sys2Proof/Machine/Timers.lean ====
section
/-! DEFINITION. Quartz and the timer channels (16). -/

namespace Sys2Proof.Machine

/-- Bits of TMR_CTL (16, TMR_CTL). -/
def tmEn (c : BitVec 18) : Bool := c.getLsbD 0
def tmPreEn (c : BitVec 18) : Bool := c.getLsbD 1
def tmPeriod (c : BitVec 18) : Bool := c.getLsbD 2
def tmEvents (c : BitVec 18) : Bool := c.getLsbD 3
def tmPol (c : BitVec 18) : Bool := c.getLsbD 9
def tmSrc (c : BitVec 18) : Nat := (c.extractLsb' 10 7).toNat
def tmPost (c : BitVec 18) : Bool := c.getLsbD 17

/-- The odd half of a linked pair. -/
def oddHalf (s : State) (n : TmrNo) : Bool := (s.timer n).linked && n.getLsbD 0
/-- The other half of a pair. -/
def pairOf (n : TmrNo) : TmrNo := n ^^^ 1

/-- The level of a gate line at its ball; none: GSRC names no line (16 R496). -/
def gateLine (s : State) (src : Nat) : Option Bool :=
  if 1 ≤ src ∧ src ≤ 8 then some (s.dev.tg.getLsbD (src - 1))
  else if 0x10 ≤ src ∧ src ≤ 0x1F then
    let g := if src < 0x18 then 4 else 5
    let i := src % 8
    let d := mget s.arb.drive g {}
    some (if d.en.getLsbD i then d.val.getLsbD i else (mget s.arb.bus g (BitVec.allOnes 32)).getLsbD i)
  else if src = 0x20 then some s.dev.ppsIn
  else if src = 0x21 then some s.qz.ppsHigh.isSome
  else none

/-- An event source other than the channel itself (16 R496). -/
def eventSource (n : TmrNo) (src : Nat) : Bool :=
  (decide (0x40 ≤ src ∧ src ≤ 0x5F) && src - 0x40 != n.toNat) || (decide (0x60 ≤ src ∧ src ≤ 0x7F) && src - 0x60 != n.toNat)

/-- The gate of a channel is open (16 R496). -/
def gateOpen (s : State) (n : TmrNo) : Bool :=
  let c := (s.timer n).ctl
  let src := tmSrc c
  if tmEvents c then (gateLine s src).isSome || eventSource n src
  else if src = 0 then true
  else match gateLine s src with
    | some l => l != tmPol c
    | none => false

/-- Channels run: Quartz counts, and in BELVEDERE only TMR0 to TMR7 (16 R482, R504). -/
def timersRun (s : State) (n : TmrNo) : Bool :=
  s.qz.locked && !s.dev.porst && (s.mode != .belvedere || (decide (n.toNat < 8) && s.dev.rails.getLsbD 2))

/-- Count, compare value and preload of a channel, or of the pair of an even one, with their number of bits (16 R501). -/
structure TmVals where
  bits : Nat
  cnt : Nat
  cmp : Nat
  pre : Nat
  deriving DecidableEq, Repr

/-- The values of a channel or pair. -/
def tmVals (s : State) (n : TmrNo) : TmVals :=
  let a := s.timer n
  if a.linked then
    let b := s.timer (pairOf n)
    { bits := 64, cnt := a.cnt.toNat + 2 ^ 32 * b.cnt.toNat, cmp := a.cmp.toNat + 2 ^ 32 * b.cmp.toNat,
      pre := a.pre.toNat + 2 ^ 32 * b.pre.toNat }
  else { bits := 32, cnt := a.cnt.toNat, cmp := a.cmp.toNat, pre := a.pre.toNat }

/-- Writes count and compare value back. -/
def setVals (s : State) (n : TmrNo) (cnt cmp : Nat) : State :=
  let a := s.timer n
  let s1 := s.setTimer n { a with cnt := BitVec.ofNat 32 cnt, cmp := BitVec.ofNat 32 cmp }
  if a.linked then
    let b := s1.timer (pairOf n)
    s1.setTimer (pairOf n) { b with cnt := BitVec.ofNat 32 (cnt / 2 ^ 32), cmp := BitVec.ofNat 32 (cmp / 2 ^ 32) }
  else s1

/-- The next tick of a channel wraps it: at the compare value in force in period mode, or at all ones (16 R497). -/
def wrapsNext (s : State) (n : TmrNo) : Bool :=
  let v := tmVals s n
  v.cnt == 2 ^ v.bits - 1 || (tmPeriod (s.timer n).ctl && v.cnt == v.cmp)

/-- The compare value in force after the next tick: a pending preload is copied at a wrap (16 R497). -/
def cmpNext (s : State) (n : TmrNo) : Nat :=
  let v := tmVals s n
  let a := s.timer n
  if wrapsNext s n && tmPreEn a.ctl && a.prePend then v.pre else v.cmp

/-- The count after the next tick (16 R495, R497). -/
def cntNext (s : State) (n : TmrNo) : Nat := if wrapsNext s n then 0 else (tmVals s n).cnt + 1

/-- The next tick is a compare event (16 R498). -/
def comparesNext (s : State) (n : TmrNo) : Bool := cntNext s n == cmpNext s n

/-- The SOURCE of a channel (13 R420). -/
def timerSource (n : TmrNo) : BitVec 64 := 3#64 ||| (n.setWidth 64 <<< 4)

/-- The cores to which a source's routes lead now: a HYP route's core, or the core that runs the target vCPU (02 R60; 13 R420). -/
def routedCores (s : State) (src : BitVec 64) : List Vc :=
  (s.gate.routes.filter (fun r => r.src == src)).filterMap (fun r =>
    if r.hyp then some (r.vc.setWidth 6) else runningOn s r.pav (entryVcpu (pitEntry s (s.pav r.pav) r.id.toNat)))

/-- A compare event: CMP_HIT, the post, and the event that ends a WFE (16 R498, R504; 02 R60). -/
def compareEvent (s : State) (n : TmrNo) : State :=
  let a := s.timer n
  let s1 := s.setTimer n { a with hit := true }
  let src := timerSource n
  if s.mode = .belvedere then s1
  else
    let s2 := (routedCores s1 src).foldl (fun t vc => t.updCore vc (fun c => if c.wfe then { c with wfeEvent := true } else c)) s1
    if tmPost a.ctl then postSource s2 src else s2

/-- Channels that count an event source (16 R496, R503). -/
def listeners (s : State) (src : Nat) : List TmrNo :=
  ((List.range 32).map (BitVec.ofNat 5)).filter (fun m =>
    let c := (s.timer m).ctl
    tmEn c && tmEvents c && tmSrc c == src && !oddHalf s m && eventSource m src)

/-- One tick of a channel, with the ticks of the channels that count its wrap or its compare event; a chain names each channel at most once (16 R495 to R498, R503). -/
def tick : Nat → State → TmrNo → State
  | 0, s, _ => s
  | f + 1, s, n =>
    if timersRun s n then
      let w := wrapsNext s n
      let c := comparesNext s n
      let s1 := setVals s n (cntNext s n) (cmpNext s n)
      let a := s1.timer n
      let s2 := if w then s1.setTimer n { a with wrap := true, prePend := if tmPreEn a.ctl then false else a.prePend } else s1
      let s3 := if c then compareEvent s2 n else s2
      let s4 := if w then (listeners s3 (0x60 + n.toNat)).foldl (tick f) s3 else s3
      if c then (listeners s4 (0x40 + n.toNat)).foldl (tick f) s4 else s4
    else s

/-- A tick of Quartz can be counted by a channel: EN, CLKSRC = 0, its gate open (16 R495). -/
def quartzTicks (s : State) (n : TmrNo) : Bool :=
  let c := (s.timer n).ctl
  timersRun s n && tmEn c && !tmEvents c && gateOpen s n && !oddHalf s n

/-- TIMER_TICK (16 R495): a channel counts one tick, with all that the tick brings about. -/
def execTimerTick (ch : TmrNo) (s : State) : Out := whenTrue (quartzTicks s ch) s (tick 32 s ch)

/-- TIMER_WRAP (16 R497): the tick that wraps a channel. -/
def execTimerWrap (ch : TmrNo) (s : State) : Out := whenTrue (quartzTicks s ch && wrapsNext s ch) s (tick 32 s ch)

/-- TIMER_COMPARE_EVENT (16 R498): the tick that moves a channel's counter into the compare value in force. -/
def execTimerCompareEvent (ch : TmrNo) (s : State) : Out := whenTrue (quartzTicks s ch && comparesNext s ch) s (tick 32 s ch)

/-- An edge of a gate line: the channels that count it tick, by GPOL (16 R495, R496). -/
def gateEdge (s : State) (src : Nat) (level : Bool) : State :=
  let ns := ((List.range 32).map (BitVec.ofNat 5)).filter (fun m =>
    let c := (s.timer m).ctl
    tmEn c && tmEvents c && tmSrc c == src && tmPol c != level && !oddHalf s m)
  ns.foldl (tick 32) s

/-- A gate line takes a level at its ball. -/
def setGateLine (s : State) (src : Nat) (level : Bool) : State :=
  if 1 ≤ src ∧ src ≤ 8 then
    let b : BitVec 8 := 1#8 <<< (src - 1)
    { s with dev := { s.dev with tg := if level then s.dev.tg ||| b else s.dev.tg &&& ~~~ b } }
  else if 0x10 ≤ src ∧ src ≤ 0x1F then
    let g := if src < 0x18 then 4 else 5
    let old := mget s.arb.bus g (BitVec.allOnes 32)
    let b : W32 := 1#32 <<< (src % 8)
    { s with arb := { s.arb with bus := mput s.arb.bus g (if level then old ||| b else old &&& ~~~ b) } }
  else if src = 0x20 then { s with dev := { s.dev with ppsIn := level } }
  else s

/-- TG_GATE_CHANGE (16 R496): a line of TG[7:0] or AH[15:0], or QZ_PPS_IN, changes. -/
def execTgGateChange (src : BitVec 7) (level : Bool) (s : State) : Out :=
  let n := src.toNat
  let was := gateLine s n
  let s1 := setGateLine s n level
  whenTrue (!s.dev.porst && n != 0x21 && was.isSome) s (if gateLine s1 n = was then s1 else gateEdge s1 n level)

/-- A class may use a channel: its owner, or the hypervisor (16 R493). -/
def timerAllows (s : State) (c : ClassId) (n : TmrNo) : Bool :=
  c == hypClass || (c == (s.timer n).owner && c != noClass)

/-- The channel whose CTL governs a channel: the even one of a pair (16 R501). -/
def ctlOwner (s : State) (n : TmrNo) : TmrNo := if oddHalf s n then pairOf n else n

/-- A write of CMP: the value in force, or the preload with PRE_EN = 1 (16 R499). -/
def writeCmp (s : State) (n : TmrNo) (v : W32) : State :=
  let a := s.timer n
  let k := ctlOwner s n
  if tmPreEn (s.timer k).ctl then
    let s1 := s.setTimer n { a with pre := v }
    let b := s1.timer k
    s1.setTimer k { b with prePend := true }
  else s.setTimer n { a with cmp := v }

/-- A write of CNT (16 R500). -/
def writeCnt (s : State) (n : TmrNo) (v : W32) : State := let a := s.timer n; s.setTimer n { a with cnt := v }

/-- A write of CTL: a PRESCALE above 24 leaves its field, PRE_EN rising copies the value in force to the preload, falling ends a pending copy (16 R495, R500); the odd half of a pair ignores it (16 R501). -/
def writeCtl (s : State) (n : TmrNo) (v : W32) : State :=
  if oddHalf s n then s
  else
    let a := s.timer n
    let keep := decide (24 < (v.extractLsb' 4 5).toNat)
    let c : BitVec 18 := if keep then (v.setWidth 18 &&& ~~~ 0x1F0#18) ||| (a.ctl &&& 0x1F0#18) else v.setWidth 18
    let up := tmPreEn c && !tmPreEn a.ctl
    let s1 := s.setTimer n { a with
      ctl := c, pre := if up then a.cmp else a.pre, prePend := if tmPreEn c && !up then a.prePend else false }
    if a.linked && up then
      let b := s1.timer (pairOf n)
      s1.setTimer (pairOf n) { b with pre := b.cmp }
    else s1

/-- Register accesses reach the timers: cores run in SERVICE. -/
def timerWritable (s : State) (c : ClassId) (n : TmrNo) : Bool := s.mode == .service && timerAllows s c n

/-- TMR_CMP_WRITE (16 R499). -/
def execTmrCmpWrite (cls : ClassId) (ch : TmrNo) (v : W32) (s : State) : Out :=
  whenTrue (timerWritable s cls ch) s (writeCmp s ch v)

/-- TMR_CNT_WRITE (16 R500). -/
def execTmrCntWrite (cls : ClassId) (ch : TmrNo) (v : W32) (s : State) : Out :=
  whenTrue (timerWritable s cls ch) s (writeCnt s ch v)

/-- TMR_CTL_WRITE (16 R495, R500, R501). -/
def execTmrCtlWrite (cls : ClassId) (ch : TmrNo) (v : W32) (s : State) : Out :=
  whenTrue (timerWritable s cls ch) s (writeCtl s ch v)

/-- A signed residue of a time difference modulo one second, in ns: from −500,000,000 to 499,999,999 (16 R489). -/
def phaseErr (t : Nat) (off : BitVec 32) : Int :=
  let r := ((t : Int) - off.toInt) % 1000000000
  if 500000000 ≤ r then r - 1000000000 else r

/-- The edge lies within 1 ms of a whole number of seconds after the last accepted one (16 R489). -/
def nearExpected (last t : Nat) : Bool :=
  let r := (t - last) % 1000000000
  decide (r ≤ 1000000 ∨ 999000000 ≤ r)

/-- A rate correction of at most 200 ppm against the error; its size the manual leaves to the device (16 R487). -/
def newRate (e : Int) (f : W64) (old : BitVec 32) : BitVec 32 :=
  let m := f.toNat % 200000001
  if e = 0 then old else if 0 < e then 0 - BitVec.ofNat 32 m else BitVec.ofNat 32 m

/-- The first edge after MODE becomes 1: the forward step (16 R487); a pulse starts where the step passes a whole second (16 R492). -/
def firstEdge (s : State) : State :=
  let t := s.qz.time
  let step := ((s.qz.offset.toInt - (t : Int)) % 1000000000).toNat
  let t1 := t + step
  let pulse := s.qz.ppsOut && s.qz.ppsHigh.isNone && t / 1000000000 != t1 / 1000000000
  let s1 := { s with qz := { s.qz with
    time := t1, step := BitVec.ofNat 32 step, stepped := true, disc := true, accepted := true, lastEdge := t1, cand := none,
    ppsLast := BitVec.ofNat 64 t1, ppsErr := 0, ppsHigh := if pulse then some t1 else s.qz.ppsHigh } }
  if pulse then gateEdge s1 0x21 true else s1

/-- A later accepted edge: captured, and corrected by the rate alone (16 R487, R489, R491). -/
def laterEdge (s : State) : State :=
  let t := s.qz.time
  let e := phaseErr t s.qz.offset
  let (f, s1) := s.free
  { s1 with qz := { s1.qz with
    disc := true, holdover := false, lastEdge := t, cand := none, ppsLast := BitVec.ofNat 64 t, ppsErr := BitVec.ofInt 32 e,
    rate := newRate e f s.qz.rate } }

/-- An edge that is not near an expected instant: ignored and counted, unless it is the fourth of four candidates a second apart (16 R489, R490). -/
def candidateEdge (s : State) : State :=
  let t := s.qz.time
  let n := match s.qz.cand with
    | some (p, k) => if 999000000 ≤ t - p ∧ t - p ≤ 1001000000 then k + 1 else 1
    | none => 1
  if 4 ≤ n then laterEdge s
  else { s with qz := { s.qz with cand := some (t, n), ignored := satAdd32 s.qz.ignored 1 } }

/-- QZ_PPS_IN_EDGE (16 R487 to R491): an edge of QZ_PPS_IN at the instant `at_` of QZ_TIME; one of the polarity that EDGE selects disciplines QZ_TIME while MODE = 1. -/
def execQzPpsInEdge (rising : Bool) (at_ : BitVec 64) (s : State) : Out :=
  if s.qz.locked && !s.dev.porst then
    let s0 := s.reach at_.toNat
    let s1 := gateEdge (setGateLine s0 0x20 rising) 0x20 rising
    if s1.qz.mode && rising != s1.qz.edge then
      .next (if !s1.qz.accepted then firstEdge s1
        else if nearExpected s1.qz.lastEdge s1.qz.time then laterEdge s1
        else candidateEdge s1)
    else .next s1
  else .next s

/-- PPS_HOLDOVER (16 R491): 3 s without an accepted edge while MODE = 1. -/
def execPpsHoldover (s : State) : Out :=
  let s1 := s.reach (s.qz.lastEdge + 3000000000)
  whenTrue (s.qz.locked && s.qz.mode && !s.qz.holdover) s { s1 with qz := { s1.qz with holdover := true, disc := false } }

/-- QZ_PPS_OUT_PULSE (16 R492): QZ_PPS_OUT rises at the next multiple of 10^9. -/
def execQzPpsOutPulse (s : State) : Out :=
  let t := (s.qz.time + 999999999) / 1000000000 * 1000000000
  let s1 := s.reach t
  whenTrue (s.qz.locked && s.qz.ppsOut && s.qz.ppsHigh.isNone) s
    (gateEdge { s1 with qz := { s1.qz with ppsHigh := some t } } 0x21 true)

/-- QZ_PPS_OUT_FALL (16 R492): it falls 1 ms later. -/
def execQzPpsOutFall (s : State) : Out :=
  match s.qz.ppsHigh with
  | none => .next s
  | some t =>
    let s1 := s.reach (t + 1000000)
    .next (gateEdge { s1 with qz := { s1.qz with ppsHigh := none } } 0x21 false)

end Sys2Proof.Machine
end

