-- ==== Sys2Proof/Machine/Regs.lean ====
section
/-! DEFINITION. The register blocks: their 32-bit registers by address, the hold registers, reads and writes of a core (00 R8 to R11; 01 R20, R22; 10 R318; 11 R368; 13 R402; 16 R493, R502; 17 R515, R523; 18 R532). -/

namespace Sys2Proof.Machine

/-- A read of one half of a linked pair of 32-bit words, with the requester's hold register (16 R502). -/
def readHalf (s : State) (vc : Vc) (pair : Nat) (high : Bool) (live : W64) : W32 × State :=
  let c := s.core vc
  let half (h : Bool) : W32 := if h then live.extractLsb' 32 32 else live.setWidth 32
  let fresh : W32 × State := (half high, s.setCore vc { c with holds := mput c.holds pair (!high, half (!high)) })
  match mget? c.holds pair with
  | some (h, v) => if h = high then (v, s.setCore vc { c with holds := mdel c.holds pair }) else fresh
  | none => fresh

/-- The hold-register pairs: QZ_TIME, QZ_PPS_LAST, TF_WPTR, the pairs of channels, the uncore counters (16 R502). -/
def pairTimer (n : TmrNo) : Nat := 3 + n.toNat / 2
def pairUncore (u j : Nat) : Nat := 32 + 4 * u + j

/-- TMR_STAT of a channel (16, TMR_STAT). GATE is the gate as the running channel sees it: a channel without its clock or its supply, as at reset, reads the reset value 0 (DEDUCED, log entry 79). -/
def timerStat (s : State) (n : TmrNo) : W32 :=
  let a := s.timer n
  bit32 a.hit ||| (bit32 a.wrap <<< 1) ||| (bit32 (timersRun s n && gateOpen s n) <<< 2) ||| (bit32 a.prePend <<< 3)

/-- A read of a channel page; a class that may not use the channel reads zero (16 R493, R501). -/
def timerRead (s : State) (vc : Vc) (c : ClassId) (n : TmrNo) (off : Nat) : W32 × State :=
  let a := s.timer n
  if !timerAllows s c n then (0, s)
  else if off = 0x000 then
    if a.linked then
      let lo := s.timer (n &&& ~~~ 1#5)
      let hi := s.timer (n ||| 1#5)
      readHalf s vc (pairTimer n) (n.getLsbD 0) (hi.cnt ++ lo.cnt)
    else (a.cnt, s)
  else if off = 0x004 then (a.cmp, s)
  else if off = 0x008 then
    ((if oddHalf s n then 0 else a.ctl.setWidth 32) ||| (bit32 a.linked <<< 18), s)
  else if off = 0x00C then (if oddHalf s n then 0 else timerStat s n, s)
  else if off = 0x010 then (a.pre, s)
  else (0, s)

/-- A write of a channel page (16 R493, R499 to R501). -/
def timerWrite (s : State) (c : ClassId) (n : TmrNo) (off : Nat) (v : W32) : State :=
  if !timerAllows s c n then s
  else if off = 0x000 then writeCnt s n v
  else if off = 0x004 then writeCmp s n v
  else if off = 0x008 then writeCtl s n v
  else if off = 0x00C then
    if oddHalf s n then s
    else
      let a := s.timer n
      s.setTimer n { a with hit := a.hit && !v.getLsbD 0, wrap := a.wrap && !v.getLsbD 1 }
  else s

/-- A read of the Quartz page (16, QZ registers). -/
def quartzRead (s : State) (vc : Vc) (off : Nat) : W32 × State :=
  let q := s.qz
  if off = 0x000 then readHalf s vc 0 false (BitVec.ofNat 64 q.time)
  else if off = 0x004 then readHalf s vc 0 true (BitVec.ofNat 64 q.time)
  else if off = 0x008 then
    (bit32 q.locked ||| (bit32 q.disc <<< 1) ||| (bit32 q.holdover <<< 2) ||| (bit32 q.stepped <<< 3) ||| (bit32 q.mode <<< 4)
      ||| (bit32 q.edge <<< 5) ||| (bit32 q.ppsOut <<< 6), s)
  else if off = 0x00C then (q.offset, s)
  else if off = 0x010 then readHalf s vc 1 false q.ppsLast
  else if off = 0x014 then readHalf s vc 1 true q.ppsLast
  else if off = 0x018 then (q.ppsErr, s)
  else if off = 0x01C then (q.rate, s)
  else if off = 0x020 then (q.ignored, { s with qz := { q with ignored := 0 } })
  else if off = 0x024 then (q.step, s)
  else (0, s)

/-- The uncore units of the device (17 R515). -/
def uncoreUnits : Nat := 37

/-- A read of an uncore unit's block (17, UC registers). -/
def uncoreRead (s : State) (vc : Vc) (u off : Nat) : W32 × State :=
  let k := mget s.uncore u {}
  if uncoreUnits ≤ u then (0, s)
  else if off < 0x20 then readHalf s vc (pairUncore u (off / 8)) (off / 4 % 2 == 1) (mget k.cnt (off / 8) 0)
  else if off = 0x20 then (k.ovf.setWidth 32, s)
  else if off = 0x24 then (mget k.evt 3 0 ++ mget k.evt 2 0 ++ mget k.evt 1 0 ++ mget k.evt 0 0, s)
  else (0, s)

/-- A write of an uncore unit's block: UC_OVF is W1C (17). -/
def uncoreWrite (s : State) (u off : Nat) (v : W32) : State :=
  if off = 0x20 ∧ u < uncoreUnits then
    let k := mget s.uncore u {}
    { s with uncore := mput s.uncore u { k with ovf := k.ovf &&& ~~~ v.setWidth 4 } }
  else s

/-- A read of the funnel's registers (17, TF registers). -/
def funnelRead (s : State) (vc : Vc) (off : Nat) : W32 × State :=
  let f := s.funnel
  if off = 0x000 then
    (bit32 f.on ||| (bit32 f.drained <<< 1) ||| (bit32 f.stopped <<< 2) ||| (BitVec.ofNat 32 (f.buf.length / 1024) <<< 16), s)
  else if off = 0x004 then readHalf s vc 2 false f.wptr
  else if off = 0x008 then readHalf s vc 2 true f.wptr
  else if off = 0x00C then (f.rptr.setWidth 32, s)
  else if off = 0x010 then (f.rptr.extractLsb' 32 32, s)
  else if 0x014 ≤ off ∧ off ≤ 0x020 then
    let i := (off - 0x014) / 4
    (mget f.drop i 0, { s with funnel := { f with drop := mdel f.drop i } })
  else (0, s)

/-- A command's effect where it has a next state. -/
def nextOf (s : State) (o : Out) : State :=
  match o with
  | .next t => t
  | _ => s

/-- A write of the funnel's registers (17). -/
def funnelWrite (s : State) (off : Nat) (v : W32) : State :=
  if off = 0x00C then nextOf s (execTfRptrWrite false v s)
  else if off = 0x010 then nextOf s (execTfRptrWrite true v s)
  else if off = 0x024 then nextOf s (execTfFlush v s)
  else s

/-- ARB_ROLE (11 R368). -/
def arbRole (s : State) : W32 :=
  let r := s.arb.roles
  bit32 r.syscon ||| (bit32 r.master <<< 1) ||| (bit32 r.slave <<< 2) ||| (r.reqLevel.setWidth 32 <<< 4) ||| (r.handler.setWidth 32 <<< 8)
    ||| (BitVec.ofNat 32 (r.busTimer % 16) <<< 16) ||| (s.profCode.setWidth 32 <<< 24)

/-- ARB_PINS (12): AX[7] is PORT_ON's complement, AX[6] SYSDRV. -/
def arbPins (s : State) : W32 :=
  bit32 (arstLow s) ||| (bit32 (s.arb.afailIn || sysLow s 1) <<< 1) ||| (bit32 s.arb.acfailIn <<< 2) ||| (s.arb.ai.setWidth 32 <<< 8)
    ||| (bit32 (s.arb.ax.getLsbD 6) <<< 16) ||| (bit32 (!s.arb.ax.getLsbD 7) <<< 17)

/-- A read of the Arbor control block (11 R368; 12 ARB_PINS). -/
def arbRead (s : State) (off : Nat) : W32 × State :=
  let a := s.arb
  let rc (v : BitVec 32) (b : Arbor) : W32 × State := (v, { s with arb := b })
  if off = 0x000 then (arbRole s, s)
  else if off = 0x004 then (a.engine.setWidth 32, s)
  else if off = 0x008 then rc a.unmapped { a with unmapped := 0 }
  else if off = 0x00C then rc a.vecNomatch { a with vecNomatch := 0 }
  else if off = 0x010 then rc a.inbNomatch { a with inbNomatch := 0 }
  else if off = 0x014 then rc a.inbRefused { a with inbRefused := 0 }
  else if off = 0x018 then rc a.mismatch { a with mismatch := 0 }
  else if off = 0x020 then (arbPins s, s)
  else if off = 0x024 then rc a.afailEdges { a with afailEdges := 0 }
  else if off = 0x028 then rc a.arstEvents { a with arstEvents := 0 }
  else if off = 0x02C then rc a.busTimeouts { a with busTimeouts := 0 }
  else if off = 0x030 then rc a.pathDenied { a with pathDenied := 0 }
  else (0, s)

/-- The code of a session's state (11 R335). -/
def sesCode : SesSt → Nat
  | .closed => 0 | .open_ => 1 | .halted => 2 | .wedged => 3 | .resetting => 4

/-- A read of a session page; a class that may not use the session reads zero (11 R368). -/
def sesRead (s : State) (c : ClassId) (n : Ses) (off : Nat) : W32 × State :=
  let e := s.ses n
  let head : Option VecEntry := e.vecs.head?
  if !sesAllows e c then (0, s)
  else if off = 0x000 then
    (BitVec.ofNat 32 (sesCode e.st) ||| (bit32 e.safety <<< 3) ||| (e.owner.setWidth 32 <<< 8)
      ||| (BitVec.ofNat 32 e.queue.length <<< 16), s)
  else if off = 0x004 then (bit32 (e.st == .open_) ||| (bit32 e.errPost <<< 1), s)
  else if off = 0x008 then
    let (v, s1) := readErrCode s n
    (BitVec.ofNat 32 v, s1)
  else if off = 0x00C then (e.errCount, s.setSes n { e with errCount := 0 })
  else if off = 0x010 then (e.errAddr.setWidth 32, s)
  else if off = 0x014 then (e.errAddr.extractLsb' 32 32, s)
  else if off = 0x018 then (e.errTime.setWidth 32, s)
  else if off = 0x01C then (e.errTime.extractLsb' 32 32, s)
  else if off = 0x020 then (e.discards, s.setSes n { e with discards := 0 })
  else if off = 0x030 then
    (match head with
      | some v => v.level.setWidth 32 ||| (v.entry.setWidth 32 <<< 3) ||| 0x40#32 ||| (BitVec.ofNat 32 e.vecs.length <<< 7)
      | none => 0, s)
  else if off = 0x034 then (match head with | some v => v.vec | none => 0, s)
  else if off = 0x040 then (e.bmIpa.setWidth 32, s)
  else if off = 0x044 then (e.bmIpa.extractLsb' 32 32, s)
  else if off = 0x048 then (e.bmOff.setWidth 32, s)
  else if off = 0x04C then (e.bmOff.extractLsb' 32 32, s)
  else if off = 0x050 then (e.bmLen.setWidth 32, s)
  else if off = 0x054 then ((bit32 e.bmDir <<< 1) ||| (e.bmWin.setWidth 32 <<< 2) ||| (bit32 e.bmBlock <<< 4), s)
  else if off = 0x058 then
    (bit32 e.bmBusy ||| (bit32 e.bmDone <<< 1) ||| (BitVec.ofNat 32 (errCodeOf e.bmErr) <<< 2), s)
  else if off = 0x05C then (e.bmMoved.setWidth 32, s)
  else (0, s)

/-- A write of a session page (11 R368). The fields of a CLOSED session, which the hypervisor alone may use, take a write and read back as any other (00 R8). -/
def sesWrite (s : State) (c : ClassId) (n : Ses) (off : Nat) (v : W32) : State :=
  let e := s.ses n
  if !sesAllows e c then s
  else if off = 0x004 then writeSesCtl s n v
  else if off = 0x038 then if v.getLsbD 0 then writeVecPop s n else s
  else if off = 0x040 then s.setSes n { e with bmIpa := putHalf64 e.bmIpa false (v &&& ~~~ 7#32) }
  else if off = 0x044 then s.setSes n { e with bmIpa := putHalf64 e.bmIpa true (v &&& 0xFFFF#32) }
  else if off = 0x048 then s.setSes n { e with bmOff := putHalf64 e.bmOff false (v &&& ~~~ 7#32) }
  else if off = 0x04C then s.setSes n { e with bmOff := putHalf64 e.bmOff true v }
  else if off = 0x050 then s.setSes n { e with bmLen := v.setWidth 24 &&& ~~~ 7#24 }
  else if off = 0x054 then writeBmCtl s n v
  else if off = 0x058 then s.setSes n { e with bmDone := e.bmDone && !v.getLsbD 1 }
  else s

/-- A read of a link page (18 R532). -/
def linkRead (s : State) (p : Bool) (l off : Nat) : W32 × State :=
  let k := s.link p l
  if off = 0x000 then
    (bit32 k.up ||| (k.speed.setWidth 32 <<< 1) ||| (k.width.setWidth 32 <<< 4) ||| (bit32 k.endpoint <<< 9), s)
  else if off = 0x004 then
    (k.corr.setWidth 32 ||| (k.posted.setWidth 32 <<< 16) ||| (k.msiDrop.setWidth 32 <<< 24),
      s.setLink p l { k with corr := 0, posted := 0, msiDrop := 0 })
  else if off = 0x008 then (k.msiAddr.setWidth 32, s)
  else if off = 0x00C then (k.msiAddr.extractLsb' 32 32, s)
  else if off = 0x010 then (k.pfBase.setWidth 32, s)
  else if off = 0x014 then (k.pfBase.extractLsb' 32 32, s)
  else if 0x10008 ≤ off ∧ off < 0x10208 then
    let i := mget k.vfIpa ((off - 0x10000) / 8) 0
    (if off / 4 % 2 = 1 then i.extractLsb' 32 32 else i.setWidth 32, s)
  else (0, s)

/-- A write of a link page (18 R531, R532). -/
def linkWrite (s : State) (p : Bool) (l off : Nat) (c : ClassId) (v : W32) : State :=
  let k := s.link p l
  if off = 0x008 then s.setLink p l { k with msiAddr := putHalf64 k.msiAddr false (v &&& ~~~ 3#32) }
  else if off = 0x00C then s.setLink p l { k with msiAddr := putHalf64 k.msiAddr true v }
  else if off = 0x010 then s.setLink p l { k with pfBase := putHalf64 k.pfBase false (v &&& ~~~ 0xFFF#32) }
  else if off = 0x014 then s.setLink p l { k with pfBase := putHalf64 k.pfBase true v }
  else if 0x100 ≤ off ∧ off < 0x10000 ∧ off % 256 = 0 then
    nextOf s (execMsixSend p (BitVec.ofNat 2 l) c (BitVec.ofNat 16 ((off - 0x100) / 256)) v s)
  else if 0x10008 ≤ off ∧ off < 0x10208 then
    let i := (off - 0x10000) / 8
    s.setLink p l { k with vfIpa := mput k.vfIpa i (putHalf64 (mget k.vfIpa i 0) (off / 4 % 2 == 1) v) }
  else s

/-- The code of a pavilion's state (10 R299). -/
def pavCode : PavSt → Nat
  | .none => 0 | .defined => 1 | .running => 2 | .stopped => 3 | .resetting => 4

/-- A read of a pavilion's control block (10 R317, R318). -/
def pavRead (s : State) (pn : Pav) (off : Nat) : W32 × State :=
  let p := s.pav pn
  if off = 0x000 then (BitVec.ofNat 32 (pavCode p.st), s)
  else if off = 0x004 then (p.discarded, s.setPav pn { p with discarded := 0 })
  else if off = 0x008 then (p.deferred, s.setPav pn { p with deferred := 0 })
  else if off = 0x00C then (p.memOver, s.setPav pn { p with memOver := 0 })
  else if off = 0x010 then (p.arbOver, s.setPav pn { p with arbOver := 0 })
  else (0, s)

/-- A write of VIRQ_SEND: from a core of that pavilion, an ID below NIRQ whose SEND is 1 (10 R317, R318). -/
def virqSend (s : State) (vc : Vc) (pn : Pav) (v : W32) : State :=
  let p := s.pav pn
  let i := (v.extractLsb' 0 11).toNat
  if (s.core vc).arch.tr.vmid = pn ∧ p.st ≠ .none ∧ i < p.nirq ∧ entrySend (pitEntry s p i) = true then postVirq s pn i else s

/-- The pavilion whose interrupt control block an address lies in, of 64 KiB each (10 R318). Past the block of pavilion 255 the range of R20 goes on to 0xE000_1FFF_FFFF: there is no register there, reads give zero and writes are ignored: DESIGN CHOICE (log entry 96). -/
def pavBlock (pa : Nat) : Option Pav :=
  let p := (pa - 0xE00010000000) / 65536
  if p < 256 then some (BitVec.ofNat 8 p) else none

/-- A 32-bit read of a register block by a core; an address between the registers reads zero (01 R22). -/
def regRead (s : State) (vc : Vc) (c : ClassId) (pa : Nat) : W32 × State :=
  match paKind s pa with
  | .lanes =>
    let n : LaneNo := BitVec.ofNat 6 (pa / 4096)
    if coreLane s n then laneRead s n (pa % 4096) else (0, s)
  | .quartz =>
    let i := pa / 4096 % 256
    if i = 0 then quartzRead s vc (pa % 4096)
    else if i ≤ 32 then timerRead s vc c (BitVec.ofNat 5 (i - 1)) (pa % 4096)
    else (0, s)
  | .uncore => uncoreRead s vc (pa / 256 % 4096) (pa % 256)
  | .funnel => funnelRead s vc (pa % 2 ^ 20)
  | .arborCtl => arbRead s (pa % 2 ^ 20)
  | .sessions => sesRead s c (BitVec.ofNat 14 ((pa - 0xE00001000000) / 4096)) (pa % 4096)
  | .pcieCtl =>
    let i := (pa - 0xE00008000000) / 2 ^ 24
    linkRead s (i / 4 == 1) (i % 4) (pa % 2 ^ 24)
  | .pavCtl => match pavBlock pa with
    | some p => pavRead s p (pa % 65536)
    | none => (0, s)
  | _ => (0, s)

/-- A 32-bit write of a register block by a core (01 R22; 00 R8). -/
def regWrite (s : State) (vc : Vc) (c : ClassId) (pa : Nat) (v : W32) : State :=
  match paKind s pa with
  | .lanes =>
    let n : LaneNo := BitVec.ofNat 6 (pa / 4096)
    if coreLane s n then laneWrite s n (pa % 4096) v else s
  | .quartz =>
    let i := pa / 4096 % 256
    if 1 ≤ i ∧ i ≤ 32 then timerWrite s c (BitVec.ofNat 5 (i - 1)) (pa % 4096) v else s
  | .uncore => uncoreWrite s (pa / 256 % 4096) (pa % 256) v
  | .funnel => funnelWrite s (pa % 2 ^ 20) v
  | .sessions => sesWrite s c (BitVec.ofNat 14 ((pa - 0xE00001000000) / 4096)) (pa % 4096) v
  | .pcieCtl =>
    let i := (pa - 0xE00008000000) / 2 ^ 24
    linkWrite s (i / 4 == 1) (i % 4) (pa % 2 ^ 24) c v
  | .pavCtl =>
    match pavBlock pa with
    | some p => if pa % 65536 = 0x1000 then virqSend s vc p v else s
    | none => s
  | _ => s

/-- The range is a register block of R22. -/
def isRegs (k : PaKind) : Bool :=
  match k with
  | .lanes | .quartz | .uncore | .funnel | .arborCtl | .sessions | .pcieCtl | .pavCtl => true
  | _ => false

/-- A core's load from a register block: none is the device access error of a narrow load; a 64-bit load is two reads, low then high (01 R22). -/
def regLoad (s : State) (vc : Vc) (c : ClassId) (pa size : Nat) : Option (W64 × State) :=
  if size = 4 then
    let (v, s1) := regRead s vc c pa
    some (v.setWidth 64, s1)
  else if size = 8 then
    let (a, s1) := regRead s vc c pa
    let (b, s2) := regRead s1 vc c (pa + 4)
    some (b ++ a, s2)
  else none

/-- A core's store to a register block: a narrow store is discarded (01 R22). -/
def regStore (s : State) (vc : Vc) (c : ClassId) (pa size : Nat) (v : W64) : State :=
  if size = 4 then regWrite s vc c pa (v.setWidth 32)
  else if size = 8 then regWrite (regWrite s vc c pa (v.setWidth 32)) vc c (pa + 4) (v.extractLsb' 32 32)
  else s

/-- A register access by a core arrives: cores run in SERVICE; the address is that of a 32-bit register. -/
def regReached (s : State) (vc : Vc) (pa : Nat) : Bool :=
  s.mode == .service && decide (vc.toNat < vcCount s.cmap.part) && isRegs (paKind s pa) && pa % 4 == 0

/-- HOLD_REGISTER_READ (16 R502). -/
def execHoldRegisterRead (vc : Vc) (cls : ClassId) (pa : BitVec 48) (s : State) : Out :=
  if regReached s vc pa.toNat then
    let (v, s1) := regRead s vc cls pa.toNat
    .next (s1.answer (v.setWidth 64))
  else .next s

/-- RC_REGISTER_READ (00 R8, R11): the value and its clearing are one access. -/
def execRcRegisterRead (vc : Vc) (cls : ClassId) (pa : BitVec 48) (s : State) : Out :=
  if regReached s vc pa.toNat then
    let r := regRead s vc cls pa.toNat
    .next (r.2.answer (r.1.setWidth 64))
  else .next s

/-- A write of VIRQ_SEND posts: the core's older stores are performed before it (10 R320). -/
def sendReady (s : State) (vc : Vc) (pa : Nat) : Bool := paKind s pa != .pavCtl || pa % 65536 != 0x1000 || storesDone s vc

/-- REGISTER_WRITE (00 R8, R10). -/
def execRegisterWrite (vc : Vc) (cls : ClassId) (pa : BitVec 48) (v : W32) (s : State) : Out :=
  whenTrue (regReached s vc pa.toNat && sendReady s vc pa.toNat) s (regWrite s vc cls pa.toNat v)

/-- VIRQ_SEND_WRITE (10 R317, R318): the core's older stores are performed before it (10 R320). -/
def execVirqSendWrite (vc : Vc) (p : Pav) (v : W32) (s : State) : Out :=
  whenTrue (s.mode == .service && decide (vc.toNat < vcCount s.cmap.part) && storesDone s vc) s (virqSend s vc p v)

/-- The writes that a source has performed before a post take their place before it: a session's posted inbound writes, a function's DMA writes (10 R320). -/
def sourceWrites (s : State) (v : Nat) : State :=
  match v % 16 with
  | 1 => forceInbound s
  | 2 => drainRx s ((v / 16) % 2 == 1) (v / 32 % 4)
  | _ => s

/-- A function's DMA writes before a post have all been performed (10 R320). -/
def sourceReady (s : State) (v : Nat) : Bool := v % 16 != 2 || (s.link ((v / 16) % 2 == 1) (v / 32 % 4)).rx.isEmpty

/-- VIRQ_POST (10 R314, R320, R322; 13 R420): a source produces a post, which its route takes to its ID. -/
def execVirqPost (src : BitVec 64) (s : State) : Out :=
  let s1 := if s.dev.porst then s else sourceWrites s src.toNat
  .next (if !s.dev.porst && sourceReady s1 src.toNat then postSource s1 src else s1)

end Sys2Proof.Machine
end

