-- ==== Sys2Proof/Machine/GateOps.lean ====
section
/-! DEFINITION. How the Gatehouse executes a command: the checks of R415, staging, the commit of one command, the changed objects (13 R415 to R428). -/

namespace Sys2Proof.Machine

/-- A row of the opcode table: opcode, length in 16-byte units, modes by mode code, whether it may be staged, the right it needs, the flags and the target bits that its layout names (13 R416, R403). -/
structure CmdSpec where
  op : Nat
  len : Nat
  modes : BitVec 6
  stage : Bool
  right : Nat
  flags : Nat := 0
  target : Nat := 0
  /-- BAD_PARAM carries the DETAIL of the command's own chapter, whose packet checks have reason 0 (06 R177, 12 R398). -/
  ownDetail : Bool := false
  deriving DecidableEq, Repr

/-- Sets of modes: every mode; ASSEMBLY; SERVICE; both; both and REPAIR. -/
def mAll : BitVec 6 := 0x3F
def mA : BitVec 6 := 2
def mS : BitVec 6 := 4
def mAS : BitVec 6 := 6
def mASP : BitVec 6 := 14

/-- Rights by bit of LN_RIGHTS (13 R403). -/
def rInfo : Nat := 0
def rMode : Nat := 1
def rReset : Nat := 2
def rPav : Nat := 3
def rMem : Nat := 4
def rArbor : Nat := 5
def rQos : Nat := 6
def rFault : Nat := 7
def rFolly : Nat := 8
def rFw : Nat := 9
def rTime : Nat := 10
def rPcie : Nat := 11
def rObs : Nat := 12

/-- Part of a packet is zero. -/
def pkZero (p : Packet) (off n : Nat) : Bool := pkGet p off n == 0

/-- The command of an opcode that a lane presents, waiting to begin (13 R404). -/
def presented (s : State) (n : LaneNo) (op : Nat) : Option Packet :=
  let l := s.lane n
  match l.cur with
  | some p => if laneServed s n && !l.begun && pkOpcode p == op then some p else none
  | none => none

/-- The slate that a packet names, if the lane owns it (13 R423). -/
def ownSlate (s : State) (n : LaneNo) (id : Nat) : Option Slate :=
  match mget? s.gate.slates id with
  | some k => if k.lane = n then some k else none
  | none => none

/-- The byte offset of the first check that fails. -/
def firstBad : List (Nat × Bool) → Option Nat
  | [] => none
  | (o, ok) :: t => if ok then firstBad t else some o

/-- The packet checks that every command has after that of LENGTH, before its own by rising offset: FLAGS, TARGET (13 R413, R415 check 7). -/
def headChecks (c : CmdSpec) (p : Packet) : List (Nat × Bool) :=
  [(7, pkFlags p &&& c.flags == pkFlags p), (8, pkTarget p &&& c.target == pkTarget p)]

/-- BAD_PARAM with the offset of the field at fault in DETAIL[15:8] (13 R415). -/
def badAt (off : Nat) : Nat × Nat := (stBadParam, 256 * off)

/-- Checks 2 to 7 of R415, in order: the status and DETAIL of the first that fails; a wrong LENGTH is answered with its offset whatever the command (13 R406). `slated`: the header's SLATE names the command's slate and is no staging. -/
def earlyChecks (s : State) (n : LaneNo) (c : CmdSpec) (p : Packet) (slated : Bool) (own : List (Nat × Bool)) : Option (Nat × Nat) :=
  let id := pkSlate p
  let bad (o : Nat) : Nat × Nat := if c.ownDetail then (stBadParam, 0) else badAt o
  if !(c.right == 0 || (s.lane n).rights.getLsbD c.right) then some (stNoRight, 2 ^ c.right)
  else if !slated && !c.stage && id != 0 then some (bad 4)
  else if (slated || id != 0) && (ownSlate s n id).isNone then some (0x22, 0)
  else if !slated && id != 0 && (match ownSlate s n id with | some k => decide (4096 ≤ k.cmds.length) | none => false) then some (0x21, 0)
  else if !c.modes.getLsbD (modeCode s.mode) then some (stWrongMode, modeCode s.mode)
  else if pkLength p != c.len then some (badAt 6)
  else match firstBad (headChecks c p ++ own) with
    | some o => some (bad o)
    | none => none

/-- A status other than DONE. -/
def refuse (s : State) (n : LaneNo) (r : Nat × Nat) : State := reply s n r.1 r.2 0 0

/-- A commit is between its arming and its instant (13 R404, R426). -/
def armedAny (s : State) : Bool := s.gate.slates.any (fun k => k.2.armed.isSome)

/-- A command that changes configuration (13 R416, column Stage, and R425): its own packet checks, check 8, its effect at T, and the objects it changes. `image`: bytes read from memory when it is staged. -/
structure Cfg where
  spec : CmdSpec
  packet : State → Packet → List (Nat × Bool)
  image : State → Packet → List Byte := fun _ _ => []
  /-- The bytes of memory that it reads: where from, and how many; 0, none. -/
  reads : Packet → Nat × Nat := fun _ => (0, 0)
  /-- Checks at staging that read memory or counts: the folly image and its limit (06 R177, R189). -/
  staging : State → Packet → Option (Nat × Nat) := fun _ _ => none
  check : State → Packet → Option (Nat × Nat)
  apply : State → Packet → List Byte → State
  objs : State → Packet → List Obj

/-- The objects that a commit changes carry its number (13 R426). -/
def markChanged (s : State) (os : List Obj) : State :=
  let k := s.gate.seq + 1
  { s with gate := { s.gate with
    seq := k, changes := os.map (fun o => (o, k)) ++ s.gate.changes.filter (fun c => !os.contains c.1) } }

/-- A command is staged into its slate (13 R424). -/
def stageCmd (s : State) (n : LaneNo) (p : Packet) (img : List Byte) : State :=
  let id := pkSlate p
  match mget? s.gate.slates id with
  | none => s
  | some k =>
    let k1 := { k with cmds := k.cmds ++ [{ pkt := p, seq := s.gate.seq, image := img }], last := s.qz.time }
    reply { s with gate := { s.gate with slates := mput s.gate.slates id k1 } } n 2 k.cmds.length 0 0

/-- Steps 3 to 5 of a commit of one command: T is 5 µs on, the effect is applied at T, the reply carries T (13 R425). -/
def commitSingle (s : State) (n : LaneNo) (c : Cfg) (p : Packet) : State :=
  let os := c.objs s p
  let img := c.image s p
  let s1 := s.reach (s.qz.time + 5000)
  replyDone (markChanged (c.apply s1 p img) os) n 0 s1.qz.time 0

/-- The rows that hold a range of physical addresses lie below the fill pointer (09 R293). -/
def filled (s : State) (base n : Nat) : Bool := n == 0 || decide ((slotOf s.dram.mode ((base + n - 1) / 64)).r < s.dram.fill)

/-- A command reads n bytes of usable DRAM some of whose rows the fill has not passed: it waits (09 R293). -/
def readWaits (s : State) (base n : Nat) : Bool := inDram s.dram (base + n - 1) && !filled s base n

/-- A configuration command: checks, then staging or its commit; it waits while another commit is armed, or for rows of DRAM that it reads (09 R293; 13 R404, R415, R425, R426). -/
def configRow (s : State) (n : LaneNo) (c : Cfg) : State :=
  match presented s n c.spec.op with
  | none => s
  | some p =>
    match earlyChecks s n c.spec p false (c.packet s p) with
    | some r => refuse s n r
    | none =>
      if readWaits s (c.reads p).1 (c.reads p).2 then s
      else if pkSlate p ≠ 0 then
        match c.staging s p with
        | some r => refuse s n r
        | none => stageCmd s n p (c.image s p)
      else if armedAny s then s
      else match c.staging s p with
        | some r => refuse s n r
        | none => match c.check s p with
          | some r => refuse s n r
          | none => commitSingle s n c p

/-- A command that cannot be staged: checks 1 to 8, then its effect; one that changes an object waits while a commit is armed (13 R415, R426), and one that reads memory for the rows that it reads (09 R293). -/
def plainRow (s : State) (n : LaneNo) (c : CmdSpec) (changes : Bool) (own : Packet → List (Nat × Bool))
    (check : Packet → Option (Nat × Nat)) (run : Packet → State) (reads : Packet → Nat × Nat := fun _ => (0, 0)) : State :=
  match presented s n c.op with
  | none => s
  | some p =>
    match earlyChecks s n c p false (own p) with
    | some r => refuse s n r
    | none =>
      if (changes && armedAny s) || readWaits s (reads p).1 (reads p).2 then s
      else match check p with
        | some r => refuse s n r
        | none => run p

/-- The lane's command has begun and waits. -/
def beginCmd (s : State) (n : LaneNo) : State :=
  let l := s.lane n
  s.setLane n { l with begun := true }

/-- First failing check of a list of state checks, each a condition with its status; conditions stand in the order BAD_PARAM, BUSY_OBJECT, NO_RESOURCE (13 R415). -/
def firstFail : List (Bool × Nat × Nat) → Option (Nat × Nat)
  | [] => none
  | (ok, st, d) :: t => if ok then firstFail t else some (st, d)

/-- DRAM below the tags holds n bytes from an address on. -/
def dramHolds (s : State) (base n : Nat) : Bool := decide (0 < n) && inDram s.dram (base + n - 1)

/-- Two ranges overlap. -/
def overlaps (a n b k : Nat) : Bool := decide (a < b + k ∧ b < a + n)

/-- A class field names a pavilion or the hypervisor class (13 R416). -/
def classField (v : Nat) : Bool := decide (v ≤ 0x100)

/-- The pavilion of a number exists. -/
def pavExists (s : State) (p : Nat) : Bool := (s.pav (BitVec.ofNat 8 p)).st != .none

/-- An owner that exists: the hypervisor class, or a pavilion that is not NONE. -/
def ownerExists (s : State) (v : Nat) : Bool := v == 0x100 || pavExists s v

/-- Bytes of memory from an address on. -/
def readBytes (s : State) (pa n : Nat) : List Byte := (List.range n).map (fun i => BitVec.ofNat 8 (s.peek (pa + i) 1))

/-- The image lies within one assigned range of DRAM (06 R177 reason 0x0B; 12 R400 reason 0x08). -/
def inOneRange (s : State) (base n : Nat) : Bool :=
  s.gate.ranges.any (fun r => decide (r.base ≤ base ∧ base + n ≤ r.base + r.len))

end Sys2Proof.Machine
end

