-- ==== Sys2Proof/Machine/Seq.lean ====
section
/-! DEFINITION. The step sequencer: its instructions, waits and events (12 R379 to R385). -/

namespace Sys2Proof.Machine

/-- Fields of a sequencer word (12 R382). -/
def sqOp (w : W32) : Nat := (w.extractLsb' 26 6).toNat
def sqXa (w : W32) : Nat := (w.extractLsb' 23 3).toNat
def sqXb (w : W32) : Nat := (w.extractLsb' 20 3).toNat
def sqG (w : W32) : Nat := (w.extractLsb' 16 4).toNat
def sqImm (w : W32) : Nat := (w.extractLsb' 0 16).toNat

/-- The encoding stands in the table of R382 (12 R382, R400 reason 0x04). -/
def sqLegal (w : W32) : Bool :=
  let g := sqG w
  match sqOp w with
  | 0x01 | 0x03 => decide ((2 ≤ g ∧ g ≤ 7) ∨ g = 9) || (sqOp w == 3 && decide (g ≤ 1))
  | 0x02 => decide (g ≤ 9) && g != 8
  | 0x04 => decide (g ≤ 9)
  | 0x07 | 0x08 => decide (2 ≤ g ∧ g ≤ 9)
  | 0x05 | 0x06 | 0x09 | 0x0A | 0x0B | 0x0C => true
  | 0x0D => decide (g ≤ 8)
  | 0x0E => decide (g ≤ 7)
  | 0x0F => decide (g ≤ 5)
  | 0x10 => decide (sqImm w % 16 ≤ 4)
  | _ => false

/-- The data path: AD, AS, AP and AX[5:0] (12 R379). -/
def onPath (g : Nat) : Bool := decide (g ≤ 3)

/-- An output: on the data path only by its holder, else it is counted and not performed (12 R380). -/
def outputTo (s : State) (th : Thread) (path : Bool) (f : State → State) : State :=
  if path && s.arb.path != some th then { s with arb := { s.arb with pathDenied := satAdd32 s.arb.pathDenied 1 } } else f s

/-- The register of a thread. -/
def xGet (t : SeqThread) (i : Nat) : W32 := mget t.x i 0
/-- Sets a register of a thread. -/
def xSet (s : State) (th : Thread) (i : Nat) (v : W32) : State :=
  let t := s.thread th
  s.setThread th { t with x := mput t.x i v }

/-- A thread executes a word: it runs, waits for nothing, the word is of the row's kind and, where the image is loaded, stands at the program counter, which then moves on (12 R379, R382). -/
def seqRow (s : State) (th : Thread) (w : W32) (op : Nat) (f : State → SeqThread → State) : Out :=
  let t := s.thread th
  let here := match s.arb.prof with
    | some p => p.insn.isEmpty || p.insn[t.pc.toNat]? == some w
    | none => false
  let ok := s.arb.running && !s.dev.porst && t.wait == .ready && sqOp w == op && sqLegal w && here
  whenTrue ok s (f (s.setThread th { t with pc := t.pc + 1 }) t)

/-- Lines of a group take levels; one that makes ARST_N fall is an assertion like another's (12 R395). -/
def putLines (s : State) (g : Nat) (mask val : W32) : State :=
  let t := driveLines s g mask val
  if arstLow t && !arstLow s then arstFell t else t

/-- SEQ_OUT (12 R380, R382). -/
def execSeqOut (th : Thread) (w : W32) (s : State) : Out :=
  seqRow s th w 1 (fun t _ => outputTo t th (onPath (sqG w)) (fun u =>
    putLines u (sqG w) (BitVec.ofNat 32 (sqImm w / 256)) (BitVec.ofNat 32 (sqImm w % 256))))

/-- SEQ_DRV (11 R355; 12 R380, R382): with the parity of the byte lanes. -/
def execSeqDrv (th : Thread) (w : W32) (s : State) : Out :=
  seqRow s th w 2 (fun t q => outputTo t th (onPath (sqG w)) (fun u =>
    driveParity (putLines u (sqG w) (groupMask (sqG w)) (xGet q (sqXa w))) (sqG w) (xGet q (sqXa w))))

/-- SEQ_REL (11 R355; 12 R380, R382): byte lanes take their parity lines with them. -/
def execSeqRel (th : Thread) (w : W32) (s : State) : Out :=
  seqRow s th w 3 (fun t _ => outputTo t th (onPath (sqG w)) (fun u =>
    releaseLines (releaseLines u 3 (parityLines u (sqG w))) (sqG w) (if sqG w < 2 then 0xFFFFFFFF else BitVec.ofNat 32 (sqImm w / 256))))

/-- A byte lane of group 0 or 1 with parity enabled fails its check against the AP lines, which keep the levels last reported (11 R355; 12 R373, R382; DESIGN CHOICE, log entry 101). The sense of the parity is the profile's, and free. -/
def lanesFail (s : State) (g : Nat) (v : W32) : Bool :=
  let ap := sampleLines s 3 (mget s.arb.bus 3 0xFFFFFFFF)
  (List.range 4).any (fun i => (parityLines s g).getLsbD (4 * g + i) && laneParity s (v >>> (8 * i)) != ap.getLsbD (4 * g + i))

/-- SEQ_SMP (11 R355; 12 R382): the group's levels, and P where a byte lane with parity enabled fails its check. -/
def execSeqSmp (th : Thread) (w lines : W32) (s : State) : Out :=
  seqRow s th w 4 (fun t _ =>
    let g := sqG w
    let v := sampleLines t g lines
    let t1 := xSet (noteLines t g lines) th (sqXa w) v
    let q := t1.thread th
    t1.setThread th { q with p := lanesFail t g v })

/-- The values that AX takes when some of its bits change: where a DIR bit turns, its OE_N is 1 first, DIR changes next, and OE_N is restored last, break before make (12 R377). -/
def axSteps (old new : BitVec 8) : List (BitVec 8) :=
  let turn := (old ^^^ new) &&& 0x15#8
  if turn = 0 then [new]
  else
    let off := turn <<< 1
    [old ||| off, (old &&& ~~~ turn) ||| (new &&& turn) ||| off, new]

/-- AX[5:0] takes a value. -/
def setAx (s : State) (mask val : BitVec 8) : State :=
  let new := (s.arb.ax &&& ~~~ mask) ||| (val &&& mask)
  { s with arb := { s.arb with ax := new, axTurn := axSteps s.arb.ax new } }

/-- SEQ_AXS (12 R377, R380): AX[5:0], each turn break-before-make. -/
def execSeqAxs (th : Thread) (w : W32) (s : State) : Out :=
  seqRow s th w 5 (fun t _ => outputTo t th true (fun u =>
    setAx u (BitVec.ofNat 8 (sqImm w / 256 % 64)) (BitVec.ofNat 8 (sqImm w))))

/-- A thread starts a wait. -/
def startWait (t : State) (th : Thread) (k : SeqWait) : State :=
  let q := t.thread th
  t.setThread th { q with wait := k }

/-- SEQ_DLY (12 R383). -/
def execSeqDly (th : Thread) (w : W32) (s : State) : Out :=
  seqRow s th w 6 (fun t _ => startWait t th (.delay (sqImm w)))

/-- SEQ_DLY_EXPIRY (12 R383): the delay has passed. -/
def execSeqDlyExpiry (th : Thread) (s : State) : Out :=
  let q := s.thread th
  match q.wait with
  | .delay _ => .next (s.setThread th { q with wait := .ready })
  | _ => .next s

/-- SEQ_WT (12 R382). -/
def execSeqWt (th : Thread) (w : W32) (s : State) : Out :=
  seqRow s th w 7 (fun t _ => startWait t th
    (.line (BitVec.ofNat 4 (sqG w)) (BitVec.ofNat 8 (sqImm w / 256)) (BitVec.ofNat 8 (sqImm w)) false))

/-- SEQ_WTN (12 R382). -/
def execSeqWtn (th : Thread) (w : W32) (s : State) : Out :=
  seqRow s th w 8 (fun t _ => startWait t th
    (.line (BitVec.ofNat 4 (sqG w)) (BitVec.ofNat 8 (sqImm w / 256)) (BitVec.ofNat 8 (sqImm w)) true))

/-- SEQ_WTE (12 R382). -/
def execSeqWte (th : Thread) (w : W32) (s : State) : Out :=
  seqRow s th w 9 (fun t _ => startWait t th (.event (BitVec.ofNat 16 (sqImm w))))

/-- An engine event reaches a thread: x6 holds its number; in its idle routine MST goes to the entry of the cycle's kind (12 R377, R381, R382). -/
def takeEvent (s : State) (th : Thread) (e : Nat) : State :=
  let atIdle := th == 0 && e == 0 && (s.thread 0).idle
  let s1 := xSet { s with arb := { s.arb with events := s.arb.events &&& ~~~ (1#16 <<< e) } } th 6 (BitVec.ofNat 32 e)
  let q := s1.thread th
  let pc := if atIdle then
      match s.arb.prof with
      | some p => ((p.entry[(mget s.arb.fields 0 0).toNat]?).getD 0).setWidth 12
      | none => q.pc
    else q.pc
  s1.setThread th { q with wait := .ready, t := false, pc := pc, idle := q.idle && !atIdle }

/-- SEQ_WAIT_COMPLETE (12 R381 to R384): a line's condition holds with the levels reported, or an event of the mask is pending; among several the device takes any one. -/
def execSeqWaitComplete (th : Thread) (lines : W32) (s : State) : Out :=
  let q := s.thread th
  match q.wait with
  | .line g mask val ne =>
    let v := (sampleLines s g.toNat lines).setWidth 8 &&& mask
    let ok := if ne then v != val else v == val
    whenTrue ok s ((noteLines s g.toNat lines).setThread th { q with wait := .ready, t := false })
  | .event mask =>
    let l := (List.range 16).filter (fun i => (s.arb.events &&& mask).getLsbD i)
    match l with
    | [] => .next s
    | [e] => .next (takeEvent s th e)
    | e :: _ => let (f, s1) := s.free; .next (takeEvent s1 th ((l[f.toNat % l.length]?).getD e))
  | _ => .next s

/-- SEQ_WAIT_TIMEOUT (12 R382, R383): x7 units elapse before the wait's condition holds; x7 = 0 sets no limit. -/
def execSeqWaitTimeout (th : Thread) (s : State) : Out :=
  let q := s.thread th
  let waits := match q.wait with
    | .line .. | .event _ => true
    | _ => false
  whenTrue (waits && xGet q 7 != 0) s (s.setThread th { q with wait := .ready, t := true })

/-- The bus address and data of the engine fields. -/
def fieldAddr (s : State) : W64 := (mget s.arb.fields 1 0).setWidth 64 ||| ((mget s.arb.fields 2 0).setWidth 64 <<< 32)
/-- The data fields. -/
def fieldData (s : State) : W64 := (mget s.arb.fields 4 0).setWidth 64 ||| ((mget s.arb.fields 5 0).setWidth 64 <<< 32)

/-- The data of a read phase under way are due: RDATA, with the beat in DATA_LO and DATA_HI (12 R382). -/
def readBeat (s : State) : State :=
  match execInboundReadData ((mget s.arb.fields 3 0).extractLsb' 16 4).toNat s with
  | .next t => if t.arb.phase = s.arb.phase then s
    else raiseEvent (setField (setField t 4 (t.out.setWidth 32)) 5 ((t.out >>> 32).setWidth 32)) 11
  | _ => s

/-- The engine's answer to DECODE: ACCEPT with the data path, REFUSE with RESP, or NOMATCH; a read's data follows as RDATA (12 R380, R382). -/
def onDecode (s : State) : State :=
  let attr := mget s.arb.fields 3 0
  let write := attr.getLsbD 11
  match (if answersPhases s && slvFree s then decidePhase s (attr.extractLsb' 8 3) (attr.setWidth 8) (fieldAddr s) write true else none) with
  | none => raiseEvent s 8
  | some t =>
    match t.arb.phase with
    | some ph =>
      if ph.answer = .accept then
        let t1 := raiseEvent { t with arb := { t.arb with path := some 1 } } 6
        if write then t1 else readBeat t1
      else raiseEvent (setField t 10 (if ph.answer = .retry then 1 else 0)) 7
    | none => raiseEvent t 8

/-- MST has carried a beat of a burst with an acknowledge: the engine takes it and gives the next beat, while the tenure lasts (12 R382, NEXT; R389). -/
def nextBeat (s : State) : State :=
  match s.arb.cycle with
  | none => s
  | some c =>
    if s.arb.beats ≤ 1 then s
    else
      let t := endCycle s c .ack false (fieldData s)
      if t.arb.beats = 0 then t else (startCycle t c.ses).getD t

/-- The engine's part in an event that a thread raises (12 R380, R382). -/
def onSignal (s : State) (th : Thread) (e : Nat) : State :=
  match e, th.toNat with
  | 2, 2 => raiseEvent { s with arb := { s.arb with path := some 0 } } 2
  | 3, 0 => raiseEvent { s with arb := { s.arb with path := if s.arb.path == some 0 then none else s.arb.path } } 3
  | 5, 1 => onDecode s
  | 9, 1 =>
    let n := ((mget s.arb.fields 3 0).extractLsb' 16 4).toNat
    match execInboundWriteData n (fieldData s) true false s with
    | .next t => if t = s then s else raiseEvent t 10
    | _ => s
  | 4, 2 => raiseYield s
  | 12, 0 => nextBeat s
  | 12, 1 => if s.arb.phase.any (fun ph => ph.write) then s else readBeat s
  | 13, 0 => match s.arb.ack with
    | some l => takeVector s l.toNat (mget s.arb.fields 4 0)
    | none => s
  | _, _ => raiseEvent s e

/-- SEQ_SIG (12 R382). -/
def execSeqSig (th : Thread) (w : W32) (s : State) : Out :=
  seqRow s th w 0x0A (fun t _ => onSignal t th (sqImm w % 16))

/-- The PARAM and ROLES fields (12 R382). -/
def paramField (s : State) : W32 :=
  match s.arb.prof with
  | some p => BitVec.ofNat 32 (p.txd.toNat + 256 * p.skew.toNat + 65536 * p.arbMode.toNat + 16777216 * p.options.toNat)
  | none => 0
/-- ROLES. -/
def rolesField (s : State) : W32 :=
  let r := s.arb.roles
  BitVec.ofNat 32 (r.reqLevel.toNat + 4 * r.syscon.toNat + 256 * r.handler.toNat)

/-- SEQ_LDE (12 R382): PARAM and ROLES hold what the load and the commit gave them until STE writes them; the fields 11 to 15 have no meaning, and reading one gives a free value. -/
def execSeqLde (th : Thread) (w : W32) (s : State) : Out :=
  seqRow s th w 0x0B (fun t _ =>
    let i := sqImm w % 16
    if i = 8 then xSet t th (sqXa w) (mget t.arb.fields 8 (paramField t))
    else if i = 9 then xSet t th (sqXa w) (mget t.arb.fields 9 (rolesField t))
    else if 11 ≤ i then let (f, t1) := t.free; xSet t1 th (sqXa w) (f.setWidth 32)
    else xSet t th (sqXa w) (mget t.arb.fields i 0))

/-- SEQ_STE (12 R382). -/
def execSeqSte (th : Thread) (w : W32) (s : State) : Out :=
  seqRow s th w 0x0C (fun t q => setField t (sqImm w % 16) (xGet q (sqXa w)))

/-- The 4 bytes of a word reversed. -/
def revWord (v : W32) : W32 := v.extractLsb' 0 8 ++ v.extractLsb' 8 8 ++ v.extractLsb' 16 8 ++ v.extractLsb' 24 8

/-- The operations of OPR and OPI (12 R382). -/
def seqAlu (g : Nat) (x y : W32) : W32 :=
  match g with
  | 0 => y
  | 1 => x &&& y
  | 2 => x ||| y
  | 3 => x ^^^ y
  | 4 => x + y
  | 5 => x - y
  | 6 => x <<< (y.toNat % 32)
  | 7 => x >>> (y.toNat % 32)
  | _ => revWord y

/-- SEQ_OPR (12 R382). -/
def execSeqOpr (th : Thread) (w : W32) (s : State) : Out :=
  seqRow s th w 0x0D (fun t q => xSet t th (sqXa w) (seqAlu (sqG w) (xGet q (sqXa w)) (xGet q (sqXb w))))

/-- SEQ_OPI (12 R382). -/
def execSeqOpi (th : Thread) (w : W32) (s : State) : Out :=
  seqRow s th w 0x0E (fun t q => xSet t th (sqXa w) (seqAlu (sqG w) (xGet q (sqXa w)) (BitVec.ofNat 32 (sqImm w))))

/-- SEQ_BR (12 R382). -/
def execSeqBr (th : Thread) (w : W32) (s : State) : Out :=
  seqRow s th w 0x0F (fun t q =>
    let go := match sqG w with
      | 0 => true
      | 1 => xGet q (sqXa w) == 0
      | 2 => xGet q (sqXa w) != 0
      | 3 => q.t
      | 4 => !q.t
      | _ => q.p
    if go then
      let r := t.thread th
      t.setThread th { r with pc := BitVec.ofNat 12 (sqImm w) }
    else t)

/-- The response that an END code of MST reports (12 R382; 11 R361). -/
def endResp : Nat → BusResp × Bool
  | 0 => (.ack, false)
  | 1 => (.busError, false)
  | 2 => (.ack, true)
  | 3 => (.parityError, false)
  | _ => (.retry, false)

/-- SEQ_END (12 R377, R380 to R382): the thread returns to its idle entry; MST's cycle ends with the code, and MST keeps the data path until it raises DONE; SLV gives the data path up. A shipped profile sets AX[5:0] to zero at the end of every cycle. -/
def execSeqEnd (th : Thread) (w : W32) (s : State) : Out :=
  seqRow s th w 0x10 (fun t _ =>
    let code := sqImm w % 16
    let r := t.thread th
    let t0 := t.setThread th { r with pc := idlePc t th, wait := .ready, endCode := BitVec.ofNat 4 code, idle := true }
    let shipped := match t0.arb.prof with | some p => p.insn.isEmpty | none => false
    let t1 := if shipped && decide (th.toNat < 2) then setAx t0 0x3F 0 else t0
    if th = 0 then
      match t1.arb.cycle, t1.arb.ack with
      | some c, _ => endCycle t1 c (endResp code).1 (endResp code).2 (fieldData t1)
      | none, some _ => endAck t1
      | none, none => t1
    else if th = 1 then
      let old := t1.arb.phase.map (·.ses)
      let t2 := { t1 with arb := { t1.arb with path := if t1.arb.path == some 1 then none else t1.arb.path, phase := none } }
      match old with
      | some n => trySes t2 n
      | none => t2
    else t1)

end Sys2Proof.Machine
end

