-- ==== Sys2Proof/Machine/GateArb.lean ====
section
/-! DEFINITION. The commands on Arbor: profiles, roles, sessions and their windows (11 R333 to R345, R365, R369; 12 R374 to R377, R395 to R400; 13 R416, R419). -/

namespace Sys2Proof.Machine

/-- TARGET [13:0]: a session. -/
def pkSes (p : Packet) : Ses := BitVec.ofNat 14 (pkTarget p)

/-- SESSION_OPEN (11 R336, R337; 13 R419). -/
def cfgSessionOpen : Cfg where
  spec := { op := 0x0402, len := 2, modes := mAS, stage := true, right := rArbor, target := 0x3FFF }
  packet := fun _ p => [
    (17, decide (pkGet p 17 1 ≤ 1)), (18, decide (pkGet p 18 1 ≤ 63)), (19, decide (pkGet p 19 1 ≤ 10) || pkGet p 19 1 == 0xFF),
    (20, decide (pkGet p 20 2 ≤ 1000)), (23, pkZero p 23 9)]
  check := fun s p => firstFail [
    (pavExists s (pkGet p 16 1), badAt 16), ((s.ses (pkSes p)).st == .closed, stBusy, 0),
    (pkGet p 17 1 == 0 || decide ((s.arb.ses.filter (fun e => e.2.st != .closed && e.2.safety)).length < 64), stNoResource, 0)]
  apply := fun s p _ =>
    let k := pkGet p 19 1
    let w := pkGet p 20 2
    s.setSes (pkSes p) { s.ses (pkSes p) with
      st := .open_, owner := BitVec.ofNat 8 (pkGet p 16 1), safety := pkGet p 17 1 == 1, domain := BitVec.ofNat 6 (pkGet p 18 1),
      tsK := if k = 0xFF then 6 else k, wedgeMs := if w = 0 then 10 else w, retryLim := pkGet p 22 1 }
  objs := fun _ p => [.ses (pkSes p)]

/-- Common fields of SESSION_WINDOW_SET (13 R419). -/
def wsKind (p : Packet) : Nat := pkGet p 16 1
def wsIndex (p : Packet) : Nat := pkGet p 17 1
def wsEn (p : Packet) : Bool := pkGet p 18 1 == 1

/-- KIND 0 as an outbound window (13 R419). -/
def wsOut (p : Packet) : OutWin where
  base := pkGet p 24 8
  logSize := pkGet p 32 1
  space := BitVec.ofNat 3 (pkGet p 19 1)
  am := BitVec.ofNat 8 (pkGet p 20 1)
  busBase := BitVec.ofNat 64 (pkGet p 40 8)
  width := BitVec.ofNat 2 (pkGet p 21 1)
  addrOrder := pkGet p 22 1 == 1
  rmw := pkGet p 23 1 == 1

/-- KIND 1 as an inbound window (13 R419). -/
def wsIn (p : Packet) : InWin where
  space := BitVec.ofNat 3 (pkGet p 19 1)
  amMatch := BitVec.ofNat 8 (pkGet p 20 1)
  amMask := BitVec.ofNat 8 (pkGet p 21 1)
  busBase := BitVec.ofNat 64 (pkGet p 32 8)
  logSize := pkGet p 27 1
  ipaBase := pkGet p 40 8
  rd := pkGet p 22 1 == 1
  wr := pkGet p 23 1 == 1
  addrOrder := pkGet p 24 1 == 1
  post := pkGet p 25 1 == 1
  respErr := pkGet p 26 1 == 1

/-- KIND 2 as an interrupt-map entry (13 R419). -/
def wsMap (p : Packet) : IMap where
  level := BitVec.ofNat 3 (pkGet p 19 1)
  vmatch := BitVec.ofNat 32 (pkGet p 24 4)
  vmask := BitVec.ofNat 32 (pkGet p 28 4)
  width := BitVec.ofNat 2 (pkGet p 20 1)
  rora := pkGet p 21 1 == 1

/-- Checks of the fields of an enabled object, by KIND (11 R338, the tables before R339, R345 and R357; 13 R419). -/
def wsFields (p : Packet) : List (Nat × Bool) :=
  match wsKind p with
  | 0 =>
    let w := wsOut p
    [(19, decide (pkGet p 19 1 ≤ 4)), (21, decide (pkGet p 21 1 ≤ 3)), (22, decide (pkGet p 22 1 ≤ 1)),
     (23, decide (pkGet p 23 1 ≤ 1)),
     (24, decide (0xC00000000000 ≤ w.base ∧ w.base ≤ 0xC0FFFF000000) && w.base % 2 ^ min w.logSize 36 == 0),
     (32, decide (24 ≤ w.logSize ∧ w.logSize ≤ 36)), (33, pkZero p 33 7)]
  | 1 =>
    let w := wsIn p
    let small := w.space == 0 || w.space == 4
    [(19, decide (pkGet p 19 1 ≤ 4)), (22, decide (pkGet p 22 1 ≤ 1)), (23, decide (pkGet p 23 1 ≤ 1)),
     (24, decide (pkGet p 24 1 ≤ 1 ∧ pkGet p 25 1 ≤ 1 ∧ pkGet p 26 1 ≤ 1)
        && decide (12 ≤ w.logSize ∧ w.logSize ≤ if small then 16 else 36)),
     (28, pkZero p 28 4), (32, w.busBase.toNat % 2 ^ min w.logSize 36 == 0),
     (40, w.ipaBase % 4096 == 0 && decide (w.ipaBase + 2 ^ min w.logSize 36 ≤ 2 ^ 48))]
  | _ =>
    [(19, decide (pkGet p 19 1 ≤ 7)), (20, decide (pkGet p 20 1 ≤ 2)), (21, decide (pkGet p 21 1 ≤ 1)), (22, pkZero p 22 2),
     (32, pkZero p 32 16)]

/-- The loaded profile supports a LEVEL: IRQ1 to IRQ7 on P-1014 and P-VITA1, every line otherwise (12 R378, R386). -/
def levelOk (s : State) (l : BitVec 3) : Bool := !(s.vme && l == 0)

/-- The object lies within the loaded profile's support (12 R386). -/
def wsSupported (s : State) (p : Packet) : Option Nat :=
  let c := s.caps
  match wsKind p with
  | 0 =>
    let w := wsOut p
    firstBad [(19, c.spaces.getLsbD w.space.toNat), (21, c.widths.getLsbD w.width.toNat), (23, !w.rmw || c.rmw)]
  | 1 => firstBad [(19, c.spaces.getLsbD (wsIn p).space.toNat)]
  | _ =>
    let m := wsMap p
    firstBad [(19, s.arb.prof.isSome && levelOk s m.level), (20, c.iack.getLsbD m.width.toNat)]

/-- Every 4 KiB page of a safety session's window translates into the keep region (11 R369). -/
def inKeepWholly (s : State) (owner : Pav) (w : InWin) : Bool :=
  (List.range (2 ^ min w.logSize 21 / 4096)).all (fun i =>
    match inboundWalk s (s.pav owner) (w.ipaBase + 4096 * i) .read with
    | .ok (e, _) => inKeep s (e.ppage.toNat * 4096)
    | .error _ => false)

/-- The rule of a safety session's inbound windows (11 R369). -/
def safetyOk (s : State) (n : Ses) (i : Nat) (w : InWin) : Bool :=
  let e := s.ses n
  !e.safety
    || (decide (2 ^ w.logSize + ((mdel e.inw i).map (fun x => 2 ^ x.2.logSize)).foldl (· + ·) 0 ≤ 0x200000)
      && inKeepWholly s e.owner w)

/-- With this window, the inbound windows of all safety sessions cover at most 4 MiB (15 R475). -/
def safetyRoom (s : State) (n : Ses) (i : Nat) (w : InWin) : Bool :=
  !(s.ses n).safety
    || decide (2 ^ w.logSize + ((s.arb.ses.filter (fun e => e.2.safety)).map (fun e =>
        ((e.2.inw.filter (fun x => !(e.1 == n.toNat && x.1 == i))).map (fun x => 2 ^ x.2.logSize)).foldl (· + ·) 0)).foldl (· + ·) 0
      ≤ 0x400000)

/-- Another outbound window shares a slot of 16 MiB (11 R340). -/
def outOverlaps (s : State) (n : Ses) (i : Nat) (w : OutWin) : Bool :=
  s.arb.ses.any (fun e => e.2.outw.any (fun x =>
    !(e.1 == n.toNat && x.1 == i) && overlaps w.base (2 ^ w.logSize) x.2.base (2 ^ x.2.logSize)))

/-- Another inbound window of the space overlaps (11 R345). -/
def inOverlaps (s : State) (n : Ses) (i : Nat) (w : InWin) : Bool :=
  s.arb.ses.any (fun e => e.2.inw.any (fun x =>
    !(e.1 == n.toNat && x.1 == i) && x.2.space == w.space
      && overlaps w.busBase.toNat (2 ^ w.logSize) x.2.busBase.toNat (2 ^ x.2.logSize)))

/-- Enabled inbound windows of every session but one (11 R345). -/
def inCount (s : State) (n : Ses) (i : Nat) : Nat :=
  (s.arb.ses.map (fun e => (e.2.inw.filter (fun x => !(e.1 == n.toNat && x.1 == i))).length)).foldl (· + ·) 0

/-- State checks of an enabled object (11 R338, R340, R345, R369; 12 R386). -/
def wsCheck (s : State) (p : Packet) : Option (Nat × Nat) :=
  let n := pkSes p
  let e := s.ses n
  let ready := e.st == .open_ || e.st == .halted
  if !wsEn p then (if ready then none else some (stBusy, 0))
  else match wsSupported s p with
    | some o => some (badAt o)
    | none =>
      match wsKind p with
      | 0 => firstFail [(ready && !outOverlaps s n (wsIndex p) (wsOut p), stBusy, 0)]
      | 1 => firstFail [
          (safetyOk s n (wsIndex p) (wsIn p), badAt 40), (ready && !inOverlaps s n (wsIndex p) (wsIn p), stBusy, 0),
          (decide (inCount s n (wsIndex p) < 1024) && safetyRoom s n (wsIndex p) (wsIn p), stNoResource, 0)]
      | _ => firstFail [(ready, stBusy, 0)]

/-- The lines of the enabled inbound windows of a session, at their physical addresses (11 R369). -/
def windowLines (s : State) (e : Session) : List LineNo :=
  e.inw.flatMap (fun x => (List.range (2 ^ min x.2.logSize 21 / 4096)).flatMap (fun i =>
    match inboundWalk s (s.pav e.owner) (x.2.ipaBase + 4096 * i) .read with
    | .ok (t, _) => (List.range 64).map (fun j => BitVec.ofNat 42 (t.ppage.toNat * 64 + j))
    | .error _ => []))

/-- Belvedere holds every line of the safety sessions' windows (08 R264; 11 R369): those that it does not hold yet it reads. -/
def holdWindows (s : State) : State :=
  let ls := (s.arb.ses.filter (fun p => p.2.safety && p.2.st != .closed)).flatMap (fun p => windowLines s p.2)
  let s1 := { s with fab := { s.fab with spine := { s.fab.spine with resident := ls } } }
  (ls.filter (fun l => (mget? s.fab.spine.blv l.toNat).isNone)).foldl (fun t l => blvTake t l (dramPeek t.dram l)) s1

/-- SESSION_WINDOW_SET (11 R336, R338, R359; 13 R419). -/
def cfgSessionWindowSet : Cfg where
  spec := { op := 0x0403, len := 3, modes := mAS, stage := true, right := rArbor, target := 0x3FFF }
  packet := fun _ p =>
    [(16, decide (wsKind p ≤ 2)), (17, decide (wsIndex p ≤ if wsKind p = 2 then 7 else 3)), (18, decide (pkGet p 18 1 ≤ 1))]
      ++ (if wsEn p then wsFields p else [])
  check := wsCheck
  apply := fun s p _ =>
    let n := pkSes p
    let e := s.ses n
    let i := wsIndex p
    match wsKind p with
    | 0 => s.setSes n { e with outw := mset? e.outw i (if wsEn p then some (wsOut p) else none) }
    | 1 =>
      let s1 := s.setSes n { e with inw := mset? e.inw i (if wsEn p then some (wsIn p) else none) }
      if e.safety then holdWindows s1 else s1
    | _ =>
      let s1 := s.setSes n { e with imap := mset? e.imap i (if wsEn p then some (wsMap p) else none) }
      if wsEn p then s1 else releaseLevels s1 n (fun k => k.toNat == i)
  objs := fun _ p => [.win (pkSes p) (wsKind p) (wsIndex p)]

/-- SESSION_CLOSE and SESSION_RESET (13 R416). -/
def specSessionClose : CmdSpec := { op := 0x0404, len := 1, modes := mAS, stage := false, right := rArbor, target := 0x3FFF }
def specSessionReset : CmdSpec := { op := 0x0405, len := 1, modes := mS, stage := false, right := rArbor, flags := 1, target := 0x3FFF }

/-- States in which a session may be reset or closed (11 R336). -/
def sesFree (s : State) (p : Packet) : Option (Nat × Nat) :=
  let st := (s.ses (pkSes p)).st
  if st = .closed ∨ st = .resetting ∨ (s.ses (pkSes p)).wait.isSome = true then some (stBusy, 0) else none

/-- The session's reset begins (11 R365). -/
def beginSes (s : State) (lane : LaneNo) (p : Packet) (close halt : Bool) : State :=
  resetSession (markChanged (beginCmd s lane) [.ses (pkSes p)]) (pkSes p) close halt (some lane) (BitVec.ofNat 16 (pkTag p))

/-- A role that the loaded profile does not support, by its offset (11 R333; 12 R386). -/
def roleBad (s : State) (p : Packet) : Option Nat :=
  match s.arb.prof with
  | none => some 0
  | some pr => firstBad [
      (16, pkGet p 16 1 == 0 || pr.caps.syscon), (19, pkGet p 19 1 == 0 || s.profCode != 3),
      (20, !(s.vme && pkGet p 20 1 % 2 == 1) && (pkGet p 20 1 == 0 || pr.caps.iack != 0))]

/-- The roles of a packet (13 R416). -/
def roleOf (p : Packet) : Roles where
  syscon := pkGet p 16 1 == 1
  master := pkGet p 17 1 == 1
  slave := pkGet p 18 1 == 1
  reqLevel := BitVec.ofNat 2 (pkGet p 19 1)
  handler := BitVec.ofNat 8 (pkGet p 20 1)
  busTimer := pkGet p 21 1

/-- The threads start at their idle entries (12 R381). -/
def startThreads (s : State) : State :=
  let one (t : State) (i : Nat) : State := t.setThread (BitVec.ofNat 2 i) { pc := idlePc t (BitVec.ofNat 2 i) }
  [0, 1, 2, 3].foldl one { s with arb := { s.arb with threads := [], events := 0, path := none, running := true } }

/-- The roles commit: AX, ARST_N for RST_TIME at the first commit with SYSCON after a load, AFAIL under P-1014 and P-VITA1, the clock lines (11 R333; 12 R377, R378, R381, R395, R396). The shipped profiles' idle entries set AX[5:0] to zero. -/
def commitRoles (s : State) (r : Roles) : State :=
  let first := r.syscon && !s.arb.rstDone
  let rst := match s.arb.prof with | some p => p.rstTime | none => 0
  let low : BitVec 8 := if s.profCode.toNat ≤ 3 then 0 else 0x2A
  let ax := low ||| (if r.syscon then 0x40 else 0)
  startThreads { s with arb := { s.arb with
    roles := r, fields := mdel s.arb.fields 9, clocks := clockLines s r, axTurn := axSteps s.arb.ax ax, roleSet := true, rstDone := s.arb.rstDone || first,
    arstUntil := if first then some (s.qz.time + rst * 1000000) else s.arb.arstUntil,
    afailOut := s.arb.afailOut || s.vme, ax := ax } }

/-- ARB_ROLE_SET (11 R333). -/
def cfgArbRoleSet : Cfg where
  spec := { op := 0x0406, len := 2, modes := mA, stage := true, right := rArbor }
  packet := fun _ p => [
    (16, decide (pkGet p 16 1 ≤ 1)), (17, decide (pkGet p 17 1 ≤ 1)), (18, decide (pkGet p 18 1 ≤ 1)),
    (19, decide (pkGet p 19 1 ≤ 3)), (21, decide (pkGet p 21 1 ≤ 10)), (22, pkZero p 22 10)]
  check := fun s p => (roleBad s p).map badAt
  apply := fun s p _ => commitRoles s (roleOf p)
  objs := fun _ _ => [.arbPort]

/-- The words of an image from an offset on. -/
def imgWords (l : List Byte) (off n : Nat) : List W32 := (List.range n).map (fun i => BitVec.ofNat 32 (leField l (off + 4 * i) 4))

/-- CAPS and BURST of a P-GEN image (12 R399). -/
def imgCaps (l : List Byte) : Caps :=
  let v : W32 := BitVec.ofNat 32 (leField l 20 4)
  { spaces := v.extractLsb' 0 5, widths := v.extractLsb' 5 4, rmw := v.getLsbD 9, block := v.getLsbD 10, retry := v.getLsbD 11,
    iack := v.extractLsb' 12 3, syscon := v.getLsbD 15, bigEndian := v.getLsbD 16, parity := v.extractLsb' 17 8, burst := leField l 24 2 }

/-- ENTRY of a P-GEN image (12 R399). -/
def imgEntry (l : List Byte) (i : Nat) : Nat := leField l (128 + 2 * i) 2

/-- The instructions that a thread can reach from some entries: a work list over the program (12 R381, R382). -/
def seqReach (insn : List W32) : Nat → List Nat → List Nat → List Nat
  | 0, _, seen => seen
  | _ + 1, [], seen => seen
  | k + 1, i :: work, seen =>
    if seen.contains i then seqReach insn k work seen
    else match insn[i]? with
      | none => seqReach insn k work seen
      | some w =>
        let next := match sqOp w with
          | 0x10 => []
          | 0x0F => if sqG w = 0 then [sqImm w % 4096] else [i + 1, sqImm w % 4096]
          | _ => [i + 1]
        seqReach insn k (next ++ work) (i :: seen)

/-- The byte of LINES for a line (12 R399). -/
def imgLine (l : List Byte) (j : Nat) : Byte := (l[64 + j]?).getD 0

/-- The lines to which an instruction puts out, off the data path (12 R380, R382). -/
def outLines (w : W32) : List Nat :=
  let g := sqG w
  let mask : Nat := match sqOp w with
    | 0x01 | 0x03 => sqImm w / 256
    | 0x02 => (groupMask g).toNat
    | _ => 0
  if g ≤ 3 then [] else ((List.range 8).filter (fun i => mask / 2 ^ i % 2 = 1)).filterMap (lineByte g)

/-- An output of a thread goes to a line that is not its own (12 R379, R400 reason 0x05). -/
def outBad (l : List Byte) (th : Nat) (w : W32) : Bool :=
  (outLines w).any (fun j =>
    let b := imgLine l j
    b.extractLsb' 2 2 != BitVec.ofNat 2 th || decide ((b.extractLsb' 0 2).toNat < 2))

/-- The entries at which each thread starts (12 R379, R381). -/
def threadStarts (l : List Byte) (th : Nat) : List Nat :=
  let es := if th = 0 then [0, 1, 2, 3, 4, 5, 6] else [6 + th]
  (es.map (imgEntry l)).filter (fun e => e ≠ 0xFFFF)

/-- A declared line of TIMERS: absent when its three bytes are zero; else push-pull, with a half-period of at least 2 for a clock (12 R399, R400 reason 0x09). -/
def timerLineOk (l : List Byte) (item : Nat) (clock : Bool) : Bool :=
  let at_ := 160 + 3 * item
  leField l at_ 3 == 0
    || ((imgLine l (leField l at_ 1 % 64)).extractLsb' 0 2 == 3 && (!clock || decide (2 ≤ leField l (at_ + 1) 1)))

/-- A power of two from 8 to 4,096. -/
def burstOk (n : Nat) : Bool := [8, 16, 32, 64, 128, 256, 512, 1024, 2048, 4096].contains n

/-- Indices of the instructions that fail a test, lowest first. -/
def firstInsn (insn : List W32) (bad : Nat → W32 → Bool) : Option Nat :=
  (List.range insn.length).find? (fun i => match insn[i]? with | some w => bad i w | none => false)

/-- Why a P-GEN image is refused: the reason, and the instruction where one applies (12 R399, R400). -/
def imgRefused (l : List Byte) : Option (Nat × Nat) :=
  let n := leField l 6 2
  let c := imgCaps l
  let insn := imgWords l 192 n
  let missing (i : Nat) : Bool := decide (n ≤ imgEntry l i)
  let kinds := [1, 2] ++ (if c.rmw then [3] else []) ++ (if c.block then [4, 5] else []) ++ (if c.iack ≠ 0 then [6] else [])
  if leField l 0 4 ≠ 0x4E454750 ∨ leField l 4 2 ≠ 1 ∨ n < 1 ∨ 4096 < n ∨ l.length ≠ 192 + 4 * n ∨ leField l 26 38 ≠ 0
      ∨ leField l 102 26 ≠ 0 ∨ leField l 175 17 ≠ 0 then some (1, 0)
  else if crc32 (l.drop 64) ≠ BitVec.ofNat 32 (leField l 16 4) then some (2, 0)
  else if ([0, 7, 8, 9] ++ kinds).any missing then some (3, 0)
  else match firstInsn insn (fun _ w => !sqLegal w) with
    | some i => some (4, i)
    | none =>
      let reach := [0, 1, 2, 3].map (fun th => (th, seqReach insn (2 * n + 32) (threadStarts l th) []))
      match firstInsn insn (fun i w => reach.any (fun r => r.2.contains i && outBad l r.1 w)) with
      | some i => some (5, i)
      | none =>
        match firstInsn insn (fun _ w => sqOp w == 0x0F && decide (n ≤ sqImm w % 4096)) with
        | some i => some (6, i)
        | none =>
          if leField l 20 4 / 2 ^ 25 ≠ 0 ∨ (if c.block then !burstOk c.burst else c.burst != 0) = true then some (7, 0)
          else if timerLineOk l 2 false && timerLineOk l 3 true && timerLineOk l 4 true then none else some (9, 0)

/-- Fields of ARB_PROFILE_LOAD (12 R397). -/
def apImg (p : Packet) : Nat := pkGet p 16 8
def apLen (p : Packet) : Nat := pkGet p 24 4

/-- ARB_PROFILE_LOAD (13 R416). -/
def specArbProfileLoad : CmdSpec :=
  { op := 0x0401, len := 4, modes := mA, stage := false, right := rArbor, target := 0xFF, ownDetail := true }

/-- The ranges of the fields of ARB_PROFILE_LOAD (12 R397). -/
def apPacket (p : Packet) : List (Nat × Bool) :=
  let c := pkTarget p
  let gen := decide (0x80 ≤ c ∧ c ≤ 0xFF)
  let vme := c == 1 || c == 2
  [(8, gen || vme || c == 3), (16, gen || apImg p == 0), (24, gen || apLen p == 0), (28, decide (pkGet p 28 1 ≤ 32)),
   (29, decide (pkGet p 29 1 ≤ 16)), (30, if vme then decide (pkGet p 30 1 ≤ 2) else gen || pkGet p 30 1 == 0),
   (31, decide (pkGet p 31 1 ≤ 3)), (32, decide ((if vme then 200 else 1) ≤ pkGet p 32 2 ∧ pkGet p 32 2 ≤ 1000)),
   (34, pkZero p 34 30)]

/-- State checks of ARB_PROFILE_LOAD (12 R398, R400): the range before the image is read, then the reasons in rising order. -/
def apCheck (s : State) (p : Packet) : Option (Nat × Nat) :=
  let bad (r i : Nat) : Option (Nat × Nat) := some (stBadParam, r + 256 * i)
  let busy := s.arb.ses.any (fun e => e.2.st != .closed)
  if pkTarget p < 0x80 then (if busy then some (stBusy, 0) else none)
  else if !inOneRange s (apImg p) (apLen p) then bad 8 0
  else if apLen p < 192 ∨ 192 + 4 * 4096 < apLen p then bad 1 0
  else match imgRefused (readBytes s (apImg p) (apLen p)) with
    | some r => bad r.1 r.2
    | none => if busy then some (stBusy, 0) else none

/-- The profile that ARB_PROFILE_LOAD loads (12 R397 to R399). -/
def apProfile (s : State) (p : Packet) : Profile :=
  let c : BitVec 8 := BitVec.ofNat 8 (pkTarget p)
  let gen := decide (0x80 ≤ pkTarget p)
  let l := if gen then readBytes s (apImg p) (apLen p) else []
  { code := c, caps := if gen then imgCaps l else shippedCaps c, txd := BitVec.ofNat 8 (pkGet p 28 1),
    skew := BitVec.ofNat 8 (pkGet p 29 1), arbMode := BitVec.ofNat 8 (pkGet p 30 1), options := BitVec.ofNat 8 (pkGet p 31 1),
    rstTime := pkGet p 32 2, lines := (l.drop 64).take 64,
    entry := if gen then (List.range 16).map (fun i => BitVec.ofNat 16 (imgEntry l i)) else [],
    timers := (l.drop 160).take 32, insn := if gen then imgWords l 192 (leField l 6 2) else [] }

/-- The load: every role off, AX disabled, the port released; AFAIL stays asserted only while a loaded profile asserts it (12 R374, R377, R396, R398). -/
def loadProfile (s : State) (pr : Profile) : State :=
  { s with arb := { s.arb with
    prof := some pr, roles := {}, roleSet := false, rstDone := false, ax := 0xAA,
    afailOut := s.arb.afailOut && (pr.code == 1 || pr.code == 2), drive := [], path := none, threads := [], events := 0,
    running := false, owned := false, yield_ := false, granting := none, ack := none, clocks := [], expired := false, axTurn := [0xAA],
    fields := mdel s.arb.fields 8 } }

/-- SESSION_OPEN. -/
def execSessionOpen (lane : LaneNo) (s : State) : Out := .next (configRow s lane cfgSessionOpen)
/-- SESSION_WINDOW_SET. -/
def execSessionWindowSet (lane : LaneNo) (s : State) : Out := .next (configRow s lane cfgSessionWindowSet)
/-- ARB_ROLE_SET. -/
def execArbRoleSet (lane : LaneNo) (s : State) : Out := .next (configRow s lane cfgArbRoleSet)
/-- SESSION_CLOSE (11 R337, R365). -/
def execSessionClose (lane : LaneNo) (s : State) : Out :=
  .next (plainRow s lane specSessionClose true (fun _ => []) (sesFree s) (fun p => beginSes s lane p true false))
/-- SESSION_RESET (11 R365 to R367). -/
def execSessionReset (lane : LaneNo) (s : State) : Out :=
  .next (plainRow s lane specSessionReset true (fun _ => []) (sesFree s) (fun p => beginSes s lane p false (pkFlags p % 2 == 1)))
/-- ARB_PROFILE_LOAD (12 R397, R398). -/
def execArbProfileLoad (lane : LaneNo) (s : State) : Out :=
  .next (plainRow s lane specArbProfileLoad true apPacket (apCheck s) (fun p =>
    let s1 := markChanged (loadProfile s (apProfile s p)) [.arbPort]
    replyDone s1 lane 0 s1.qz.time 0) (fun p => (apImg p, min (apLen p) 65536)))

end Sys2Proof.Machine
end

