-- ==== Sys2Proof/Machine/GateFolly.lean ====
section
/-! DEFINITION. FOLLY_LOAD (06 R188 to R194). -/

namespace Sys2Proof.Machine

/-- Fields of FOLLY_LOAD (06 R188). -/
def flIndex (p : Packet) : Nat := pkTarget p
def flPa (p : Packet) : Nat := pkGet p 16 8
def flLen (p : Packet) : Nat := pkGet p 24 4
def flUnload (p : Packet) : Bool := (pkGet p 28 4).testBit 0
def flHyp (p : Packet) : Bool := (pkGet p 28 4).testBit 1

/-- The image that a FOLLY_LOAD names, as staging reads it (06 R189). -/
def flImage (s : State) (p : Packet) : List Byte := if flUnload p then [] else readBytes s (flPa p) (flLen p)

/-- FOLLY_LOAD commands staged across all open slates (06 R189). -/
def follyStaged (s : State) : Nat :=
  (s.gate.slates.map (fun k => (k.2.cmds.filter (fun c => pkOpcode c.pkt == 0x0801)).length)).foldl (· + ·) 0

/-- The checks at staging: the image's place, then its format, then the limit on staged loads (06 R177, R189; 13 R423). The limit counts the loads of open slates: a load with slate id 0 stands in none and is not held to it, DESIGN CHOICE (log entry 33). -/
def flStaging (s : State) (p : Packet) : Option (Nat × Nat) :=
  let limit : Option (Nat × Nat) := if pkSlate p ≠ 0 ∧ 16 ≤ follyStaged s then some (stNoResource, 3) else none
  if flUnload p then limit
  else if flPa p % 64 ≠ 0 ∨ dramHolds s (flPa p) (flLen p) = false ∨ inOneRange s (flPa p) (flLen p) = false then some (stBadParam, 0x0B)
  else if 64 + 64 * 255 < flLen p then some (stBadParam, 1)
  else match follyRefused (flImage s p) with
    | some (r, k, i) => some (stBadParam, r + 256 * k + 65536 * i)
    | none => limit

/-- A core's part: the regions that hold an index are dropped, and uncommitted work of one of them rolls back to execute the word anew (05 R132; 06 R187, R190). -/
def dropFollyCore (i : Nat) (s : State) (v : Vc) : State :=
  let inOne := match (s.core v).region with
    | some k => (s.core v).micro.regions.any (fun r => r.key == k && r.folly.getLsbD i)
    | none => false
  dropRegions (if inOne && uncommitted (s.core v) then rollbackCore s v else s) v (fun r => r.folly.getLsbD i)

/-- Every core and every translator drops the regions, requests and finished regions that hold an index (05 R132). -/
def dropFolly (s : State) (i : Nat) : State :=
  (List.range 8).foldl
    (fun t k => dropRecent (dropRequests t k (fun r => r.folly.getLsbD i)) k (fun r => r.folly.getLsbD i))
    (s.allCores.foldl (dropFollyCore i) s)

/-- FOLLY_LOAD at its instant: the image stands in the inactive bank of the index and every core switches banks, or the index becomes unloaded (06 R190, R193). -/
def commitFolly (s : State) (p : Packet) (img : List Byte) : State :=
  let i := flIndex p
  let s1 := dropFolly s i
  if flUnload p then { s1 with gate := { s1.gate with folly := mdel s1.gate.folly i } }
  else
    let bank := match mget? s1.gate.folly i with
      | some e => !e.bank
      | none => false
    let e : FollyEntry := { image := img, hyp := flHyp p, grant := BitVec.ofNat 256 (pkGet p 32 32), bank := bank }
    { s1 with gate := { s1.gate with folly := mput s1.gate.folly i e, banks := mput s1.gate.banks (2 * i + bank.toNat) img } }

/-- FOLLY_LOAD (06 R188 to R191). -/
def cfgFollyLoad : Cfg where
  spec := { op := 0x0801, len := 4, modes := mAS, stage := true, right := rFolly, target := 0xF, ownDetail := true }
  packet := fun _ p => [
    (16, !flUnload p || flPa p == 0), (24, !flUnload p || flLen p == 0), (28, decide (pkGet p 28 4 ≤ 3))]
  image := flImage
  reads := fun p => if flUnload p then (0, 0) else (flPa p, min (flLen p) 65536)
  staging := flStaging
  check := fun _ _ => none
  apply := commitFolly
  objs := fun _ p => [.folly (flIndex p)]

/-- FOLLY_LOAD. -/
def execFollyLoad (lane : LaneNo) (s : State) : Out := .next (configRow s lane cfgFollyLoad)

end Sys2Proof.Machine
end

