-- ==== Sys2Proof/Machine/GateIo.lean ====
section
/-! DEFINITION. The commands on Quartz, the timer channels and PCI Express (16 R486, R491, R494; 18 R527; 10 R330 to R332; 13 R416, R421). -/

namespace Sys2Proof.Machine

/-- OFFSET of QZ_DISCIPLINE_SET, signed ns (16 R486). -/
def qdOffset (p : Packet) : BitVec 32 := BitVec.ofNat 32 (pkGet p 20 4)

/-- The discipline settings commit: a change of MODE starts over, MODE = 0 clears DISC, HOLDOVER and STEPPED and the rate; PPS_OUT = 0 ends a pulse (16 R486, R491, R492). -/
def commitDiscipline (s : State) (mode edge out : Bool) (off : BitVec 32) : State :=
  let q := s.qz
  let q1 := { q with mode := mode, edge := edge, ppsOut := out, offset := off }
  let q2 := if mode then
      (if q.mode then q1 else { q1 with accepted := false, lastEdge := q.time, cand := none })
    else { q1 with disc := false, holdover := false, stepped := false, rate := 0, accepted := false, cand := none }
  if !out && q.ppsHigh.isSome then gateEdge { s with qz := { q2 with ppsHigh := none } } 0x21 false else { s with qz := q2 }

/-- QZ_DISCIPLINE_SET (16 R486). -/
def cfgQzDisciplineSet : Cfg where
  spec := { op := 0x0A01, len := 2, modes := mAS, stage := true, right := rTime }
  packet := fun _ p => [
    (16, decide (pkGet p 16 1 ≤ 1)), (17, decide (pkGet p 17 1 ≤ 1)), (18, decide (pkGet p 18 1 ≤ 1)), (19, pkZero p 19 1),
    (20, decide (-499999999 ≤ (qdOffset p).toInt ∧ (qdOffset p).toInt ≤ 499999999)), (24, pkZero p 24 8)]
  check := fun _ _ => none
  apply := fun s p _ => commitDiscipline s (pkGet p 16 1 == 1) (pkGet p 17 1 == 1) (pkGet p 18 1 == 1) (qdOffset p)
  objs := fun _ _ => [.disc]

/-- TARGET [4:0]: a timer channel; its owner, or 0xFFFF; LINK. -/
def taCh (p : Packet) : TmrNo := BitVec.ofNat 5 (pkTarget p)
def taOwner (p : Packet) : Nat := pkGet p 16 2
def taLink (p : Packet) : Bool := pkGet p 18 1 == 1

/-- A route binds a channel (13 R420). -/
def timerBound (s : State) (n : TmrNo) : Bool := s.gate.routes.any (fun r => r.src == timerSource n)

/-- State checks of TIMER_ALLOC (16 R494). -/
def taCheck (s : State) (p : Packet) : Option (Nat × Nat) :=
  let n := taCh p
  let t := s.timer n
  let o : ClassId := BitVec.ofNat 16 (taOwner p)
  let frees := taOwner p == 0xFFFF
  let pair := s.timer (pairOf n)
  firstFail [
    (!oddHalf s n, badAt 8), (frees || ownerExists s (taOwner p), badAt 16),
    (frees || t.owner == noClass || t.owner == o, stBusy, 0),
    (!(frees && (timerBound s n || (t.linked && timerBound s (pairOf n)))), stBusy, 0),
    (frees || !taLink p || pair.owner == noClass || pair.owner == o, stBusy, 0)]

/-- TIMER_ALLOC at its instant: the channel's registers take their reset values, a pair's both halves (16 R494). -/
def allocTimer (s : State) (n : TmrNo) (o : ClassId) (link : Bool) : State :=
  let was := (s.timer n).linked
  if o = noClass then
    let s1 := s.setTimer n {}
    if was then s1.setTimer (pairOf n) {} else s1
  else
    let s1 := s.setTimer n { owner := o, linked := link }
    if link || was then s1.setTimer (pairOf n) { owner := o, linked := link } else s1

/-- TIMER_ALLOC (16 R494). -/
def cfgTimerAlloc : Cfg where
  spec := { op := 0x0A02, len := 2, modes := mAS, stage := true, right := rTime, target := 0x1F }
  packet := fun _ p => [
    (16, classField (taOwner p) || taOwner p == 0xFFFF), (18, decide (pkGet p 18 1 ≤ 1) && !(taLink p && (taCh p).getLsbD 0)),
    (19, pkZero p 19 13)]
  check := taCheck
  apply := fun s p _ => allocTimer s (taCh p) (BitVec.ofNat 16 (taOwner p)) (taLink p)
  objs := fun s p =>
    [Obj.timer (taCh p).toNat] ++ (if taLink p || (s.timer (taCh p)).linked then [Obj.timer (pairOf (taCh p)).toNat] else [])

/-- Fields of PCIE_ROLE_SET (13 R416). -/
def prPort (p : Packet) : Bool := pkTarget p % 2 == 1
def prBifur (p : Packet) : BitVec 2 := BitVec.ofNat 2 (pkGet p 16 1)
def prEndpoint (p : Packet) (i : Nat) : Bool := (pkGet p 17 1).testBit i
def prVf (p : Packet) (i : Nat) : Nat := pkGet p (18 + i) 1

/-- A NUM_VF byte is zero but for an endpoint link that the bifurcation creates (18 R527). -/
def prVfOk (p : Packet) (i : Nat) : Bool := prVf p i == 0 || (decide (i < linkCount (prBifur p)) && prEndpoint p i)

/-- The links of a port under a role: each trains again; an endpoint's PERST_N is released at once, a root port's 100 ms later (18 R527, R532; 19 R551). -/
def commitPorts (s : State) (p : Packet) : State :=
  let pt := s.port (prPort p)
  let one (i : Nat) : Nat × PcieLink :=
    let k := mget pt.links i {}
    let here := decide (i < linkCount (prBifur p))
    (i, { k with
      up := false, present := here, endpoint := here && prEndpoint p i, numVf := if here then prVf p i else 0,
      perstOut := !(here && prEndpoint p i), perstIn := false, roleAt := s.qz.time, reqs := [], reduced := false })
  s.setPort (prPort p) { pt with bifur := prBifur p, roleSet := true, links := (List.range 4).map one }

/-- PCIE_ROLE_SET (18 R527). -/
def cfgPcieRoleSet : Cfg where
  spec := { op := 0x0B01, len := 2, modes := mA, stage := true, right := rPcie, target := 1 }
  packet := fun _ p => [
    (16, decide (pkGet p 16 1 ≤ 2)), (17, decide (pkGet p 17 1 ≤ 15)), (18, prVfOk p 0), (19, prVfOk p 1), (20, prVfOk p 2),
    (21, prVfOk p 3), (18, decide (prVf p 0 + prVf p 1 + prVf p 2 + prVf p 3 ≤ 64)), (22, pkZero p 22 10)]
  check := fun _ _ => none
  apply := fun s p _ => commitPorts s p
  objs := fun _ p => [.pciePort (prPort p).toNat]

/-- Fields of PCIE_VF_ASSIGN (13 R416, R421). -/
def pvPort (p : Packet) : Bool := pkTarget p % 2 == 1
def pvLink (p : Packet) : Nat := pkTarget p / 2 % 4
def pvFn (p : Packet) : Nat := pkTarget p / 256 % 65536
def pvOwner (p : Packet) : Nat := pkGet p 16 2

/-- The link exists, and the function number is one of its own (10 R330; 13 R421). -/
def fnNamed (s : State) (p : Packet) : Bool :=
  let k := s.link (pvPort p) (pvLink p)
  k.present && (!k.endpoint || decide (1 ≤ pvFn p ∧ pvFn p ≤ k.numVf))

/-- The function of a packet. -/
def pvGet (s : State) (p : Packet) : PcieFn := s.pfn (pvPort p) (pvLink p) (pvFn p)

/-- The object of PCIE_VF_ASSIGN (13 R426). -/
def pvObj (p : Packet) : Obj := .fn (pvPort p).toNat (pvLink p) (pvFn p)

/-- PCIE_VF_ASSIGN that assigns (10 R330, R332). -/
def cfgPcieVfAssign : Cfg where
  spec := { op := 0x0B02, len := 2, modes := mAS, stage := true, right := rPcie, target := 0xFFFF07 }
  packet := fun _ p => [(16, classField (pvOwner p)), (18, pkZero p 18 14)]
  check := fun s p =>
    let f := pvGet s p
    firstFail [
      (fnNamed s p, badAt 8), (ownerExists s (pvOwner p), badAt 16),
      ((f.owner == noClass || f.owner == BitVec.ofNat 16 (pvOwner p)) && f.flr.isNone, stBusy, 0)]
  apply := fun s p _ => s.setPfn (pvPort p) (pvLink p) (pvFn p) { pvGet s p with owner := BitVec.ofNat 16 (pvOwner p) }
  objs := fun _ p => [pvObj p]

/-- PCIE_VF_ASSIGN that removes: not stageable (13 R421). -/
def specVfRemove : CmdSpec := { op := 0x0B02, len := 2, modes := mAS, stage := false, right := rPcie, target := 0xFFFF07 }

/-- The removal begins with the function's FLR; a function without FLR capability is left to the hypervisor (10 R331). -/
def beginRemove (s : State) (lane : LaneNo) (p : Packet) : State :=
  let s1 := markChanged (beginCmd s lane) [pvObj p]
  match startFlr s1 (pvPort p) (pvLink p) (pvFn p) (some lane, BitVec.ofNat 16 (pkTag p)) with
  | (s2, false) => s2
  | (s2, true) =>
    let s3 := s2.setPfn (pvPort p) (pvLink p) (pvFn p) { pvGet s2 p with owner := noClass }
    replyDone s3 lane 0x80000000 s3.qz.time 0

/-- QZ_DISCIPLINE_SET. -/
def execQzDisciplineSet (lane : LaneNo) (s : State) : Out := .next (configRow s lane cfgQzDisciplineSet)
/-- TIMER_ALLOC. -/
def execTimerAlloc (lane : LaneNo) (s : State) : Out := .next (configRow s lane cfgTimerAlloc)
/-- PCIE_ROLE_SET. -/
def execPcieRoleSet (lane : LaneNo) (s : State) : Out := .next (configRow s lane cfgPcieRoleSet)
/-- PCIE_VF_ASSIGN (10 R330 to R332; 13 R421). -/
def execPcieVfAssign (lane : LaneNo) (s : State) : Out :=
  match presented s lane 0x0B02 with
  | none => .next s
  | some q =>
    if pvOwner q = 0xFFFF then
      .next (plainRow s lane specVfRemove true (fun p => [(18, pkZero p 18 14)])
        (fun p => firstFail [
          (fnNamed s p && (pvGet s p).owner != noClass, badAt 8), ((pvGet s p).flr.isNone, stBusy, 0)])
        (fun p => beginRemove s lane p))
    else .next (configRow s lane cfgPcieVfAssign)

end Sys2Proof.Machine
end

