-- ==== Sys2Proof/Machine/GateMem.lean ====
section
/-! DEFINITION. The commands on memory: ranges, mode, keep region, Mica (08 R261; 09 R279, R287; 13 R416, R422). -/

namespace Sys2Proof.Machine

/-- TARGET [8:0]: an owner. -/
def maOwner (p : Packet) : Nat := pkTarget p
/-- BASE and LEN. -/
def maBase (p : Packet) : Nat := pkGet p 16 8
def maLen (p : Packet) : Nat := pkGet p 24 8

/-- 2 MiB. -/
def granBytes : Nat := 0x200000

/-- A multiple of 2 MiB. -/
def granOk (n : Nat) : Bool := n % granBytes == 0

/-- The 2 MiB granules of a range (13 R426). -/
def granObjs (base len : Nat) : List Obj := (List.range (len / granBytes)).map (fun i => Obj.gran (base / granBytes + i))

/-- The range overlaps an assigned range, the keep region or a PIT (13 R422). -/
def rangeBusy (s : State) (base len : Nat) : Bool :=
  s.gate.ranges.any (fun r => overlaps base len r.base r.len)
    || (match s.fab.spine.keep with | some (b, k) => overlaps base len b.toNat k | none => false)
    || s.pavs.any (fun q => q.2.st != .none && overlaps base len q.2.pit.toNat 0x10000)

/-- The packet checks of MEM_ASSIGN and MEM_RELEASE (13 R422). -/
def rangePacket (p : Packet) : List (Nat × Bool) :=
  [(8, classField (maOwner p)), (16, granOk (maBase p)), (24, granOk (maLen p) && maLen p != 0)]

/-- MEM_ASSIGN (13 R422). -/
def cfgMemAssign : Cfg where
  spec := { op := 0x0301, len := 2, modes := mAS, stage := true, right := rMem, target := 0x1FF }
  packet := fun _ p => rangePacket p
  check := fun s p => firstFail [
    (dramHolds s (maBase p) (maLen p), badAt 16), (!rangeBusy s (maBase p) (maLen p), stBusy, 0), (decide (s.gate.ranges.length < 8192), stNoResource, 0)]
  apply := fun s p _ =>
    { s with
      gate := { s.gate with ranges := s.gate.ranges ++ [{ owner := BitVec.ofNat 16 (maOwner p), base := maBase p, len := maLen p }] }
      dram := { s.dram with assigned := true } }
  objs := fun _ p => granObjs (maBase p) (maLen p)

/-- MEM_RELEASE (13 R422). -/
def cfgMemRelease : Cfg where
  spec := { op := 0x0302, len := 2, modes := mAS, stage := true, right := rMem, target := 0x1FF }
  packet := fun _ p => rangePacket p
  check := fun s p => firstFail [
    (dramHolds s (maBase p) (maLen p), badAt 16),
    (s.gate.ranges.contains { owner := BitVec.ofNat 16 (maOwner p), base := maBase p, len := maLen p }, badAt 16)]
  apply := fun s p _ =>
    { s with gate := { s.gate with
      ranges := s.gate.ranges.erase { owner := BitVec.ofNat 16 (maOwner p), base := maBase p, len := maLen p } } }
  objs := fun _ p => granObjs (maBase p) (maLen p)

/-- The mode that MEM_PARITY_SET asks for. -/
def mpMode (p : Packet) : MemMode := if pkGet p 16 1 = 1 then .open_ else .parity

/-- The hypervisor load range, as the boot image names it, in multiples of 2 MiB (14 R440). -/
def loadRange (s : State) : Nat × Nat :=
  match s.dev.hdr with
  | some h => (h.loadPa, (h.range + granBytes - 1) / granBytes * granBytes)
  | none => (0, 0)

/-- Starts the fill of DRAM from row 0 (09 R279, R293). What memory held is gone. -/
def startFill (s : State) : State :=
  { s with
    dram := { s.dram with cells := [], fill := 0, fillAt := s.qz.time, tagCache := [], groups := [] }
    fab := { s.fab with homes := s.fab.homes.map (fun h => (h.1, { h.2 with sc := [], wbuf := [], wcls := [], mir := [] })) } }

/-- The copy of the hypervisor image starts again; a check that has failed bars SERVICE all the same until a DEVICE_RESET (09 R279; 14 R440). -/
def startCopy (s : State) : State := { s with dev := { s.dev with hvDone := false } }

/-- MEM_PARITY_SET (09 R279). -/
def cfgMemParitySet : Cfg where
  spec := { op := 0x0303, len := 2, modes := mA, stage := true, right := rMem }
  packet := fun _ p => [(16, decide (pkGet p 16 1 ≤ 1)), (17, pkZero p 17 15)]
  check := fun s p =>
    let d := { s.dram with mode := mpMode p }
    let (b, n) := loadRange s
    firstFail [
      (decide (b + n ≤ tagBase d), badAt 16),
      (!s.dram.modeSet && !s.dram.assigned, stBusy, 0),
      (!(s.dram.lost.isSome && mpMode p == .open_), stNoResource, 0)]
  apply := fun s p _ =>
    let s1 := { s with dram := { s.dram with modeSet := true } }
    if mpMode p = s.dram.mode then s1
    else startCopy (startFill { s1 with dram := { s1.dram with mode := mpMode p } })
  objs := fun _ _ => [.memMode]

/-- Base and size of KEEP_REGION_SET. -/
def krBase (p : Packet) : Nat := pkGet p 16 8
def krSize (p : Packet) : Nat := pkGet p 24 8

/-- A power of two from 64 KiB to 64 MiB (08 R261). -/
def keepSizeOk (n : Nat) : Bool := (List.range 11).any (fun i => n == 2 ^ (16 + i))

/-- The lines of a range that a cluster or a home slice holds. -/
def heldLines (s : State) (inside : Nat → Bool) : List Nat :=
  ((List.range 8).flatMap (fun k =>
    let h := s.home k
    let c := s.cluster k
    mkeys h.dir ++ mkeys h.sc ++ mkeys h.wbuf ++ mkeys h.txns ++ mkeys c.l2 ++ mkeys c.wb)).eraseDups.filter inside

/-- Lines of a range leave the clusters and the home slices: their newest values go to DRAM, and no directory entry and no copy of them is left (08 R262). -/
def linesToDram (s : State) (inside : Nat → Bool) : State :=
  let d := (heldLines s inside).foldl (fun a l => writeAfter a l (s.observe (BitVec.ofNat 42 l))) s.dram
  let out {α : Type} (m : SMap α) : SMap α := m.filter (fun p => !inside p.1)
  let s1 := (List.range 8).foldl (fun t k =>
    let h := t.home k
    let t1 := t.setHome k { h with
      dir := out h.dir, sc := out h.sc, wbuf := out h.wbuf, wcls := out h.wcls, mir := out h.mir, txns := out h.txns,
      confq := h.confq.filter (fun r => !inside r.line.toNat) }
    let c := t1.cluster k
    t1.setCluster k { c with l2 := out c.l2, wb := out c.wb, mshr := out c.mshr }) s
  { s1 with
    dram := d
    fab := { s1.fab with net := s1.fab.net.filter (fun p => !(msgLine p.msg).any (fun l => inside l.toNat)) } }

/-- The uncached requests that home slices hold for lines of a range; the spine serves them from now on (08 R262). -/
def movedReqs (s : State) (inside : Nat → Bool) : List Req :=
  (List.range 8).flatMap (fun k =>
    ((s.home k).txns.map (fun p => p.2.req) ++ (s.home k).confq).filter
      (fun r => inside r.line.toNat && (r.kind == .ncRd || r.kind == .ncWr || r.kind == .atom)))

/-- KEEP_REGION_SET (08 R261). -/
def cfgKeepRegionSet : Cfg where
  spec := { op := 0x0304, len := 2, modes := mA, stage := true, right := rMem }
  packet := fun _ p => [
    (16, krSize p == 0 || krBase p % krSize p == 0), (24, keepSizeOk (krSize p))]
  check := fun s p => firstFail [
    (dramHolds s (krBase p) (krSize p), badAt 16),
    (!(s.gate.ranges.any (fun r => overlaps (krBase p) (krSize p) r.base r.len)
      || s.pavs.any (fun q => q.2.st != .none && overlaps (krBase p) (krSize p) q.2.pit.toNat 0x10000)), stBusy, 0)]
  apply := fun s p _ =>
    let inside (l : Nat) : Bool := decide (krBase p ≤ l * 64 ∧ l * 64 < krBase p + krSize p)
    let s1 := linesToDram s inside
    (movedReqs s inside).foldl keepAccept { s1 with
      fab := { s1.fab with spine := { s1.fab.spine with keep := some (BitVec.ofNat 48 (krBase p), krSize p), blv := [] } }
      dram := { s1.dram with assigned := true } }
  objs := fun _ _ => [.keep]

/-- MICA_SET (09 R287). -/
def cfgMicaSet : Cfg where
  spec := { op := 0x0305, len := 2, modes := mAS, stage := true, right := rMem }
  packet := fun _ p => [(16, decide (pkGet p 16 1 ≤ 1)), (17, pkZero p 17 15)]
  check := fun _ _ => none
  apply := fun s p _ => { s with dram := { s.dram with mica := pkGet p 16 1 == 1 } }
  objs := fun _ _ => [.mica]

/-- MEM_ASSIGN. -/
def execMemAssign (lane : LaneNo) (s : State) : Out := .next (configRow s lane cfgMemAssign)
/-- MEM_RELEASE. -/
def execMemRelease (lane : LaneNo) (s : State) : Out := .next (configRow s lane cfgMemRelease)
/-- MEM_PARITY_SET. -/
def execMemParitySet (lane : LaneNo) (s : State) : Out := .next (configRow s lane cfgMemParitySet)
/-- KEEP_REGION_SET. -/
def execKeepRegionSet (lane : LaneNo) (s : State) : Out := .next (configRow s lane cfgKeepRegionSet)
/-- MICA_SET. -/
def execMicaSet (lane : LaneNo) (s : State) : Out := .next (configRow s lane cfgMicaSet)

end Sys2Proof.Machine
end

