-- ==== Sys2Proof/Machine/GateObs.lean ====
section
/-! DEFINITION. The commands that report and observe: DEVICE_INFO, UNIT_STATUS, the log, the fault policy, trace and uncore counters (13 R416; 15 R478 to R481; 17 R515, R522). -/

namespace Sys2Proof.Machine

/-- The value of a FAULT_POLICY_SET item is within its range (15 R478). -/
def policyOk (item v : Nat) : Bool :=
  let mismatch := decide (1 ≤ v % 256 ∧ 1 ≤ v / 256 ∧ v / 256 ≤ 60000)
  if item = 1 then decide (2 ≤ v % 256 ∧ 10 ≤ v / 256 ∧ v / 256 ≤ 10000000)
  else if item = 2 then decide (1 ≤ v % 256 ∧ v % 256 ≤ 4 ∧ v / 256 % 256 = 0 ∧ 1 ≤ v / 65536 ∧ v / 65536 ≤ 65535)
  else if item = 3 then decide (v % 256 ≤ 1 ∧ v < 65536) && (v % 2 == 0 || decide (1 ≤ v / 256))
  else if item = 4 ∨ item = 9 then decide (v ≤ 86400)
  else if item = 5 ∨ item = 6 ∨ item = 7 then mismatch
  else if item = 8 then decide (v ≤ 1)
  else if item = 10 then decide (v ≤ 71)
  else true

/-- A listed item (15 R478). -/
def policyItem (item : Nat) : Bool := decide (1 ≤ item ∧ item ≤ 10) || decide (0x100 ≤ item ∧ item ≤ 0x1FF) || item == 0x200

/-- FAULT_POLICY_SET (15 R478): counts in progress are kept, and those of the channels are compared with a new limit of CHANNEL_LOSS. -/
def cfgFaultPolicySet : Cfg where
  spec := { op := 0x0703, len := 2, modes := mAS, stage := true, right := rFault }
  packet := fun _ p => [(16, policyItem (pkGet p 16 2)), (18, pkZero p 18 6), (24, policyOk (pkGet p 16 2) (pkGet p 24 8))]
  check := fun _ _ => none
  apply := fun s p _ =>
    let i := pkGet p 16 2
    let v := pkGet p 24 8
    let s1 := { s with gate := { s.gate with policy := mput s.gate.policy i (BitVec.ofNat 64 v) } }
    if i = 10 then { s1 with flash := { s1.flash with clear := s1.flash.clear ||| (1#72 <<< v) } }
    else if i = 2 then
      let above := ((List.range 8).map (BitVec.ofNat 3)).filter (fun c => devicesOver s1 c || burstsOver s1 c)
      { s1 with dram := { s1.dram with due := above } }
    else s1
  objs := fun _ p => [.policy (pkGet p 16 2)]

/-- A log record as LOG_READ returns it (15 R479). -/
def recNat (r : LogRec) : Nat :=
  r.seq.toNat + 2 ^ 64 * (r.time % 2 ^ 64) + 2 ^ 128 * r.boot.toNat + 2 ^ 144 * r.cls.toNat + 2 ^ 152 * r.action.toNat
    + 2 ^ 160 * r.ukind.toNat + 2 ^ 176 * r.uindex.toNat + 2 ^ 192 * r.stall.toNat + 2 ^ 224 * r.vc.toNat
    + 2 ^ 240 * r.owner.toNat + 2 ^ 256 * r.addr.toNat + 2 ^ 320 * r.detail.toNat + 2 ^ 352 * r.count.toNat
    + 2 ^ 368 * r.flags.toNat

/-- Records one after another. -/
def recsNat : List LogRec → Nat
  | [] => 0
  | r :: t => recNat r + 2 ^ 384 * recsNat t

/-- LOG_READ (15 R480). -/
def execLogRead (lane : LaneNo) (s : State) : Out :=
  .next (plainRow s lane { op := 0x0701, len := 2, modes := mAll, stage := false, right := rInfo } false
    (fun p => [(24, decide (1 ≤ pkGet p 24 1 ∧ pkGet p 24 1 ≤ 5)), (25, pkZero p 25 7)]) (fun _ => none)
    (fun p =>
      let l := (s.gate.log.filter (fun r => decide (pkGet p 16 8 ≤ r.seq.toNat))).take (pkGet p 24 1)
      let oldest := match s.gate.log with
        | r :: _ => r.seq.toNat
        | [] => s.gate.nextSeq.toNat
      replyDone s lane l.length oldest (recsNat l)))

/-- LOG_CLEAR (15 R480). -/
def execLogClear (lane : LaneNo) (s : State) : Out :=
  .next (plainRow s lane { op := 0x0702, len := 2, modes := mAS, stage := false, right := rFault } false
    (fun p => [(24, pkZero p 24 8)]) (fun _ => none)
    (fun p => replyDone { s with gate := { s.gate with log := s.gate.log.filter (fun r => decide (pkGet p 16 8 < r.seq.toNat)) } }
      lane 0 s.qz.time 0))

/-- Units of a kind that exist (15 R481). -/
def unitExists (kind i : Nat) : Bool :=
  match kind with
  | 1 => decide (i < 72)
  | 2 | 6 => decide (i < 8)
  | 3 => decide (i < 8) || i == 0xFF
  | 4 => decide (i < 24)
  | 5 => decide (i < 16)
  | 7 => decide (i / 64 < 10)
  | 8 | 9 => i == 0
  | 10 | 12 => decide (i < 2)
  | 11 => decide (i < 8)
  | _ => false

/-- STATE of a unit where its own state shows more than its error counts: fused, retired and spare cores, removed units, a channel being rebuilt (15 R481). -/
def shownState (s : State) (kind i : Nat) : Option (BitVec 8) :=
  match kind with
  | 1 =>
    if s.cmap.fused.getLsbD i then some 5
    else if s.cmap.retired.getLsbD i then some 2
    else if s.cmap.spares.contains (BitVec.ofNat 7 i) then some 4
    else none
  | 2 => if (s.cluster i).xlDead then some 2 else none
  | 3 => if (s.home i).dead then some 2 else none
  | 4 => if (mget s.fab.links i {}).failed then some 2 else none
  | 6 =>
    if s.dram.lost = some (BitVec.ofNat 3 i) then some (if s.dram.rebuild.isSome then 3 else 2) else none
  | 10 => if (if i = 0 then s.dev.blv.deadA else s.dev.blv.deadB) then some 2 else none
  | 12 => if i = 0 ∧ s.fab.spine.mirror = true then some 2 else none
  | _ => none

/-- A unit's status as UNIT_STATUS reports it (15 R481). -/
def unitNow (s : State) (kind i : Nat) : UnitStat :=
  let u := s.unit (BitVec.ofNat 8 kind) i
  match shownState s kind i with
  | some st => { u with state := st }
  | none => u

/-- The eight slices together, of home slice index 0xFF (15 R481). -/
def slicesNow (s : State) : UnitStat :=
  let us := (List.range 8).map (unitNow s 3)
  let last := us.foldl (fun a u => if a.lastTime ≤ u.lastTime ∧ u.lastClass ≠ 0 then u else a) {}
  { state := if us.any (fun u => u.state == 2) then 2 else 0, lastClass := last.lastClass, lastTime := last.lastTime,
    corrected := us.foldl (fun a u => satAdd32 a u.corrected.toNat) 0 }

/-- INFO of UNIT_STATUS (15 R481). -/
def unitInfo (s : State) (kind i : Nat) : Nat :=
  match kind with
  | 1 => match s.cmap.map.find? (fun m => m.2.toNat == i) with
    | some m => m.1
    | none => 0x7F
  | 6 => (if s.dram.lost = some (BitVec.ofNat 3 i) then s.dram.rebuild.getD 0 else 0) + 2 ^ 32 * s.dram.fill
  | _ => 0

/-- HT as UNIT_STATUS returns it (15 R481). -/
def htNat (s : State) : Nat → Nat
  | 0 => 0
  | n + 1 => htNat s n + 256 ^ n * (s.htOf n).toNat

/-- UNIT_STATUS (15 R481). -/
def execUnitStatus (lane : LaneNo) (s : State) : Out :=
  .next (plainRow s lane { op := 0x0704, len := 1, modes := mAll, stage := false, right := rInfo, target := 0xFFFFFF } false
    (fun p => [(8, unitExists (pkTarget p % 256) (pkTarget p / 256))]) (fun _ => none)
    (fun p =>
      let k := pkTarget p % 256
      let i := pkTarget p / 256
      let all := k == 3 && i == 0xFF
      let u := if all then slicesNow s else unitNow s k i
      replyDone s lane 0 s.qz.time
        (u.state.toNat + 2 ^ 8 * u.lastClass.toNat + 2 ^ 32 * u.corrected.toNat + 2 ^ 64 * (u.lastTime % 2 ^ 64)
          + 2 ^ 128 * unitInfo s k i + (if all then 2 ^ 320 * htNat s 64 else 0))))

/-- The device ID of a part on stepping B1 (00 R1, R2). -/
def deviceId : Part → Nat
  | .t6440i => 0x644000B1
  | _ => 0x647200B1

/-- The payload of DEVICE_INFO (13, "DEVICE_INFO reply payload"). -/
def infoNat (s : State) : Nat :=
  let lost := match s.dram.lost with
    | some c => 2 ^ c.toNat
    | none => 0
  deviceId s.cmap.part + 2 ^ 32 * (if s.cmap.part = .t6472c then 1 else 0) + 2 ^ 40 * modeCode s.mode
    + 2 ^ 48 * vcCount s.cmap.part + 2 ^ 56 * s.cmap.spares.length + 2 ^ 64 * (if s.dram.mode = .open_ then 1 else 0)
    + 2 ^ 72 * s.dram.mica.toNat + 2 ^ 80 * lost + 2 ^ 88 * (s.qz.locked.toNat + 2 * s.qz.disc.toNat)
    + 2 ^ 96 * s.dram.gib + 2 ^ 112 * s.dram.rate + 2 ^ 128 * s.dev.fwVersion.toNat + 2 ^ 160 * s.dev.slot.toNat

/-- DEVICE_INFO (13 R416). -/
def execDeviceInfo (lane : LaneNo) (s : State) : Out :=
  .next (plainRow s lane { op := 0x0101, len := 1, modes := mAll, stage := false, right := rInfo } false (fun _ => []) (fun _ => none)
    (fun _ => replyDone s lane 0 s.qz.time (infoNat s)))

/-- Fields of TRACE_CONFIG (17 R522). -/
def tcOn (p : Packet) : Bool := pkGet p 16 1 == 1
def tcPcie (p : Packet) : Bool := pkGet p 17 1 == 1
def tcRingK (p : Packet) : Nat := pkGet p 18 1
def tcBase (p : Packet) : Nat := pkGet p 24 8

/-- The window space of PCI Express at an address belongs to a root-port link (18 R528). -/
def inRootWindow (s : State) (pa : Nat) : Bool :=
  let p := pa / 2 ^ 39 % 2 == 1
  let k := s.link p (pa % 2 ^ 39 / (2 ^ 39 / linkCount (s.port p).bifur))
  decide (0xD00000000000 ≤ pa ∧ pa < 0xD10000000000) && k.present && !k.endpoint

/-- TRACE_CONFIG (17 R522). -/
def cfgTraceConfig : Cfg where
  spec := { op := 0x0C01, len := 4, modes := mAS, stage := true, right := rObs }
  packet := fun _ p => [
    (16, decide (pkGet p 16 1 ≤ 1)), (17, decide (pkGet p 17 1 ≤ 1)), (18, decide (16 ≤ tcRingK p ∧ tcRingK p ≤ 32)),
    (19, decide (pkGet p 19 1 ≤ 1) && !(tcPcie p && pkGet p 19 1 == 1)),
    (20, pkGet p 20 1 == 0 || decide (10 ≤ pkGet p 20 1 ∧ pkGet p 20 1 ≤ 30)), (21, decide (10 ≤ pkGet p 21 1 ∧ pkGet p 21 1 ≤ 20)),
    (22, decide (pkGet p 22 2 ≤ 16000)), (24, tcBase p % 2 ^ min (tcRingK p) 32 == 0), (48, pkZero p 48 16)]
  check := fun s p => firstFail [
    (if tcPcie p then inRootWindow s (tcBase p) else inRangeOf s hypClass (tcBase p) (2 ^ tcRingK p), badAt 24)]
  apply := fun s p _ =>
    applyTrace s (tcOn p) (tcPcie p) (tcRingK p) (pkGet p 19 1 == 1) (pkGet p 20 1) (pkGet p 21 1) (pkGet p 22 2) (tcBase p)
      (BitVec.ofNat 128 (pkGet p 32 16))
  objs := fun _ _ => [.trace]

/-- The highest event code of an uncore unit; none: no such unit (17 R515). -/
def uncoreCodes (u : Nat) : Option Nat :=
  if u < 8 then some 7
  else if u < 16 then some 12
  else if u < 33 then some 6
  else if u < 36 then some 5
  else if u = 36 then some 4
  else none

/-- The checks of one counter's fields (17 R515). -/
def puField (p : Packet) (j : Nat) : List (Nat × Bool) :=
  let m := (uncoreCodes (pkTarget p)).getD 0
  [(16 + 4 * j, decide (pkGet p (16 + 4 * j) 1 ≤ m)), (17 + 4 * j, decide (pkGet p (17 + 4 * j) 1 ≤ 1)),
   (18 + 4 * j, decide (pkGet p (18 + 4 * j) 2 ≤ 0x101))]

/-- PMU_UNCORE_CONFIG (17 R515). -/
def cfgPmuUncoreConfig : Cfg where
  spec := { op := 0x0C02, len := 2, modes := mAS, stage := true, right := rObs, flags := 1, target := 0xFF }
  packet := fun _ p => [(8, (uncoreCodes (pkTarget p)).isSome)] ++ puField p 0 ++ puField p 1 ++ puField p 2 ++ puField p 3
  check := fun _ _ => none
  apply := fun s p _ =>
    let u := mget s.uncore (pkTarget p) {}
    let put (a : Uncore) (j : Nat) : Uncore := { a with
      evt := mput a.evt j (BitVec.ofNat 8 (pkGet p (16 + 4 * j) 1))
      flt := if pkGet p (17 + 4 * j) 1 = 1 then mput a.flt j (BitVec.ofNat 16 (pkGet p (18 + 4 * j) 2)) else mdel a.flt j }
    let u1 := [0, 1, 2, 3].foldl put u
    { s with uncore := mput s.uncore (pkTarget p) (if pkFlags p % 2 = 1 then { u1 with cnt := [] } else u1) }
  objs := fun _ p => [.uncore (pkTarget p)]

/-- FAULT_POLICY_SET. -/
def execFaultPolicySet (lane : LaneNo) (s : State) : Out := .next (configRow s lane cfgFaultPolicySet)
/-- TRACE_CONFIG. -/
def execTraceConfig (lane : LaneNo) (s : State) : Out := .next (configRow s lane cfgTraceConfig)
/-- PMU_UNCORE_CONFIG. -/
def execPmuUncoreConfig (lane : LaneNo) (s : State) : Out := .next (configRow s lane cfgPmuUncoreConfig)

end Sys2Proof.Machine
end

