-- ==== Sys2Proof/Machine/GatePav.lean ====
section
/-! DEFINITION. The commands on pavilions, QoS budgets and interrupt routes (10; 13 R416 to R420). -/

namespace Sys2Proof.Machine

/-- TARGET [7:0]: a pavilion. -/
def pkPav (p : Packet) : Pav := BitVec.ofNat 8 (pkTarget p)

/-- Every core whose VMID_H names a pavilion takes a stage-2 base (07 R199, 10 R305). -/
def takeBase (s : State) (pn : Pav) (vtb : BitVec 48) : State :=
  s.allCores.foldl (fun t v =>
    if (t.core v).arch.tr.vmid = pn then
      let t1 := if uncommitted (t.core v) then rollbackCore t v else t
      t1.updCore v (fun c => { c with
        arch := { c.arch with tr := { c.arch.tr with vtb := vtb.setWidth 64 } },
        spec := { c.spec with tr := { c.spec.tr with vtb := vtb.setWidth 64 } } })
    else t) s

/-- A valid PAV_CTL word (10 R303). -/
def ctlWordOk (w : Nat) : Bool := w / 32 % 8 == 0 && w / 256 % 256 != 0

/-- Zeroes lines of memory from an address on, as the device class. -/
def zeroLines (pa : Nat) : Nat → State → State
  | 0, s => s
  | n + 1, s => deviceWrite (zeroLines pa n s) (pa + 64 * n) 64 0

/-- A new PIT: every entry disabled, nothing pending, every doorbell disabled and armed (10 R301, R311). -/
def initPit (s : State) (p : Pavilion) : State :=
  let s1 := zeroLines p.pit.toNat 0x280 s
  (List.range p.nvcpu).foldl (fun t v => deviceWrite t (pitCtlPa p v) 8 0x200) s1

/-- A PIT may lie there (10 R311). -/
def pitPlaceOk (s : State) (pit : Nat) : Bool :=
  dramHolds s pit 0x10000
    && (match s.fab.spine.keep with | some (b, k) => !overlaps pit 0x10000 b.toNat k | none => true)
    && s.gate.ranges.all (fun r => decide (256 ≤ r.owner.toNat) || !overlaps pit 0x10000 r.base r.len)
    && s.pavs.all (fun q => q.2.st == .none || !overlaps pit 0x10000 q.2.pit.toNat 0x10000)

/-- Fields of PAV_CREATE (13 R419). -/
def pcVtb (p : Packet) : Nat := pkGet p 16 8
def pcPit (p : Packet) : Nat := pkGet p 24 8
def pcCtl (p : Packet) : Nat := pkGet p 32 2
def pcNvcpu (p : Packet) : Nat := pkGet p 34 2
def pcNirq (p : Packet) : Nat := pkGet p 36 2

/-- What outlives a pavilion: its counts, which only full reset clears, and the PAV_STOPs still to be answered (10 R318, R328; 14 R449). -/
def keptCounts (v : Pavilion) : Pavilion :=
  { discarded := v.discarded, deferred := v.deferred, memOver := v.memOver, arbOver := v.arbOver, stops := v.stops }

/-- PAV_CREATE (10 R300, R301, R311; 13 R419). -/
def cfgPavCreate : Cfg where
  spec := { op := 0x0201, len := 3, modes := mAS, stage := true, right := rPav, target := 0xFF }
  packet := fun _ p => [
    (16, pcVtb p % 4096 == 0 && decide (pcVtb p < 2 ^ 48)), (24, pcPit p % 65536 == 0 && decide (pcPit p < 2 ^ 48)),
    (32, ctlWordOk (pcCtl p)), (34, decide (1 ≤ pcNvcpu p ∧ pcNvcpu p ≤ 64)), (36, decide (1 ≤ pcNirq p ∧ pcNirq p ≤ 2048)),
    (38, pkZero p 38 10)]
  check := fun s p => firstFail [
    (dramHolds s (pcVtb p) 4096, badAt 16), (pitPlaceOk s (pcPit p), badAt 24), (!pavExists s (pkPav p).toNat, stBusy, 0)]
  apply := fun s p _ =>
    let n := pkPav p
    let w := pcCtl p
    let v : Pavilion := { keptCounts (s.pav n) with
      st := .defined, ctl := BitVec.ofNat 16 w, heldStyle := w % 2 == 1, vtb := BitVec.ofNat 48 (pcVtb p), nvcpu := pcNvcpu p,
      nirq := pcNirq p, pit := BitVec.ofNat 48 (pcPit p) }
    let s1 := s.setPav n v
    let s2 := { s1 with qos := mdel s1.qos n.toNat }
    purgeVmid (takeBase (initPit s2 v) n v.vtb) n
  objs := fun _ p => [.pav (pkPav p)]

/-- A pavilion owns DRAM, a session or a function (10 R302). -/
def pavOwns (s : State) (pn : Pav) : Bool :=
  s.gate.ranges.any (fun r => r.owner == pn.setWidth 16) || !(ownedSes s pn).isEmpty || !(ownedFns s pn).isEmpty

/-- The pavilion exists and its state is one of some (10 R300). -/
def pavStateCheck (s : State) (pn : Pav) (ok : List PavSt) : Option (Nat × Nat) :=
  firstFail [((s.pav pn).st != .none, badAt 8), (ok.contains (s.pav pn).st, stBusy, 0)]

/-- What a pavilion owns, as objects (13 R426). -/
def pavObjs (s : State) (pn : Pav) : List Obj :=
  [Obj.pav pn] ++ (ownedSes s pn).map Obj.ses
    ++ (ownedFns s pn).map (fun f => Obj.fn f.1.toNat (f.2.1 / 65536) (f.2.1 % 65536))

/-- PAV_DESTROY (10 R300, R302, R323). -/
def cfgPavDestroy : Cfg where
  spec := { op := 0x0202, len := 1, modes := mAS, stage := true, right := rPav, target := 0xFF }
  packet := fun _ _ => []
  check := fun s p =>
    match pavStateCheck s (pkPav p) [.defined, .stopped] with
    | some r => some r
    | none => if pavOwns s (pkPav p) then some (stBusy, 0) else none
  apply := fun s p _ =>
    let n := pkPav p
    let s1 := { s with gate := { s.gate with
      folly := s.gate.folly.map (fun f => (f.1, { f.2 with grant := f.2.grant &&& ~~~ (1#256 <<< n.toNat) })) } }
    let s2 := purgeVmid (takeBase s1 n 0) n
    let s3 := s2.setPav n (keptCounts (s2.pav n))
    { s3 with qos := mdel s3.qos n.toNat }
  objs := fun s p => pavObjs s (pkPav p)

/-- PAV_START (10 R300, R309). -/
def cfgPavStart : Cfg where
  spec := { op := 0x0203, len := 1, modes := mS, stage := true, right := rPav, target := 0xFF }
  packet := fun _ _ => []
  check := fun s p => pavStateCheck s (pkPav p) [.defined, .stopped]
  apply := fun s p _ => s.setPav (pkPav p) { s.pav (pkPav p) with st := .running }
  objs := fun _ p => [.pav (pkPav p)]

/-- PAV_STOP (10 R300, R328): step 1, then STOPPED. -/
def specPavStop : CmdSpec := { op := 0x0204, len := 1, modes := mS, stage := false, right := rPav, target := 0xFF }
/-- PAV_RESET (10 R300, R325). -/
def specPavReset : CmdSpec := { op := 0x0205, len := 1, modes := mS, stage := false, right := rPav, target := 0xFF }

/-- Fields of PAV_CTL_SET (10 R304). -/
def csWord (p : Packet) : Nat := pkGet p 16 2
def csMask (p : Packet) : Nat := pkGet p 18 2
def csVtb (p : Packet) : Nat := pkGet p 24 8

/-- PAV_CTL_SET (10 R303, R304; 02 R38; 07 R199). -/
def cfgPavCtlSet : Cfg where
  spec := { op := 0x0207, len := 2, modes := mAS, stage := true, right := rPav, flags := 1, target := 0xFF }
  packet := fun _ p =>
    let thr := csMask p / 256
    [(16, csWord p / 32 % 8 == 0 && !(thr == 255 && csWord p / 256 == 0)), (18, (thr == 0 || thr == 255) && csMask p / 32 % 8 == 0),
     (20, pkZero p 20 4),
     (24, if pkFlags p % 2 = 1 then csVtb p % 4096 == 0 && decide (csVtb p < 2 ^ 48) else csVtb p == 0)]
  check := fun s p => firstFail [
    ((s.pav (pkPav p)).st != .none, badAt 8), (pkFlags p % 2 == 0 || dramHolds s (csVtb p) 4096, badAt 24),
    ((s.pav (pkPav p)).st != .resetting, stBusy, 0)]
  apply := fun s p _ =>
    let n := pkPav p
    let v := s.pav n
    let m : BitVec 16 := BitVec.ofNat 16 (csMask p)
    let w : BitVec 16 := BitVec.ofNat 16 (csWord p)
    let live := m &&& ~~~ 1#16
    let v1 := { v with
      ctl := (v.ctl &&& ~~~ live) ||| (w &&& live), heldStyle := if m.getLsbD 0 then w.getLsbD 0 else v.heldStyle }
    if pkFlags p % 2 = 1 then
      let v2 := { v1 with vtb := BitVec.ofNat 48 (csVtb p) }
      purgeVmid (takeBase (s.setPav n v2) n v2.vtb) n
    else s.setPav n v1
  objs := fun _ p => [.pav (pkPav p)]

/-- PAV_VCPU_MAP (10 R312, R313). -/
def cfgPavVcpuMap : Cfg where
  spec := { op := 0x0206, len := 2, modes := mAS, stage := true, right := rPav, target := 0xFF }
  packet := fun s p => [
    (18, decide (pkGet p 18 1 < vcCount s.cmap.part)), (19, decide (pkGet p 19 1 ≤ 1)), (20, pkZero p 20 12)]
  check := fun s p => firstFail [
    ((s.pav (pkPav p)).st != .none, badAt 8), (decide (pkGet p 16 2 < (s.pav (pkPav p)).nvcpu), badAt 16),
    ((s.pav (pkPav p)).st != .resetting, stBusy, 0)]
  apply := fun s p _ =>
    let v := s.pav (pkPav p)
    let pa := pitCtlPa v (pkGet p 16 2)
    let old := s.peek pa 8
    deviceWrite s pa 2 (old % 65536 / 512 * 512 + 256 * pkGet p 19 1 + pkGet p 18 1)
  objs := fun _ p => [.vcpu (pkPav p) (pkGet p 16 2)]

/-- The memory pool of the budgets: 32,000 lines per epoch at DDR5-6400, in proportion to the data rate (10 R323). -/
def memPool (d : Dram) : Nat := 32000 * d.rate / 6400

/-- A class that a budget command may name, and that exists (10 R322, R323). -/
def budgetClass (v : Nat) (hyp : Bool) : Bool := decide (v < 256) || (hyp && v == 256)

/-- The sum of a budget over every other class. -/
def budgetSum (s : State) (f : Qos → Nat) (c : Nat) : Nat :=
  ((s.qos.filter (fun q => q.1 != c)).map (fun q => f q.2)).foldl (· + ·) 0

/-- TARGET [8:0]: a class. -/
def pkClass (p : Packet) : ClassId := BitVec.ofNat 16 (pkTarget p)

/-- QOS_MEM_SET (10 R322, R323). -/
def cfgQosMemSet : Cfg where
  spec := { op := 0x0501, len := 2, modes := mAS, stage := true, right := rQos, target := 0x1FF }
  packet := fun _ p => [
    (8, budgetClass (pkTarget p) true), (16, !(pkGet p 18 1 == 1 && pkGet p 16 2 == 0)), (18, decide (pkGet p 18 1 ≤ 1)),
    (19, pkZero p 19 13)]
  check := fun s p => firstFail [
    (ownerExists s (pkTarget p), badAt 8),
    (decide (budgetSum s (·.mem) (pkTarget p) + pkGet p 16 2 ≤ memPool s.dram), stNoResource, 0)]
  apply := fun s p _ => s.setQos (pkClass p) { s.qosOf (pkClass p) with mem := pkGet p 16 2, cap := pkGet p 18 1 == 1 }
  objs := fun _ p => [.qos 1 (pkClass p)]

/-- QOS_CACHE_SET (08 R240; 10 R322). -/
def cfgQosCacheSet : Cfg where
  spec := { op := 0x0502, len := 2, modes := mAS, stage := true, right := rQos, target := 0x1FF }
  packet := fun _ p => [(8, budgetClass (pkTarget p) true), (16, pkGet p 16 2 != 0), (18, pkZero p 18 14)]
  check := fun s p => firstFail [(ownerExists s (pkTarget p), badAt 8)]
  apply := fun s p _ => s.setQos (pkClass p) { s.qosOf (pkClass p) with ways := BitVec.ofNat 16 (pkGet p 16 2) }
  objs := fun _ p => [.qos 2 (pkClass p)]

/-- QOS_ARB_SET (10 R322, R323). -/
def cfgQosArbSet : Cfg where
  spec := { op := 0x0503, len := 2, modes := mAS, stage := true, right := rQos, target := 0xFF }
  packet := fun _ p => [(16, decide (pkGet p 16 2 ≤ 512)), (18, decide (pkGet p 18 1 ≤ 3)), (19, pkZero p 19 13)]
  check := fun s p => firstFail [
    (pavExists s (pkTarget p), badAt 8),
    (decide (budgetSum s (·.arb) (pkTarget p) + pkGet p 16 2 ≤ 512), stNoResource, 0)]
  apply := fun s p _ => s.setQos (pkClass p) { s.qosOf (pkClass p) with arb := pkGet p 16 2, prio := BitVec.ofNat 2 (pkGet p 18 1) }
  objs := fun _ p => [.qos 3 (pkClass p)]

/-- QOS_IRQ_RATE_SET (10 R322). -/
def cfgQosIrqRateSet : Cfg where
  spec := { op := 0x0504, len := 2, modes := mAS, stage := true, right := rQos, target := 0xFF }
  packet := fun _ p => [(16, decide (pkGet p 16 2 ≤ 4095)), (18, pkZero p 18 14)]
  check := fun s p => firstFail [(pavExists s (pkTarget p), badAt 8)]
  apply := fun s p _ => s.setQos (pkClass p) { s.qosOf (pkClass p) with rate := pkGet p 16 2 }
  objs := fun _ p => [.qos 4 (pkClass p)]

/-- TARGET of the route commands (13 R420). -/
def rtPav (p : Packet) : Pav := BitVec.ofNat 8 (pkTarget p)
def rtId (p : Packet) : Nat := pkTarget p / 65536 % 2048
def rtHyp (p : Packet) : Bool := (pkTarget p).testBit 32
/-- SOURCE. -/
def rtSrc (p : Packet) : BitVec 64 := BitVec.ofNat 64 (pkGet p 16 8)

/-- A well-formed SOURCE: its kind, and its other bits zero (13 R420). -/
def sourceOk (v : Nat) : Bool :=
  match v % 16 with
  | 0 => v == 0
  | 1 => decide (v < 2 ^ 22) && decide (v / 2 ^ 18 ≤ 9)
  | 2 => v / 2 ^ 7 % 2 == 0 && v / 2 ^ 24 % 256 == 0 && decide (v < 2 ^ 48)
  | 3 => decide (v < 2 ^ 9)
  | 4 => decide (v < 2 ^ 10)
  | _ => false

/-- A binding leads to the same ID (13 R420). -/
def sameRoute (r : Route) (hyp : Bool) (pn : Pav) (id : Nat) : Bool := r.hyp == hyp && r.id.toNat == id && (hyp || r.pav == pn)

/-- The objects of a route command. -/
def routeObjs (p : Packet) (srcs : List (BitVec 64)) : List Obj :=
  (if rtHyp p then Obj.irqHyp (rtId p) else Obj.irq (rtPav p) (rtId p)) :: (srcs.filter (· != 0)).map Obj.src

/-- Writes ENTRY i (10 R311, R312). -/
def writeEntry (s : State) (pn : Pav) (i vcpu : Nat) (en send : Bool) : State :=
  gateWrite32 s (pitEntryPa (s.pav pn) i) (BitVec.ofNat 32 (en.toNat + 2 * send.toNat + 256 * (vcpu % 64)))

/-- IRQ_ROUTE_SET (13 R420; 10 R310, R312). -/
def cfgIrqRouteSet : Cfg where
  spec := { op := 0x0601, len := 2, modes := mAS, stage := true, right := rPav, target := 0x107FF00FF }
  packet := fun s p => [
    (16, sourceOk (pkGet p 16 8)), (24, !rtHyp p || decide (pkGet p 24 2 < vcCount s.cmap.part)),
    (26, rtHyp p || decide (pkGet p 26 1 ≤ 1)), (27, rtHyp p || decide (pkGet p 27 1 ≤ 1)), (28, pkZero p 28 4)]
  check := fun s p =>
    let src := rtSrc p
    let v := s.pav (rtPav p)
    let cls : ClassId := if rtHyp p then hypClass else (rtPav p).setWidth 16
    let old := s.gate.routes.find? (fun r => r.src == src)
    firstFail [
      (rtHyp p || v.st != .none, badAt 8), (rtHyp p || decide (rtId p < v.nirq), badAt 8),
      (sourceFits s (pkGet p 16 8) cls, badAt 16), (rtHyp p || decide (pkGet p 24 2 < v.nvcpu), badAt 24),
      (match old with | some r => src == 0 || sameRoute r (rtHyp p) (rtPav p) (rtId p) | none => true, stBusy, 0),
      (src == 0 || old.isSome || decide (s.gate.routes.length < 65536), stNoResource, 0)]
  apply := fun s p _ =>
    let src := rtSrc p
    let r : Route := {
      src := src, hyp := rtHyp p, pav := if rtHyp p then 0 else rtPav p, id := BitVec.ofNat 11 (rtId p), vc := BitVec.ofNat 16 (pkGet p 24 2) }
    let rest := if rtHyp p then
        (s.gate.routes.filter (fun q => q.src != src)).map (fun q => if sameRoute q true 0 (rtId p) then { q with vc := r.vc } else q)
      else s.gate.routes.filter (fun q => q.src != src)
    let s1 := if src = 0 then { s with gate := { s.gate with routes := rest } }
      else { s with gate := { s.gate with routes := rest ++ [r] } }
    if rtHyp p then s1 else writeEntry s1 (rtPav p) (rtId p) (pkGet p 24 2) (pkGet p 26 1 == 1) (pkGet p 27 1 == 1)
  objs := fun _ p => routeObjs p [rtSrc p]

/-- IRQ_ROUTE_CLEAR (13 R420; 10 R310, R312). -/
def cfgIrqRouteClear : Cfg where
  spec := { op := 0x0602, len := 2, modes := mAS, stage := true, right := rPav, flags := 1, target := 0x107FF00FF }
  packet := fun _ p => [
    (16, if pkFlags p % 2 = 1 then pkGet p 16 8 == 0 else sourceOk (pkGet p 16 8)), (24, pkZero p 24 8)]
  check := fun s p =>
    let v := s.pav (rtPav p)
    firstFail [
      (rtHyp p || v.st != .none, badAt 8), (rtHyp p || decide (rtId p < v.nirq), badAt 8),
      (pkFlags p % 2 == 1 || rtSrc p == 0
        || s.gate.routes.any (fun r => r.src == rtSrc p && sameRoute r (rtHyp p) (rtPav p) (rtId p)), badAt 16)]
  apply := fun s p _ =>
    let gone (r : Route) : Bool := sameRoute r (rtHyp p) (rtPav p) (rtId p) && (pkFlags p % 2 == 1 || r.src == rtSrc p)
    let s1 := { s with gate := { s.gate with routes := s.gate.routes.filter (fun r => !gone r) } }
    if rtHyp p then s1
    else
      let e := pitEntry s1 (s1.pav (rtPav p)) (rtId p)
      gateWrite32 s1 (pitEntryPa (s1.pav (rtPav p)) (rtId p)) (e &&& ~~~ 1#32)
  objs := fun s p =>
    routeObjs p (if pkFlags p % 2 = 1 then
      (s.gate.routes.filter (fun r => sameRoute r (rtHyp p) (rtPav p) (rtId p))).map (·.src) else [rtSrc p])

/-- PAV_CREATE. -/
def execPavCreate (lane : LaneNo) (s : State) : Out := .next (configRow s lane cfgPavCreate)
/-- PAV_DESTROY. -/
def execPavDestroy (lane : LaneNo) (s : State) : Out := .next (configRow s lane cfgPavDestroy)
/-- PAV_START. -/
def execPavStart (lane : LaneNo) (s : State) : Out := .next (configRow s lane cfgPavStart)
/-- PAV_CTL_SET. -/
def execPavCtlSet (lane : LaneNo) (s : State) : Out := .next (configRow s lane cfgPavCtlSet)
/-- PAV_VCPU_MAP. -/
def execPavVcpuMap (lane : LaneNo) (s : State) : Out := .next (configRow s lane cfgPavVcpuMap)
/-- QOS_MEM_SET. -/
def execQosMemSet (lane : LaneNo) (s : State) : Out := .next (configRow s lane cfgQosMemSet)
/-- QOS_CACHE_SET. -/
def execQosCacheSet (lane : LaneNo) (s : State) : Out := .next (configRow s lane cfgQosCacheSet)
/-- QOS_ARB_SET. -/
def execQosArbSet (lane : LaneNo) (s : State) : Out := .next (configRow s lane cfgQosArbSet)
/-- QOS_IRQ_RATE_SET. -/
def execQosIrqRateSet (lane : LaneNo) (s : State) : Out := .next (configRow s lane cfgQosIrqRateSet)
/-- IRQ_ROUTE_SET. -/
def execIrqRouteSet (lane : LaneNo) (s : State) : Out := .next (configRow s lane cfgIrqRouteSet)
/-- IRQ_ROUTE_CLEAR. -/
def execIrqRouteClear (lane : LaneNo) (s : State) : Out := .next (configRow s lane cfgIrqRouteClear)

/-- PAV_STOP (10 R325 step 1, R328): the reply is DONE once the pavilion's vCPUs have left. -/
def execPavStop (lane : LaneNo) (s : State) : Out :=
  .next (plainRow s lane specPavStop true (fun _ => []) (fun p => pavStateCheck s (pkPav p) [.running])
    (fun p =>
      let n := pkPav p
      let v := s.pav n
      let s1 := markChanged (beginCmd s lane) [.pav n]
      advancePav (recallGuests (s1.setPav n { v with st := .stopped, stops := v.stops ++ [lane] }) n) n))

/-- PAV_RESET (10 R325 to R329). -/
def execPavReset (lane : LaneNo) (s : State) : Out :=
  .next (plainRow s lane specPavReset true (fun _ => []) (fun p => pavStateCheck s (pkPav p) [.running, .stopped])
    (fun p =>
      let n := pkPav p
      let v := s.pav n
      let s1 := markChanged (beginCmd s lane) (pavObjs s n)
      advancePav (recallGuests (s1.setPav n { v with
        st := .resetting,
        wait := some { lane := some lane, tag := BitVec.ofNat 16 (pkTag p), step := 1, count := 0, noFlr := false } }) n) n))

end Sys2Proof.Machine
end

