-- ==== Sys2Proof/Machine/GateSlate.lean ====
section
/-! DEFINITION. Slates: opening, staging's other half, the commit and its instant, rolling back, the idle limit (13 R423 to R428). -/

namespace Sys2Proof.Machine

/-- The configuration commands by opcode (13 R416, column Stage). -/
def cfgOf (op : Nat) : Option Cfg :=
  match op with
  | 0x0201 => some cfgPavCreate
  | 0x0202 => some cfgPavDestroy
  | 0x0203 => some cfgPavStart
  | 0x0206 => some cfgPavVcpuMap
  | 0x0207 => some cfgPavCtlSet
  | 0x0301 => some cfgMemAssign
  | 0x0302 => some cfgMemRelease
  | 0x0303 => some cfgMemParitySet
  | 0x0304 => some cfgKeepRegionSet
  | 0x0305 => some cfgMicaSet
  | 0x0402 => some cfgSessionOpen
  | 0x0403 => some cfgSessionWindowSet
  | 0x0406 => some cfgArbRoleSet
  | 0x0501 => some cfgQosMemSet
  | 0x0502 => some cfgQosCacheSet
  | 0x0503 => some cfgQosArbSet
  | 0x0504 => some cfgQosIrqRateSet
  | 0x0601 => some cfgIrqRouteSet
  | 0x0602 => some cfgIrqRouteClear
  | 0x0703 => some cfgFaultPolicySet
  | 0x0801 => some cfgFollyLoad
  | 0x0A01 => some cfgQzDisciplineSet
  | 0x0A02 => some cfgTimerAlloc
  | 0x0B01 => some cfgPcieRoleSet
  | 0x0B02 => some cfgPcieVfAssign
  | 0x0C01 => some cfgTraceConfig
  | 0x0C02 => some cfgPmuUncoreConfig
  | _ => none

/-- Sets or removes a slate. -/
def State.setSlate (s : State) (id : Nat) (k : Option Slate) : State :=
  { s with gate := { s.gate with slates := mset? s.gate.slates id k } }

/-- The next free slate id after the one issued last: ids rise, skip 0 and open slates, and wrap after 0xFFFF (13 R423). At most 16 slates are open, so 18 tries find one. -/
def nextSlate (s : State) : Nat → Nat → Nat
  | 0, i => i
  | n + 1, i =>
    let j := if i = 0xFFFF then 1 else i + 1
    if (mget? s.gate.slates j).isNone then j else nextSlate s n j

/-- SLATE_BEGIN (13 R423). -/
def specSlateBegin : CmdSpec := { op := 0x0901, len := 2, modes := mAS, stage := false, right := rInfo }

/-- SLATE_BEGIN (13 R423). -/
def execSlateBegin (lane : LaneNo) (s : State) : Out :=
  .next (plainRow s lane specSlateBegin false
    (fun p => [(16, decide (pkGet p 16 2 ≤ 3600)), (18, pkZero p 18 14)])
    (fun _ => if 16 ≤ s.gate.slates.length then some (stNoResource, 1) else none)
    (fun p =>
      let id := nextSlate s 18 s.gate.lastSlate
      let idle := if pkGet p 16 2 = 0 then 60 else pkGet p 16 2
      let k : Slate := { lane := lane, cmds := [], idle := idle, begun := s.qz.time, last := s.qz.time, armed := none, tag := 0 }
      let s1 := s.setSlate id (some k)
      replyDone { s1 with gate := { s1.gate with lastSlate := id } } lane 0 id 0))

/-- SLATE_COMMIT and SLATE_ROLLBACK: the header's SLATE names the slate (13 R416). -/
def specSlateCommit : CmdSpec := { op := 0x0902, len := 1, modes := mAS, stage := false, right := rInfo }
def specSlateRollback : CmdSpec := { op := 0x0903, len := 1, modes := mASP, stage := false, right := rInfo }

/-- An object of a staged command has been changed by a commit since it was staged (13 R426). -/
def conflicts (s : State) (os : List Obj) (seq : Nat) : Bool := s.gate.changes.any (fun c => os.contains c.1 && decide (seq < c.2))

/-- Runs the staged commands against the state that the earlier ones leave, from index i on: the first failure with its status and DETAIL, or the state that the slate leaves and the objects it changes (13 R425). `s0` is the state that holds the change counts. -/
def runSlate (s0 : State) : List Staged → Nat → State → List Obj → Sum (Nat × Nat) (State × List Obj)
  | [], _, s, os => .inr (s, os)
  | c :: t, i, s, os =>
    match cfgOf (pkOpcode c.pkt) with
    | none => runSlate s0 t (i + 1) s os
    | some f =>
      let d := i + 65536 * pkTag c.pkt
      let o := f.objs s c.pkt
      if conflicts s0 o c.seq then .inl (0x20, d)
      else match f.check s c.pkt with
        | some r => .inl (r.1, d)
        | none => runSlate s0 t (i + 1) (f.apply s c.pkt c.image) (os ++ o)

/-- Applies the staged commands in staged order, with the objects they change (13 R425 step 4). -/
def applySlate : List Staged → State → List Obj → State × List Obj
  | [], s, os => (s, os)
  | c :: t, s, os =>
    match cfgOf (pkOpcode c.pkt) with
    | none => applySlate t s os
    | some f => applySlate t (f.apply s c.pkt c.image) (os ++ f.objs s c.pkt)

/-- SLATE_COMMIT, steps 1 to 3: the checks, then the instant T = QZ_TIME + 5 µs; it waits while another commit is armed (13 R404, R425). -/
def commitSlate (s : State) (lane : LaneNo) (p : Packet) (id : Nat) (k : Slate) : State :=
  match runSlate s k.cmds 0 s [] with
  | .inl r => refuse (s.setSlate id none) lane r
  | .inr _ => beginCmd (s.setSlate id (some { k with armed := some (s.qz.time + 5000), tag := BitVec.ofNat 16 (pkTag p) })) lane

/-- SLATE_COMMIT (13 R425). -/
def execSlateCommit (lane : LaneNo) (s : State) : Out :=
  match presented s lane specSlateCommit.op with
  | none => .next s
  | some p =>
    match earlyChecks s lane specSlateCommit p true [] with
    | some r => .next (refuse s lane r)
    | none =>
      match ownSlate s lane (pkSlate p) with
      | none => .next s
      | some k => .next (if armedAny s then s else commitSlate s lane p (pkSlate p) k)

/-- The instant T of an armed slate: every unit switches, the slate closes, the reply carries T (13 R425 steps 4 and 5). -/
def reachInstant (s : State) (id : Nat) : State :=
  match mget? s.gate.slates id with
  | none => s
  | some k =>
    match k.armed with
    | none => s
    | some t =>
      let s1 := (s.reach t).setSlate id none
      let (s2, os) := applySlate k.cmds s1 []
      replyDone (markChanged s2 os) k.lane 0 t 0

/-- SLATE_COMMIT_INSTANT (13 R425). -/
def execSlateCommitInstant (id : BitVec 16) (s : State) : Out := .next (reachInstant s id.toNat)

/-- Every armed commit reaches its instant: a recovery that begins at or after step 3 waits for T (13 R428). -/
def settleArmed (s : State) : State :=
  (mkeys (s.gate.slates.filter (fun k => k.2.armed.isSome))).foldl reachInstant s

/-- The lane's command is one whose commit the Gatehouse may have begun: a SLATE_COMMIT, or a configuration command with SLATE = 0, that passes every check (13 R425, R428). -/
def mayCommit (s : State) (n : LaneNo) : Bool :=
  match (s.lane n).cur with
  | none => false
  | some p =>
    if (presented s n (pkOpcode p)).isNone then false
    else if pkOpcode p = specSlateCommit.op then
      (earlyChecks s n specSlateCommit p true []).isNone
        && (match ownSlate s n (pkSlate p) with
          | some k => (runSlate s k.cmds 0 s []).isRight
          | none => false)
    else match cfgOf (pkOpcode p) with
      | none => false
      | some f => pkSlate p == 0 && (earlyChecks s n f.spec p false (f.packet s p)).isNone && (f.staging s p).isNone && (f.check s p).isNone

/-- A recovery that begins before step 3 of a commit stops it: ROLLED_BACK, and its slate stays open. Which commit was under way, if any, is a free value (13 R428; log entry 108). -/
def stopCommit (s : State) : State :=
  match ((mkeys s.gate.lanes).map (BitVec.ofNat 6)).filter (mayCommit s) with
  | [] => s
  | ns =>
    let (f, s1) := s.free
    match ns[f.toNat % (ns.length + 1)]? with
    | some n => reply s1 n 0x30 0 0 0
    | none => s1

/-- A recovery meets a commit: it waits for the instant of one that is armed, and stops one that is not (13 R428). -/
def meetCommits (s : State) : State := if armedAny s then settleArmed s else stopCommit s

/-- SLATE_ROLLBACK (13 R424). -/
def execSlateRollback (lane : LaneNo) (s : State) : Out :=
  match presented s lane specSlateRollback.op with
  | none => .next s
  | some p =>
    match earlyChecks s lane specSlateRollback p true [] with
    | some r => .next (refuse s lane r)
    | none => .next (replyDone (s.setSlate (pkSlate p) none) lane 0 s.qz.time 0)

/-- SLATE_STATUS (13 R427). -/
def specSlateStatus : CmdSpec := { op := 0x0904, len := 1, modes := mASP, stage := false, right := rInfo, target := 0xFFFF }

/-- Whole seconds before the idle limit applies (13 R427; DESIGN CHOICE: rounded down, log entry 41). -/
def idleLeft (s : State) (k : Slate) : Nat := (k.last + k.idle * 1000000000 - s.qz.time) / 1000000000

/-- SLATE_STATUS's payload, from offset 16 on (13 R427). -/
def slateInfo (s : State) (k : Slate) : Nat :=
  (if k.armed.isSome then 2 else 1) + 2 ^ 8 * k.lane.toNat + 2 ^ 16 * k.cmds.length + 2 ^ 32 * idleLeft s k + 2 ^ 64 * k.begun

/-- SLATE_STATUS (13 R427). -/
def execSlateStatus (lane : LaneNo) (s : State) : Out :=
  .next (plainRow s lane specSlateStatus false (fun _ => [])
    (fun p => if (mget? s.gate.slates (pkTarget p)).isNone then some (0x22, 0) else none)
    (fun p =>
      match mget? s.gate.slates (pkTarget p) with
      | none => s
      | some k => replyDone s lane 0 s.qz.time (slateInfo s k)))

/-- SLATE_IDLE_EXPIRY (13 R423 limit 4; 15 R568 class 0x31). -/
def execSlateIdleExpiry (id : BitVec 16) (s : State) : Out :=
  match mget? s.gate.slates id.toNat with
  | none => .next s
  | some k =>
    .next (if k.armed.isSome then s
      else
        let s1 := s.reach (k.last + k.idle * 1000000000)
        logEventOnly (s1.setSlate id.toNat none) 0x31 k.lane.toNat id.toNat 0)

end Sys2Proof.Machine
end

