-- ==== Sys2Proof/Machine/Faults.lean ====
section
/-! DEFINITION. What the recoveries share: saving the log, entering BELVEDERE, lost data, recurrence limits (15 R456 to R474; 14 R434). -/

namespace Sys2Proof.Machine

/-- Entries of the log ring of boot flash: 1,016 KiB of 64-byte entries (18 R533). -/
def flashRing : Nat := 16256

/-- The newest 256 log records are written to boot flash, oldest first (14 R434; 15 R479, FLAGS). -/
def saveLog (s : State) : State :=
  let l := s.gate.log
  let new := (l.drop (l.length - 256)).map (fun r => { r with flags := r.flags ||| 4 })
  let seqs := new.map (·.seq)
  let ring := s.flash.logs.filter (fun r => !seqs.contains r.seq) ++ new
  { s with
    gate := { s.gate with log := l.map (fun r => if seqs.contains r.seq then { r with flags := r.flags ||| 4 } else r) }
    flash := { s.flash with logs := ring.drop (ring.length - flashRing) } }

/-- A fault whose unit has no kind in the UNIT_STATUS table: the unit's kind and index are free values (15 R479, R481). -/
def openUnit (s : State) (e : LogIn) : LogIn × State :=
  let (f, s1) := s.free
  ({ e with ukind := f.setWidth 8, uindex := f.toNat / 256 % 65536 }, s1)

/-- The safety sessions alone survive into BELVEDERE (11 R370; 15 R474). -/
def safetyOnly (s : State) : State :=
  { s with arb := { s.arb with
    ses := (s.arb.ses.filter (fun p => p.2.safety && p.2.st != .closed)).map
      (fun p => (p.1, { p.2 with wait := p.2.wait.map (fun w => { w with lane := none }) }))
    waiting := s.arb.waiting.filter (fun w => (s.ses w.1).safety) } }

/-- The cycle under way ends, an outbound or an acknowledge cycle by releasing its strobes, an inbound one with the profile's retry response, or with none; the lines of the system controller's duties stay as they are (11 R372). -/
def endUnderWay (s : State) : State :=
  let s1 := keepDuties s
  let answer (ph : InPhase) : InPhase :=
    if ph.answer = .accept then { ph with answer := if s.caps.retry then .retry else .none } else ph
  { s1 with arb := { s1.arb with cycle := none, ack := none, path := none, beats := 0, phase := s1.arb.phase.map answer } }

/-- The Belvedere sequencer takes the port with the loaded profile and the committed roles (11 R370, R372). -/
def belvederePort (s : State) : State :=
  let s1 := endUnderWay s
  { s1 with arb := { s1.arb with engine := 2 } }

/-- What lane 0 sees of its command when BELVEDERE is entered: a commit armed has reached T; another is ROLLED_BACK; an entry into REST is abandoned with DETAIL 1 (14 R443; 15, corner after R481; DESIGN CHOICE for other commands that wait, log entry 44). -/
def answerLane0 (s : State) : State :=
  let l := s.lane 0
  if l.begun then
    if s.gate.restReq.isSome then replyDone s 0 1 s.qz.time 0 else reply s 0 0x30 0 0 0
  else s

/-- Lanes 1 to 63 are never served again (15, corner after R481). -/
def dropLanes (s : State) : State :=
  { s with gate := { s.gate with lanes := s.gate.lanes.map (fun p => if p.1 = 0 then p else (p.1, { p.2 with cur := none, begun := false })) } }

/-- Entry into BELVEDERE is possible (14 R431). -/
def mayFail (s : State) : Bool :=
  (s.mode == .assembly || s.mode == .service || s.mode == .repair || s.mode == .rest) && !s.dev.porst && !s.therm.trip

/-- Both Belvedere pairs are retired: there is no safety image (15 R469). -/
def noImage (s : State) : Bool := s.dev.blv.deadA && s.dev.blv.deadB

/-- Steps 2 to 4 of the entry: SAFE take the armed levels, or the static ones without an image; the port is taken; every island on VDD_CORE stops; DRAM enters self-refresh where its controllers and PHYs are powered; PCI Express idles; AFAIL is asserted under P-1014 and P-VITA1 (15 R473, R477). -/
def stopAll (s : State) : State :=
  let safe := if noImage s then s.dev.blv.static else s.dev.blv.armed
  let s1 := safetyOnly (belvederePort s)
  { s1 with
    pavs := s1.pavs.map (fun p => (p.1, { p.2 with wait := none, stops := [] }))
    arb := { s1.arb with afailOut := s1.arb.afailOut || s1.vme }
    dram := { s1.dram with selfRefresh := s1.dram.selfRefresh || s1.dev.rails &&& 0x33 == 0x33 }
    ports := s1.ports.map (fun p => (p.1, { p.2 with
      links := p.2.links.map (fun l => (l.1, { l.2 with up := false }))
      fns := p.2.fns.map (fun f => (f.1, { f.2 with flr := none })) }))
    gate := { s1.gate with restReq := none, modeReq := none, voltReq := none, restart := false, slates := [] }
    dev := { s1.dev with
      mode := .belvedere, stopped := true, vidReq := 0, safeOut := if s1.dev.rails.getLsbD 8 then some safe else none,
      blv := { s1.dev.blv with safe := safe, image := s1.dev.blv.image && !noImage s1 } } }

/-- Entry into BELVEDERE with its log record (15 R473). Step 5: the Gatehouse, healthy and powered, writes the log to boot flash. -/
def enterBelvedere (s : State) (e : LogIn) (vc : Option Vc) : State :=
  if mayFail s then
    let s1 := recordFault s { e with action := 9, stall := 0xFFFFFFFF, stallMax := 0 } vc
    let s2 := stopAll (answerLane0 (settleArmed (dropLanes s1)))
    let healthy := e.cls != 0x23 && s2.dev.rails.getLsbD 3
    if healthy then saveLog s2 else { s2 with gate := { s2.gate with byBlv := e.cls == 0x23 } }
  else s

/-- A pavilion is reset by the device (15 R463; 10 R325): no lane gets a reply. -/
def resetPav (s : State) (pn : Pav) : State :=
  let v := s.pav pn
  match v.st with
  | .running | .stopped =>
    let w : PavWait := { lane := none, tag := 0, step := 1, count := 0, noFlr := false }
    advancePav (recallGuests (s.setPav pn { v with st := .resetting, wait := some w }) pn) pn
  | _ => s

/-- What lost data of an allocation class leads to, under LOST_DATA: the reset of its pavilion, or BELVEDERE (15 R463). -/
def lostOutcome (s : State) (e : LogIn) (vc : Option Vc) : State :=
  if s.policy 8 = 1 ∧ e.owner.toNat < 256 then
    resetPav (recordFault s { e with cls := 0x20, action := 8, stallMax := 0xFFFFFFFE } vc) (e.owner.setWidth 8)
  else enterBelvedere s { e with cls := 0x20 } vc

/-- A lost line reads all ones from then on (15 R463). The caller has removed the copies that the error spoilt. -/
def lostLine (s : State) (l : LineNo) (c : ClassId) : State :=
  let s0 := setWbuf s (s.homeNo l) l none
  let h := s0.home (s.homeNo l)
  let s1 := s0.setHome (s.homeNo l) { h with sc := mdel h.sc l.toNat }
  let s2 := { s1 with dram := dramWrite s1.dram l.toNat (BitVec.allOnes 512) }
  let (e, s3) := openUnit s2 { cls := 0x20, action := 8, ukind := 0, uindex := 0, owner := c, addr := BitVec.ofNat 64 (l.toNat * 64) }
  lostOutcome s3 e none

/-- Times within a window, with the present. -/
def recentTimes (s : State) (ts : List Nat) (window : Nat) : List Nat := (s.qz.time :: ts).filter (fun t => decide (s.qz.time < t + window))

/-- COUNT and window in ns of a mismatch item: the mismatches exceed the limit (15 R467, R478). -/
def mismatchOver (s : State) (item : Nat) (ts : List Nat) : Bool :=
  let v := s.policy item
  decide (v % 256 < ts.length)

/-- The window of a mismatch item in ns (15 R478). -/
def mismatchWindow (s : State) (item : Nat) : Nat := s.policy item / 256 % 2 ^ 24 * 1000000

/-- The device is in a mode from which recoveries run: ASSEMBLY, SERVICE, REPAIR, whose episode they join, and REST, which they end first (14 R431, R440, R446; 15 R465). -/
def recovers (s : State) : Bool :=
  (s.mode == .assembly || s.mode == .service || s.mode == .repair || s.mode == .rest) && !s.dev.porst && !s.therm.trip

end Sys2Proof.Machine
end

