-- ==== Sys2Proof/Machine/GateModes.lean ====
section
/-! DEFINITION. The commands on the device itself and what completes them: modes, REST, the supply setpoint, firmware, the management transports (13 R418, R430; 14 R439 to R446; 18 R533 to R538; 19 R553). -/

namespace Sys2Proof.Machine

/-- Byte of a slot of boot flash; a byte not listed is 0. -/
def flashByte (m : SMap Byte) (i : Nat) : Byte := mget m i 0

/-- A little-endian field of a slot (18 R534). -/
def flashField (m : SMap Byte) (off : Nat) : Nat → Nat
  | 0 => 0
  | n + 1 => flashField m off n + 256 ^ n * (flashByte m (off + n)).toNat

/-- Bytes of a slot: 112 MiB (18 R533). -/
def slotSize : Nat := 0x7000000

/-- A section lies in the slot and is at most `lim` bytes long. -/
def sectionOk (m : SMap Byte) (off lim : Nat) : Bool :=
  decide (flashField m (off + 4) 4 ≤ lim ∧ flashField m off 4 + flashField m (off + 4) 4 ≤ slotSize)

/-- The values of a slot header lie in their ranges (18 R534). -/
def hdrOk (m : SMap Byte) : Bool :=
  let z (off n : Nat) : Bool := flashField m off n == 0
  flashField m 0 4 == 0x544F4F42 && flashField m 4 2 == 1 && decide (flashField m 6 2 ≤ 1)
    && sectionOk m 16 0x200000 && sectionOk m 24 0x4000000 && sectionOk m 32 0x400000
    && decide (650 ≤ flashField m 68 2 ∧ flashField m 68 2 ≤ 950 ∧ flashField m 68 2 % 5 = 0)
    && (List.range 64).all (fun i => decide (flashField m (72 + 2 * i) 2 < 0x2000))
    && flashField m 200 8 % granBytes == 0
    && decide (20 ≤ flashField m 274 1 ∧ flashField m 274 1 ≤ 36) && decide (12 ≤ flashField m 275 1 ∧ flashField m 275 1 ≤ 24)
    && z 12 4 && z 40 24 && z 67 1 && z 70 2 && z 280 8 && z 384 32

/-- The header of a slot (18 R534). -/
def hdrOf (m : SMap Byte) : SlotHdr where
  debug := (flashField m 6 2).testBit 0
  fwVersion := BitVec.ofNat 32 (flashField m 8 4)
  hvOff := flashField m 24 4
  hvLen := flashField m 28 4
  safeLen := flashField m 36 4
  rate := flashField m 64 2
  org := BitVec.ofNat 8 (flashField m 66 1)
  vddSet := flashField m 68 2
  lanes := BitVec.ofNat 1024 (flashField m 72 128)
  loadPa := flashField m 200 8
  entry := BitVec.ofNat 64 (flashField m 208 8)
  range := flashField m 216 8
  safeStatic := BitVec.ofNat 16 (flashField m 272 2)
  pfBarK := flashField m 274 1
  vfBarK := flashField m 275 1
  pciId := BitVec.ofNat 32 (flashField m 276 4)

/-- The bytes of a slot: false slot A, true slot B. -/
def slotOfFlash (f : Flash) (b : Bool) : SMap Byte := if b then f.slotB else f.slotA

/-- A virtual core begins at H at the start of SERVICE: PC at the entry, g1 its number, g2 the base of the load range (14 R441). -/
def beginCore (s : State) (vc : Vc) : State :=
  let entry : W64 := match s.dev.hdr with
    | some h => h.entry
    | none => 0
  let a0 : Arch := { pc := entry }
  let a := gWrite (gWrite a0 1 (vc.setWidth 64)) 2 (BitVec.ofNat 64 (loadRange s).1)
  s.updCore vc (fun c => { c with arch := a, spec := a, started := true, entry := true, blockC := some entry })

/-- MODE_SET(SERVICE) reaches its instant T: every virtual core begins, lanes 1 to 63 are served, AFAIL is released (12 R396; 14 R441). -/
def startService (s : State) (lane : LaneNo) : State :=
  let s1 := s.reach (s.qz.time + 5000)
  let s2 := s1.allCores.foldl beginCore s1
  let s3 := ((List.range 63).map (fun i => BitVec.ofNat 6 (i + 1))).foldl
    (fun t n => let l := t.lane n; t.setLane n { l with busy := false }) s2
  let s4 : State := { s3 with
    arb := { s3.arb with afailOut := false }, dev := { s3.dev with mode := .service }, gate := { s3.gate with modeReq := none } }
  replyDone s4 lane 0 s4.qz.time 0

/-- A staged command of an open slate may not run in SERVICE (14 R441). -/
def assemblyOnly (k : Slate) : Bool :=
  k.cmds.any (fun c => match cfgOf (pkOpcode c.pkt) with
    | some f => !f.spec.modes.getLsbD 2
    | none => false)

/-- The virtual cores return from WFE (14 R443, R445). -/
def endWfe (s : State) : State := s.allCores.foldl (fun t v => t.updCore v (fun c => { c with wfe := false })) s

/-- The rail has settled at the code requested: within 50 µs of its last step, at an instant that is the regulator's (13 R418; 19 R553). -/
def railSettled (s : State) (lane : LaneNo) : State :=
  let (f, s1) := s.free
  let s2 := s1.reach (s1.qz.time + f.toNat % 50001)
  replyDone { s2 with gate := { s2.gate with voltReq := none } } lane 0 s2.qz.time 0

/-- Nothing is under way in the fabric. -/
def fabricQuiet (s : State) : Bool :=
  s.fab.net.isEmpty && s.fab.retryq.isEmpty && s.fab.spine.wait.isEmpty && s.fab.spine.open_.isEmpty
    && (List.range 8).all (fun k =>
      let h := s.home k
      let c := s.cluster k
      h.txns.isEmpty && h.confq.isEmpty && s.fab.heldReads.isEmpty && c.mshr.isEmpty && c.wb.isEmpty && h.drops.isEmpty && h.marks.isEmpty
        && h.queries.isEmpty)

/-- Writes to DRAM the values that a list of lines holds. -/
def writeLines (d : Dram) (ls : SMap Line) : Dram := ls.foldl (fun a p => dramWrite a p.1 p.2) d

/-- The dirty lines of a cluster L2. -/
def dirtyLines (c : Cluster) : SMap Line :=
  (c.l2.filter (fun p => p.2.st == .m || p.2.st == .o)).map (fun p => (p.1, p.2.data))

/-- Every cache is written back and emptied, with the directories: first what the homes hold, then the newer copies of the clusters (14 R443, R444). -/
def flushCaches (s : State) : State :=
  let d1 := (List.range 8).foldl (fun d k => writeLines d (s.home k).wbuf) s.dram
  let d2 := (List.range 8).foldl (fun d k => writeLines d (dirtyLines (s.cluster k))) d1
  let s1 : State := { s with dram := { d2 with groups := [] } }
  let s2 := (List.range 8).foldl (fun t k => let c := t.cluster k; t.setCluster k { c with l2 := [] }) s1
  (List.range 8).foldl (fun t k => let h := t.home k; t.setHome k { h with sc := [], wbuf := [], wcls := [], mir := [], dir := [], tokens := [] }) s2

/-- The lines of a keyed map that are free of requests and transactions leave it. -/
def keepBusy {α : Type} (s : State) (m : SMap α) : SMap α := m.filter (fun p => !lineQuiet s (BitVec.ofNat 42 p.1))
/-- The free lines of a keyed map. -/
def freeLines {α : Type} (s : State) (m : SMap α) : SMap α := m.filter (fun p => lineQuiet s (BitVec.ofNat 42 p.1))

/-- The caches are written back and emptied but for the lines whose requests have not ended. -/
def flushFree (s : State) : State :=
  let d1 := (List.range 8).foldl (fun d k => (freeLines s (s.home k).wbuf).foldl (fun a p => writeAfter a p.1 p.2) d) s.dram
  let d2 := (List.range 8).foldl (fun d k => (freeLines s (dirtyLines (s.cluster k))).foldl (fun a p => writeAfter a p.1 p.2) d) d1
  let s1 : State := { s with dram := d2 }
  let s2 := (List.range 8).foldl (fun t k => let c := t.cluster k; t.setCluster k { c with l2 := keepBusy s c.l2 }) s1
  (List.range 8).foldl (fun t k =>
    let h := t.home k
    t.setHome k { h with
      sc := keepBusy s h.sc, wbuf := keepBusy s h.wbuf, wcls := keepBusy s h.wcls, mir := keepBusy s h.mir, dir := keepBusy s h.dir }) s2

/-- Every line on which a transaction is open goes on as far as its messages carry it (15 R465 step 2). -/
def settleAll (s : State) : State :=
  let ls := (List.range 8).flatMap (fun k => mkeys (s.home k).txns)
  ls.foldl (fun t l => settle (BitVec.ofNat 42 l) settleFuel t) s

/-- An entry into REST is abandoned: the caches are left empty, the reply is DONE with DETAIL 1, the cores return from WFE (14 R443). -/
def abandonRest (s : State) (lane : LaneNo) : State :=
  let s0 := settleAll s
  let s1 := if fabricQuiet s0 then flushCaches s0 else flushFree s0
  endWfe (replyDone { s1 with gate := { s1.gate with restReq := none } } lane 1 s1.qz.time 0)

/-- Leaving REST: DRAM leaves self-refresh, the code steps back to the setpoint, the cores return from WFE, and the posts held meanwhile are delivered; a VOLTAGE_SET whose code the rail already has is answered (13 R418; 14 R433, R445; 19 R553). -/
def wakeUp (s : State) : State :=
  let held := s.dev.held
  let s1 : State := { s with
    dram := { s.dram with selfRefresh := false }
    dev := { s.dev with mode := .service, vidReq := s.dev.vidSet, held := [], wake := 0 } }
  let s2 := held.foldl postRoutes (endWfe s1)
  match s2.gate.voltReq with
  | some (l, _) => if s2.dev.vid = s2.dev.vidSet then railSettled s2 l else s2
  | none => s2

/-- A fault wakes the device from REST first where it can be hidden, and an entry into REST that has not been completed is abandoned (14 R443, R446). -/
def awake (s : State) : State :=
  if s.mode == .rest then wakeUp s
  else match s.gate.restReq with
    | some (lane, _) => abandonRest s lane
    | none => s

/-- MODE_SET: modes A and T (13 R416). -/
def specModeSet : CmdSpec := { op := 0x0102, len := 2, modes := 0x12, stage := false, right := rMode }

/-- MODE_SET (14 R441, R445): in REST it wakes the device; in ASSEMBLY it starts SERVICE, once the copy of the hypervisor image has ended. -/
def execModeSet (lane : LaneNo) (s : State) : Out :=
  .next (plainRow s lane specModeSet true
    (fun p => [(16, pkGet p 16 1 == 2), (17, pkZero p 17 15)])
    (fun _ =>
      if s.mode == .rest then none
      else firstFail [(!s.dev.hvBad, stBadParam, 2), (!s.gate.slates.any (fun k => assemblyOnly k.2), stBusy, 0)])
    (fun p =>
      if s.mode == .rest then
        let s1 := wakeUp s
        replyDone s1 lane 0 s1.qz.time 0
      else if s.dev.hvDone then startService s lane
      else
        let s1 := beginCmd s lane
        { s1 with gate := { s1.gate with modeReq := some (lane, BitVec.ofNat 16 (pkTag p)) } }))

/-- DEVICE_RESET (13 R418; 14 R434). -/
def specDeviceReset : CmdSpec := { op := 0x0103, len := 2, modes := mAll, stage := false, right := rReset }

/-- DEVICE_RESET: the reply, then no further command, then the log to boot flash (13 R418). -/
def execDeviceReset (lane : LaneNo) (s : State) : Out :=
  .next (plainRow s lane specDeviceReset false
    (fun p => [(16, pkGet p 16 4 == 0xA5A55A5A), (20, pkZero p 20 12)]) (fun _ => none)
    (fun _ =>
      let s1 := saveLog (replyDone s lane 0 s.qz.time 0)
      { s1 with gate := { s1.gate with resetAt := some s1.qz.time } }))

/-- VOLTAGE_SET (13 R418; 19 R553). -/
def specVoltageSet : CmdSpec := { op := 0x0104, len := 2, modes := mAS, stage := false, right := rMode }

/-- VOLTAGE_SET: it waits while another is under way (13 R418). -/
def execVoltageSet (lane : LaneNo) (s : State) : Out :=
  .next (if s.gate.voltReq.isSome then s else
    plainRow s lane specVoltageSet false
      (fun p => [(16, decide (650 ≤ pkGet p 16 2 ∧ pkGet p 16 2 ≤ 950 ∧ pkGet p 16 2 % 5 = 0)), (18, pkZero p 18 14)])
      (fun _ => none)
      (fun p =>
        let n : BitVec 6 := BitVec.ofNat 6 ((pkGet p 16 2 - 650) / 5)
        let s1 := beginCmd s lane
        let s2 : State := { s1 with
          dev := { s1.dev with vidSet := n, vidReq := n }
          gate := { s1.gate with voltReq := some (lane, BitVec.ofNat 16 (pkTag p)) } }
        if s2.dev.vid = n then railSettled s2 lane else s2))

/-- CORE_VID_STEP (19 R553): one code toward the code requested, at least 10 µs after the step before. A VOLTAGE_SET is answered at its own setpoint, not at the code of REST (13 R418; 14 R433). -/
def execCoreVidStep (s : State) : Out :=
  let d := s.dev
  if d.vid = d.vidReq ∨ d.rails.getLsbD 8 = false ∨ d.porst = true ∨ s.therm.trip = true then .next s
  else
    let s1 := if s.qz.locked then s.reach (d.vidAt + 10000) else s
    let v := if d.vid.toNat < d.vidReq.toNat then d.vid + 1 else d.vid - 1
    let s2 : State := { s1 with dev := { s1.dev with vid := v, vidAt := s1.qz.time } }
    .next (match s2.gate.voltReq with
      | some (l, _) => if v = d.vidReq ∧ v = d.vidSet then railSettled s2 l else s2
      | none => s2)

/-- REST_ENTER (14 R442). -/
def specRestEnter : CmdSpec := { op := 0x0105, len := 2, modes := mS, stage := false, right := rMode }

/-- A condition of R442 bars REST. -/
def restBarred (s : State) : Bool :=
  s.pavs.any (fun p => p.2.st == .running) || !s.gate.slates.isEmpty || s.dram.lost.isSome
    || s.arb.ses.any (fun p => !p.2.queue.isEmpty || p.2.bmBusy) || !s.arb.waiting.isEmpty
    || s.funnel.on || s.allCores.any (fun v => (s.core v).trc.ctl.getLsbD 0)

/-- REST_ENTER (14 R442, R443): checked, then it waits for the cores. -/
def execRestEnter (lane : LaneNo) (s : State) : Out :=
  .next (plainRow s lane specRestEnter false
    (fun p => [(16, decide (1 ≤ pkGet p 16 8 ∧ pkGet p 16 8 < 128)), (24, pkZero p 24 8)])
    (fun _ => if restBarred s || s.gate.restReq.isSome then some (stBusy, 0) else none)
    (fun p =>
      let s1 := beginCmd s lane
      { s1 with gate := { s1.gate with
        restReq := some (lane, BitVec.ofNat 16 (pkTag p), BitVec.ofNat 7 (pkGet p 16 8), s1.qz.time) } }))

/-- A virtual core is suspended in WFE at H with no interrupt pending (14 R443). -/
def restIdle (c : Core) : Bool := c.wfe && c.arch.level == .h && c.phys.isEmpty && !c.wfeEvent && c.sb.isEmpty && c.wait.isNone

/-- REST_ENTRY (14 R443): every virtual core is idle; the caches are written back, DRAM enters self-refresh, the reply is written, and the device is in REST. -/
def execRestEntry (s : State) : Out :=
  match s.gate.restReq with
  | none => .next s
  | some (lane, _, wake, _) =>
    if s.mode == .service && s.allCores.all (fun v => restIdle (s.core v)) && fabricQuiet s && !armedAny s then
      let s1 : State := { s with
        gate := { s.gate with restReq := none }
        dev := { s.dev with mode := .rest, wake := wake, held := [], vidReq := 0 } }
      let s2 := flushCaches (replyDone s1 lane 0 s1.qz.time 0)
      .next { s2 with dram := { s2.dram with selfRefresh := true } }
    else .next s

/-- REST_ENTRY_WAIT_EXPIRY (14 R443): a core has not come to rest within 1 ms of acceptance. -/
def execRestEntryWaitExpiry (s : State) : Out :=
  match s.gate.restReq with
  | none => .next s
  | some (lane, _, _, at_) =>
    if s.allCores.all (fun v => restIdle (s.core v)) then .next s
    else
      let s1 := s.reach (at_ + 1000000)
      .next (refuse { s1 with gate := { s1.gate with restReq := none } } lane (stBusy, 0))

/-- REST_WAKE (14 R443, R445): an event of WAKE bit `ev`. One that is not enabled changes nothing here: the posts it makes are held until the wake. -/
def execRestWake (ev : BitVec 3) (s : State) : Out :=
  if ev = 7 then .next s
  else if s.mode == .rest then
    .next (if s.dev.wake.getLsbD ev.toNat then wakeUp s else s)
  else match s.gate.restReq with
    | some (lane, _, wake, _) => .next (if wake.getLsbD ev.toNat then abandonRest s lane else s)
    | none => .next s

/-- FW_UPDATE_STAGE (13 R418; 18 R533). -/
def specFwUpdateStage : CmdSpec := { op := 0x0802, len := 2, modes := mAS, stage := false, right := rFw, flags := 1 }

/-- Fields of FW_UPDATE_STAGE. -/
def fuPa (p : Packet) : Nat := pkGet p 16 8
def fuLen (p : Packet) : Nat := pkGet p 24 4
def fuOff (p : Packet) : Nat := pkGet p 28 4

/-- Writes bytes into a slot; a byte 0 is not listed. -/
def putFlash (m : SMap Byte) (off : Nat) : List Byte → SMap Byte
  | [] => m
  | b :: t => putFlash (if b = 0 then mdel m off else mput m off b) (off + 1) t

/-- The slot that ACTIVE does not name takes the bytes (18 R533). -/
def stageChunk (f : Flash) (off : Nat) (bs : List Byte) : Flash :=
  if f.active then { f with slotA := putFlash f.slotA off bs } else { f with slotB := putFlash f.slotB off bs }

/-- FW_UPDATE_STAGE (13 R418; 18 R534, R535): the chunk is written; with FINAL the whole slot is authenticated. Whether the signature holds is a free value, for the manual gives neither the key nor the images. -/
def execFwUpdateStage (lane : LaneNo) (s : State) : Out :=
  .next (plainRow s lane specFwUpdateStage false
    (fun p => [(24, decide (fuLen p ≤ 0x100000)), (28, decide (fuOff p + fuLen p ≤ slotSize))])
    (fun p => if fuLen p = 0 ∨ dramHolds s (fuPa p) (fuLen p) = true then none else some (badAt 16))
    (fun p =>
      let f := stageChunk s.flash (fuOff p) (readBytes s (fuPa p) (fuLen p))
      let s1 : State := { s with flash := f }
      if pkFlags p % 2 = 0 then replyDone s1 lane 0 s1.qz.time 0
      else
        let (v, s2) := s1.free
        if hdrOk (slotOfFlash f (!f.active)) && v.getLsbD 0 then replyDone s2 lane 0 s2.qz.time 0
        else refuse s2 lane (stBadParam, 1)) (fun p => (fuPa p, fuLen p)))

/-- FW_ACTIVATE (13 R418). -/
def specFwActivate : CmdSpec := { op := 0x0803, len := 2, modes := mAS, stage := false, right := rFw, flags := 1 }

/-- FW_ACTIVATE (13 R418, R430): LIVE = 0 selects the slot for the next full reset; LIVE = 1 restarts the Gatehouse on it, and the reply follows the restart. -/
def execFwActivate (lane : LaneNo) (s : State) : Out :=
  .next (plainRow s lane specFwActivate false
    (fun p => [(16, decide (pkGet p 16 1 ≤ 1)), (17, pkZero p 17 15)])
    (fun p => if pkFlags p % 2 = 1 ∧ s.gate.slates ≠ [] then some (stBusy, 0) else none)
    (fun p =>
      if pkFlags p % 2 = 0 then
        replyDone { s with flash := { s.flash with active := pkGet p 16 1 == 1 } } lane 0 s.qz.time 0
      else
        let s1 := beginCmd s lane
        { s1 with gate := { s1.gate with restart := true } }))

/-- The lane whose FW_ACTIVATE restarts the Gatehouse, with the slot it names. -/
def activating (s : State) : Option (LaneNo × Bool) :=
  s.gate.lanes.findSome? (fun p => match p.2.cur with
    | some q => if p.2.begun && pkOpcode q == 0x0803 then some (BitVec.ofNat 6 p.1, pkGet q 16 1 == 1) else none
    | none => none)

/-- A doorbell held during the restart is served (13 R430). -/
def serveHeld (s : State) (n : LaneNo) : State :=
  let l := s.lane n
  if l.held then writeDoorbell (s.setLane n { l with held := false }) n 1 else s

/-- The reply that a lane is owed is written (13 R430). -/
def payReply (s : State) (n : LaneNo) : State :=
  let l := s.lane n
  match l.owed with
  | some (r, k) => finishCmd (s.setLane n { l with owed := none }) n r k
  | none => s

/-- A restart of the Gatehouse ends: the replies of the commands that completed meanwhile are written, a live activation's command completes on its slot's firmware, and the doorbells held are served (13 R418, R430). -/
def endRestart (s : State) : State :=
  let s0 : State := { s with gate := { s.gate with restart := false } }
  let s1 := ((mkeys s0.gate.lanes).map (fun i => BitVec.ofNat 6 i)).foldl payReply s0
  let s2 := match activating s1 with
    | some (n, b) =>
      let v := (hdrOf (slotOfFlash s1.flash b)).fwVersion
      let t : State := { s1 with dev := { s1.dev with fwVersion := v } }
      replyDone t n 0 t.qz.time 0
    | none => s1
  (((mkeys s2.gate.lanes).map (fun i => BitVec.ofNat 6 i))).foldl serveHeld s2

/-- A lockstep mismatch of the Gatehouse outside COLD begins a restart, or exceeds the limit (15 R456 class 0x10, R467). -/
def gatehouseMismatch (s : State) : State :=
  let ts := recentTimes s s.gate.mismatches (mismatchWindow s 5)
  let s1 : State := { s with gate := { s.gate with mismatches := ts } }
  if mismatchOver s1 5 ts then
    let e : LogIn := { cls := 0x23, action := 9, ukind := 9, uindex := 0 }
    if s1.mode == .belvedere then { s1 with gate := { s1.gate with byBlv := true } } else enterBelvedere s1 e none
  else
    let s2 := recordFault (awake s1) { cls := 0x10, action := 5, ukind := 9, uindex := 0, stallMax := 300000 } none
    { s2 with gate := { s2.gate with restart := true } }

/-- Reads n words of the lane 0 page from an offset on (18 R537). -/
def pageReads : Nat → Nat → State → List W32 × State
  | 0, _, s => ([], s)
  | n + 1, off, s =>
    let (v, s1) := laneRead s 0 off
    let (vs, s2) := pageReads n ((off + 4) % 65536) s1
    (v :: vs, s2)

/-- Writes words to the lane 0 page from an offset on (18 R537). -/
def pageWrites : List W32 → Nat → State → State
  | [], _, s => s
  | v :: t, off, s => pageWrites t ((off + 4) % 65536) (laneWrite s 0 off v)

/-- A transfer of a management transport: whole words, the offset advancing by 4 (18 R537). -/
def mgmtTransfer (s : State) (read : Bool) (off n : Nat) (ws : List W32) : State :=
  if laneReached s 0 && s.dev.rails.getLsbD 3 && s.dev.rails.getLsbD 8 then
    if read then
      let (vs, s1) := pageReads n off s
      { s1 with mgmt := { s1.mgmt with out := vs } }
    else pageWrites ws off s
  else s

/-- I3C_PRIVATE_TRANSFER (18 R537). -/
def execI3cPrivateTransfer (read : Bool) (off : BitVec 16) (n : Nat) (ws : List W32) (s : State) : Out :=
  .next (mgmtTransfer s read off.toNat n ws)

/-- SPI_FRAME (18 R537). -/
def execSpiFrame (read : Bool) (off : BitVec 16) (n : Nat) (ws : List W32) (s : State) : Out :=
  .next (mgmtTransfer s read off.toNat n ws)

/-- The I3C target runs. -/
def i3cUp (s : State) : Bool := !s.dev.porst && !s.therm.trip && s.dev.rails.getLsbD 3 && s.dev.rails.getLsbD 8

/-- I3C_SETDASA (18 R536): the target takes a dynamic address by its static one; one that has an address keeps it (PRESUMED, MIPI I3C; log entry 69). -/
def execI3cSetdasa (addr : BitVec 7) (s : State) : Out :=
  whenTrue (i3cUp s && s.mgmt.dyn.isNone) s { s with mgmt := { s.mgmt with dyn := some addr } }

/-- I3C_ENTDAA (18 R536): a target without a dynamic address takes the one that the controller assigns. -/
def execI3cEntdaa (addr : BitVec 7) (s : State) : Out :=
  whenTrue (i3cUp s && s.mgmt.dyn.isNone) s { s with mgmt := { s.mgmt with dyn := some addr } }

/-- I3C_ENEC (18 R538). -/
def execI3cEnec (s : State) : Out := whenTrue (i3cUp s) s { s with mgmt := { s.mgmt with enec := true } }

end Sys2Proof.Machine
end

