-- ==== Sys2Proof/Machine/Cold.lean ====
section
/-! DEFINITION. Full reset, COLD, the entry into ASSEMBLY and the copy of the hypervisor image (00 R5; 08 R243; 09 R271, R292; 13 R403; 14 R434 to R440; 15 R466, R569; 18 R533 to R536; 19 R550 to R554). -/

namespace Sys2Proof.Machine

/-- Every rail is in its range and REFCLK within its limits. -/
def supplied (d : Device) : Bool := d.rails == 0x1FF && d.refclk

/-- Full reset: every block takes its reset state; boot flash, the test port, but for an access that still waits, and what stands at the balls are kept (14 R434 to R436; 19 R550). -/
def fullReset (s : State) (porst : Bool) : State :=
  { State.reset with
    flash := s.flash, jtag := { s.jtag with want := none }, out := s.out, fresh := s.fresh, pending := s.pending
    cmap := { part := s.cmap.part }
    arb := { arstIn := s.arb.arstIn, afailIn := s.arb.afailIn, acfailIn := s.arb.acfailIn, ai := s.arb.ai, bus := s.arb.bus }
    dev := {
      porst := porst, rails := s.dev.rails, refclk := s.dev.refclk, tg := s.dev.tg, ppsIn := s.dev.ppsIn,
      safeOut := if s.dev.rails.getLsbD 8 then some 0 else none } }

/-- Ring distance of two stops. -/
def ringDist (a b : Nat) : Nat := min ((a + 16 - b) % 16) ((b + 16 - a) % 16)

/-- Fabric distance of two stops: along the ring, or over one diameter (08 R232). -/
def stopDist (a b : Nat) : Nat := min (ringDist a b) (1 + ringDist ((a + 8) % 16) b)

/-- The physical cores of a cluster, ascending. -/
def coresIn (k : Nat) : List (BitVec 7) := (List.range 9).map (fun i => BitVec.ofNat 7 (9 * k + i))

/-- The usable cores of a cluster: neither fused off nor retired (15 R569). -/
def usableIn (m : CoreMap) (k : Nat) : List (BitVec 7) :=
  (coresIn k).filter (fun p => !m.fused.getLsbD p.toNat && !m.retired.getLsbD p.toNat)

/-- A cluster's own part of the map: its virtual cores on its first usable cores, and the next usable core its spare (15 R569). -/
def mapCluster (m : CoreMap) (k : Nat) : CoreMap :=
  let n := vcPerCluster m.part
  let u := usableIn m k
  let pairs := (u.take n).zipIdx.map (fun p => (n * k + p.2, p.1))
  { m with map := pairs.foldl (fun a p => mput a p.1 p.2) m.map, spares := m.spares ++ (u.drop n).take 1 }

/-- The spare that R459 chooses for a cluster: its own, else that of the nearest cluster, the lower number first between equals (15 R459). -/
def chooseSpare (m : CoreMap) (k : Nat) : Option (BitVec 7) :=
  m.spares.foldl (fun b p => match b with
    | none => some p
    | some q =>
      let d (x : BitVec 7) : Nat := 8 * stopDist (2 * (x.toNat / 9)) (2 * k) + x.toNat / 9
      if d p < d q then some p else b) none

/-- A virtual core that its own cluster cannot hold takes a spare of another (15 R569). -/
def mapRest (m : CoreMap) (vc : Nat) : CoreMap :=
  if (mget? m.map vc).isSome then m
  else match chooseSpare m (vc / vcPerCluster m.part) with
    | none => m
    | some p => { m with map := mput m.map vc p, spares := m.spares.filter (fun q => q != p) }

/-- The vc→pc map and the spares that COLD makes of the fuse record and the retired-unit list (00 R5; 15 R569). -/
def buildMap (part : Part) (fused retired : BitVec 72) : CoreMap :=
  let m0 : CoreMap := { part := part, fused := fused, retired := retired }
  let m1 := (List.range 8).foldl mapCluster m0
  (List.range (vcCount part)).foldl mapRest m1

/-- Removes a spare that fails the self-test: it is retired (15 R466). -/
def dropSpare (s : State) (p : BitVec 7) : State :=
  let b : BitVec 72 := 1#72 <<< p.toNat
  let s1 : State := { s with
    cmap := { s.cmap with spares := s.cmap.spares.filter (fun q => q != p), retired := s.cmap.retired ||| b }
    flash := { s.flash with retired := s.flash.retired ||| b } }
  recordFault s1 { cls := 0x28, action := 0x0B, ukind := 1, uindex := p.toNat } none

/-- The HT entries that name slice k go to the survivors in turn, in ascending order of f (08 R243). -/
def reassignF (ht : SMap Oct) (k : Nat) (live : List Nat) : Nat → SMap Oct × Nat
  | 0 => (ht, 0)
  | f + 1 =>
    let (h, i) := reassignF ht k live f
    if (mget h f (BitVec.ofNat 3 f)).toNat = k then
      (mput h f (BitVec.ofNat 3 ((live[i % live.length]?).getD 0)), i + 1)
    else (h, i)

/-- HT after the failure of slice k (08 R243). -/
def reassignHt (s : State) (k : Nat) : State :=
  { s with fab := { s.fab with ht := (reassignF s.fab.ht k (s.aliveHomes.filter (fun i => i != k)) 64).1 } }

/-- A home slice that fails COLD's test is removed as R243 gives (15 R466). -/
def dropSlice (s : State) (k : Nat) : State :=
  let s1 := reassignHt s k
  let h := s1.home k
  recordFault (s1.setHome k { h with dead := true }) { cls := 0x28, action := 0x0B, ukind := 3, uindex := k } none

/-- A link that fails COLD's test is out of routing (15 R466). -/
def dropLink (s : State) (i : Nat) : State :=
  let l := mget s.fab.links i {}
  recordFault { s with fab := { s.fab with links := mput s.fab.links i { l with failed := true } } }
    { cls := 0x28, action := 0x0B, ukind := 4, uindex := i } none

/-- Both ring links and the diameter of a cluster's stop are lost (15 R456 class 0x26). -/
def isolated (s : State) (k : Nat) : Bool :=
  let n := 2 * k
  let out (i : Nat) : Bool := (mget s.fab.links i {}).failed
  out n && out ((n + 15) % 16) && out (16 + n % 8)

/-- A Belvedere pair is retired (15 R467, R469). -/
def retirePair (s : State) (b : Bool) : State :=
  { s with dev := { s.dev with blv :=
    if b then { s.dev.blv with deadB := true } else { s.dev.blv with deadA := true } } }

/-- A Belvedere pair that fails COLD's test (15 R466); with both gone, class 0x27 is recorded (15 R469). -/
def dropPair (s : State) (b : Bool) : State :=
  let s1 := recordFault (retirePair s b) { cls := 0x28, action := 0x0B, ukind := 10, uindex := b.toNat } none
  if noImage s1 then recordFault s1 { cls := 0x27, action := 7, ukind := 10, uindex := b.toNat } none else s1

/-- The first reason for which COLD ends in BELVEDERE is kept (14 R432). -/
def coldFails (s : State) (g : Bool) (c : BitVec 8) : State :=
  if g && s.dev.coldFault.isNone then { s with dev := { s.dev with coldFault := some c } } else s

/-- GiB per channel of an organisation; none: outside R271. -/
def orgGib (o : BitVec 8) : Option Nat := if o = 0 then some 32 else if o.toNat ≤ 3 then some 64 else none

/-- The data rates of R271. -/
def rateOk (r : Nat) : Bool := r == 4800 || r == 5200 || r == 5600 || r == 6000 || r == 6400

/-- COLD ends in BELVEDERE over a channel and a field of the memory configuration; the manual names no class for it, a free value (09 R272). -/
def memFails (s : State) (c : Oct) (off : Nat) : State :=
  let (f, s1) := s.free
  let s2 := coldFails s1 true (f.setWidth 8)
  if s.dev.coldFault.isNone then { s2 with dev := { s2.dev with coldMem := some (c, off) } } else s2

/-- The memory configuration of the boot image and of the board; one outside R271 or R272 makes COLD end in BELVEDERE (09 R271, R272). A block whose own value is outside R271 breaks every channel, and the record names channel 0 (DESIGN CHOICE, log entry 77). -/
def setMemory (s : State) (h : SlotHdr) (misfit : Option (Oct × Nat)) : State :=
  match orgGib h.org, misfit with
  | none, _ => memFails s 0 66
  | some g, m =>
    if rateOk h.rate then
      let s1 : State := { s with dram := { s.dram with gib := g, rate := h.rate, org := h.org } }
      match m with
      | none => s1
      | some (c, off) => memFails s1 c off
    else memFails s 0 64

/-- Channels that fail training: one is marked lost, as if it had failed then, two or more end in BELVEDERE (09 R292, R297; 15 R466). -/
def setTraining (s : State) (bad : BitVec 8) : State :=
  let cs := clustersOf bad
  let s1 := cs.foldl (fun t c => recordFault t { cls := 0x28, action := 0x0B, ukind := 6, uindex := c } none) s
  match cs with
  | [] => s1
  | [c] => { s1 with dram := { s1.dram with lost := some (BitVec.ofNat 3 c), losses := (BitVec.ofNat 3 c, s1.qz.time) :: s1.dram.losses } }
  | _ => coldFails s1 true 0x22

/-- The home slices and the channels that a failed stop takes with it: those at the odd stops (08 R232; 15 R456, R466). -/
def oddStops (f : BitVec 16) : BitVec 8 := BitVec.ofNat 8 (((List.range 8).filter (fun k => f.getLsbD (2 * k + 1))).foldl (fun a k => a + 2 ^ k) 0)

/-- COLD's tests and what they remove. A stop that fails is the failure of each agent at it; a cluster that it takes with it is isolated (15 R456, R466). -/
def coldTests (s : State) (b : BootObs) : State :=
  let bad := s.cmap.spares.filter (fun p => b.coreFail.getLsbD p.toNat)
  let s1 := bad.foldl dropSpare s
  let s2 := (clustersOf (b.sliceFail ||| oddStops b.stopFail)).foldl dropSlice s1
  let s3 := ((List.range 24).filter (fun i => b.linkFail.getLsbD i)).foldl dropLink s2
  let s4 := (if b.blvFail.getLsbD 0 then [false] else []).foldl dropPair s3
  let s5 := (if b.blvFail.getLsbD 1 then [true] else []).foldl dropPair s4
  let s6 := coldFails s5 (decide (s5.cmap.map.length < vcCount s5.cmap.part)) 0x21
  let s7 := coldFails s6 (decide (s6.aliveHomes.length < 2)) 0x29
  let s8 := coldFails s7 ((List.range 8).any (fun k => isolated s7 k || b.stopFail.getLsbD (2 * k))) 0x26
  setTraining s8 (b.trainFail ||| b.memFail ||| oddStops b.stopFail)

/-- The rights of a lane: the boot image's lane table, or the default where it is all zero; INFO for every lane, RESET for lane 0 alone (13 R403; 18 R534). -/
def laneRights (h : SlotHdr) (n : Nat) : BitVec 13 :=
  let all : BitVec 13 := BitVec.allOnes 13
  let v : BitVec 13 := if h.lanes = 0 then all else h.lanes.extractLsb' (16 * n) 13
  if n = 0 then v ||| 1 else (v ||| 1) &&& ~~~ 4#13

/-- Step 6: every lane's rights. -/
def setRights (s : State) (h : SlotHdr) : State :=
  ((List.range 64).map (fun i => BitVec.ofNat 6 i)).foldl
    (fun t (n : LaneNo) => let l := t.lane n; t.setLane n { l with rights := laneRights h n.toNat }) s

/-- The flash as COLD finds and leaves it: the slots as the board has written them, the boot count raised, cleared cores off the retired-unit list (15 R478; 18 R533). -/
def bootFlash (f : Flash) (b : BootObs) : Flash :=
  { f with
    bootCount := f.bootCount + 1, retired := f.retired &&& ~~~ f.clear, clear := 0
    slotA := b.flashA.getD f.slotA, slotB := b.flashB.getD f.slotB }

/-- The stored log records are read back, and SEQ goes on after the highest (14 R434; 15 R479). -/
def readLogs (s : State) : State :=
  let l := s.flash.logs.map (fun r => { r with flags := r.flags ||| 8 })
  let next := l.foldl (fun a r => max a (r.seq.toNat + 1)) 0
  { s with gate := { s.gate with log := l.drop (l.length - 4096), nextSeq := BitVec.ofNat 64 next } }

/-- The slot that boots: the one that ACTIVE names where it authenticates, else the other (14 R438; 18 R534, R535). -/
def bootSlot (f : Flash) (b : BootObs) : Option Bool :=
  let ok (x : Bool) : Bool := (if x then b.authB else b.authA) && hdrOk (slotOfFlash f x)
  if ok f.active then some f.active else if ok (!f.active) then some (!f.active) else none

/-- The device is held in COLD: it releases the xSPI balls, and the ROM serves lane 0 (14 R438). -/
def holdCold (s : State) : State :=
  let l := s.lane 0
  let s1 := s.setLane 0 { l with rights := BitVec.allOnes 13, busy := false }
  { s1 with dev := { s1.dev with coldHeld := true, coldRun := false, boot := none, hdr := none, idle := true } }

/-- COLD begins, on a device in full reset whose supplies are good: the Gatehouse starts from ROM, and reads back the stored log records (14 R434, R437 step 1). -/
def beginCold (s : State) (b : BootObs) : State :=
  let s1 := readLogs { s with flash := bootFlash s.flash b, mgmt := { s.mgmt with strap := b.strap } }
  { s1 with dev := { s1.dev with coldRun := true, boot := some b } }

/-- The bytes of the safety image in a slot, by their offset in the image (18 R534; 15 R475). -/
def safetyImage (m : SMap Byte) (len : Nat) : SMap Byte :=
  let o := flashField m 32 4
  (m.filter (fun p => decide (o ≤ p.1 ∧ p.1 < o + len))).map (fun p => (p.1 - o, p.2))

/-- Belvedere loads the safety image and starts the health watch (14 R437 step 6; 15 R469). -/
def loadSafety (s : State) (h : SlotHdr) : State :=
  { s with dev := { s.dev with blv := { s.dev.blv with
      mem := safetyImage (slotOfFlash s.flash s.dev.slot) h.safeLen, image := decide (0 < h.safeLen) && !noImage s
      static := if noImage s then 0 else h.safeStatic } } }

/-- Steps 3 to 6 of COLD, once the PLL has locked: the image is authenticated, and its firmware runs: it sets the code of VDD_CORE, builds the map, tests the units, and Belvedere and the lane rights are set. Lane 0 is served from then on (13 R412; 14 R437, R438). -/
def runFirmware (s : State) (b : BootObs) : State :=
  match bootSlot s.flash b with
  | none => holdCold s
  | some x =>
    let h := hdrOf (slotOfFlash s.flash x)
    let n : BitVec 6 := BitVec.ofNat 6 ((h.vddSet - 650) / 5)
    let s1 : State := { s with
      cmap := buildMap s.cmap.part b.fused s.flash.retired
      dev := { s.dev with idle := false, slot := x, hdr := some h, fwVersion := h.fwVersion, vidSet := n, vidReq := n } }
    let s2 := setRights (loadSafety (coldTests (setMemory s1 h b.misfit) b) h) h
    let l := s2.lane 0
    s2.setLane 0 { l with busy := false }

/-- QUARTZ_PLL_LOCK (14 R437; 16 R482): the PLL locks after the release of PORST_N, once the device no longer holds itself in reset for a supply, and QZ_TIME starts from zero; a COLD that waited for it goes on. -/
def execQuartzPllLock (s : State) : Out :=
  let s1 : State := { s with qz := { s.qz with locked := true, time := 0, osc := 0 } }
  whenTrue (!s.dev.porst && s.dev.refclk && !s.qz.locked && (s.mode != .cold || s.dev.coldRun || s.dev.coldHeld)) s
    (match s.dev.boot with
      | some b => if s.dev.coldRun && s.dev.hdr.isNone then runFirmware s1 b else s1
      | none => s1)

/-- COLD starts again from step 1; boot flash, the log and the management transports stay as they are (14 R439). -/
def restartCold (s : State) : State :=
  let t := fullReset s false
  { t with
    mgmt := s.mgmt, gate := { t.gate with log := s.gate.log, nextSeq := s.gate.nextSeq }
    dev := { t.dev with coldRun := true, coldRetry := true, boot := s.dev.boot } }

/-- A Gatehouse mismatch in COLD: the first restarts COLD, the second holds the device there, where the ROM serves lane 0 (14 R438, R439). -/
def coldMismatch (s : State) : State :=
  let s1 := if s.dev.coldRetry then holdCold (restartCold s) else restartCold s
  recordFault s1 { cls := 0x10, action := 5, ukind := 9, uindex := 0, stallMax := 300000 } none

/-- GATEHOUSE_RESTART (13 R430; 14 R439; 15 R456 class 0x10, R467, R468): a lockstep mismatch begins a restart, or exceeds the limit; while a restart runs, the row is its end. -/
def execGatehouseRestart (s : State) : Out :=
  if s.dev.porst ∨ s.therm.trip = true ∨ s.gate.byBlv = true then .next s
  else if s.gate.restart then .next (endRestart s)
  else if s.mode == .cold then .next (if s.dev.coldRun then coldMismatch s else s)
  else .next (gatehouseMismatch s)

/-- PORST_N_ASSERT (14 R435; 19 R550). -/
def execPorstNAssert (s : State) : Out := .next (fullReset s true)

/-- PORST_N_RELEASE (14 R437): COLD begins, or the device holds itself in reset until its supplies are good (19 R554); the test port lets the balls go (18 R539). -/
def execPorstNRelease (boot : BootObs) (s : State) : Out :=
  if s.dev.porst then
    let s1 : State := { s with
      dev := { s.dev with porst := false }, jtag := { s.jtag with drives := false, highz := false } }
    .next (if supplied s1.dev then beginCold s1 boot else s1)
  else .next s

/-- DEVICE_RESET_EFFECT (13 R418; 14 R434, R435). -/
def execDeviceResetEffect (boot : BootObs) (s : State) : Out :=
  match s.gate.resetAt with
  | none => .next s
  | some t =>
    let s1 := fullReset (s.reach (t + 10000)) false
    .next (if supplied s1.dev then beginCold s1 boot else s1)

/-- AX takes its disabled values, whatever the other rails, until roles commit; SAFE and CORE_VID take their power-on levels, but in BELVEDERE the port block drives SAFE itself (12 R374; 15 R477; 19 R554). -/
def io18Levels (s0 : State) : State :=
  let s := { s0 with arb := { s0.arb with ax := 0xAA, axTurn := [0xAA], roleSet := false } }
  if s.mode == .belvedere && s.dev.rails.getLsbD 2 then { s with dev := { s.dev with safeOut := some s.dev.blv.safe } }
  else { s with dev := { s.dev with safeOut := some 0, vid := 30 } }

/-- VDD_IO18_UP (12 R374; 15 R477; 19 R554). -/
def execVddIo18Up (s : State) : Out :=
  if s.dev.rails.getLsbD 8 then .next s
  else .next (io18Levels { s with dev := { s.dev with rails := s.dev.rails ||| 0x100 } })

/-- SUPPLY_IN_RANGE (14 R437; 19 R554): a rail, or REFCLK where none is named, comes within its limits; with the last one COLD begins. -/
def execSupplyInRange (rail : Option (BitVec 4)) (boot : BootObs) (s : State) : Out :=
  let s1 : State := match rail with
    | none => { s with dev := { s.dev with refclk := true } }
    | some r =>
      let t : State := { s with dev := { s.dev with rails := s.dev.rails ||| (1#9 <<< r.toNat) } }
      if r = 8 ∧ s.dev.rails.getLsbD 8 = false then io18Levels t else t
  if supplied s1.dev && !s1.dev.porst && s1.mode == .cold && !s1.dev.coldRun && !s1.dev.coldHeld && !supplied s.dev then
    .next (beginCold s1 boot)
  else .next s1

/-- The hypervisor load range goes to the hypervisor class (14 R440). -/
def assignLoad (s : State) : State :=
  let (b, n) := loadRange s
  { s with gate := { s.gate with ranges := s.gate.ranges ++ [{ owner := hypClass, base := b, len := n }] } }

/-- ASSEMBLY_ENTRY (14 R432, R437, R440): the end of COLD. The fill and the copy begin. -/
def execAssemblyEntry (s : State) : Out :=
  match s.dev.hdr with
  | none => .next s
  | some _ =>
    if s.mode == .cold && s.dev.coldRun && s.qz.locked && !s.dev.coldHeld then
      let s2 := startCopy (startFill (assignLoad s))
      let s3 : State := { s2 with dev := { s2.dev with mode := .assembly, coldRun := false, boot := none } }
      .next (match s3.dev.coldFault with
        | none => s3
        | some c =>
          let e0 : LogIn := { cls := c, action := 9, ukind := 0, uindex := 0 }
          match s3.dev.coldMem with
          | some (ch, off) => enterBelvedere s3 { e0 with ukind := 6, uindex := ch.toNat, detail := some off } none
          | none =>
            let (e, s4) := openUnit s3 e0
            enterBelvedere s4 e none)
    else .next s

/-- Copies n lines of an image into memory, k bytes of it left (14 R440). -/
def copyLines (m : SMap Byte) (off pa : Nat) : Nat → Nat → State → State
  | 0, _, s => s
  | n + 1, k, s =>
    let b := min 64 k
    copyLines m (off + 64) (pa + 64) n (k - b) (if b = 0 then s else deviceWrite s pa b (flashField m off b))

/-- HYPERVISOR_COPY (14 R440; 15 R568): the image is copied once the fill has passed its range, and its SHA-384 is checked; MODE_SET(SERVICE) that waited for it goes on. -/
def execHypervisorCopy (shaOk : Bool) (s : State) : Out :=
  match s.dev.hdr with
  | none => .next s
  | some h =>
    if s.mode == .assembly && !s.dev.hvDone && filled s h.loadPa h.hvLen then
      let s1 := copyLines (slotOfFlash s.flash s.dev.slot) h.hvOff h.loadPa ((h.hvLen + 63) / 64) h.hvLen s
      let s2 : State := { s1 with dev := { s1.dev with hvDone := true, hvBad := s1.dev.hvBad || !shaOk } }
      let s3 := if shaOk then s2 else logEventOnly s2 0x32 0 2 (BitVec.ofNat 64 h.loadPa)
      .next (match s3.gate.modeReq with
        | none => s3
        | some (l, _) =>
          if !s3.dev.hvBad then startService s3 l
          else refuse { s3 with gate := { s3.gate with modeReq := none } } l (stBadParam, 2))
    else .next s

end Sys2Proof.Machine
end

