-- ==== Sys2Proof/Machine/CoreAlu.lean ====
section
/-! DEFINITION. The integer and floating-point families of the core (03 R79 to R83, R92 to R94; 04; 05 R134, R135). -/

namespace Sys2Proof.Machine

/-- A short operation writes its register, and CF where its S bit is set, and the next course reads them (05 R134). -/
def shortOp (s : State) (vc : Vc) (rd : Reg) (v : W64) (cf : Option (BitVec 4)) : State :=
  let a := (s.core vc).spec
  let a1 := gWrite a rd v
  executed s vc (nextPc { a1 with cf := cf.getD a1.cf }) [] false false none none

/-- A long operation takes a ticket and its result waits for the ticket's completion (05 R134, R135). -/
def longOp (s : State) (vc : Vc) (t : Ticket) (evs : List (BitVec 8)) : Option State :=
  (issueTicket (s.core vc) t).map (fun c => executed (s.setCore vc c) vc (nextPc c.spec) evs false false none none)

/-- The registers that the next instruction reads. -/
def State.regs (s : State) (vc : Vc) : Arch := (s.core vc).spec

/-- The ALU group (03 R79, R82). -/
def aluRun (vc : Vc) (op : CoreOp) (s : State) : Option State :=
  let a := s.regs vc
  match op with
  | .alu sf fn d ra rb =>
    let x := gRead a ra
    let y := gRead a rb
    some (shortOp s vc d (aluVal fn x y) (if sf then some (aluCf fn x y a.cf) else none))
  | .shi sf fn d ra sh =>
    let x := gRead a ra
    let y : W64 := sh.setWidth 64
    some (shortOp s vc d (aluVal (shAlu fn) x y) (if sf then some (aluCf (shAlu fn) x y a.cf) else none))
  | _ => none

/-- The word belongs to the ALU group. -/
def isAlu : CoreOp → Bool
  | .alu .. | .shi .. => true
  | _ => false

/-- ALU_OP (03 R79). -/
def execAluOp (vc : Vc) (w : W32) (s : State) : Out := .next (instrRow s vc w isAlu (aluRun vc))

/-- The ALU2 group (03 R80, R82). -/
def alu2Run (vc : Vc) (op : CoreOp) (s : State) : Option State :=
  let a := s.regs vc
  match op with
  | .alu2 sf fn d ra rb =>
    let x := gRead a ra
    let y := gRead a rb
    some (shortOp s vc d (alu2Val fn x y (cfC a.cf)) (if sf then some (alu2Cf fn x y a.cf) else none))
  | .un sf fn d ra =>
    let v := unVal fn (gRead a ra)
    some (shortOp s vc d v (if sf then some (cfNZ v a.cf) else none))
  | _ => none

/-- The word belongs to the ALU2 group. -/
def isAlu2 : CoreOp → Bool
  | .alu2 .. | .un .. => true
  | _ => false

/-- ALU2_OP (03 R80). -/
def execAlu2Op (vc : Vc) (w : W32) (s : State) : Out := .next (instrRow s vc w isAlu2 (alu2Run vc))

/-- The MULDIV group (03 R81, R82; 04 R104). -/
def muldivRun (vc : Vc) (op : CoreOp) (s : State) : Option State :=
  let a := s.regs vc
  match op with
  | .muldiv sf fn d ra rb =>
    let x := gRead a ra
    let y := gRead a rb
    longOp s vc { dest := .g d, val := mdVal fn x y, flags := 0, cf := if sf then some (mdCf fn x y a.cf) else none } []
  | _ => none

/-- The word belongs to the MULDIV group. -/
def isMuldiv : CoreOp → Bool
  | .muldiv .. => true
  | _ => false

/-- MULDIV_OP (03 R81). -/
def execMuldivOp (vc : Vc) (w : W32) (s : State) : Out := .next (instrRow s vc w isMuldiv (muldivRun vc))

/-- The RI integer operations (03 R83). -/
def riRun (vc : Vc) (op : CoreOp) (s : State) : Option State :=
  let a := s.regs vc
  match op with
  | .ri fn d ra imm => some (shortOp s vc d (riVal fn (gRead a ra) imm) none)
  | .addpc d imm => some (shortOp s vc d (addpcVal a.pc imm) none)
  | .insh d h imm => some (shortOp s vc d (inshVal (gRead a d) h imm) none)
  | _ => none

/-- The word is an RI integer operation. -/
def isRi : CoreOp → Bool
  | .ri .. | .addpc .. | .insh .. => true
  | _ => false

/-- RI_INTEGER_OP (03 R83). -/
def execRiIntegerOp (vc : Vc) (w : W32) (s : State) : Out := .next (instrRow s vc w isRi (riRun vc))

/-- The operand of an FP operation from its file (03 R92). -/
def fpOperand (a : Arch) (fromG : Bool) (r : Reg) : W64 := if fromG then gRead a r else fRead a r

/-- A pattern of a format is subnormal (04 R109). -/
def isSubnormal (f : FpFmt) (x : W64) : Bool :=
  decide (x.toNat / 2 ^ (f.p - 1) % 2 ^ f.ebits = 0) && decide (x.toNat % 2 ^ (f.p - 1) ≠ 0)

/-- The FP operations whose row has the subnormal penalty (04 R108). -/
def fpPenalty : FpFn → Bool
  | .fadd | .fsub | .fmul | .fdiv | .fsqrt | .fcvt | .fcvti | .fcvtiu | .frece | .frsqe => true
  | _ => false

/-- The events of an FP operation: FP_RET, and SUBNORM under R109 (04 R109; 17 R507). -/
def fpEvents (penalty : Bool) (src dst : FpFmt) (ops : List W64) (r : FpRes) : List (BitVec 8) :=
  let sub := ops.any (isSubnormal src) || isSubnormal dst r.val || r.flags.getLsbD 1
  if penalty && sub then [0x1A#8, 0x1B#8] else [0x1A#8]

/-- CF of a compare with S (02 R43). -/
def fpCmpCf (dbl : Bool) (x y : W64) : BitVec 4 :=
  let f := fmtOf dbl
  fpCf (fpRel (fpDecode f (fpTrim f x)) (fpDecode f (fpTrim f y)))

/-- The FP group (03 R92, R93; 04). -/
def fpRun (vc : Vc) (op : CoreOp) (s : State) : Option State :=
  let a := s.regs vc
  match op with
  | .fp sf dbl fn rm d ra rb =>
    let x := fpOperand a (fpFromG fn) ra
    let y := if fpUnary fn then 0 else fRead a rb
    let r := fpVal dbl fn (fpMode rm a.fcsr) x y
    let src := fmtOf (if fn == .fcvt then !dbl else dbl)
    let ops := if fpFromG fn then [] else if fpUnary fn then [fpTrim src x] else [fpTrim src x, fpTrim src y]
    longOp s vc
      { dest := if fpToG fn then .g d else .f d, val := r.val, flags := r.flags,
        cf := if sf then some (fpCmpCf dbl x y) else none }
      (fpEvents (fpPenalty fn) src (fmtOf dbl) ops (if fpToG fn then { r with val := 0 } else r))
  | _ => none

/-- The word belongs to the FP group. -/
def isFp : CoreOp → Bool
  | .fp .. => true
  | _ => false

/-- FP_OP (03 R92). -/
def execFpOp (vc : Vc) (w : W32) (s : State) : Out := .next (instrRow s vc w isFp (fpRun vc))

/-- The FMA group: a single rounding in FCSR.RM (03 R94). -/
def fmaRun (vc : Vc) (op : CoreOp) (s : State) : Option State :=
  let a := s.regs vc
  match op with
  | .fma dbl v d ra rb rc =>
    let f := fmtOf dbl
    let r := fmaVal dbl v (rmOf (a.fcsr.extractLsb' 5 3)) (fRead a ra) (fRead a rb) (fRead a rc)
    longOp s vc { dest := .f d, val := r.val, flags := r.flags, cf := none }
      (fpEvents true f f [fpTrim f (fRead a ra), fpTrim f (fRead a rb), fpTrim f (fRead a rc)] r)
  | _ => none

/-- The word belongs to the FMA group. -/
def isFma : CoreOp → Bool
  | .fma .. => true
  | _ => false

/-- FMA_OP (03 R94). -/
def execFmaOp (vc : Vc) (w : W32) (s : State) : Out := .next (instrRow s vc w isFma (fmaRun vc))

end Sys2Proof.Machine
end

