-- ==== Sys2Proof/Machine/CoreBranch.lean ====
section
/-! DEFINITION. Branches and jumps of the core (02 R41, R42; 03 R89 to R91; 05 R149, R152). -/

namespace Sys2Proof.Machine

/-- A branch whose target would be non-canonical raises class 0x08 when it is taken (02 R32, R48). -/
def branchTo (s : State) (vc : Vc) (taken : Bool) (target : W64) : Option State :=
  let a := s.regs vc
  if taken && !canonical target then raise s vc (excNonCanonical a target) else some (branchExec s vc taken target)

/-- BR in C-style: a comparison of ra and rb (02 R41). -/
def brRun (vc : Vc) (op : CoreOp) (s : State) : Option State :=
  let a := s.regs vc
  match op with
  | .br cc ra rb off => branchTo s vc (ccHolds cc (gRead a ra) (gRead a rb)) (relTarget a.pc off)
  | _ => none

/-- The word is a C-style BR. -/
def isBr : CoreOp → Bool
  | .br .. => true
  | _ => false

/-- BR_COMPARE (02 R41). -/
def execBrCompare (vc : Vc) (w : W32) (s : State) : Out := .next (instrRow s vc w isBr (brRun vc))

/-- BRI: a comparison of ra with imm5, or a test of one of its bits 0 to 31 (03 R89). -/
def briRun (vc : Vc) (op : CoreOp) (s : State) : Option State :=
  let a := s.regs vc
  match op with
  | .bri cc ra imm off => branchTo s vc (ccHolds cc (gRead a ra) (briOperand cc imm)) (relTarget a.pc off)
  | _ => none

/-- The word is a BRI. -/
def isBri : CoreOp → Bool
  | .bri .. => true
  | _ => false

/-- BRI (03 R89). -/
def execBri (vc : Vc) (w : W32) (s : State) : Out := .next (instrRow s vc w isBri (briRun vc))

/-- BR in F-style: a condition of CF (02 R42). -/
def fbRun (vc : Vc) (op : CoreOp) (s : State) : Option State :=
  let a := s.regs vc
  match op with
  | .fb cc off => branchTo s vc (fccHolds cc a.cf) (relTarget a.pc off)
  | _ => none

/-- The word is an F-style BR. -/
def isFb : CoreOp → Bool
  | .fb .. => true
  | _ => false

/-- BR_FLAGS (02 R42). -/
def execBrFlags (vc : Vc) (w : W32) (s : State) : Out := .next (instrRow s vc w isFb (fbRun vc))

/-- J (03 R91). -/
def jRun (vc : Vc) (op : CoreOp) (s : State) : Option State :=
  let a := s.regs vc
  match op with
  | .j off =>
    let t := relTarget a.pc off
    if canonical t then some (executed s vc { a with pc := t } [] true true none none)
    else raise s vc (excNonCanonical a t)
  | _ => none

/-- The word is a J. -/
def isJ : CoreOp → Bool
  | .j .. => true
  | _ => false

/-- J (03 R91). -/
def execJ (vc : Vc) (w : W32) (s : State) : Out := .next (instrRow s vc w isJ (jRun vc))

/-- A target taken from a register or from memory: class 0x02 where bits [1:0] are not zero, class 0x08 where it is not canonical (02 R32, R57; 03 R91). -/
def badTarget (a : Arch) (t : W64) : Option Exc :=
  if t.extractLsb' 0 2 != 0#2 then some (excTarget a t)
  else if !canonical t then some (excNonCanonical a t)
  else none

/-- JR (03 R91; 05 R152). -/
def jrRun (vc : Vc) (op : CoreOp) (s : State) : Option State :=
  let a := s.regs vc
  match op with
  | .jr ra =>
    let t := gRead a ra
    match badTarget a t with
    | some x => raise s vc x
    | none => some (executed s vc { a with pc := t } [] true true none (some t))
  | _ => none

/-- The word is a JR. -/
def isJr : CoreOp → Bool
  | .jr .. => true
  | _ => false

/-- JR (03 R91). -/
def execJr (vc : Vc) (w : W32) (s : State) : Out := .next (instrRow s vc w isJr (jrRun vc))

end Sys2Proof.Machine
end

