-- ==== Sys2Proof/Machine/FaultCore.lean ====
section
/-! DEFINITION. Recoveries of the cores, the translators, the spine and the on-chip arrays (05 R132; 06 R194; 08 R257, R265; 09 R286; 15 R454 to R464). -/

namespace Sys2Proof.Machine

/-- Kinds of check as the recurrence rule tells them apart (15 R457). -/
def checkKind : CoreCheck → Nat
  | .stall => 0
  | .residue3 => 1
  | .residue7 => 2
  | .secded => 3
  | .parity => 4

/-- The window of CORE_RECUR in ns (15 R457, R478). -/
def recurWindow (s : State) : Nat := s.policy 1 / 256 % 2 ^ 24 * 1000

/-- The core's fault counts as permanent: COUNT rollbacks for one kind of check within WINDOW (15 R457). -/
def permanent (s : State) (vc : Vc) : Bool :=
  let rs := (s.core vc).rollbacks
  rs.any (fun r => decide (s.policy 1 % 256 ≤ (rs.filter (fun q => q.2 == r.2 && decide (q.1 ≤ r.1 ∧ r.1 < q.1 + recurWindow s))).length))

/-- A hardware fault in a core: rollback to the last commit point, its record, its place in the count (15 R456 classes 0x01 and 0x14, R457, R458). -/
def coreFault (s : State) (vc : Vc) (k : CoreCheck) : State :=
  let c := s.core vc
  let s1 := (rollbackCore s vc).updCore vc (fun x => { x with rollbacks := c.rollbacks ++ [(s.qz.time, checkKind k)] })
  let e : LogIn := {
    cls := if k = .parity then 0x14 else 1, action := 1, ukind := 1, uindex := s.pcOf vc, stallMax := 5000,
    vc := vc.setWidth 16, owner := classOf c.arch }
  recordFault s1 e (some vc)

/-- The translator that serves a cluster: its own, or that of the next cluster in ascending order, modulo 8, that is not retired (15 R456 class 0x05). -/
def translatorOf (s : State) (k : Nat) : Option Nat := ((List.range 8).map (fun i => (k + i) % 8)).find? (fun i => !(s.cluster i).xlDead)

/-- A translator's permanent fault: its requests go to the next one (15 R456 class 0x05). The virtual core concerned is that of the oldest request it holds: DESIGN CHOICE (log entry 109). -/
def translatorFault (s : State) (k : Nat) : State :=
  let c := s.cluster k
  let s1 := s.setCluster k { c with xlDead := true, xlq := [], ready := [], recent := [] }
  let s2 := match translatorOf s1 k with
    | none => s1
    | some i =>
      let d := s1.cluster i
      let q := d.xlq ++ c.xlq
      (q.drop 16).foldl forgetReq (s1.setCluster i { d with xlq := q.take 16, ready := d.ready ++ c.ready })
  let who := c.xlq.head?.map (·.vc)
  recordFault s2 { cls := 5, action := 0x0D, ukind := 2, uindex := k, vc := (who.map (fun v => v.setWidth 16)).getD 0xFFFF } who

/-- The spine's active copy fails: the mirror continues from the access recorded last (08 R265; 15 R456 class 0x0B). -/
def spineFault (s : State) : State :=
  recordFault { s with fab := { s.fab with spine := { s.fab.spine with mirror := true } } }
    { cls := 0x0B, action := 0x0E, ukind := 0x0C, uindex := 0, stallMax := 50000 } none

/-- Free values for the registers of a list. -/
def freeRegs : List Nat → SMap W64 → State → SMap W64 × State
  | [], m, s => (m, s)
  | r :: t, m, s =>
    let (v, s1) := s.free
    freeRegs t (mput m r v) s1

/-- The state of the vCPU could not be read: its registers hold free values (15 R460). -/
def loseRegs (s : State) (vc : Vc) : State :=
  let (g, s1) := freeRegs ((List.range 30).map (· + 1)) [] s
  let (f, s2) := freeRegs (List.range 32) [] s1
  let (u, s3) := s2.free
  let (p, s4) := s3.free
  s4.updCore vc (fun c =>
    let a := { c.arch with g := g, f := f, spU := u, spS := p }
    { c with arch := a, spec := a })

/-- Every line leaves the failed core's L1D (15 R459 step 3). -/
def emptyL1d (s : State) (vc : Vc) : State :=
  let k := s.clusterOf vc
  let c := s.cluster k
  s.setCluster k { c with l2 := c.l2.map (fun p => (p.1, leaveL1 vc p.2)) }

/-- The map names the spare for the virtual core, and the failed core is retired (15 R459 step 5). -/
def moveMap (m : CoreMap) (vc : Nat) (old : Nat) (new : BitVec 7) : CoreMap :=
  { m with
    map := mput m.map vc new, spares := m.spares.filter (fun q => q != new), retired := m.retired ||| (1#72 <<< old) }

/-- The spare starts empty, at the commit point, in step mode (05 R150; 07 R217; 15 R459 step 6). -/
def freshCore (c : Core) : Core :=
  { c with
    spec := c.arch, micro := {}, region := none, rix := 0, entry := false, ghistC := 0, rasC := [], syncC := [], fetchC := [], rollbacks := [],
    fills := [], entered := [] }

/-- A spare that fails its check at step 4 or 6 is retired as well (15 R460). -/
def retireSpare (s : State) (vc : Vc) (p : BitVec 7) : State :=
  let b : BitVec 72 := 1#72 <<< p.toNat
  let near := p.toNat / 9 == s.pcOf vc / 9
  logEvent { s with
    cmap := { s.cmap with spares := s.cmap.spares.filter (fun q => q != p), retired := s.cmap.retired ||| b }
    flash := { s.flash with retired := s.flash.retired ||| b } }
    { cls := if near then 2 else 3, action := 7, ukind := 1, uindex := p.toNat, vc := vc.setWidth 16, owner := classOf (s.core vc).arch }

/-- The spares that R459 chooses in turn, of which `n` fail their check and are retired (15 R460). -/
def failSpares (s : State) (vc : Vc) : Nat → State
  | 0 => s
  | n + 1 =>
    match chooseSpare s.cmap (s.pcOf vc / 9) with
    | some p => failSpares (retireSpare s vc p) vc n
    | none => s

/-- The migration of a virtual core to a spare (05 R132; 15 R459, R567; 17 R519). -/
def migrate (s : State) (vc : Vc) (new : BitVec 7) : State :=
  let old := s.pcOf vc
  let near := new.toNat / 9 == old / 9
  let s0 := (List.range 8).foldl (fun t k => dropRequests t k (fun r => r.vc == vc)) (rollbackCore s vc)
  let s1 := emptyL1d s0 vc
  let s2 : State := { s1 with
    cmap := moveMap s1.cmap vc.toNat old new, flash := { s1.flash with retired := s1.flash.retired ||| (1#72 <<< old) } }
  let s3 := s2.updCore vc freshCore
  let a := (s3.core vc).arch
  let s4 := if traceOn s3 vc a then emit s3 vc a a.pc (.migrate (BitVec.ofNat 8 old) (new.setWidth 8)) else s3
  let cls : BitVec 8 := if near then 2 else 3
  let e : LogIn := { cls := cls, action := 7, ukind := 1, uindex := old, vc := vc.setWidth 16, owner := classOf a }
  recordFault (logEvent s4 e)
    { e with action := 2, detail := some new.toNat, stallMax := if near then 220000 else 600000 } (some vc)

/-- CORE_MIGRATION (15 R459, R460): of a core whose fault is permanent; the observation says whether its state could be read, and how many spares fail their check. It waits for a Gatehouse restart to end (15 R468). -/
def execCoreMigration (vc : Vc) (obs : MigObs) (s : State) : Out :=
  if s.mode == .service && recovers s && !s.gate.restart && (s.core vc).started && permanent s vc then
    let a := (s.core vc).arch
    let e : LogIn := { cls := 0x21, action := 9, ukind := 1, uindex := s.pcOf vc, vc := vc.setWidth 16, owner := classOf a }
    let s0 := failSpares (awake s) vc obs.badSpares
    .next (match chooseSpare s0.cmap (s0.pcOf vc / 9) with
      | none => enterBelvedere s0 e (some vc)
      | some p =>
        let s1 := migrate s0 vc p
        if obs.readable then s1 else lostOutcome (loseRegs s1 vc) { e with cls := 0x20 } (some vc))
  else .next s

/-- Every copy of a lost line leaves the caches and the buffers, and its directory entry goes. -/
def dropLine (s : State) (l : LineNo) : State :=
  let s1 := (List.range 8).foldl (fun t k => if (t.l2 k l).isSome then giveUp t k l else t) s
  let s2 : State := { s1 with dram := { s1.dram with groups := ungroup s1.dram.groups l.toNat } }
  s2.setDir (s2.homeNo l) l none

/-- A dirty line whose only good copy is lost: class 0x20 (15 R462, R463). -/
def loseLine (s : State) (l : LineNo) (c : ClassId) : State := lostLine (dropLine s l) l c

/-- A refetched line's record (15 R456 class 0x06, R567). -/
def refetched (s : State) (e : LogIn) (vc : Option Vc) : State :=
  recordFault s { e with cls := 6, action := 0x0C, stallMax := 20000 } vc

/-- An uncorrectable line of an L1D: fetched again from the L2; one that the L1D holds in M is lost (15 R462). Readers with uncommitted loads roll back (08 R238). -/
def l1dError (s : State) (vc : Vc) (l : LineNo) : State :=
  let k := s.clusterOf vc
  match s.l2 k l with
  | none => s
  | some x =>
    if x.pres.contains vc then
      if x.dirtyIn == some vc then loseLine s l x.cls
      else
        let s2 := if (s.core vc).micro.readMarks.contains l then specRollback s vc else s
        refetched s2 { cls := 6, action := 0x0C, ukind := 1, uindex := s.pcOf vc, vc := vc.setWidth 16, owner := x.cls,
                       addr := BitVec.ofNat 64 (l.toNat * 64) } (some vc)
    else s

/-- An uncorrectable line of a cluster L2: dropped and fetched again where it is clean; rebuilt from the L1D that holds it in M; else lost. Readers with uncommitted loads roll back (08 R238; 15 R462). The virtual core concerned is the first whose L1D holds the line: DESIGN CHOICE (log entry 109). -/
def l2Error (s : State) (k : Nat) (l : LineNo) : State :=
  match s.l2 k l with
  | none => s
  | some x =>
    let (e, s1) := openUnit s { cls := 6, action := 0x0C, ukind := 0, uindex := 0, owner := x.cls, addr := BitVec.ofNat 64 (l.toNat * 64) }
    match x.st with
    | .e | .s => refetched (if (s1.mshrOf k l).isSome then rollbackReaders s1 k l none else giveUp s1 k l) e x.pres.head?
    | .m | .o => if x.dirtyIn.isSome then refetched (rollbackReaders s1 k l none) e x.dirtyIn else loseLine s1 l x.cls

/-- An uncorrectable directory entry: BINV to every cluster; the owner returns the line, and the entry becomes DI (08 R257; 15 R456 class 0x08). -/
def dirError (s : State) (h : Nat) (l : LineNo) : State :=
  let owner := firstCluster (fun k => match s.l2 k l with
    | some x => if x.st == .m || x.st == .o then some x else none
    | none => none)
  let s1 := (List.range 8).foldl (fun t k => if (t.l2 k l).isSome then giveUp t k l else t) s
  let s2 := match owner with
    | some x => scPut s1 h l x.data true x.cls
    | none => s1
  recordFault (s2.setDir h l none)
    { cls := 8, action := 0x0C, ukind := 3, uindex := h, stallMax := 20000, addr := BitVec.ofNat 64 (l.toNat * 64) } none

/-- An uncorrectable system-cache line: clean, it is read again; dirty, it is taken from the mirror of the write-back buffer (15 R456 class 0x09, R464). -/
def scError (s : State) (h : Nat) (l : LineNo) : State :=
  let ho := s.home h
  match mget? ho.sc l.toNat with
  | none => s
  | some x =>
    let sc := match x.dirty, s.mirrored h l with
      | true, some v => mput ho.sc l.toNat { x with data := v }
      | _, _ => mdel ho.sc l.toNat
    recordFault (s.setHome h { ho with sc := sc })
      { cls := 9, action := 0x0C, ukind := 3, uindex := h, stallMax := 20000, owner := x.cls, addr := BitVec.ofNat 64 (l.toNat * 64) } none

/-- An uncorrectable word of a core's course store or folly table (05 R132; 06 R194; 15 R456 class 0x04). -/
def storeError (s : State) (vc : Vc) : State :=
  recordFault s { cls := 4, action := 0x0C, ukind := 1, uindex := s.pcOf vc, stallMax := 5000, vc := vc.setWidth 16,
                  owner := classOf (s.core vc).arch } (some vc)

/-- The lines of one way of a system cache leave it; a dirty one still stands in the write-back buffer (15 R456 class 0x07). -/
def retireHomeWay (s : State) (h : Nat) (w : BitVec 4) : State :=
  let ho := s.home h
  s.setHome h { ho with sc := ho.sc.filter (fun p => p.2.way != w), badWays := ho.badWays ||| (1#16 <<< w.toNat) }

/-- The sets of a cluster L2 in which a line lies. -/
def l2Sets (c : Cluster) : List Nat := ((mkeys c.l2).map (fun l => l % 4096)).eraseDups

/-- One way of a cluster L2 is written back: the line that lies in it in each set, if any, which is a free value, for no rule says which way a fill takes (08 R237; 15 R456 class 0x07; log entry 16). A line with an open request stays until it has its answer. -/
def retireL2Set (k : Nat) (s : State) (i : Nat) : State :=
  let (f, s1) := s.free
  match (((mkeys (s1.cluster k).l2).filter (fun l => l % 4096 == i))[f.toNat % 16]?).map (BitVec.ofNat 42) with
  | some l => if (s1.mshrOf k l).isSome then s1 else evictLine s1 k l
  | none => s1

/-- CACHE_WAY_RETIRE (15 R456 class 0x07): a way of a system cache or of a cluster L2: its lines are written back, and it is disabled. -/
def execCacheWayRetire (home : Bool) (k : Oct) (way : BitVec 4) (s0 : State) : Out :=
  let s := awake s0
  if recovers s0 then
    if home then
      .next (recordFault (retireHomeWay s k.toNat way) { cls := 7, action := 7, ukind := 3, uindex := k.toNat, stallMax := 20000 } none)
    else
      let s1 := (l2Sets (s.cluster k.toNat)).foldl (retireL2Set k.toNat) s
      let c := s1.cluster k.toNat
      let (e, s2) := openUnit s1 { cls := 7, action := 7, ukind := 0, uindex := 0, stallMax := 20000 }
      .next (recordFault (s2.setCluster k.toNat { c with badWays := c.badWays ||| (1#16 <<< way.toNat) }) e none)
  else .next s0

end Sys2Proof.Machine
end

