-- ==== Sys2Proof/Machine/CoreMem.lean ====
section
/-! DEFINITION. Data accesses of the core: parts, translation, the store buffer, the L1D, uncached and DEVICE targets (01 R20 to R26; 02 R61 to R73; 05 R142 to R148, R157, R158, R160, R161; 07 R210, R211; 08 R236 to R238, R263, R266 to R268). -/

namespace Sys2Proof.Machine

/-- One part of an access, within one line, with its translation (02 R71). -/
structure APart where
  va : W64
  n : Nat
  pa : Nat
  mt : MemType
  /-- It missed the L1 DTLB; it needed a walk (17 R507). -/
  miss : Bool
  walked : Bool
  deriving DecidableEq, Repr

/-- An access within one line is one part; one that crosses a line is two, split at the boundary (02 R71). -/
def splitParts (va : W64) (n : Nat) : List (W64 × Nat) :=
  let cut := 64 - va.toNat % 64
  if n ≤ cut then [(va, n)] else [(va, cut), (va + BitVec.ofNat 64 cut, n - cut)]

/-- Translates every part; of several faults the lower-addressed part's is kept. `upper`: the part is the higher one of a split access (02 R71; 07 R228). A part that faults stands in the list where its leafs make it DEVICE memory (02 R57). None: a part waits for its walk. -/
def xlateParts (vc : Vc) (acc : Acc) : List (W64 × Nat) → Bool → State → Option (List APart × Option Exc) × State
  | [], _, s => (some ([], none), s)
  | (v, n) :: t, upper, s =>
    let a := (s.core vc).spec
    let part (pa : Nat) (mt : MemType) (miss walked : Bool) : APart := { va := v, n := n, pa := pa, mt := mt, miss := miss, walked := walked }
    match xlate s vc v acc false with
    | (none, s1) => (none, s1)
    | (some r, s1) => match xlateParts vc acc t true s1 with
      | (none, s2) => (none, s2)
      | (some (ps, e), s2) => match r with
        | .ok x => (some (part x.pa x.mt x.miss x.walked :: ps, e), s2)
        | .error f => (some (if xlateDev f then part 0 .device false false :: ps else ps, some (excXlate a false v acc upper f)), s2)

/-- What keeps an access from its memory: an exception, or a read of its walk that waits. -/
inductive AStop where
  | exc (x : Exc) | wait
  deriving DecidableEq, Repr

/-- The parts of an access, or its exception: data alignment before translation (02 R57, R72, R73). Where a part faults before a leaf is found, its memory type is not known, and the access raises that fault, even though it is not aligned: DESIGN CHOICE (log entry 22). -/
def accessParts (s : State) (vc : Vc) (va : W64) (n : Nat) (acc : Acc) : Except AStop (List APart) × State :=
  match xlateParts vc acc (splitParts va n) false s with
  | (none, s1) => (.error .wait, s1)
  | (some (ps, e), s1) =>
    let dev := ps.any (fun p => p.mt == .device)
    let mixed := match ps with
      | [p, q] => p.mt != q.mt
      | _ => false
    if va.toNat % n != 0 && (dev || mixed) then (.error (.exc (excAlign (s.core vc).spec va)), s1)
    else match e with
      | some x => (.error (.exc x), s1)
      | none => (.ok ps, s1)

/-- What an access does once it is translated: it goes on, or raises its exception; where the reads of its walks took lines from the L1D that older uncommitted loads had read, the core has rolled back and the instruction is not executed now (05 R148; 07 R202). -/
def accessed {α : Type} (s : State) (vc : Vc) (r : Except AStop α × State) (f : α → State → Option State) : Option State :=
  if undone s r.2 vc then some r.2
  else match r.1 with
    | .error .wait => none
    | .error (.exc x) => raise r.2 vc x
    | .ok a => f a r.2

/-- The events of an access's translation (17 R507). -/
def partEvents (ps : List APart) : List (BitVec 8) :=
  (if ps.any (·.miss) then [0x0F#8] else []) ++ (if ps.any (·.walked) then [0x10#8] else [])
    ++ (if 1 < ps.length then [0x11#8] else [])

/-- How an access of an instruction ends: its result with the state, or the state in which the instruction stands unexecuted (none: as it was). -/
abbrev Mem (α : Type) := Except (Option State) (α × State)

/-- Entries of the store buffer that overlap some bytes. -/
def sbOverlaps (sb : List SbEntry) (pa n : Nat) : List SbEntry :=
  sb.filter (fun e => decide (e.pa.toNat < pa + n ∧ pa < e.pa.toNat + e.size))

/-- Every byte is written by an entry of the store buffer. -/
def sbCovered (sb : List SbEntry) (pa n : Nat) : Bool :=
  (List.range n).all (fun i => sb.any (fun e => decide (e.pa.toNat ≤ pa + i ∧ pa + i < e.pa.toNat + e.size)))

/-- Uncommitted stores with no commit point behind them: those of the region's part in execution (05 R143, R157). -/
def openStores (c : Core) : List SbEntry :=
  let new := c.sb.filter (fun e => !e.committed)
  match (c.retire.filterMap (·.pt)).getLast? with
  | none => new
  | some p => new.drop p.sbLen

/-- The core rolls back to run its region in step mode, and reports an instruction of it to the translator: a DEVICE access, or (`pair`) a store that a load partly overlaps. The region leaves the course store, so that the next translation of it places the commit points (05 R147, R157; log entry 12). -/
def report (s : State) (vc : Vc) (at_ : W64) (pair : Bool) : State :=
  let s1 := specRollback s vc
  match (s.core vc).region with
  | none => s1
  | some k =>
    let s2 := s1.updCore vc (fun c => { c with micro := { c.micro with regions := c.micro.regions.filter (fun r => r.key != k) } })
    match translatorOf s2 (s2.clusterOf vc) with
    | none => s2
    | some i =>
      let d := s2.cluster i
      s2.setCluster i { d with
        reports := d.reports.filter (· != (k, at_, pair)) ++ [(k, at_, pair)], recent := d.recent.filter (fun r => r.key != k) }

/-- What the store buffer does with some bytes that a load reads (05 R157; 02 R64): nothing overlaps; it forwards them; the load waits for the youngest overlapping store; or, where that store is of the load's own region, the region rolls back. -/
def forward (s : State) (vc : Vc) (pa n : Nat) : Except (Option State) (Option Nat) :=
  let c := s.core vc
  if (sbOverlaps c.sb pa n).isEmpty then .ok none
  else if sbCovered c.sb pa n then .ok (some (overlay c.sb pa n 0))
  else match (if c.region.isSome then (sbOverlaps (openStores c) pa n).getLast? else none) with
    | some e => .error (some (report s vc e.pc true))
    | none => .error (some (s.setCore vc { c with owait := true }))

/-- Reads a NORMAL line through the L1D (07 R211; 08 R236). -/
def cachedRead (s : State) (vc : Vc) (pa n : Nat) : Mem (Nat × List (BitVec 8)) :=
  let l := lineOf pa
  let evs := missEvents s vc l
  match bringShared s vc l with
  | none => .error none
  | some s1 =>
    if undone s s1 vc then .error (some s1)
    else match s1.l2 (s1.clusterOf vc) l with
      | none => .error none
      | some x =>
        let t := readLine s1 vc l x
        if undone s1 t vc then .error (some t) else .ok ((lineGet x.data (pa % 64) n, evs), t)

/-- Reads memory at the home slice or at the spine: NORMAL_NC, DEVICE in DRAM, the keep region (07 R211; 08 R263). -/
def uncachedRead (s : State) (vc : Vc) (pa n : Nat) : Mem (Nat × List (BitVec 8)) :=
  match agentRead s (clusterAgent (s.clusterOf vc)) (classOf (s.core vc).spec) pa n with
  | none => .error none
  | some (v, s1) => if undone s s1 vc then .error (some s1) else .ok ((v, []), s1)

/-- Reads one part that is not DEVICE: the store buffer first, then the L1D, the home slice or the spine (02 R64; 05 R157). -/
def loadPart (s : State) (vc : Vc) (p : APart) : Mem (Nat × List (BitVec 8)) :=
  match forward s vc p.pa p.n with
  | .error o => .error o
  | .ok (some v) => .ok ((v, []), s)
  | .ok none =>
    if p.mt == .normalNc || inKeep s p.pa then uncachedRead s vc p.pa p.n else cachedRead s vc p.pa p.n

/-- Reads the parts of an access, the lower first; their bytes make one number (02 R71). -/
def loadParts (vc : Vc) : List APart → State → Mem (Nat × List (BitVec 8))
  | [], s => .ok ((0, []), s)
  | p :: t, s =>
    match loadPart s vc p with
    | .error o => .error o
    | .ok ((v, e), s1) => match loadParts vc t s1 with
      | .error o => .error o
      | .ok ((w, f), s2) => .ok ((v + 2 ^ (8 * p.n) * w, e ++ f), s2)

/-- A load that waited on the store buffer counts once, and waits no more (17 R507, OVERLAP_WAIT). -/
def waited (s : State) (vc : Vc) : List (BitVec 8) × State :=
  if (s.core vc).owait then ([0x12#8], s.updCore vc (fun c => { c with owait := false })) else ([], s)

/-- The address of a load or store (03 R84). -/
def accessAddr (a : Arch) (ra : Reg) (imm : BitVec 16) : W64 := gRead a ra + sext imm
/-- The indexed address (03 R84). -/
def indexAddr (a : Arch) (ra rb : Reg) (sh : BitVec 2) : W64 := gRead a ra + (gRead a rb <<< sh.toNat)

/-- Size in bytes, sign extension and register file of a load (03 R84). -/
def ldForm : LdFn → Nat × Bool × Bool
  | .ldb => (1, true, false) | .ldbu => (1, false, false) | .ldh => (2, true, false) | .ldhu => (2, false, false)
  | .ldw => (4, true, false) | .ldwu => (4, false, false) | .ldd => (8, false, false)
  | .flds => (4, false, true) | .fldd => (8, false, true)

/-- Size in bytes and register file of a store (03 R84). -/
def stForm : StFn → Nat × Bool
  | .stb => (1, false) | .sth => (2, false) | .stw => (4, false) | .std => (8, false) | .fsts => (4, true) | .fstd => (8, true)

/-- A DEVICE access leaves the core only as its oldest operation (05 R147). In a region that has not isolated it, the core rolls back and reports it; else older work commits first. -/
def deviceReady (s : State) (vc : Vc) : Except (Option State) State :=
  let c := s.core vc
  if c.region.isSome && !(courseNow c).any (·.alone) then .error (some (report s vc c.spec.pc false))
  else match drained s vc with
    | some s1 => .ok s1
    | none => .error none

/-- The ticket that a load or an atomic takes as the oldest operation of its core, when every other has completed (05 R125, R135). -/
def ticketNow (c : Core) : BitVec 4 := BitVec.ofNat 4 ((nextTicket c).getD 0)

/-- A DEVICE load leaves the core: the value, or the error, of every target but the windows comes at once (01 R20, R22; 02 R70; 05 R147; 08 R263). A narrow load of a register performs no access, so an interrupt comes before its exception (01 R22; 02 R58). `s` has nothing uncommitted. -/
def deviceLoad (s : State) (vc : Vc) (w : CoreWait) (pa n : Nat) : Option State :=
  let c := classOf (s.core vc).arch
  let sent (t : State) : State := t.updCore vc (fun d => { d with wait := some w })
  match paKind s pa with
  | .dram | .keep =>
    (agentRead s (clusterAgent (s.clusterOf vc)) c pa n).map (fun r => finishWait (sent r.2) vc (BitVec.ofNat 64 r.1))
  | .arborWin => some (arborAccess (sent s) (some vc) .load c pa n 0 0)
  | .pcieWin => some (pcieAccess (sent s) (some vc) .load c pa n 0 0)
  | _ => match regLoad s vc c pa n with
    | some (v, t) => some (finishWait (sent t) vc v)
    | none => raise s vc (excDevice (s.core vc).arch w.va)

/-- A load's parts translate to DEVICE memory: one part, for a split access does not. -/
def deviceAccess (s : State) (vc : Vc) (rd : Reg) (fp sx : Bool) (w : W32) (evs : List (BitVec 8)) (p : APart) : Option State :=
  match deviceReady s vc with
  | .error o => o
  | .ok s1 =>
    if (sbOverlaps (s1.core vc).sb p.pa p.n).isEmpty then
      deviceLoad s1 vc { rd := rd, fp := fp, size := p.n, sext := sx, va := p.va, word := w, events := evs ++ [0x13#8], ticket := ticketNow (s1.core vc) }
        p.pa p.n
    else some s1

/-- What the check of the L1D finds at the line that a load reads (15 R461, R462). -/
def checkLine (s : State) (vc : Vc) (p : APart) (err : Chk) : State :=
  if p.mt == .normal && !inKeep s p.pa && (sbOverlaps (s.core vc).sb p.pa p.n).isEmpty then
    match err with
    | .clean => s
    | .corrected => recordCorrected s 6 1 (s.pcOf vc)
    | .uncorrectable => l1dError s vc (lineOf p.pa)
  else s

/-- A load of n bytes to a register (03 R84, R85; 02 R71). -/
def loadOp (s : State) (vc : Vc) (w : W32) (fn : LdFn) (rd : Reg) (va : W64) (err : Chk) : Option State :=
  let (n, sx, fp) := ldForm fn
  accessed s vc (accessParts s vc va n .read) (fun ps s1 =>
    let evs := 0x0A#8 :: partEvents ps
    match ps with
    | [] => none
    | p :: _ =>
      if p.mt == .device then deviceAccess s1 vc rd fp sx w evs p
      else
        let s2 := checkLine s1 vc p err
        if undone s1 s2 vc || s2.mode != .service then some s2
        else match loadParts vc ps s2 with
          | .error o => o
          | .ok ((v, e), s3) =>
            let (e2, s4) := waited s3 vc
            longOp s4 vc
              { dest := if fp then .f rd else .g rd, val := extendVal n sx (BitVec.ofNat 64 v), flags := 0, cf := none }
              (evs ++ e ++ e2))

/-- LOAD's families (03 R84). -/
def loadRun (vc : Vc) (w : W32) (err : Chk) (op : CoreOp) (s : State) : Option State :=
  let a := s.regs vc
  match op with
  | .ld fn rd ra imm => loadOp s vc w fn rd (accessAddr a ra imm) err
  | .ldx fn rd ra rb sh => loadOp s vc w fn rd (indexAddr a ra rb sh) err
  | _ => none

/-- The word is a load. -/
def isLoad : CoreOp → Bool
  | .ld .. | .ldx .. => true
  | _ => false

/-- LOAD (03 R84). -/
def execLoad (vc : Vc) (w : W32) (err : Chk) (s : State) : Out := .next (instrRow s vc w isLoad (loadRun vc w err))

/-- A part stored to is on a code-seen page (05 R160, R161). -/
def codeParts (s : State) (ps : List APart) : Bool :=
  ps.any (fun p => p.mt != .device && inDram s.dram p.pa && codeSeen s (BitVec.ofNat 36 (p.pa / 4096)))

/-- The entries that a store's parts take in the store buffer, the lower first (02 R71; 05 R158). -/
def sbEntries (s : State) (vc : Vc) : List APart → Nat → List SbEntry
  | [], _ => []
  | p :: t, v =>
    { pa := BitVec.ofNat 48 p.pa, size := p.n, data := BitVec.ofNat 64 (v % 2 ^ (8 * p.n)),
      nc := p.mt == .normalNc || inKeep s p.pa, committed := false, cls := classOf (s.core vc).spec,
      pc := (s.core vc).spec.pc } :: sbEntries s vc t (v / 2 ^ (8 * p.n))

/-- The store buffer takes some entries where it has room among its 48 (05 R142). -/
def pushStores (c : Core) (es : List SbEntry) : Option Core :=
  if c.sb.length + es.length ≤ 48 then some { c with sb := c.sb ++ es } else none

/-- Events of cached stores (17 R507). -/
def storeMisses (s : State) (vc : Vc) (ps : List APart) : List (BitVec 8) :=
  let e := (ps.filter (fun p => p.mt == .normal && !inKeep s p.pa)).flatMap (fun p => missEvents s vc (lineOf p.pa))
  (if e.contains 0x0D#8 then [0x0D#8] else []) ++ (if e.contains 0x0E#8 then [0x0E#8] else [])

/-- A DEVICE store leaves the core (01 R22; 02 R67, R70; 08 R263). `s` has nothing uncommitted and no store buffered; none: it cannot be performed yet. -/
def deviceStore (s : State) (vc : Vc) (pa n : Nat) (v : W64) : Option State :=
  let c := classOf (s.core vc).arch
  let sent := s.updCore vc (fun d => { d with devStores := d.devStores + 1 })
  match paKind s pa with
  | .dram | .keep => agentWrite s (clusterAgent (s.clusterOf vc)) c pa n v.toNat
  | .arborWin => some (arborAccess sent (some vc) .store c pa n v 0)
  | .pcieWin => some (pcieAccess sent (some vc) .store c pa n v 0)
  | _ => some (regStore s vc c pa n v)

/-- Fetch waits for the store to code that the core has committed; what follows comes from memory, in step mode (05 R161). -/
def awaitCode (c : Core) : Core :=
  { c with codeWait := true, region := none, rix := 0, entry := c.entry || c.region.isSome }

/-- Every older operation of the core has completed, and no older branch waits to be undone: a store to code commits with all of them, wherever the commit points of its region stand (05 R161). -/
def olderDone (c : Core) : Bool := c.tickets.isEmpty && c.ckpts.isEmpty

/-- A store has executed: beside a code-seen page it waits for its commit; on one it commits with everything before it, and fetch waits (05 R161). -/
def storeExecuted (s : State) (vc : Vc) (code : Bool) (a : Arch) (evs : List (BitVec 8)) (ends taken : Bool)
    (ind : Option W64) : State :=
  if code then
    let s1 := commitCore (executed s vc a (evs ++ [0x18#8]) ends taken none ind) vc
    s1.updCore vc awaitCode
  else executed s vc a evs ends taken none ind

/-- A store of the low n bytes of a value (03 R84, R85; 02 R71). -/
def storeOp (s : State) (vc : Vc) (fn : StFn) (rd : Reg) (va : W64) : Option State :=
  let (n, fp) := stForm fn
  accessed s vc (accessParts s vc va n .write) (fun ps s1 =>
    let a := s1.regs vc
    let v := if fp then fRead a rd else gRead a rd
    let evs := 0x0B#8 :: partEvents ps
    match ps with
    | [] => none
    | p :: _ =>
      if p.mt == .device then
        match deviceReady s1 vc with
        | .error o => o
        | .ok s2 =>
          if storesDone s2 vc then
            (deviceStore s2 vc p.pa n v).map (fun s3 =>
              committedAlone s3 vc (nextPc (s3.regs vc)) (evs ++ [0x13#8]) false false none)
          else some s2
      else
        let code := codeParts s1 ps
        if code && !olderDone (s1.core vc) then none
        else (pushStores (s1.core vc) (sbEntries s1 vc ps v.toNat)).map (fun c =>
          storeExecuted (s1.setCore vc c) vc code (nextPc a) (evs ++ storeMisses s1 vc ps) false false none))

/-- STORE's families (03 R84). -/
def storeRun (vc : Vc) (op : CoreOp) (s : State) : Option State :=
  let a := s.regs vc
  match op with
  | .st fn rd ra imm => storeOp s vc fn rd (accessAddr a ra imm)
  | .stx fn rd ra rb sh => storeOp s vc fn rd (indexAddr a ra rb sh)
  | _ => none

/-- The word is a store. -/
def isStore : CoreOp → Bool
  | .st .. | .stx .. => true
  | _ => false

/-- STORE (03 R84). -/
def execStore (vc : Vc) (w : W32) (s : State) : Out := .next (instrRow s vc w isStore (storeRun vc))

/-- The oldest store leaves the buffer. -/
def popStore (s : State) (vc : Vc) : State := s.updCore vc (fun c => { c with sb := c.sb.drop 1 })

/-- The oldest committed store is written, once every older one has been performed: to the L1D where the line is held in M or E, or at the home slice or the spine (08 R263, R266, R267). -/
def drainStore (s : State) (vc : Vc) (e : SbEntry) : Option State :=
  let k := s.clusterOf vc
  let pa := e.pa.toNat
  let l := lineOf pa
  if (s.cluster k).l2.any (fun p => p.2.unperf == some vc) then none
  else if e.nc then
    (agentWrite s (clusterAgent k) e.cls pa e.size e.data.toNat).map (fun t => popStore t vc)
  else match s.l2 k l with
    | none => none
    | some x =>
      if (x.st == .m || x.st == .e) && x.unperf.isNone then
        some (tryCmpAll (popStore (writeLine s vc l (pa % 64) e.size e.data.toNat) vc) k 64)
      else none

/-- Stores drain while the device runs them. -/
def drainsNow (s : State) (vc : Vc) : Bool := fabricUp s && !s.therm.trip && decide (vc.toNat < vcCount s.cmap.part)

/-- STORE_DRAIN (05 R142; 08 R266, R267). -/
def execStoreDrain (vc : Vc) (s : State) : Out :=
  match (s.core vc).sb with
  | [] => .next s
  | e :: _ =>
    if drainsNow s vc && e.committed then .next (((drainStore s vc e).map advancePavs).getD s) else .next s

/-- The first set of SYNC is complete: the store buffer is empty, every store of the core is performed, and every marked line has had its CMP (02 R66; 08 R268). -/
def syncDone (s : State) (vc : Vc) : Bool := storesDone s vc && (s.core vc).micro.syncMarks.isEmpty

/-- SYNC (02 R66): the stores that had to wait for room at Arbor have ended too (11 R343). -/
def syncReady (s : State) (vc : Vc) : Bool :=
  syncDone s vc && !s.arb.waiting.any (fun p => p.2.vc == some vc && p.2.kind == .store)
    && !s.arb.ses.any (fun p => p.2.queue.any (fun a => a.vc == some vc && a.kind == .store && a.waited))

/-- Size in bytes of an atomic (03 R86). -/
def atomSize (z : BitVec 2) : Nat := 2 ^ z.toNat

/-- An atomic has read its old value: it goes to rd zero-extended, and the instruction commits alone (03 R86; 05 R143). -/
def atomDone (s : State) (vc : Vc) (rd : Reg) (n : Nat) (old : W64) (evs : List (BitVec 8)) : State :=
  committedAlone s vc (nextPc (gWrite (s.regs vc) rd (extendVal n false old))) evs false false none

/-- An atomic in the L1D (03 R88); CAS writes only where it matches (03 R86). -/
def atomCached (s : State) (vc : Vc) (fn : AtomFn) (n : Nat) (pa : Nat) (opnd cmpv : W64) : Option (W64 × State) :=
  let l := lineOf pa
  match bringOwned s vc l with
  | none => none
  | some s1 =>
    match s1.l2 (s1.clusterOf vc) l with
    | none => none
    | some x =>
      let old : W64 := BitVec.ofNat 64 (lineGet x.data (pa % 64) n)
      let new := atomVal fn n old opnd cmpv
      if fn == .cas && old != (cmpv &&& BitVec.ofNat 64 (2 ^ (8 * n) - 1)) then some (old, readLine s1 vc l x)
      else some (old, writeLine s1 vc l (pa % 64) n new.toNat)

/-- An atomic on its target (03 R88). One that performs no access raises class 0x0C, after a pending interrupt (02 R58). `s` has nothing uncommitted and every store performed. -/
def atomTarget (s : State) (vc : Vc) (w : W32) (fn : AtomFn) (n : Nat) (rd : Reg) (opnd cmpv : W64) (p : APart)
    (evs : List (BitVec 8)) : Option State :=
  let c := classOf (s.core vc).arch
  let ag := clusterAgent (s.clusterOf vc)
  let wt : CoreWait := { rd := rd, fp := false, size := n, sext := false, va := p.va, word := w, events := evs ++ [0x13#8],
                         ticket := ticketNow (s.core vc) }
  let sent := s.updCore vc (fun d => { d with wait := some wt })
  match paKind s p.pa with
  | .keep =>
    (agentAtom s ag c p.pa n (atomCode fn) opnd cmpv).map (fun r =>
      atomDone r.2 vc rd n r.1 (evs ++ (if p.mt == .device then [0x13#8] else [])))
  | .dram =>
    match p.mt with
    | .normal =>
      let code := codeParts s [p]
      (atomCached s vc fn n p.pa opnd cmpv).map (fun r =>
        atomDone r.2 vc rd n r.1 (evs ++ missEvents s vc (lineOf p.pa) ++ (if code then [0x18#8] else [])))
    | .normalNc => (agentAtom s ag c p.pa n (atomCode fn) opnd cmpv).map (fun r => atomDone r.2 vc rd n r.1 evs)
    | .device => raise s vc (excDevice (s.core vc).arch p.va)
  | .arborWin => some (arborAccess sent (some vc) (.atomic (atomCode fn)) c p.pa n opnd cmpv)
  | .pcieWin =>
    if pcieAtom (atomCode fn) n then some (pcieAccess sent (some vc) (.atomic (atomCode fn)) c p.pa n opnd cmpv)
    else raise s vc (excDevice (s.core vc).arch p.va)
  | _ => raise s vc (excDevice (s.core vc).arch p.va)

/-- The ATOM group (03 R86 to R88): with SY it waits for what SYNC waits for (03 R87). -/
def atomRun (vc : Vc) (w : W32) (op : CoreOp) (s : State) : Option State :=
  match op with
  | .atom fn z sy rd ra rb =>
    let a := s.regs vc
    let n := atomSize z
    let va := gRead a ra
    if va.toNat % n != 0 then raise s vc (excAlign a va)
    else accessed s vc (accessParts s vc va n .rmw) (fun ps s1 => match ps, drained s1 vc with
        | [p], some s2 =>
          if (if sy then syncReady s2 vc else storesDone s2 vc) then
            (atomTarget s2 vc w fn n rd (gRead a rb) (gRead a rd) p (0x0C#8 :: partEvents ps)).orElse (fun _ => some s2)
          else some s2
        | _, _ => none)
  | _ => none

/-- The word is an atomic. -/
def isAtom : CoreOp → Bool
  | .atom .. => true
  | _ => false

/-- ATOMIC (03 R86 to R88). -/
def execAtomic (vc : Vc) (w : W32) (s : State) : Out := .next (instrRow s vc w isAtom (atomRun vc w))

end Sys2Proof.Machine
end

