-- ==== Sys2Proof/Machine/CoreCall.lean ====
section
/-! DEFINITION. Calls and returns (02 R45 to R47; 03 R91; 05 R151, R153). -/

namespace Sys2Proof.Machine

/-- The register pairs that a mask names, ascending (02, "Calls and returns"). -/
def pairsOf (pm : BitVec 8) : List Nat := (List.range 8).filter (fun i => pm.getLsbD i)

/-- Size of a frame (02, frame layout). -/
def frameSize (pm : BitVec 8) : W64 := BitVec.ofNat 64 (16 + 16 * (pairsOf pm).length)

/-- The g register of a number. -/
def regNo (i : Nat) : Reg := BitVec.ofNat 5 i

/-- The doublewords of a frame: RA, MASK, the pairs (02, frame layout). -/
def frameWords (a : Arch) (ra : W64) (pm : BitVec 8) : List W64 :=
  [ra, zext pm] ++ (pairsOf pm).flatMap (fun i => [gRead a (regNo (16 + 2 * i)), gRead a (regNo (17 + 2 * i))])

/-- The addresses of n doublewords from a base on. -/
def wordAddrs (base : W64) (first n : Nat) : List W64 := (List.range n).map (fun i => base + BitVec.ofNat 64 (8 * (first + i)))

/-- The place of an exception of a frame access in the order of priority: alignment, stage 1, stage 2, physical address (02 R57). -/
def excRank (x : Exc) : Nat :=
  if x.cls = 0x03 then 0 else if x.cls = 0x0A then 3 else if x.detail.getLsbD 0 then 2 else 1

/-- Of two exceptions of one instruction the one that comes first, of equal ones that of the lower address (02 R57). -/
def firstExc (low high : Exc) : Exc := if excRank high < excRank low then high else low

/-- The parts of some doublewords of a frame, in ascending order, or the exception that comes first among theirs (02 R45, R46, R57). -/
def frameParts (vc : Vc) (acc : Acc) : List W64 → State → Except AStop (List APart) × State
  | [], s => (.ok [], s)
  | v :: t, s =>
    match accessParts s vc v 8 acc with
    | (.error .wait, s1) => (.error .wait, s1)
    | (.error (.exc x), s1) => match frameParts vc acc t s1 with
      | (.error .wait, s2) => (.error .wait, s2)
      | (.error (.exc y), s2) => (.error (.exc (firstExc x y)), s2)
      | (.ok _, s2) => (.error (.exc x), s2)
    | (.ok ps, s1) => match frameParts vc acc t s1 with
      | (.error x, s2) => (.error x, s2)
      | (.ok qs, s2) => (.ok (ps ++ qs), s2)

/-- The entries of a frame's stores. -/
def frameEntries (s : State) (vc : Vc) (ps : List APart) (vs : List W64) : List SbEntry :=
  (ps.zip vs).flatMap (fun p => sbEntries s vc [p.1] p.2.toNat)

/-- A frame that touches DEVICE memory is written doubleword by doubleword, each performed before the next (02 R45, R63, R70). -/
def frameDevice (vc : Vc) : List (APart × W64) → State → Option State
  | [], s => some s
  | (p, v) :: t, s =>
    let r := if p.mt == .device then deviceStore s vc p.pa 8 v
      else agentWrite s (clusterAgent (s.clusterOf vc)) (classOf (s.core vc).arch) p.pa 8 v.toNat
    match r with
    | none => none
    | some s1 => frameDevice vc t s1

/-- CALL and CALLR push their return address, where the stack is used (05 R151, R153). -/
def callPush (s : State) (vc : Vc) (ra : W64) : State :=
  if s.predOff (s.core vc).spec then s else s.updCore vc (fun c => rasPush c ra)

/-- A CALL whose target is known: the checks, the frame, g31, PC (02 R45, R57). -/
def callOp (s : State) (vc : Vc) (pm : BitVec 8) (target : W64) (bad : Option Exc) (ind : Option W64) : Option State :=
  let a := s.regs vc
  let sp := spRead a
  let base := sp - frameSize pm
  let ra := a.pc + 4
  match bad with
  | some x => raise s vc x
  | none =>
    if sp.extractLsb' 0 4 != 0#4 then raise s vc (excStack a sp)
    else
      let vs := frameWords a ra pm
      accessed s vc (frameParts vc .write (wordAddrs base 0 vs.length) s) (fun ps s1 =>
        let evs := (ps.map (fun _ => 0x0B#8)) ++ ps.flatMap (fun p => partEvents [p] ++ storeMisses s1 vc [p])
        let a1 := { spWrite a base with pc := target }
        if ps.any (fun p => p.mt == .device) then
          match deviceReady s1 vc with
          | .error o => o
          | .ok s2 =>
            if storesDone s2 vc then
              (frameDevice vc (ps.zip vs) (callPush s2 vc ra)).map (fun s3 =>
                committedAlone s3 vc { spWrite (s3.regs vc) base with pc := target }
                  (evs ++ (ps.filter (fun p => p.mt == .device)).map (fun _ => 0x13#8)) true true ind)
            else some s2
        else
          let code := codeParts s1 ps
          if code && !olderDone (s1.core vc) then none
          else (pushStores (s1.core vc) (frameEntries s1 vc ps vs)).map (fun c =>
            storeExecuted (callPush (s1.setCore vc c) vc ra) vc code a1 evs true true ind))

/-- CALL (03 R91). -/
def callRun (vc : Vc) (op : CoreOp) (s : State) : Option State :=
  let a := s.regs vc
  match op with
  | .call pm off =>
    let t := relTarget a.pc off
    callOp s vc pm t (if canonical t then none else some (excNonCanonical a t)) none
  | _ => none

/-- The word is a CALL. -/
def isCall : CoreOp → Bool
  | .call .. => true
  | _ => false

/-- CALL (02 R45; 03 R91). -/
def execCall (vc : Vc) (w : W32) (s : State) : Out := .next (instrRow s vc w isCall (callRun vc))

/-- CALLR: ra is read before the frame or g31 is written (03 R91). -/
def callrRun (vc : Vc) (op : CoreOp) (s : State) : Option State :=
  let a := s.regs vc
  match op with
  | .callr ra pm =>
    let t := gRead a ra
    callOp s vc pm t (badTarget a t) (some t)
  | _ => none

/-- The word is a CALLR. -/
def isCallr : CoreOp → Bool
  | .callr .. => true
  | _ => false

/-- CALLR (02 R45; 03 R91). -/
def execCallr (vc : Vc) (w : W32) (s : State) : Out := .next (instrRow s vc w isCallr (callrRun vc))

/-- A doubleword of a frame has been read from DEVICE memory: it is held until the RET completes (05 R147). -/
def holdWord (s : State) (vc : Vc) (i : Nat) (v : W64) : State := s.updCore vc (fun c => { c with frame := mput c.frame i v })

/-- Reads doubleword i of a frame from DEVICE memory: once only, and a window's answer is waited for (02 R46, R70). -/
def frameDevRead (s : State) (vc : Vc) (i : Nat) (p : APart) : Mem (W64 × List (BitVec 8)) :=
  match mget? (s.core vc).frame i with
  | some v => .ok ((v, [0x0A#8, 0x13#8]), s)
  | none =>
    match deviceReady s vc with
    | .error o => .error o
    | .ok s1 =>
      let c := classOf (s1.core vc).arch
      let wt : CoreWait := { rd := 0, fp := false, size := 8, sext := false, va := p.va, word := 0, events := [], slot := some i,
                             ticket := ticketNow (s1.core vc) }
      let sent := s1.updCore vc (fun d => { d with wait := some wt })
      if (sbOverlaps (s1.core vc).sb p.pa 8).isEmpty then
        match paKind s1 p.pa with
        | .dram | .keep => match agentRead s1 (clusterAgent (s1.clusterOf vc)) c p.pa 8 with
          | none => .error none
          | some (v, t) => .ok ((BitVec.ofNat 64 v, [0x0A#8, 0x13#8]), holdWord t vc i (BitVec.ofNat 64 v))
        | .arborWin => .error (some (arborAccess sent (some vc) .load c p.pa 8 0 0))
        | .pcieWin => .error (some (pcieAccess sent (some vc) .load c p.pa 8 0 0))
        | _ => match regLoad s1 vc c p.pa 8 with
          | some (v, t) => .ok ((v, [0x0A#8, 0x13#8]), holdWord t vc i v)
          | none => .error none
      else .error (some s1)

/-- Reads doubleword i of a frame (02 R46). -/
def frameRead (s : State) (vc : Vc) (i : Nat) (p : APart) : Mem (W64 × List (BitVec 8)) :=
  if p.mt == .device then frameDevRead s vc i p
  else match loadPart s vc p with
    | .error o => .error o
    | .ok ((v, e), s1) => .ok ((BitVec.ofNat 64 v, 0x0A#8 :: partEvents [p] ++ e), s1)

/-- Reads some doublewords of a frame in order. -/
def frameReads (vc : Vc) : List (Nat × APart) → State → Mem (List W64 × List (BitVec 8))
  | [], s => .ok (([], []), s)
  | (i, p) :: t, s =>
    match frameRead s vc i p with
    | .error o => .error o
    | .ok ((v, e), s1) => match frameReads vc t s1 with
      | .error o => .error o
      | .ok ((vs, f), s2) => .ok ((v :: vs, e ++ f), s2)

/-- The pairs take the doublewords of the frame (02 R46). -/
def restorePairs (a : Arch) : List Nat → List W64 → Arch
  | i :: t, x :: y :: vs => restorePairs (gWrite (gWrite a (regNo (16 + 2 * i)) x) (regNo (17 + 2 * i)) y) t vs
  | _, _ => a

/-- The registers after a RET (02 R46). -/
def retArch (a : Arch) (pm : BitVec 8) (ra : W64) (vs : List W64) : Arch :=
  let a1 := restorePairs a (pairsOf pm) vs
  let a2 := if pm.getLsbD 7 then a1 else spWrite a1 (spRead a + frameSize pm)
  { a2 with pc := ra }

/-- A RET whose frame lay in DEVICE memory: nothing of it can be undone, so it commits alone with its target resolved (05 R143, R147, R151). -/
def retAlone (s : State) (vc : Vc) (a : Arch) (evs : List (BitVec 8)) : State :=
  let c := s.core vc
  let off := s.predOff c.spec
  let kind : List (BitVec 8) := if off then [0x07#8, 0x09#8]
    else match c.micro.ras with
      | [] => [0x07#8, 0x09#8]
      | p :: _ => if p = a.pc then [0x07#8] else [0x07#8, 0x08#8]
  let s1 := s.updCore vc (fun d => { d with
    frame := [], micro := if off then d.micro else { d.micro with ras := d.micro.ras.drop 1 } })
  committedAlone s1 vc a (kind ++ evs) true true (some a.pc)

/-- RET past its header: the rest of the frame, RA, the registers (02 R46; 03 R91). -/
def retRest (s : State) (vc : Vc) (hd : List APart) (pm : BitVec 8) (e0 : List (BitVec 8)) : Option State :=
  let a := s.regs vc
  let n := 2 * (pairsOf pm).length
  accessed s vc (frameParts vc .read (wordAddrs (spRead a) 2 n) s) (fun ps s1 =>
    match frameReads vc ((0 :: (List.range n).map (· + 2)).zip (hd.take 1 ++ ps)) s1 with
    | .error o => o
    | .ok ((vs, e), s2) =>
      let ra := vs.headD 0
      match badTarget a ra with
      | some x => raise s2 vc x
      | none =>
        let (w, s3) := waited s2 vc
        let a1 := retArch (s3.regs vc) pm ra (vs.drop 1)
        if (hd ++ ps).any (fun p => p.mt == .device) then some (retAlone s3 vc a1 (e0 ++ e ++ w))
        else some (retExec s3 vc a1 (e0 ++ e ++ w)))

/-- RET (02 R46). -/
def retRun (vc : Vc) (op : CoreOp) (s : State) : Option State :=
  let a := s.regs vc
  let sp := spRead a
  match op with
  | .ret =>
    if sp.extractLsb' 0 4 != 0#4 then raise s vc (excStack a sp)
    else accessed s vc (frameParts vc .read (wordAddrs sp 0 2) s) (fun hd s1 => match hd with
        | [_, q] => match frameRead s1 vc 1 q with
          | .error o => o
          | .ok ((m, e), s2) => retRest s2 vc hd (m.setWidth 8) e
        | _ => none)
  | _ => none

/-- The word is a RET. -/
def isRet : CoreOp → Bool
  | .ret => true
  | _ => false

/-- RET (02 R46; 03 R91). -/
def execRet (vc : Vc) (w : W32) (s : State) : Out := .next (instrRow s vc w isRet (retRun vc))

end Sys2Proof.Machine
end

