-- ==== Sys2Proof/Machine/CoreSys.lean ====
section
/-! DEFINITION. The SYS group: barriers, WFE, ERET, traps, system registers, TLBI (02 R34 to R39, R48, R53, R60, R66 to R69; 03 R96, R97, R101, R102; 07 R197 to R199, R218 to R221; 10 R306; 17 R505 to R512). -/

namespace Sys2Proof.Machine

/-- Every older instruction has completed and no store is buffered; then a SYS-group instruction begins (03 R97). The state has nothing uncommitted. -/
def sysBegins (s : State) (vc : Vc) (run : State → Option State) : Option State :=
  match drained s vc with
  | none => none
  | some s1 => if (s1.core vc).sb.isEmpty then (run s1).orElse (fun _ => some s1) else some s1

/-- The instruction ends the region that includes it; what follows a region is a block entry (05 R124, R128). -/
def leaveRegion (c : Core) : Core := { c with region := none, rix := 0, entry := c.entry || c.region.isSome }

/-- A SYS-group instruction has executed: it commits alone and ends its block and its region (03 R97; 05 R124, R143). -/
def sysDone (s : State) (vc : Vc) (a : Arch) (evs : List (BitVec 8)) : State :=
  (committedAlone s vc (nextPc a) evs true false none).updCore vc leaveRegion

/-- Completes a barrier where its condition holds. -/
def barrier (s : State) (vc : Vc) (ready : State → Bool) : Option State :=
  sysBegins s vc (fun t => if ready t then some (sysDone t vc (t.regs vc) []) else none)

/-- SYNC. -/
def syncRun (vc : Vc) (op : CoreOp) (s : State) : Option State :=
  match op with
  | .sync => barrier s vc (fun t => syncReady t vc)
  | _ => none

/-- SYNC (02 R66; 08 R268). -/
def execSync (vc : Vc) (w : W32) (s : State) : Out := .next (instrRow s vc w (· == .sync) (syncRun vc))

/-- SYNC.D: every older DEVICE access has completed at its target. -/
def syncDRun (vc : Vc) (op : CoreOp) (s : State) : Option State :=
  match op with
  | .syncD => barrier s vc (fun t => syncReady t vc && (t.core vc).devStores == 0)
  | _ => none

/-- SYNC.D (02 R67). -/
def execSyncD (vc : Vc) (w : W32) (s : State) : Out := .next (instrRow s vc w (· == .syncD) (syncDRun vc))

/-- SYNC.T: every TLBI issued before it has completed. -/
def syncTRun (vc : Vc) (op : CoreOp) (s : State) : Option State :=
  match op with
  | .syncT => barrier s vc (fun t => syncReady t vc && (t.core vc).tlbis.isEmpty)
  | _ => none

/-- SYNC.T (02 R68; 07 R221). -/
def execSyncT (vc : Vc) (w : W32) (s : State) : Out := .next (instrRow s vc w (· == .syncT) (syncTRun vc))

/-- SYNC.I: nothing beyond what any SYS-group instruction does. -/
def syncIRun (vc : Vc) (op : CoreOp) (s : State) : Option State :=
  match op with
  | .syncI => barrier s vc (fun _ => true)
  | _ => none

/-- SYNC.I (02 R69). -/
def execSyncI (vc : Vc) (w : W32) (s : State) : Out := .next (instrRow s vc w (· == .syncI) (syncIRun vc))

/-- The vCPU suspends after WFE, unless an interrupt is pending for it (02 R60; 17 R507, R519). `s` has nothing uncommitted. -/
def suspend (s : State) (vc : Vc) : State :=
  let c := s.core vc
  let a := s.regs vc
  if !(physPending s c).isEmpty || !c.latch.isEmpty then sysDone s vc a []
  else
    let s1 := (sysDone s vc a [0x27#8]).updCore vc (fun d => { d with wfe := true, wfeEvent := false })
    let b := (s1.core vc).arch
    if traceOn s1 vc b then emit s1 vc b b.pc .restIn else s1

/-- WFE, which may complete while older stores are still buffered (03 R97). -/
def wfeRun (vc : Vc) (op : CoreOp) (s : State) : Option State :=
  match op with
  | .wfe => (drained s vc).map (fun t => suspend t vc)
  | _ => none

/-- WFE (02 R60). -/
def execWfe (vc : Vc) (w : W32) (s : State) : Out := .next (instrRow s vc w (· == .wfe) (wfeRun vc))

/-- Why ERET may not run: at U, a PPL of no level or above the current one, a target that is not canonical (02 R53). -/
def eretDenied (a : Arch) (w : W32) : Option Exc :=
  let b := if a.level = .h then a.excH else a.excS
  if a.level = .u then some (excIllegal a w)
  else match levelOf (b.estat.extractLsb' 0 2) with
    | none => some (excIllegal a w)
    | some p =>
      if levelNum a.level < levelNum p then some (excIllegal a w)
      else if !canonical b.epc then some (excNonCanonical a b.epc)
      else none

/-- The registers after an ERET that may run (02 R53); CF returns where the pavilion at the level returned to is F-style (02 R36). -/
def eretArch (s : State) (a : Arch) : Arch :=
  let b := if a.level = .h then a.excH else a.excS
  let p := (levelOf (b.estat.extractLsb' 0 2)).getD .u
  excReturn a p (s.fStyleOf { a with level := p })

/-- ERET. -/
def eretRun (vc : Vc) (w : W32) (op : CoreOp) (s : State) : Option State :=
  match op with
  | .eret => match eretDenied (s.regs vc) w with
    | some x => raise s vc x
    | none => sysBegins s vc (fun t =>
        let a := eretArch t (t.regs vc)
        some (advancePavs ((committedAlone t vc a [] true true (some a.pc)).updCore vc startBlock)))
  | _ => none

/-- ERET (02 R53). -/
def execEret (vc : Vc) (w : W32) (s : State) : Out := .next (instrRow s vc w (· == .eret) (eretRun vc w))

/-- A trap completes, and its exception is entered with EPC at the next instruction (02 R48, R52); an enabled interrupt comes before it (02 R58). EADDR takes a value that the manual does not give. -/
def trapTo (s : State) (vc : Vc) (cls : BitVec 6) (code : BitVec 16) (lvl : Level) : Option State :=
  if irqFirst s vc then none
  else sysBegins s vc (fun t =>
    let (f, t1) := t.free
    let t2 := sysDone t1 vc (t1.regs vc) []
    some (advancePavs (enterExc t2 vc { cls := cls, detail := code.setWidth 26 <<< 10, addr := f, lvl := lvl }
      (t2.core vc).arch.pc 0)))

/-- TRAP.S: from U and S to S; at H an illegal instruction (03 R96). -/
def trapSRun (vc : Vc) (w : W32) (op : CoreOp) (s : State) : Option State :=
  let a := s.regs vc
  match op with
  | .trapS code => if a.level = .h then raise s vc (excIllegal a w) else trapTo s vc 0x05 code .s
  | _ => none

/-- The word is a TRAP.S. -/
def isTrapS : CoreOp → Bool
  | .trapS _ => true
  | _ => false

/-- TRAP.S (02 R48; 03 R96). -/
def execTrapS (vc : Vc) (w : W32) (s : State) : Out := .next (instrRow s vc w isTrapS (trapSRun vc w))

/-- TRAP.H: from S and H to H; at U an illegal instruction (03 R96). -/
def trapHRun (vc : Vc) (w : W32) (op : CoreOp) (s : State) : Option State :=
  let a := s.regs vc
  match op with
  | .trapH code => if a.level = .u then raise s vc (excIllegal a w) else trapTo s vc 0x06 code .h
  | _ => none

/-- The word is a TRAP.H. -/
def isTrapH : CoreOp → Bool
  | .trapH _ => true
  | _ => false

/-- TRAP.H (02 R48; 03 R96). -/
def execTrapH (vc : Vc) (w : W32) (s : State) : Out := .next (instrRow s vc w isTrapH (trapHRun vc w))

/-- TRAP.B: at every level (03 R96). -/
def trapBRun (vc : Vc) (op : CoreOp) (s : State) : Option State :=
  match op with
  | .trapB code => trapTo s vc 0x07 code (ownLevel (s.regs vc).level)
  | _ => none

/-- The word is a TRAP.B. -/
def isTrapB : CoreOp → Bool
  | .trapB _ => true
  | _ => false

/-- TRAP.B (02 R48; 03 R96). -/
def execTrapB (vc : Vc) (w : W32) (s : State) : Out := .next (instrRow s vc w isTrapB (trapBRun vc))

/-- Numbers that a chapter assigns (03 R101). -/
def sysAssigned (n : Nat) : Bool :=
  n == 0x001 || n == 0x002 || n == 0x010 || decide (0x080 ≤ n ∧ n ≤ 0x086)
    || decide (0x100 ≤ n ∧ n ≤ 0x107) || n == 0x110 || decide (0x120 ≤ n ∧ n ≤ 0x123)
    || decide (0x180 ≤ n ∧ n ≤ 0x185) || decide (0x188 ≤ n ∧ n ≤ 0x18D) || n == 0x18F || n == 0x190 || n == 0x192 || n == 0x193
    || decide (0x200 ≤ n ∧ n ≤ 0x204)
    || decide (0x400 ≤ n ∧ n ≤ 0x402) || decide (0x404 ≤ n ∧ n ≤ 0x408) || n == 0x410
    || decide (0x420 ≤ n ∧ n ≤ 0x426) || n == 0x440
    || decide (0x480 ≤ n ∧ n ≤ 0x486) || decide (0x488 ≤ n ∧ n ≤ 0x48D) || decide (0x48F ≤ n ∧ n ≤ 0x493)
    || n == 0x4C0 || n == 0x4C1

/-- Why a system register may not be reached (02 R34, R48; 03 R101). -/
def sysDenied (a : Arch) (w : W32) (n : BitVec 12) : Option Exc :=
  let i := n.toNat
  if 0x800 ≤ i then some (excIllegal a w)
  else if 0x400 ≤ i ∧ a.level = .s then some { cls := 0x0B, addr := zext w, lvl := .h }
  else if (0x100 ≤ i ∧ a.level = .u) ∨ sysAssigned i = false then some (excIllegal a w)
  else none

/-- CSTAT, EPC, ESTAT, ESYN, EADDR, EVB, SCRATCH by the low byte of their number (02, system register numbers). -/
def excRegRead (b : ExcBank) (ie : Bool) (l : Level) (k : Nat) : W64 :=
  match k with
  | 0 => (if ie then 1 else 0) ||| ((levelCode l).setWidth 64 <<< 8)
  | 1 => b.epc
  | 2 => b.estat
  | 4 => b.esyn
  | 5 => b.eaddr
  | 6 => b.evb
  | 7 => b.scratch
  | _ => 0

/-- The same registers written: read-only bits stay zero (02, registers of exception state; 00 R8). -/
def excRegWrite (b : ExcBank) (v : W64) (k : Nat) : ExcBank :=
  match k with
  | 1 => { b with epc := v &&& ~~~ 3#64 }
  | 2 => { b with estat := v &&& 0xF7 }
  | 4 => { b with esyn := v &&& 0xFFFFFFFF }
  | 5 => { b with eaddr := v }
  | 6 => { b with evb := v &&& ~~~ 0xFFF#64 }
  | 7 => { b with scratch := v }
  | _ => b

/-- Bits [47:12] of a table base (07 R199). -/
def baseMask : W64 := 0xFFFFFFFFF000

/-- Counter k of the views and of PMU_PACE, PMU_CNT: 0 is PMU_PACE, 1 to 6 PMU_CNT0 to 5 (17 R505). -/
def viewCnt (k : Nat) : Nat := if k = 0 then 6 else k - 1

/-- The guest, or U code, sees a counter through the views (17 R510). -/
def viewSeen (a : Arch) (p : Pmu) (n : Nat) : Bool :=
  match a.level with
  | .h => true
  | .s => n == 6 || pmuGranted p n
  | .u => p.uen && (n == 6 || pmuGranted p n)

/-- A code may execute a folly index: it is loaded, and the pavilion holds its grant, or HYP at H (06 R192). -/
def follyAllowed (s : State) (a : Arch) (i : Nat) : Bool :=
  match mget? s.gate.folly i with
  | none => false
  | some e => if a.level = .h then e.hyp else e.grant.getLsbD a.tr.vmid.toNat

/-- ISAFEAT1 as a context reads it (03 R102; 06 R192). -/
def isaFeat1 (s : State) (a : Arch) : Nat := ((List.range 16).filter (follyAllowed s a)).foldl (fun x i => x + 2 ^ i) 0

/-- PAV_CTL_G: bits [7:5] and [63:16] are reserved; zero where the pavilion is NONE (02 R38; 10 R305). -/
def pavCtlG (s : State) (a : Arch) : W64 := (s.ctlOf a).setWidth 64 &&& 0xFF1F

/-- The registers of ranges 0x000 to 0x0FF (02 R36, R37; 16 R484; 17 R510). -/
def sysRead0 (s : State) (vc : Vc) (a : Arch) (n : Nat) : W64 :=
  if n = 0x001 then (if s.fStyleOf a then a.cf.setWidth 64 else 0)
  else if n = 0x002 then a.fcsr.setWidth 64
  else if n = 0x010 then BitVec.ofNat 64 s.qz.time
  else
    let p := (s.core vc).pmu
    let k := viewCnt (n - 0x080)
    if viewSeen a p k then pmuCnt p k else 0

/-- The registers of ranges 0x100 to 0x3FF (02; 03 R102; 07 R199; 17 R510). -/
def sysRead1 (s : State) (vc : Vc) (a : Arch) (n : Nat) : W64 :=
  let p := (s.core vc).pmu
  if n = 0x103 then pavCtlG s a
  else if n < 0x108 then excRegRead a.excS a.ieS a.level (n - 0x100)
  else match n with
    | 0x110 => a.spU
    | 0x120 => a.tr.tb0
    | 0x121 => a.tr.tb1
    | 0x122 => a.tr.asid.setWidth 64
    | 0x123 => a.tr.tctl.setWidth 64
    | 0x18F => (if p.uen then 1 else 0) ||| (p.girq.setWidth 64 <<< 16)
    | 0x190 => (p.ovf &&& p.grant.setWidth 7).setWidth 64
    | 0x192 => p.gspc
    | 0x193 => p.gsinfo.setWidth 64
    | 0x200 => BitVec.ofNat 64 (65536 * (match s.cmap.part with | .t6440i => 0x6440 | _ => 0x6472) + 0x00B1)
    | 0x201 => 0x0100
    | 0x202 => 0xFFF
    | 0x203 => BitVec.ofNat 64 (isaFeat1 s a)
    | 0x204 => a.vcpu.setWidth 64 ||| (a.tr.vmid.setWidth 64 <<< 16)
    | _ =>
      if n < 0x186 then (if pmuGranted p (n - 0x180) then pmuCnt p (n - 0x180) else 0)
      else if pmuGranted p (n - 0x188) then (pmuCfg p (n - 0x188)).setWidth 64 &&& 0x1BFF else 0

/-- The registers of range 0x400 to 0x7FF (02; 07 R199; 10 R306; 17). -/
def sysRead4 (s : State) (vc : Vc) (a : Arch) (n : Nat) : W64 :=
  let c := s.core vc
  let p := c.pmu
  if n < 0x408 then excRegRead a.excH a.ieH a.level (n - 0x400)
  else match n with
    | 0x408 => a.eipaH
    | 0x410 => a.spS
    | 0x420 => a.tr.vtb
    | 0x421 => a.tr.vmid.setWidth 64
    | 0x422 => a.tr.htb0
    | 0x423 => a.tr.htb1
    | 0x424 => a.tr.hasid.setWidth 64
    | 0x425 => a.tr.htctl.setWidth 64
    | 0x426 => a.vcpu.setWidth 64 ||| (if a.run then 0x10000 else 0) ||| (if a.refused then 0x20000 else 0)
    | 0x440 => vc.setWidth 64
    | 0x48F => p.ctl.setWidth 64
    | 0x490 => p.ovf.setWidth 64
    | 0x491 => p.grant.setWidth 64
    | 0x492 => p.spc
    | 0x493 => p.sinfo.setWidth 64
    | 0x4C0 => c.trc.ctl.setWidth 64
    | 0x4C1 => c.trc.lost.setWidth 64
    | _ => if n < 0x487 then pmuCnt p (viewCnt (n - 0x480)) else (pmuCfg p (n - 0x488)).setWidth 64

/-- The value of a system register that may be reached (03 R101). -/
def sysRead (s : State) (vc : Vc) (n : Nat) : W64 :=
  let a := s.regs vc
  if n < 0x100 then sysRead0 s vc a n else if n < 0x400 then sysRead1 s vc a n else sysRead4 s vc a n

/-- What a read changes: TRC_LOST clears (17 R525; 03 R101). -/
def sysReadEffect (c : Core) (n : Nat) : Core := if n = 0x4C1 then { c with trc := { c.trc with lost := 0 } } else c

/-- MFS (02 R34, R35). -/
def mfsRun (vc : Vc) (w : W32) (op : CoreOp) (s : State) : Option State :=
  match op with
  | .mfs rd n => match sysDenied (s.regs vc) w n with
    | some x => raise s vc x
    | none => sysBegins s vc (fun t =>
        let v := sysRead t vc n.toNat
        some (sysDone (t.updCore vc (fun c => sysReadEffect c n.toNat)) vc (gWrite (t.regs vc) rd v) []))
  | _ => none

/-- The word is an MFS. -/
def isMfs : CoreOp → Bool
  | .mfs .. => true
  | _ => false

/-- MFS (02 R34, R35; 03 R101). -/
def execMfs (vc : Vc) (w : W32) (s : State) : Out := .next (instrRow s vc w isMfs (mfsRun vc w))

/-- FCSR written: RM 0b101 to 0b111 leaves RM (02 R37). -/
def fcsrWrite (old : BitVec 8) (v : W64) : BitVec 8 :=
  let rm : BitVec 3 := v.extractLsb' 5 3
  (if 5#3 ≤ rm then old.extractLsb' 5 3 else rm) ++ v.extractLsb' 0 5

/-- What an MTS writes to the registers of the vCPU and the hypervisor, but for VMID_H and VCPU_H (02; 07 R199). `fs`: F-style is in force. -/
def archWrite (a : Arch) (fs : Bool) (n : Nat) (v : W64) : Arch :=
  match n with
  | 0x001 => if fs then { a with cf := v.setWidth 4 } else a
  | 0x002 => { a with fcsr := fcsrWrite a.fcsr v }
  | 0x100 => { a with ieS := v.getLsbD 0 }
  | 0x110 => { a with spU := v }
  | 0x120 => { a with tr := { a.tr with tb0 := v &&& baseMask } }
  | 0x121 => { a with tr := { a.tr with tb1 := v &&& baseMask } }
  | 0x122 => { a with tr := { a.tr with asid := v.setWidth 16 } }
  | 0x123 => { a with tr := { a.tr with tctl := v.setWidth 3 } }
  | 0x400 => { a with ieH := v.getLsbD 0 }
  | 0x410 => { a with spS := v }
  | 0x422 => { a with tr := { a.tr with htb0 := v &&& baseMask } }
  | 0x423 => { a with tr := { a.tr with htb1 := v &&& baseMask } }
  | 0x424 => { a with tr := { a.tr with hasid := v.setWidth 16 } }
  | 0x425 => { a with tr := { a.tr with htctl := v.setWidth 4 } }
  | _ =>
    if 0x101 ≤ n ∧ n ≤ 0x107 ∧ n ≠ 0x103 then { a with excS := excRegWrite a.excS v (n - 0x100) }
    else if 0x401 ≤ n ∧ n ≤ 0x407 then { a with excH := excRegWrite a.excH v (n - 0x400) }
    else a

/-- PMU_CFGn written: CHAIN of counter 0 is read-only zero (17 R508). -/
def cfgWrite (n : Nat) (v : W64) : BitVec 13 := v.setWidth 13 &&& (if n = 0 then 0xFFF else 0x1FFF)

/-- What an MTS writes to the PMU and the encoder (17 R505 to R517). -/
def unitWrite (c : Core) (n : Nat) (v : W64) : Core :=
  let p := c.pmu
  let pmu (q : Pmu) : Core := { c with pmu := q }
  match n with
  | 0x18F => pmu { p with uen := v.getLsbD 0, girq := v.extractLsb' 16 11 }
  | 0x190 => pmu { p with ovf := p.ovf &&& ~~~ (v.setWidth 7 &&& p.grant.setWidth 7) }
  | 0x48F => pmu { p with ctl := v.setWidth 6 }
  | 0x490 => pmu { p with ovf := p.ovf &&& ~~~ v.setWidth 7 }
  | 0x491 => pmu { p with grant := v.setWidth 6 }
  | 0x4C0 => { c with trc := { c.trc with ctl := v.setWidth 16 &&& 0xFF1F } }
  | _ =>
    if 0x180 ≤ n ∧ n ≤ 0x185 then
      (if pmuGranted p (n - 0x180) then pmu { p with cnt := mput p.cnt (n - 0x180) v } else c)
    else if 0x188 ≤ n ∧ n ≤ 0x18D then
      let k := n - 0x188
      (if pmuGranted p k then pmu { p with cfg := mput p.cfg k ((cfgWrite k v &&& 0x1BFF) ||| (pmuCfg p k &&& 0x400)) } else c)
    else if 0x480 ≤ n ∧ n ≤ 0x486 then pmu { p with cnt := mput p.cnt (viewCnt (n - 0x480)) v }
    else if 0x488 ≤ n ∧ n ≤ 0x48D then pmu { p with cfg := mput p.cfg (n - 0x488) (cfgWrite (n - 0x488) v) }
    else c

/-- VCPU_H written (10 R306). `s` has nothing uncommitted. -/
def vcpuWrite (s : State) (vc : Vc) (v : W64) : State :=
  let s1 := spillLatch s vc
  let pn := (s1.regs vc).tr.vmid
  let n : BitVec 16 := v.setWidth 16
  let s2 :=
    if v.getLsbD 16 then
      if canLoad s1 pn n.toNat then loadLatch s1 vc pn n.toNat
      else s1.updCore vc (fun c => { c with arch := { c.arch with refused := true }, spec := { c.spec with refused := true } })
    else s1
  advancePavs (sysDone s2 vc { s2.regs vc with vcpu := n } [])

/-- VMID_H written: the latch of the vCPU that ran goes to its PEND, RUN clears, VTB is loaded; zero for a pavilion in NONE (07 R199; 10 R305, R306). -/
def vmidWrite (s : State) (vc : Vc) (v : W64) : State :=
  let s1 := spillLatch s vc
  let a := s1.regs vc
  let pn : Pav := v.setWidth 8
  let p := s1.pav pn
  let vtb : W64 := if p.st = .none then 0 else p.vtb.setWidth 64 &&& baseMask
  advancePavs (sysDone s1 vc { a with tr := { a.tr with vmid := pn, vtb := vtb } } [])

/-- MTS to a register that may be reached; a read-only register ignores it (03 R101). `s` has nothing uncommitted. -/
def sysWrite (s : State) (vc : Vc) (n : Nat) (v : W64) : State :=
  if n = 0x426 then vcpuWrite s vc v
  else if n = 0x421 then vmidWrite s vc v
  else
    let a := s.regs vc
    sysDone (s.updCore vc (fun c => unitWrite c n v)) vc (archWrite a (s.fStyleOf a) n v) []

/-- MTS of an operand to a register (02 R34, R35). -/
def mtsOp (s : State) (vc : Vc) (w : W32) (ra : Reg) (n : BitVec 12) : Option State :=
  match sysDenied (s.regs vc) w n with
  | some x => raise s vc x
  | none => sysBegins s vc (fun t => some (sysWrite t vc n.toNat (gRead (t.regs vc) ra)))

/-- MTS. -/
def mtsRun (vc : Vc) (w : W32) (op : CoreOp) (s : State) : Option State :=
  match op with
  | .mts ra n => mtsOp s vc w ra n
  | _ => none

/-- The word is an MTS. -/
def isMts : CoreOp → Bool
  | .mts .. => true
  | _ => false

/-- MTS (02 R34, R35; 03 R101). -/
def execMts (vc : Vc) (w : W32) (s : State) : Out := .next (instrRow s vc w isMts (mtsRun vc w))

/-- The word is an MTS to a register. -/
def isMtsTo (k : BitVec 12) : CoreOp → Bool
  | .mts _ n => n == k
  | _ => false

/-- VCPU_H_WRITE: an MTS to VCPU_H (10 R306). -/
def execVcpuHWrite (vc : Vc) (w : W32) (s : State) : Out := .next (instrRow s vc w (isMtsTo 0x426#12) (mtsRun vc w))

/-- VMID_H_WRITE: an MTS to VMID_H (07 R199; 10 R306). -/
def execVmidHWrite (vc : Vc) (w : W32) (s : State) : Out := .next (instrRow s vc w (isMtsTo 0x421#12) (mtsRun vc w))

/-- A TLBI at its issue: at most 8 have not completed; the core's own structures lose its reach, and the request is on its way (07 R220, R221). -/
def tlbiIssue (s : State) (vc : Vc) (t : State → Tlbi) : Option State :=
  sysBegins s vc (fun s1 =>
    if (s1.core vc).tlbis.length < 8 then
      let x := t s1
      let s2 := (tlbiCore x s1 vc).updCore vc (fun c => { c with tlbis := c.tlbis ++ [x] })
      some (sysDone s2 vc (s2.regs vc) [])
    else none)

/-- Levels that may issue a TLBI: S and H, or H alone (03 R96). -/
def tlbiLevel (a : Arch) (hOnly : Bool) : Bool := a.level == .h || (a.level == .s && !hOnly)

/-- The context of TLBI.VA, TLBI.VAA and TLBI.ASID: at H the hypervisor's where the bit is set, else the pavilion of VMID_H (07 R218). -/
def tlbiCtx (a : Arch) (hypBit : Bool) : ClassId := if a.level = .h ∧ hypBit = true then hypClass else a.tr.vmid.setWidth 16

/-- A TLBI word at its level (03 R96; 07 R218). -/
def tlbiOp (s : State) (vc : Vc) (w : W32) (hOnly : Bool) (t : Arch → Tlbi) : Option State :=
  let a := s.regs vc
  if tlbiLevel a hOnly then tlbiIssue s vc (fun s1 => t (s1.regs vc)) else raise s vc (excIllegal a w)

/-- TLBI.VA: page ra[47:12], ASID ra[63:48]. -/
def tlbiVaRun (vc : Vc) (w : W32) (op : CoreOp) (s : State) : Option State :=
  match op with
  | .tlbiVa ra => tlbiOp s vc w false (fun a =>
      let v := gRead a ra
      { op := .va, ctx := tlbiCtx a (v.getLsbD 8), asid := v.extractLsb' 48 16, page := v.extractLsb' 12 36 })
  | _ => none

/-- The word is a TLBI.VA. -/
def isTlbiVa : CoreOp → Bool
  | .tlbiVa _ => true
  | _ => false

/-- TLBI.VA (03 R96; 07 R218). -/
def execTlbiVa (vc : Vc) (w : W32) (s : State) : Out := .next (instrRow s vc w isTlbiVa (tlbiVaRun vc w))

/-- TLBI.VAA: page ra[47:12], every ASID. -/
def tlbiVaaRun (vc : Vc) (w : W32) (op : CoreOp) (s : State) : Option State :=
  match op with
  | .tlbiVaa ra => tlbiOp s vc w false (fun a =>
      let v := gRead a ra
      { op := .vaa, ctx := tlbiCtx a (v.getLsbD 8), asid := 0, page := v.extractLsb' 12 36 })
  | _ => none

/-- The word is a TLBI.VAA. -/
def isTlbiVaa : CoreOp → Bool
  | .tlbiVaa _ => true
  | _ => false

/-- TLBI.VAA (03 R96; 07 R218). -/
def execTlbiVaa (vc : Vc) (w : W32) (s : State) : Out := .next (instrRow s vc w isTlbiVaa (tlbiVaaRun vc w))

/-- TLBI.ASID: ASID ra[15:0]. -/
def tlbiAsidRun (vc : Vc) (w : W32) (op : CoreOp) (s : State) : Option State :=
  match op with
  | .tlbiAsid ra => tlbiOp s vc w false (fun a =>
      let v := gRead a ra
      { op := .asid, ctx := tlbiCtx a (v.getLsbD 16), asid := v.setWidth 16, page := 0 })
  | _ => none

/-- The word is a TLBI.ASID. -/
def isTlbiAsid : CoreOp → Bool
  | .tlbiAsid _ => true
  | _ => false

/-- TLBI.ASID (03 R96; 07 R218). -/
def execTlbiAsid (vc : Vc) (w : W32) (s : State) : Out := .next (instrRow s vc w isTlbiAsid (tlbiAsidRun vc w))

/-- TLBI.IPA: IPA page ra[47:12] of the pavilion of VMID_H. -/
def tlbiIpaRun (vc : Vc) (w : W32) (op : CoreOp) (s : State) : Option State :=
  match op with
  | .tlbiIpa ra => tlbiOp s vc w true (fun a =>
      { op := .ipa, ctx := a.tr.vmid.setWidth 16, asid := 0, page := (gRead a ra).extractLsb' 12 36 })
  | _ => none

/-- The word is a TLBI.IPA. -/
def isTlbiIpa : CoreOp → Bool
  | .tlbiIpa _ => true
  | _ => false

/-- TLBI.IPA (03 R96; 07 R218). -/
def execTlbiIpa (vc : Vc) (w : W32) (s : State) : Out := .next (instrRow s vc w isTlbiIpa (tlbiIpaRun vc w))

/-- TLBI.VMID: pavilion ra[7:0]. -/
def tlbiVmidRun (vc : Vc) (w : W32) (op : CoreOp) (s : State) : Option State :=
  match op with
  | .tlbiVmid ra => tlbiOp s vc w true (fun a =>
      { op := .vmid, ctx := (gRead a ra).setWidth 16 &&& 0xFF, asid := 0, page := 0 })
  | _ => none

/-- The word is a TLBI.VMID. -/
def isTlbiVmid : CoreOp → Bool
  | .tlbiVmid _ => true
  | _ => false

/-- TLBI.VMID (03 R96; 07 R218). -/
def execTlbiVmid (vc : Vc) (w : W32) (s : State) : Out := .next (instrRow s vc w isTlbiVmid (tlbiVmidRun vc w))

/-- TLBI.ALL. -/
def tlbiAllRun (vc : Vc) (w : W32) (op : CoreOp) (s : State) : Option State :=
  match op with
  | .tlbiAll => tlbiOp s vc w true (fun _ => { op := .all, ctx := 0, asid := 0, page := 0 })
  | _ => none

/-- TLBI.ALL (03 R96; 07 R218). -/
def execTlbiAll (vc : Vc) (w : W32) (s : State) : Out := .next (instrRow s vc w (· == .tlbiAll) (tlbiAllRun vc w))

end Sys2Proof.Machine
end

