-- ==== Sys2Proof/Machine/CoreCtl.lean ====
section
/-! DEFINITION. What a core does beside its instructions: tickets, commits, undo, interrupts, notices, regions, counters (02 R54, R58 to R60; 03 R98; 05 R126 to R131, R135, R144, R145; 07 R220; 15 R472; 17 R509). -/

namespace Sys2Proof.Machine

/-- The core has power and clock, and the device runs its cores. -/
def coreOn (s : State) (vc : Vc) : Bool :=
  s.mode == .service && (s.core vc).started && !s.therm.trip && !s.dev.stopped && decide (vc.toNat < vcCount s.cmap.part)

/-- The result of a ticket lands in a repaired state that waits behind a branch, where the operation is older than the branch (05 R135, R145). -/
def landCkpt (t : Nat) (x : Ticket) (k : Ckpt) : Ckpt :=
  if k.tick.contains t then { k with actual := landTicket k.actual x, tick := k.tick.filter (· != t) } else k

/-- It lands in the same way at the commit points that stand behind it. -/
def landRetire (t : Nat) (x : Ticket) (r : Retire) : Retire := { r with pt := r.pt.map (landCkpt t x) }

/-- A long operation completes (05 R135). -/
def completeTicket (c : Core) (t : Nat) : Core :=
  match mget? c.tickets t with
  | none => c
  | some x => { c with
      spec := landTicket c.spec x, tickets := mdel c.tickets t, ckpts := c.ckpts.map (landCkpt t x),
      retire := c.retire.map (landRetire t x) }

/-- TICKET_COMPLETE (05 R135). -/
def execTicketComplete (vc : Vc) (t : BitVec 4) (s : State) : Out :=
  whenTrue (coreOn s vc) s (s.updCore vc (fun c => completeTicket c t.toNat))

/-- REGION_COMMIT (05 R125, R144): what has executed becomes architectural up to the youngest commit point behind which all of it has completed. -/
def execRegionCommit (vc : Vc) (s : State) : Out :=
  if coreOn s vc then
    if canCommit (s.core vc) then .next (commitCore s vc)
    else match openPoint (s.core vc) with
      | none => .next s
      | some p => .next (commitAt s vc p)
  else .next s

/-- The core as the oldest mispredicted branch leaves it (05 R145, R155): younger courses and their stores go, history, return stack and fetch buffer are repaired. -/
def undoBranch (c : Core) (k : Ckpt) : Core :=
  let old := c.sb.filter (·.committed)
  let new := c.sb.filter (fun e => !e.committed)
  let gone := c.retire.drop k.retLen
  { c with
    spec := k.actual, sb := old ++ new.take k.sbLen, retire := c.retire.take k.retLen, ckpts := [],
    tickets := c.tickets.filter (fun p => k.tick.contains p.1), owait := false, block := k.block, blockPa := k.blockPa,
    entry := k.entry, region := k.region, rix := k.rix, entered := c.entered.take k.entLen, irqAge := c.irqAge - gone.length,
    wasted := c.wasted ++ wastedPaces gone,
    micro := { c.micro with
      ghist := k.ghist, ras := k.ras, readMarks := c.micro.readMarks.take k.markLen,
      syncMarks := c.micro.syncMarks.filter k.syncs.contains, fetchBuf := k.fetch } }

/-- BRANCH_MISPREDICT_UNDO (05 R145). -/
def execBranchMispredictUndo (vc : Vc) (s : State) : Out :=
  match (s.core vc).ckpts with
  | [] => .next s
  | k :: _ => whenTrue (coreOn s vc) s ((discardFills s vc k.fillLen).updCore vc (fun c => undoBranch c k))

/-- An entry may be made at the boundary: no DEVICE access is under way, and no part of a frame has been read from a device (02 R56, R59). -/
def atBoundary (s : State) (vc : Vc) : Bool :=
  let c := s.core vc
  coreOn s vc && c.wait.isNone && c.frame.isEmpty && canCommit c

/-- An element of a list that a free value picks. -/
def pickOf (f : W64) (l : List Nat) : Nat := (l[f.toNat % l.length]?).getD 0

/-- Enters an interrupt or a notice: everything that has executed commits, a suspended vCPU resumes, EPC is the first instruction not executed (02 R51, R52, R56). EADDR is what the exception gives. -/
def enterAsync (s : State) (vc : Vc) (x : Exc) (kind : Nat) : State :=
  let s1 := commitCore s vc
  let s2 := if (s1.core vc).wfe then endSuspend s1 vc else s1
  advancePavs (enterExc s2 vc x (s2.core vc).arch.pc kind)

/-- The interrupt with an ID: class 0x20, ESYN[31:16] the ID, EADDR a value that the manual does not give (02 R48). -/
def enterIrq (s : State) (vc : Vc) (id : Nat) (lvl : Level) : State :=
  let (f, s1) := s.free
  enterAsync s1 vc { cls := 0x20, detail := BitVec.ofNat 26 (id * 1024), addr := f, lvl := lvl } 1

/-- A physical interrupt is taken: which of several comes first the manual leaves open; it is pending no more, but for the stop interrupt of a pavilion (02 R54, R58; 10 R309). -/
def takePhys (s : State) (vc : Vc) : State :=
  let (f, s1) := s.free
  let id := pickOf f (physPending s (s.core vc))
  enterIrq (s1.updCore vc (fun c => { c with phys := c.phys.filter (· != id) })) vc id .h

/-- The lowest pending virtual interrupt is taken, and its bit clears (10 R315). -/
def takeVirt (s : State) (vc : Vc) : State :=
  match (s.core vc).latch with
  | [] => s
  | id :: t => enterIrq (s.updCore vc (fun c => { c with latch := t })) vc id .s

/-- INTERRUPT_ENTRY (02 R54, R58). -/
def execInterruptEntry (vc : Vc) (s : State) : Out :=
  let c := s.core vc
  if atBoundary s vc then
    if physTakes s c then .next (takePhys s vc) else if virtTakes c then .next (takeVirt s vc) else .next s
  else .next s

/-- Class 0x21 with the fault class and SEQ of a notice; EADDR is zero (15 R472). -/
def noticeExc (n : Notice) (lvl : Level) : Exc :=
  { cls := 0x21, detail := n.cls.setWidth 26 ||| ((n.seq.setWidth 18).setWidth 26 <<< 8), addr := 0, lvl := lvl }

/-- A notice to H can be taken; one to S (15 R472; 02 R54). -/
def noticeHTakes (c : Core) : Bool := c.noticeH.isSome && (c.spec.level != .h || c.spec.ieH)
def noticeSTakes (c : Core) : Bool :=
  c.noticeS.isSome && (match c.spec.level with
    | .u => true
    | .s => c.spec.ieS
    | .h => false)

/-- The notice to H is entered. -/
def takeNoticeH (s : State) (vc : Vc) (n : Notice) : State :=
  enterAsync (s.updCore vc (fun c => { c with noticeH := none })) vc (noticeExc n .h) 2

/-- The notice to S is entered. -/
def takeNoticeS (s : State) (vc : Vc) (n : Notice) : State :=
  enterAsync (s.updCore vc (fun c => { c with noticeS := none })) vc (noticeExc n .s) 2

/-- NOTICE_ENTRY (15 R472): interrupts come first (02 R58); the order of two notices is open. -/
def execNoticeEntry (vc : Vc) (s : State) : Out :=
  let c := s.core vc
  if atBoundary s vc && !physTakes s c && !virtTakes c then
    let (f, s1) := s.free
    let h := if noticeHTakes c then c.noticeH else none
    let g := if noticeSTakes c then c.noticeS else none
    .next (match h, g with
      | some n, some m => if f.getLsbD 0 then takeNoticeH s1 vc n else takeNoticeS s1 vc m
      | some n, none => takeNoticeH s vc n
      | none, some m => takeNoticeS s vc m
      | none, none => s)
  else .next s

/-- WFE_RETURN_WITHOUT_EVENT (02 R60). -/
def execWfeReturnWithoutEvent (vc : Vc) (s : State) : Out :=
  whenTrue (coreOn s vc && (s.core vc).wfe) s (endSuspend s vc)

/-- Every access translated with a removed entry has been performed: no committed store is buffered anywhere, nor on its way to another observer, no DEVICE access is under way, and no posted write of a session or a port waits (07 R220, R224). -/
def storesOut (s : State) : Bool :=
  s.allCores.all (fun v => !(s.core v).sb.any (·.committed) && (s.core v).wait.isNone && (s.core v).devStores == 0
    && !(s.cluster (s.clusterOf v)).l2.any (fun p => p.2.unperf == some v))
    && s.arb.inbuf.isEmpty && s.ports.all (fun p => p.2.links.all (fun k => k.2.rx.isEmpty))

/-- The pavilions in whose context a TLBI removes entries. -/
def tlbiReach (t : Tlbi) (pn : Pav) : Bool := tlbiInbound t && (t.op == .all || t.ctx == pn.setWidth 16)

/-- TLBI_COMPLETION (07 R220, R224): the core's oldest TLBI completes at every holder; an inbound cycle past its address phase begins its translation again. -/
def execTlbiCompletion (vc : Vc) (s : State) : Out :=
  match (s.core vc).tlbis with
  | [] => .next s
  | t :: rest =>
    let s1 := drainInbound s
    whenTrue (coreOn s vc && storesOut s1) s
      (rewalkPhase (tlbiEverywhere (s1.updCore vc (fun c => { c with tlbis := rest })) t) (tlbiReach t))

/-- The key of the region that a hot block asks for, with the IPA and the U bit of its page; none where the page no longer translates to the block's address (05 R124; 07 R216). Where stage 1 is off no entry gives a U bit: DESIGN CHOICE, the level that asks stands for it, so that the region is entered at that level only (log entry 12). -/
def requestFor (s : State) (vc : Vc) (h : HotEntry) : Option (XlateReq × State) :=
  let a := s.regs vc
  match xlate s vc h.va .exec true with
  | (some (.ok x), s1) =>
    if x.pa = h.pa.toNat then
      let c := s1.core vc
      some ({
        vc := vc, pa := h.pa, ipaPage := x.entry.ipaPage, u := if x.entry.s1on then x.entry.u else a.level == .u,
        pred := c.micro.pred, ghist := c.micro.ghist,
        key := { ctx := h.ctx, asid := x.entry.asid, va := h.va, page := BitVec.ofNat 36 (x.pa / 4096), fstyle := h.fstyle } }, s1)
    else none
  | _ => none

/-- A translation request goes to the cluster's translator; where its queue of 16 is full, it is refused (05 R126, R129). -/
def sendRequest (s : State) (vc : Vc) (r : XlateReq) : State :=
  let s1 := queueEvent s vc 0x15
  match translatorOf s1 (s1.clusterOf vc) with
  | none => forgetReq s1 r
  | some k =>
    let d := s1.cluster k
    if d.xlq.length < 16 then
      (s1.setCluster k { d with xlq := d.xlq ++ [r] }).updCore vc (fun c => { c with micro := { c.micro with
        hot := c.micro.hot.map (fun h =>
          if h.pa == r.pa && h.ctx == r.key.ctx && h.fstyle == r.key.fstyle then { h with sent := true } else h) } })
    else forgetReq s1 r

/-- The word belongs to the SYS group (03 R96). -/
def opSys : CoreOp → Bool
  | .sync | .syncD | .syncT | .syncI | .wfe | .eret | .trapS _ | .trapH _ | .trapB _ | .mfs .. | .mts ..
  | .tlbiVa _ | .tlbiVaa _ | .tlbiAsid _ | .tlbiIpa _ | .tlbiVmid _ | .tlbiAll => true
  | _ => false

/-- The predicted direction of a conditional branch at an address, and the history past it (05 R128, R149). -/
def reqGuess (r : XlateReq) (pc : W64) (g : BitVec 15) : Bool × BitVec 15 :=
  let b := decide (2#2 ≤ mget r.pred (predIndex pc g).toNat 1)
  (b, (g <<< 1) ||| (BitVec.ofBool b).setWidth 15)

/-- Where translation goes after an operation; none: the region ends with it. A branch back to the region's entry makes a loop, and the way out of it follows; behind a jump back to it nothing does (05 R128). -/
def follow (r : XlateReq) (op : CoreOp) (pc : W64) (g : BitVec 15) : Option (W64 × BitVec 15) :=
  let cond (t : W64) : Option (W64 × BitVec 15) :=
    let (b, g1) := reqGuess r pc g
    some (if b && t != r.key.va then t else pc + 4, g1)
  match op with
  | .br _ _ _ off => cond (relTarget pc off)
  | .bri _ _ _ off => cond (relTarget pc off)
  | .fb _ off => cond (relTarget pc off)
  | .j off => if relTarget pc off == r.key.va then none else some (relTarget pc off, g)
  | .call _ off => some (relTarget pc off, g)
  | .callr .. | .jr .. | .ret => none
  | _ => if opSys op then none else some (pc + 4, g)

/-- A word that decodes and is illegal at the level that meets it (02 R34; 03 R95, R96, R98). -/
def illegalHere (s : State) (a : Arch) (w : W32) (op : CoreOp) : Bool :=
  let isIll (x : Option Exc) : Bool := match x with
    | some e => e.cls == 0x01
    | none => false
  match op with
  | .eret => a.level == .u
  | .trapS _ => a.level == .h
  | .trapH _ => a.level == .u
  | .mfs _ n => isIll (sysDenied a w n)
  | .mts _ n => isIll (sysDenied a w n)
  | .tlbiVa _ | .tlbiVaa _ | .tlbiAsid _ => !tlbiLevel a false
  | .tlbiIpa _ | .tlbiVmid _ | .tlbiAll => !tlbiLevel a true
  | .folly i .. => !follyAllowed s a i.toNat
  | _ => false

/-- An instruction that the translator has read: its address, its operation, the image of its folly index. -/
structure TInstr where
  pc : W64
  op : CoreOp
  image : List Byte
  deriving DecidableEq, Repr

/-- The registers that decide what is illegal in a region: the level that enters it and its pavilion (05 R124; 07 R216). -/
def keyArch (r : XlateReq) : Arch :=
  { level := if r.key.ctx = hypClass then .h else if r.u then .u else .s, tr := { vmid := r.key.ctx.setWidth 8 } }

/-- The instructions of a region from an address on: at most `f`, on one page, up to an illegal word (05 R128; 03 R99). A loop inside the region stands in it once for each turn that the predictor gives. `acc` holds those before it. -/
def gather (s : State) (r : XlateReq) : Nat → W64 → BitVec 15 → List TInstr → List TInstr
  | 0, _, _, acc => acc
  | f + 1, pc, g, acc =>
    if pc.extractLsb' 12 52 != r.key.va.extractLsb' 12 52 then acc
    else
      let w : W32 := BitVec.ofNat 32 (s.peek (r.key.page.toNat * 4096 + pc.toNat % 4096) 4)
      match decodeCore r.key.fstyle w with
      | none => acc
      | some op =>
        if illegalHere s (keyArch r) w op then acc
        else
          let img := match op with
            | .folly i .. => ((mget? s.gate.folly i.toNat).map (·.image)).getD []
            | _ => []
          let acc1 := acc ++ [{ pc := pc, op := op, image := img }]
          match follow r op pc g with
          | none => acc1
          | some (t, g1) => gather s r f t g1 acc1

/-- The slot of an operation in its course (05 R133). -/
def slotFor : CoreOp → CSlot
  | .ld .. | .ldx .. | .st .. | .stx .. | .atom .. => .m0
  | .fp .. | .fma .. => .f0
  | .br .. | .bri .. | .fb .. | .j _ | .call .. | .callr .. | .jr _ | .ret => .i1
  | _ => .i0

/-- The operation is a control transfer. -/
def opJumps (op : CoreOp) : Bool := slotFor op == .i1

/-- The operation is a branch or jump to the region's entry (05 R128). -/
def opLoops (va : W64) (x : TInstr) : Bool :=
  match x.op with
  | .br _ _ _ off => relTarget x.pc off == va
  | .bri _ _ _ off => relTarget x.pc off == va
  | .fb _ off => relTarget x.pc off == va
  | .j off => relTarget x.pc off == va
  | _ => false

/-- Commit points stand before and behind an operation of the SYS group, an atomic and a FOLLY word (05 R143; 06 R167). -/
def opIsolated : CoreOp → Bool
  | .atom .. | .folly .. => true
  | op => opSys op

/-- Store operations of an instruction (05 R143). -/
def opStores : CoreOp → Nat
  | .st .. | .stx .. => 1
  | .call pm _ => 2 + 2 * (pairsOf pm).length
  | .callr _ pm => 2 + 2 * (pairsOf pm).length
  | _ => 0

/-- What a long operation writes: its register, and whether it writes CF (05 R134). The loads of a RET write the registers that the frame names, and nothing of the region follows them. -/
def opLong : CoreOp → Option (Dest × Bool)
  | .muldiv sf _ d _ _ => some (.g d, sf)
  | .ld fn d _ _ => some (if fn == .flds || fn == .fldd then .f d else .g d, false)
  | .ldx fn d _ _ _ => some (if fn == .flds || fn == .fldd then .f d else .g d, false)
  | .fp sf _ fn _ d _ _ => some (if fpToG fn then .g d else .f d, sf)
  | .fma _ _ d _ _ _ => some (.f d, false)
  | .atom _ _ _ d _ _ => some (.g d, false)
  | .ret => some (.none, false)
  | _ => none

/-- The tickets among those given out that an operation must await: those of the registers and of CF that it uses, and every one before an operation that finds all complete (05 R135, R139). -/
def awaitFor (op : CoreOp) (out : List (Nat × Dest × Bool)) : List Nat :=
  (out.filter (fun t => opAll op || opIsolated op || (t.2.1 != .none && t.2.1 != .g 0 && (opRegs op).contains t.2.1)
    || (opCf op && t.2.2))).map (·.1)

/-- The mask with the bits of a list. -/
def maskOf (l : List Nat) : BitVec 16 := l.foldl (fun m i => m ||| (1#16 <<< i)) 0

/-- The courses of some instructions: one each, with slot, ticket and AWAIT as the course rules ask, the first awaiting every ticket, and with the commit points of R143: behind every control transfer, around SYS, atomics, FOLLY words and reported accesses, before more than 24 store operations, and at the end (05 R130, R133, R137, R139, R143, R147, R157). `reps`: what has been reported of the region; `n`: tickets given out; `st`: store operations since the last commit point. -/
def layOut (va : W64) (reps : List (W64 × Bool)) : List TInstr → Nat → Nat → List (Nat × Dest × Bool) → List RCourse
  | [], _, _, _ => []
  | x :: t, n, st, out =>
    let alone (y : TInstr) : Bool := reps.contains (y.pc, false)
    let stores := st + opStores x.op
    let commit := opJumps x.op || opIsolated x.op || alone x || reps.contains (x.pc, true)
      || (match t with
        | [] => true
        | y :: _ => opIsolated y.op || alone y || decide (24 < stores + opStores y.op))
    let k := n % 16
    let need := awaitFor x.op out
    let wait := if (opLong x.op).isSome && out.any (fun o => o.1 == k) then k :: need else need
    let left := out.filter (fun o => !wait.contains o.1)
    let out1 := match opLong x.op with
      | none => left
      | some d => left ++ [(k, d)]
    { pc := x.pc, slot := slotFor x.op, await := maskOf wait, ticket := (opLong x.op).map (fun _ => BitVec.ofNat 4 k),
      commit := commit, spec := 32, alone := alone x, loop := opLoops va x, image := x.image }
      :: layOut va reps t (if (opLong x.op).isSome then n + 1 else n) (if commit then 0 else stores) out1

/-- The folly indices among some instructions (05 R132). -/
def follyBits (l : List TInstr) : BitVec 16 :=
  l.foldl (fun m x => match x.op with
    | .folly i .. => m ||| (1#16 <<< i.toNat)
    | _ => m) 0

/-- A request with the folly indices on its path. -/
def withFolly (s : State) (r : XlateReq) : XlateReq := { r with folly := follyBits (gather s r 64 r.key.va r.ghist []) }

/-- TRANSLATION_REQUEST (05 R126, R127): a block of the context in force whose count has reached the threshold. -/
def execTranslationRequest (vc : Vc) (s : State) : Out :=
  let c := s.core vc
  let mine (h : HotEntry) : Bool := h.due && !h.sent && h.ctx == ctxOf c.spec && h.fstyle == s.fStyleOf c.spec
  if coreOn s vc && !uncommitted c then
    match c.micro.hot.find? mine with
    | none => .next s
    | some h => match requestFor s vc h with
      | none => .next s
      | some (r, s1) => .next (sendRequest s1 vc (withFolly s1 r))
  else .next s

/-- The region that a translator builds for a request, `reps` being what has been reported of it (05 R128, R130). Its first course awaits every ticket, for a region may be entered with some outstanding. -/
def buildRegion (s : State) (r : XlateReq) (reps : List (W64 × Bool)) : Region :=
  let l := gather s r 64 r.key.va r.ghist []
  let cs := match layOut r.key.va reps l 0 0 [] with
    | [] => []
    | x :: t => { x with await := BitVec.allOnes 16 } :: t
  { key := r.key, ipaPage := r.ipaPage, courses := cs, u := r.u, folly := follyBits l }

/-- Courses of the course store that a course of a region takes: a FOLLY word takes those of its sequence (06 R187). -/
def courseSize (x : RCourse) : Nat := if x.image.isEmpty then 1 else (x.image.length - 64) / 64

/-- Courses that some regions take (05 R131; log entry 12). -/
def coursesIn (l : List Region) : Nat := (l.flatMap (fun r => r.courses.map courseSize)).foldl (· + ·) 0

/-- Evicts the least recently entered regions until n more courses fit in the 7,168 that the folly table leaves (05 R131; 06 R168). -/
def evictFor (n : Nat) : List Region → List Region
  | [] => []
  | r :: t => if coursesIn (r :: t) + n ≤ 7168 then r :: t else evictFor n t

/-- A region is installed: its hot entry is freed, and the blocks of evicted regions count from zero (05 R126, R131). A region that has not been entered yet ranks as the most recently entered: DESIGN CHOICE (log entry 90). -/
def installRegion (c : Core) (r : XlateReq) (g : Region) : Core :=
  let rest := c.micro.regions.filter (fun x => x.key != g.key)
  let kept := evictFor (coursesIn [g]) rest
  { c with micro := { c.micro with
    regions := kept ++ [g],
    hot := coolBlocks (rest.take (rest.length - kept.length)) (c.micro.hot.filter (fun h =>
      !(h.pa == r.pa && h.ctx == r.key.ctx && h.fstyle == r.key.fstyle))) } }

/-- The translator takes a request, or a finished region, of a core from its lists. -/
def takeXlate (d : Cluster) (r : XlateReq) : Cluster := { d with xlq := d.xlq.erase r, ready := d.ready.erase r }

/-- What has been reported to a translator of the region of a key (05 R147, R157). -/
def reportsOf (d : Cluster) (k : RegionKey) : List (W64 × Bool) := (d.reports.filter (fun x => x.1 == k)).map (·.2)

/-- The region of a request: one of the translator's 64 most recent with the same key, else a new one, for which the translator reads the page; none: the read has not ended (05 R129, R159). -/
def regionFor (s : State) (k : Nat) (r : XlateReq) : Option (Region × State) :=
  match (s.cluster k).recent.find? (fun g => g.key == r.key && g.u == r.u) with
  | some g => some (g, s)
  | none => (readCode s k (lineOf r.pa.toNat) none r.key.ctx).map (fun t =>
      (buildRegion t r (reportsOf (t.cluster k) r.key), t))

/-- A finished region is installed at a block entry; a request for which no instruction translates is given up (05 R126, R129). -/
def finishRegion (s : State) (vc : Vc) (k : Nat) (r : XlateReq) : State :=
  match regionFor s k r with
  | none => s
  | some (g, s1) =>
    let d := takeXlate (s1.cluster k) r
    if g.courses.isEmpty then forgetReq (s1.setCluster k d) r
    else (s1.setCluster k { d with recent := (g :: d.recent.filter (fun x => x.key != g.key)).take 64 }).updCore vc
      (fun c => installRegion c r g)

/-- REGION_INSTALL (05 R129, R131): the translator finishes the core's oldest request; at a block entry the core installs the region, elsewhere the region waits for one. -/
def execRegionInstall (vc : Vc) (s : State) : Out :=
  let c := s.core vc
  match translatorOf s (s.clusterOf vc) with
  | none => .next s
  | some k =>
    let d := s.cluster k
    let at_ := c.entry || (c.region.isSome && !insideRegion c)
    if coreOn s vc then
      match d.ready.find? (fun r => r.vc == vc), d.xlq.find? (fun r => r.vc == vc) with
      | some r, _ => .next (if at_ then finishRegion s vc k r else s)
      | none, some r =>
        .next (if at_ then finishRegion s vc k r
          else s.setCluster k { d with xlq := d.xlq.erase r, ready := d.ready ++ [r] })
      | none, none => .next s
    else .next s

/-- The event that counter n counts; none for PMU_PACE and for a counter of carries (17 R505, R507, R508). -/
def countedEvent (p : Pmu) (n : Nat) : Option (BitVec 8) :=
  if n < 6 ∧ pmuChained p n = false then some ((pmuCfg p n).setWidth 8) else none

/-- Counter n counts what comes with a pace in which no course issues: the pace, its six slots, or why the next course waits (17 R506, R507, R513). -/
def countsPaces (p : Pmu) (n : Nat) : Bool :=
  n == 6 || (match countedEvent p n with
    | some e => decide (0x22 ≤ e.toNat ∧ e.toNat ≤ 0x26)
    | none => false)

/-- What such a pace adds to counter n (17 R513). -/
def paceAdds (p : Pmu) (n : Nat) : Nat := if countedEvent p n = some 0x22#8 ∨ countedEvent p n = some 0x23#8 then 6 else 1

/-- A pace in which no course issues: its six slots are front-starved or back-starved; `why` is the event of a course that waits (17 R513). -/
def idlePace (s : State) (vc : Vc) (back : Bool) (why : Option (BitVec 8)) : State :=
  let c := s.core vc
  let s1 := pmuPace s vc c.spec.level c.arch.pc 0 (if back then 0x23 else 0x22)
  match why with
  | none => s1
  | some e => pmuEvent s1 vc e c.spec.level c.arch.pc false

/-- The pace that makes counter n overflow: of its kind where the counter tells, else of a kind that is free (17 R509, R513; log entry 29). -/
def overflowPace (s : State) (vc : Vc) (n : Nat) : State :=
  match countedEvent (s.core vc).pmu n with
  | some e => if e = 0x22#8 then idlePace s vc false none else if e = 0x23#8 then idlePace s vc true none else idlePace s vc true (some e)
  | none => idlePace s.free.2 vc (s.free.1.getLsbD 0) none

/-- PMU_COUNTER_OVERFLOW (17 R509): a pace in which no course issues takes a counter past all ones. The wraps at a commit come with the commit. -/
def execPmuCounterOverflow (vc : Vc) (n : BitVec 3) (s : State) : Out :=
  let c := s.core vc
  let k := n.toNat
  whenTrue (coreOn s vc && !c.wfe && pmuRuns c.pmu && countsPaces c.pmu k && pmuAdmits c.pmu k c.spec.level
      && decide (2 ^ 64 ≤ (pmuCnt c.pmu k).toNat + paceAdds c.pmu k)) s
    (overflowPace s vc k)

/-- ILLEGAL_INSTRUCTION (03 R98; 02 R48): class 0x01 with the word in EADDR, whatever makes it illegal. -/
def execIllegalInstruction (vc : Vc) (w : W32) (s : State) : Out :=
  .next (instrRow s vc w (illegalHere s (s.regs vc) w) (fun _ t => raise t vc (excIllegal (t.regs vc) w)))

end Sys2Proof.Machine
end

