-- ==== Sys2Proof/Machine/FaultMem.lean ====
section
/-! DEFINITION. The memory controllers and the recoveries of the memory side: reads and writes of slots, the fill, scrubbing, lost channels, home slices, fabric links (08 R234, R243; 09 R273 to R298; 15 R456, R464, R465, R470). -/

namespace Sys2Proof.Machine

/-- The device enters REPAIR for a recovery, from SERVICE alone: in ASSEMBLY the recovery runs without a change of mode (01 R24; 14 R431, R440). The recovery runs whole in its own step; the idle step ends the episode (log entry 76). -/
def enterRepair (s : State) : State := if s.mode == .service then { s with dev := { s.dev with mode := .repair } } else s

/-- A class is charged for a write: two lines in PARITY mode, one in OPEN (10 R322). -/
def chargeWrite (s : State) (c : ClassId) : State :=
  let q := s.qosOf c
  if c = devClass then s else s.setQos c { q with memUsed := q.memUsed + (if s.dram.mode == .parity then 2 else 1) }

/-- The class recorded with a line of the home's write-back buffer (08 R237, R240; 10 R322). -/
def wbClass (h : Home) (l : LineNo) : ClassId := mget h.wcls l.toNat hypClass

/-- The home's write-back buffer gives up a line whose value is in DRAM (09 R280). -/
def wbDone (s : State) (l : LineNo) (v : Line) : State :=
  let k := s.homeNo l
  let h := s.home k
  match mget? h.wbuf l.toNat with
  | none => s
  | some w =>
    if w = v then
      let sc := match mget? h.sc l.toNat with
        | some x => mput h.sc l.toNat { x with dirty := false }
        | none => h.sc
      setWbuf (s.setHome k { h with sc := sc }) k l none
    else s

/-- A write of a slice's write-back buffer is replayed to DRAM, in place of any gathered for its line (09 R294 step 4). -/
def replayWrite (s : State) (l : LineNo) (v : Line) : State :=
  let c := wbClass (s.home (s.homeNo l)) l
  let s1 := countWrite (chargeWrite (uncoreEvent s (16 + s.stopOf (homeAgent (s.homeNo l))) 1 c) c) l v c
  wbDone { s1 with dram := writeAfter s1.dram l.toNat v } l v

/-- Step 4 of a switch-over: every write that a write-back buffer holds is replayed, but for one of a row that the fill has not passed (09 R293, R294). -/
def replayBuffers (s : State) : State :=
  (List.range 8).foldl (fun t k =>
    ((t.home k).wbuf.filter (fun w => rowFilled t.dram (BitVec.ofNat 42 w.1))).foldl
      (fun u w => replayWrite u (BitVec.ofNat 42 w.1) w.2) t) s

/-- A channel is lost: switch-over in PARITY mode; not hidden in OPEN mode or beside another lost channel (09 R294, R296, R298). A channel lost once more within 24 hours than the policy retrains it is left out (09 R297). -/
def loseChannel (s0 : State) (c : Oct) : State :=
  let e : LogIn := { cls := 0x0F, action := 4, ukind := 6, uindex := c.toNat, stallMax := 400000 }
  let other := match s0.dram.lost with
    | some k => k != c
    | none => false
  if s0.dram.mode == .open_ || other then enterBelvedere s0 { e with cls := 0x22 } none
  else
    let s := meetCommits (awake s0)
    let d := s.dram
    let day := d.losses.filter (fun r => r.1 == c && decide (s.qz.time < r.2 + 86400000000000))
    let out := s.policy 3 % 2 == 1 && decide (s.policy 3 / 256 % 256 ≤ day.length)
    enterRepair (recordFault (replayBuffers { s with dram := { d with
      lost := some c, rebuild := none, losses := (c, s.qz.time) :: day ++ d.losses.filter (fun r => r.1 != c)
      leftOut := if out then d.leftOut ||| bitOf c.toNat else d.leftOut, due := d.due.filter (· != c) } }) e none)

/-- A loss that a count has brought about: while a Gatehouse restart runs it waits for the restart's end (15 R468). -/
def lossDue (s : State) (c : Oct) : State :=
  if s.gate.restart then
    if s.dram.due.contains c then s else { s with dram := { s.dram with due := s.dram.due ++ [c] } }
  else loseChannel s c

/-- The losses that have waited are taken up (15 R468, R478). -/
def takeLosses (s : State) : State :=
  if s.gate.restart || !recovers s || s.mode == .rest then s
  else s.dram.due.foldl (fun t c => if recovers t then loseChannel t c else t) { s with dram := { s.dram with due := [] } }

/-- A channel's PHY or controller fails; one that is lost already loses nothing more (09 R294). -/
def channelFault (s : State) (c : Oct) : State := if s.dram.lost == some c && s.dram.rebuild.isNone then s else loseChannel s c

/-- CHANNEL_SWITCHOVER (09 R294): a channel's PHY or controller fails a check, or an access on it ends without a clean response. -/
def execChannelSwitchover (c : Oct) (s : State) : Out :=
  whenTrue (recovers s && !s.gate.restart) s (channelFault s c)

/-- A burst with a correctable error: counted; the second of one device reports it failed, and too many failed devices lose the channel (09 R275, R294). -/
def burstCorrected (s : State) (c : Oct) (dev : BitVec 10) : State :=
  let s1 := uncoreEvent (recordCorrected s 0x0D 7 dev.toNat) (8 + c.toNat) 0x0A devClass
  let again := decide (1 < (s1.unit 7 dev.toNat).corrected.toNat)
  if again && !s1.dram.failedDevs.contains dev then
    let ds := s1.dram.failedDevs ++ [dev]
    let s2 := unitState { s1 with dram := { s1.dram with failedDevs := ds } } 7 dev.toNat 2
    if devicesOver s2 c then lossDue s2 c else s2
  else s1

/-- An uncorrectable burst: rebuilt from its row and written back, or not hidden; too many within an hour lose the channel (09 R275, R294, R296). -/
def burstLost (s : State) (c : Oct) (r : Nat) : State :=
  let e : LogIn := { cls := 0x0E, action := 3, ukind := 6, uindex := c.toNat, stallMax := 2000 }
  if s.dram.mode == .open_ || rowLost s.dram r then enterBelvedere s { e with cls := 0x22 } none
  else
    let bs := (c, s.qz.time) :: s.dram.bursts.filter (fun b => decide (s.qz.time < b.2 + 3600000000000))
    let s0 := awake s
    let s1 := recordFault { s0 with dram := { rebuildRow s0.dram c.toNat r with bursts := bs } } e none
    if burstsOver s1 c then lossDue s1 c else s1

/-- What follows from the burst that an access on a slot reads (09 R274, R275, R296). -/
def burstResult (s : State) (own : Slot) (b : Burst) : State :=
  let sl := burstSlot s.dram own b
  match eccAt s.dram sl b with
  | .clean => s
  | .corrected i => burstCorrected s (BitVec.ofNat 3 sl.c) (deviceIndex s.dram sl i)
  | .uncorrectable => burstLost s (BitVec.ofNat 3 sl.c) sl.r

/-- MRD (09 R277; 08 R245; 10 R322): the controller reads the line and sends it to its home. -/
def execMrd (line : LineNo) (burst : Burst) (s : State) : Out :=
  if s.dev.stopped || !rowFilled s.dram line || !mrdDue s line then .next s
  else
    let sl := slotOf s.dram.mode line.toNat
    match takeMsg (fun m => m == .mrd line) s.fab.net with
    | none => .next s
    | some (p, rest) =>
      let s1 := burstResult s sl burst
      .next (if s1.mode == .belvedere then s1 else onMrd (arrive s1 p rest) line)

/-- The group of a row takes a line's write; a later write of the same line replaces it. -/
def joinGroup (g : SMap (List (LineNo × Line))) (l : LineNo) (v : Line) : SMap (List (LineNo × Line)) :=
  let r := l.toNat / 7
  mput g r ((mget g r []).filter (fun p => p.1 != l) ++ [(l, v)])

/-- MWR (08 R245; 09 R280, R281, R283): the home sends a line of its write-back buffer, which its stop counts as a request; in PARITY mode the parity controller of its row gathers it, in OPEN mode it is written at once. -/
def execMwr (line : LineNo) (s : State) : Out :=
  let h := s.home (s.homeNo line)
  match mget? h.wbuf line.toNat with
  | none => .next s
  | some v =>
    let c := wbClass h line
    if s.dev.stopped || !rowFilled s.dram line || !rankDue s (readChannel s.dram (slotOf s.dram.mode line.toNat)) (memRank s c) then .next s
    else
      let s1 := countWrite (chargeWrite (uncoreEvent s (16 + s.stopOf (homeAgent (s.homeNo line))) 1 c) c) line v c
      .next (match s1.dram.mode with
        | .open_ => wbDone { s1 with dram := dramWrite s1.dram line.toNat v } line v
        | .parity => { s1 with dram := { s1.dram with groups := joinGroup s1.dram.groups line v } })

/-- The slots that a group's method reads: by update its lines and the parity slot, by recompute the row's other data lines (09 R281, R295). -/
def groupReads (d : Dram) (r : Nat) (ws : List (Nat × Line)) : List Slot :=
  if byUpdate d r ws then paritySlot r :: ws.map (fun w => slotOf .parity w.1)
  else ((rowLines r).filter (fun l => !ws.any (fun w => w.1 == l))).map (slotOf .parity)

/-- The parity of a row is written: its slot is not lost, or is being rebuilt (09 R295, R297). -/
def parityKept (d : Dram) (r : Nat) : Bool := !slotLost d (paritySlot r) || d.rebuild.isSome

/-- The parity controller serves a row's group; a row whose parity slot is lost takes the data alone (09 R280, R281, R295). -/
def serveGroup (s : State) (r : Nat) (ws : List (LineNo × Line)) : State :=
  let qs := ws.map (fun w => (w.1.toNat, w.2))
  let d := writeGroup { s.dram with groups := mdel s.dram.groups r } r qs
  let u := 8 + parityChannel r
  let s1 : State := { s with dram := d }
  let s2 := if parityKept s.dram r then
      uncoreEvent (uncoreEvent s1 u 9 devClass) u (if byUpdate s.dram r qs then 0x0B else 0x0C) devClass
    else s1
  ws.foldl (fun t w => wbDone t w.1 w.2) s2

/-- PARITY_WRITE_GROUP (09 R275, R280, R281): the parity controller serves the row's group, by update for one or two lines, else by recompute, once what the bursts that it reads hold is met. -/
def execParityWriteGroup (g : RowBurst) (s : State) : Out :=
  let r := g.row.toNat
  match mget? s.dram.groups r with
  | none => .next s
  | some ws =>
    if s.dev.stopped then .next s
    else
      let sl : Slot := { c := g.burst.chan.toNat, r := r }
      let read := parityKept s.dram r && (groupReads s.dram r (ws.map (fun w => (w.1.toNat, w.2)))).contains sl
      let s1 := if read then burstResult s sl g.burst else s
      .next (if s1.mode == .belvedere || (mget? s1.dram.groups r).isNone then s1 else serveGroup s1 r ws)

/-- An instruction is loaded: its code, the code that acts, the data register, and what it does to the balls; a slot that an earlier one still waits for is wanted no more. -/
def jtagLoad (s : State) (code act : BitVec 8) (dr : BitVec 640) (drives highz : Bool) : State :=
  { s with jtag := { s.jtag with ir := code, act := act, dr := dr, want := none, drives := drives, highz := highz } }

/-- The raw slot, its tag bit above and the correction flag above that; the flag is a free value, for the model has no burst errors of its own (09 R289; 18 R539; the places are DESIGN CHOICE, log entry 53). -/
def dbgRead (s : State) (c : Oct) (r : Nat) : State :=
  let sl : Slot := { c := c.toNat, r := r }
  let (f, s1) := s.free
  let raw : BitVec 640 := (rawSlot s.dram.cells sl).setWidth 640
  let tag : BitVec 640 := if slotTag s.dram sl then 1#640 <<< 512 else 0
  let corr : BitVec 640 := if f.getLsbD 0 then 1#640 <<< 513 else 0
  jtagLoad s1 0x40 0x40 (raw ||| tag ||| corr) false false

/-- DBG_MEM is loaded and wants a slot (18 R539). -/
def dbgWant (s : State) (c : Oct) (r : Nat) : State :=
  { s with jtag := { s.jtag with ir := 0x40, act := 0x40, want := some (c, r), drives := false, highz := false } }

/-- The slot that DBG_MEM wants is read once the fill has passed its row (09 R293). -/
def dbgTake (s : State) : State :=
  match s.jtag.want with
  | some (c, r) => if r < s.dram.fill then dbgRead s c r else s
  | none => s

/-- DRAM_FILL (09 R293): the fill passes some more rows, and the accesses to them go on. -/
def execDramFill (rows : BitVec 32) (s : State) : Out :=
  let filling := (s.mode == .assembly || s.mode == .service || s.mode == .repair) && !s.dev.stopped
  whenTrue filling s
    (dbgTake (keepPump { s with dram := { s.dram with fill := min (s.dram.fill + rows.toNat) (slotsPerChannel s.dram) } }))

/-- DRAM_REFRESH (09 R273): `hot` is what MR4 reports, above 85 °C. -/
def execDramRefresh (c : Oct) (hot : Bool) (s : State) : Out :=
  let d := s.dram
  let h := if hot then d.hot ||| bitOf c.toNat else d.hot &&& ~~~ (bitOf c.toNat)
  whenTrue (!s.dev.porst && !s.dev.stopped && !d.selfRefresh && s.mode != .cold) s
    { s with dram := { d with refreshes := d.refreshes + 1, hot := h } }

/-- DQS_DRIFT_TRACK (09 R291). -/
def execDqsDriftTrack (c : Oct) (s : State) : Out :=
  whenTrue (!s.dev.porst && !s.dev.stopped && !s.dram.selfRefresh && s.mode != .cold && s.dram.lost != some c) s
    { s with dram := { s.dram with drifts := s.dram.drifts + 1 } }

/-- The parity slot of a row holds the parity of its data (09 R277). -/
def parityOk (d : Dram) (r : Nat) : Bool := rawSlot d.cells { c := parityChannel r, r := r } == rowParity d r

/-- A row whose parity disagrees with its data is logged, under a class that the manual does not name, a free value, and its parity is rewritten from the data (09 R276). -/
def repairParity (s : State) (r : Nat) : State :=
  let (f, s1) := s.free
  let d := putSlot s1.dram { c := parityChannel r, r := r } (rowParity s1.dram r)
  recordFault { s1 with dram := d } { cls := f.setWidth 8, action := 0, ukind := 6, uindex := parityChannel r } none

/-- DRAM_SCRUB (09 R276): the controller reads the next line of its channel, and in PARITY mode the row's parity is checked. -/
def execDramScrub (c : Oct) (burst : Burst) (s : State) : Out :=
  let r := mget s.dram.scrub c.toNat 0
  let sl : Slot := { c := c.toNat, r := r }
  if recovers s && s.mode != .rest && !slotLost s.dram sl && decide (r < s.dram.fill) then
    let next := if r + 1 = slotsPerChannel s.dram then 0 else r + 1
    let s1 : State := { s with dram := { s.dram with scrub := mput s.dram.scrub c.toNat next } }
    let s2 := burstResult s1 sl burst
    let check := s2.mode != .belvedere && eccAt s.dram sl burst == .clean && s2.dram.mode == .parity && !rowLost s2.dram r
    .next (if check && !parityOk s2.dram r then repairParity s2 r else s2)
  else .next s

/-- CHANNEL_RETRAIN (09 R297): a lost channel is retrained under the policy, and on success its rebuild starts at row 0. -/
def execChannelRetrain (c : Oct) (ok : Bool) (s : State) : Out :=
  let p := s.policy 3
  let day := s.dram.retrains.filter (fun r => r.1 == c && decide (s.qz.time < r.2 + 86400000000000))
  let may := p % 2 == 1 && decide (day.length < p / 256 % 256) && !s.dram.leftOut.getLsbD c.toNat
  let d := s.dram
  whenTrue (recovers s && s.mode != .rest && !s.gate.restart && d.lost == some c && d.rebuild.isNone && may) s
    { s with dram := { d with retrains := (c, s.qz.time) :: d.retrains, rebuild := if ok then some 0 else none } }

/-- CHANNEL_REBUILD_ROW (09 R296, R297): a bad burst of the row, which is a free value, is met as in any read; an uncorrectable one is not hidden. -/
def execChannelRebuildRow (s : State) : Out :=
  match s.dram.lost, s.dram.rebuild with
  | some k, some b =>
    if recovers s && s.mode != .rest && decide (b < slotsPerChannel s.dram) then
      let s1 := burstResult { s with fresh := s.fresh + 1 } { c := k.toNat, r := b } (Config.rebuildBurst s.fresh)
      if s1.mode == .belvedere || s1.dram.rebuild != some b then .next s1
      else .next { s1 with dram := { rebuildRow s1.dram k.toNat b with rebuild := some (b + 1) } }
    else .next s
  | _, _ => .next s

/-- CHANNEL_REBUILD_END (09 R298; 15 R470, R567): past the last row, the lost mark is cleared. It waits for a Gatehouse restart to end (15 R468). -/
def execChannelRebuildEnd (s : State) : Out :=
  match s.dram.lost, s.dram.rebuild with
  | some k, some b =>
    if recovers s && s.mode != .rest && !s.gate.restart && decide (slotsPerChannel s.dram ≤ b) then
      .next (logEvent { s with dram := { s.dram with lost := none, rebuild := none } }
        { cls := 0x0F, action := 0x0A, ukind := 6, uindex := k.toNat })
    else .next s
  | _, _ => .next s

/-- A line of an L2 whose old home has failed is given up: a dirty one is absorbed by its new home, whatever its entry holds (15 R465 step 5). -/
def rehomeLine (k : Nat) (s : State) (l : LineNo) : State :=
  match s.l2 k l with
  | none => s
  | some x =>
    let s1 := giveUp s k l
    if x.st == .m || x.st == .o then scPut s1 (s1.homeNo l) l x.data true x.cls else s1

/-- A cluster's part of a rebuild: `mine` are the lines whose old home has failed. Its write-back buffer goes to the new homes too (15 R465 step 5). -/
def rehomeCluster (mine : LineNo → Bool) (s : State) (k : Nat) : State :=
  let ls := ((mkeys (s.cluster k).l2).map (fun l => BitVec.ofNat 42 l)).filter mine
  let s1 := ls.foldl (rehomeLine k) s
  let c := s1.cluster k
  let ws := c.wb.filter (fun p => mine (BitVec.ofNat 42 p.1))
  let s2 := ws.foldl (fun t p => scPut t (t.homeNo (BitVec.ofNat 42 p.1)) (BitVec.ofNat 42 p.1) p.2.data true p.2.cls) s1
  let c2 := s2.cluster k
  s2.setCluster k { c2 with
    wb := c2.wb.filter (fun p => !mine (BitVec.ofNat 42 p.1)), mshr := c2.mshr.filter (fun p => !mine (BitVec.ofNat 42 p.1)) }

/-- The requests that clusters hold on the lines of the failed slice and that have no data yet, to be sent again (15 R465 steps 2 and 7). An upgrade has lost its line and becomes a read for ownership. -/
def heldRequests (s : State) (mine : LineNo → Bool) : List (Nat × LineNo × Mshr) :=
  (List.range 8).flatMap (fun k =>
    ((s.cluster k).mshr.filter (fun p => mine (BitVec.ofNat 42 p.1) && p.2.need.isNone)).map (fun p => (k, BitVec.ofNat 42 p.1, p.2)))

/-- A held request of a cluster is sent again. -/
def sendAgain (s : State) (r : Nat × LineNo × Mshr) : State :=
  let kind : ReqKind := if r.2.2.kind == .upg then .rdX else r.2.2.kind
  let m : Mshr := { r.2.2 with kind := kind, need := none, got := 0 }
  openReq (s.setMshr r.1 r.2.1 (some m)) { kind := kind, src := clusterAgent r.1, line := r.2.1, cls := m.cls }

/-- The uncached requests open or queued at a slice (15 R465 step 2). -/
def ncRequests (h : Home) : List Req :=
  ((h.txns.map (fun p => p.2.req)) ++ h.confq).filter (fun r => r.kind == .ncRd || r.kind == .ncWr || r.kind == .atom)

/-- Step 6: every core drops every region and fetch buffer, and every code-page table and code filter is cleared (15 R465). -/
def dropCode (s : State) : State :=
  let s1 := s.allCores.foldl (fun t v =>
    let t1 := if uncommitted (t.core v) then rollbackCore t v else t
    (dropRegions t1 v (fun _ => true)).updCore v (fun c => keepFetch c (fun _ => false))) s
  let s2 := (List.range 8).foldl (fun t k => dropRecent (dropRequests t k (fun _ => true)) k (fun _ => true)) s1
  (List.range 8).foldl (fun t k =>
    let h := t.home k
    t.setHome k { h with pages := [], filter := [], queries := [], drops := [], marks := [] }) s2

/-- Transactions of the survivors that waited for an answer about a page's code go on: no page is code-seen now. -/
def freeCode (s : State) : State :=
  (List.range 8).foldl (fun t k =>
    (mkeys (t.home k).txns).foldl (fun u l => pumpHome (onCodeAnswer u k (BitVec.ofNat 42 l)) k) t) s

/-- A message of a line of the failed slice, or of a page's code. -/
def staleMsg (mine : LineNo → Bool) (m : Msg) : Bool :=
  match m with
  | .fwdS _ l _ | .fwdX _ l _ _ | .fwdRd _ l | .inv _ l _ _ | .binv _ l | .ack _ _ l | .fwdAck _ l _ | .notHeld _ l
  | .grant _ l _ | .cmp _ l | .wbAck _ l | .nack _ l _ | .retry _ l | .data _ l _ _ _ _ | .dataH _ l _ _ | .mrd l | .mdata l _ => mine l
  | .drop .. | .dropAck .. | .codeSet .. | .codeClr .. | .codeDone .. | .codeMark .. | .codeQuery .. => true
  | _ => false

/-- Step 3: the partner p replays its mirror of the failed slice's write-back buffer to DRAM (15 R465). -/
def replayMirror (s : State) (p : Nat) (m : SMap Line) : State :=
  let q := s.home p
  let s1 := s.setHome p { q with mir := m.foldl (fun a e => mdel a e.1) q.mir }
  { s1 with dram := m.foldl (fun a e => writeAfter a e.1 e.2) s1.dram }

/-- A surviving slice whose partner has failed copies its write-back buffer into its new partner (15 R464, R465). -/
def newMirror (s : State) (j : Nat) : State :=
  let p := s.partner j
  let q := s.home p
  s.setHome p { q with mir := (s.home j).wbuf.foldl (fun a e => mput a e.1 e.2) q.mir }

/-- The rebuild after the failure of home slice k (08 R243; 15 R464, R465): the mirror of its write-back buffer goes to DRAM, HT is reassigned, the clusters give up its lines, code is dropped, the held requests are sent again. The spine's messages stay (15 R465). -/
def rebuildSlice (s0 : State) (k : Nat) : State :=
  let s := settleAll (meetCommits (awake s0))
  let mine (l : LineNo) : Bool := s.homeNo l == k && !inKeep s (l.toNat * 64)
  let p := s.partner k
  let mirror := (s.home p).mir.filter (fun q => mine (BitVec.ofNat 42 q.1))
  let h := s.home k
  let held := heldRequests s mine
  let retry := (s.fab.retryq.map (·.1)).filter (fun r => mine r.line && r.kind != .rdS && r.kind != .rdCode && r.kind != .rdX && r.kind != .upg)
  let nc := ncRequests h ++ retry
  let s1 := replayMirror s p mirror
  let orphans := s.aliveHomes.filter (fun j => j != k && s.partner j == k)
  let s2 := orphans.foldl newMirror ((reassignHt s1 k).setHome k { dead := true })
  let s3 : State := { s2 with fab := { s2.fab with
    net := s2.fab.net.filter (fun p => !staleMsg mine p.msg), retryq := s2.fab.retryq.filter (fun r => !mine r.1.line),
    heldReads := s2.fab.heldReads.filter (fun r => !mine r.line) } }
  let s4 := (List.range 8).foldl (rehomeCluster mine) s3
  let s5 := freeCode (dropCode s4)
  let s6 := held.foldl sendAgain s5
  let s7 := nc.foldl openReq s6
  enterRepair (recordFault s7 { cls := 0x0C, action := 3, ukind := 3, uindex := k, stallMax := 750000 } none)

/-- A home slice fails: not hidden where fewer than two would remain, else rebuilt (15 R456 classes 0x0C and 0x29, R465). -/
def sliceFault (s : State) (k : Nat) : State :=
  if (s.home k).dead then s
  else if s.aliveHomes.length < 3 then enterBelvedere s { cls := 0x29, action := 9, ukind := 3, uindex := k } none
  else rebuildSlice s k

/-- HOME_SLICE_REBUILD (15 R456 class 0x0C, R465). It waits for a Gatehouse restart to end (15 R468). -/
def execHomeSliceRebuild (k : Oct) (s : State) : Out := whenTrue (recovers s && !s.gate.restart) s (sliceFault s k.toNat)

/-- The stop's link fails: routing leaves it out; one that fails again within an hour of its re-admission stays out (08 R234; 15 R470). -/
def failLink (s : State) (i : Nat) : State :=
  let l := mget s.fab.links i {}
  let again := l.readmitted != 0 && decide (s.qz.time < l.readmitted + 3600000000000)
  let s1 : State := { s with fab := { s.fab with links := mput s.fab.links i { l with failed := true, fails := 0, out := l.out || again } } }
  let s2 := recordFault s1 { cls := 0x0A, action := 6, ukind := 4, uindex := i, stallMax := 50000 } none
  match (List.range 8).find? (isolated s2) with
  | some k => enterBelvedere s2 { cls := 0x26, action := 9, ukind := 5, uindex := 2 * k } none
  | none => s2

/-- FABRIC_ACK_TIMEOUT (08 R234; 15 R456 class 0x0A): the CRC of a message over the link has failed, or its acknowledgement has not come: the stop sends it again, or its copy of one that has arrived, which the destination discards; the third failed send over a link with no good one between fails it. -/
def execFabricAckTimeout (link : BitVec 5) (stop : BitVec 4) (s : State) : Out :=
  let i := link.toNat
  let l := mget s.fab.links i {}
  if recovers s && s.mode != .rest && decide (i < 24) && !l.failed then
    let n := stop.toNat
    let s0 := match keptOver s n i with
      | some p => resend s n p
      | none => s
    let s1 := uncoreEvent { s0 with fab := { s0.fab with resends := mput s.fab.resends n (mget s.fab.resends n 0 + 1) } } (16 + n) 5 devClass
    .next (if l.fails + 1 < 3 then
        { s1 with fab := { s1.fab with links := mput s1.fab.links i { l with fails := l.fails + 1 } } }
      else failLink s1 i)
  else .next s

/-- LINK_RETEST (15 R470): a failed link whose test messages pass is taken back. It waits for a Gatehouse restart to end (15 R468). -/
def execLinkRetest (link : BitVec 5) (ok : Bool) (s : State) : Out :=
  let i := link.toNat
  let l := mget s.fab.links i {}
  if recovers s && s.mode != .rest && !s.gate.restart && l.failed && !l.out && ok && s.policy 4 != 0 then
    .next (logEvent { s with fab := { s.fab with
        links := mput s.fab.links i { l with failed := false, fails := 0, readmitted := max s.qz.time 1 } } }
      { cls := 0x0A, action := 0x0A, ukind := 4, uindex := i })
  else .next s

/-- A deferred pavilion's posts are delivered: PEND is merged into the latch of each running vCPU, the others get their doorbells (10 R322). -/
def endDeferral (s : State) (pn : Pav) : State :=
  let p := s.pav pn
  if p.deferring then
    (List.range p.nvcpu).foldl (fun t v =>
      let ids := pendIds t p v
      if ids.isEmpty then t
      else match runningOn t pn v with
        | some c => clearPend (ids.foldl (fun u i => latchId u c i) t) 24 p v
        | none => doorbell t pn v) (s.setPav pn { p with deferring := false })
  else s

/-- Sends the held DRAM requests in the order of their arrival, each class's up to its budget of the epoch; `used` counts those sent by class (10 R322). -/
def releaseHeld : List Req → SMap Nat → State → State
  | [], _, s => s
  | r :: t, used, s =>
    let q := s.qosOf r.cls
    let n := mget used r.cls.toNat 0
    if q.cap && decide (q.mem ≤ n) then
      releaseHeld t used { s with fab := { s.fab with heldReads := s.fab.heldReads ++ [r] } }
    else releaseHeld t (mput used r.cls.toNat (n + 1)) (sendM s (homeAgent (s.homeNo r.line)) r.cls (.mrd r.line))

/-- The epoch's charges end: a pavilion whose charge exceeded its budget counts the epoch (10 R318, R322). -/
def closeEpoch (s : State) (p : Nat × Qos) : State :=
  let pn : Pav := BitVec.ofNat 8 p.1
  let v := s.pav pn
  let s1 := if p.1 < 256 ∧ p.2.mem < p.2.memUsed ∧ v.st ≠ .none then s.setPav pn { v with memOver := satAdd32 v.memOver 1 } else s
  s1.setQos (BitVec.ofNat 16 p.1) { p.2 with memUsed := 0, rateUsed := 0 }

/-- QOS_EPOCH_START (10 R322; 17 R523): the next multiple of 8,000 ns. -/
def execQosEpochStart (s : State) : Out :=
  let s1 := s.reach ((s.qz.time / 8000 + 1) * 8000)
  let s2 := s1.qos.foldl closeEpoch s1
  let s3 : State := { s2 with funnel := { s2.funnel with used := 0 } }
  let s4 := releaseHeld s3.fab.heldReads [] { s3 with fab := { s3.fab with heldReads := [] } }
  let s5 := (mkeys s4.pavs).foldl (fun t p => endDeferral t (BitVec.ofNat 8 p)) s4
  whenTrue (s.qz.locked && !s.dev.porst) s s5

/-- The tenure window's charge ends: an excess counts, and is carried over up to one budget (10 R318, R322). -/
def closeWindow (s : State) (p : Nat × Qos) : State :=
  let pn : Pav := BitVec.ofNat 8 p.1
  let v := s.pav pn
  let s1 := if p.1 < 256 ∧ p.2.arb < p.2.arbUsed ∧ v.st ≠ .none then s.setPav pn { v with arbOver := satAdd32 v.arbOver 1 } else s
  s1.setQos (BitVec.ofNat 16 p.1) { p.2 with arbUsed := min (p.2.arbUsed - p.2.arb) p.2.arb }

/-- ARB_TENURE_WINDOW_START (10 R322): the next multiple of 64,000 ns. -/
def execArbTenureWindowStart (s : State) : Out :=
  let s1 := s.reach ((s.qz.time / 64000 + 1) * 64000)
  whenTrue (s.qz.locked && !s.dev.porst) s (s1.qos.foldl closeWindow s1)

end Sys2Proof.Machine
end

