-- ==== Sys2Proof/Machine/FaultDev.lean ====
section
/-! DEFINITION. Faults of the Arbor engines, the Belvedere pairs, the Gatehouse, the supplies, REFCLK, the junction sensors and the on-chip arrays (01 R19; 08 R231; 11 R371, R372; 15 R454, R456, R467, R469, R473, R476; 16 R485; 19 R554, R555, R561 to R563). -/

namespace Sys2Proof.Machine

/-- The port goes back to the engines: the cycle under way has ended, the head of its queue stays and runs again from its address phase, the threads start at their idle entries (11 R372). -/
def resumePort (s : State) : State :=
  let s1 := endUnderWay s
  if s.arb.running then startThreads s1 else s1

/-- A mismatch of the Arbor engines: the whole recovery, or BELVEDERE beyond the limit (11 R371, R372; 15 R456 class 0x11, R467). -/
def arborMismatch (s : State) : State :=
  let ts := recentTimes s s.arb.mismatches (mismatchWindow s 6)
  let s1 : State := { s with arb := { s.arb with mismatches := ts, mismatch := satAdd32 s.arb.mismatch 1 } }
  if mismatchOver s1 6 ts then
    enterBelvedere s1 { cls := 0x24, action := 9, ukind := 8, uindex := 0 } none
  else
    recordFault (resumePort (meetCommits (awake s1))) { cls := 0x11, action := 5, ukind := 8, uindex := 0, stallMax := 500000 } none

/-- ARBOR_MISMATCH_RECOVERY (11 R371, R372; 15 R456 class 0x11, R467). -/
def execArborMismatchRecovery (s : State) : Out := whenTrue (recovers s && s.arb.engine == 0) s (arborMismatch s)

/-- The mismatches of a Belvedere pair. -/
def pairTimes (b : Belvedere) (second : Bool) : List Nat := if second then b.misB else b.misA

/-- Sets the mismatches of a Belvedere pair. -/
def setPairTimes (s : State) (second : Bool) (ts : List Nat) : State :=
  { s with dev := { s.dev with blv := if second then { s.dev.blv with misB := ts } else { s.dev.blv with misA := ts } } }

/-- No pair is left: class 0x27; there is no safety image from then on, and in BELVEDERE SAFE take the static levels (15 R469, R477). -/
def lastPair (s : State) (b : Bool) : State :=
  if noImage s then
    let s1 := recordFault s { cls := 0x27, action := 7, ukind := 10, uindex := b.toNat } none
    let safe := if s1.mode == .belvedere && s1.dev.safeOut.isSome then some s1.dev.blv.static else s1.dev.safeOut
    { s1 with dev := { s1.dev with safeOut := safe, blv := { s1.dev.blv with image := false } } }
  else s

/-- A mismatch of a Belvedere pair that is in service: it restarts from its image, or is retired beyond the limit (the class of that record is DEDUCED, log entry 67) (15 R456 class 0x12, R467, R469). -/
def pairMismatch (s : State) (b : Bool) : State :=
  let dead := if b then s.dev.blv.deadB else s.dev.blv.deadA
  if dead || s.mode == .cold || s.therm.trip || s.dev.porst then s
  else
    let ts := recentTimes s (pairTimes s.dev.blv b) (mismatchWindow s 7)
    let s1 := setPairTimes s b ts
    let e : LogIn := { cls := 0x12, action := 5, ukind := 10, uindex := b.toNat }
    let s2 := awake s1
    if mismatchOver s2 7 ts then lastPair (recordFault (retirePair s2 b) { e with action := 7 } none) b
    else recordFault s2 e none

/-- BELVEDERE_PAIR_RESTART (15 R456 class 0x12, R467, R469). -/
def execBelvederePairRestart (b : Bool) (s : State) : Out := .next (pairMismatch s b)

/-- Class of a fault that cannot be hidden (15 R456). -/
def causeClass : BlvCause → BitVec 8
  | .lostData => 0x20
  | .noSpare => 0x21
  | .dramLoss => 0x22
  | .gatehouse => 0x23
  | .arbor => 0x24
  | .supply => 0x25
  | .cluster => 0x26
  | .slices => 0x29
  | .mirror => 0x2A

/-- BELVEDERE_ENTRY (15 R473). The unit is named where the cause fixes it. -/
def execBelvedereEntry (cause : BlvCause) (s : State) : Out :=
  let e : LogIn := { cls := causeClass cause, action := 9, ukind := 0, uindex := 0 }
  match cause with
  | .gatehouse => .next (enterBelvedere s { e with ukind := 9 } none)
  | .arbor => .next (enterBelvedere s { e with ukind := 8 } none)
  | _ =>
    let (e1, s1) := openUnit s e
    .next (if mayFail s then enterBelvedere s1 e1 none else s)

/-- GATEHOUSE_HEARTBEAT_TIMEOUT (15 R473): the health watch, on a Belvedere pair that is left, finds no heartbeat for 1 ms outside a restart. -/
def execGatehouseHeartbeatTimeout (s : State) : Out :=
  if s.gate.restart || s.gate.byBlv || noImage s then .next s
  else .next (enterBelvedere s { cls := 0x23, action := 9, ukind := 9, uindex := 0 } none)

/-- A supply, thermal or REFCLK fault: class 0x25 (15 R456, R473). -/
def supplyFault (s : State) : State :=
  if mayFail s then
    let (e, s1) := openUnit s { cls := 0x25, action := 9, ukind := 0, uindex := 0 }
    enterBelvedere s1 e none
  else s

/-- SAFE are not driven without VDD_IO18 (15 R477). -/
def railDrop (s : State) (r : Nat) : State :=
  { s with dev := { s.dev with
    rails := s.dev.rails &&& ~~~ (1#9 <<< r), safeOut := if r = 8 then none else s.dev.safeOut } }

/-- Without VDD_BLV nothing drives SAFE but the power-on logic of VDD_IO18, which holds them low (15 R477; 19 R554). -/
def safeUnpowered (s : State) : State :=
  if s.dev.rails.getLsbD 2 || s.dev.safeOut.isNone then s else { s with dev := { s.dev with safeOut := some 0 } }

/-- RAIL_OUT_OF_RANGE (15 R454, R476; 19 R554, R555): with PORST_N high it is an entry into BELVEDERE; a device in COLD, from which BELVEDERE is not entered, holds itself in reset (DEDUCED, log entry 51). Rails are numbered as `Device.rails` numbers them. -/
def execRailOutOfRange (rail : BitVec 4) (s : State) : Out :=
  if 9 ≤ rail.toNat then .next s
  else
    let s1 := railDrop s rail.toNat
    if s.dev.porst then .next s1
    else if s.mode = .cold then .next (fullReset s1 false)
    else .next (safeUnpowered (supplyFault s1))

/-- REFCLK_LOSS (15 R454; 16 R485): the PLL has lost its reference, Quartz stops; a device in COLD holds itself in reset (DEDUCED, log entry 51). -/
def execRefclkLoss (s : State) : Out :=
  let s1 : State := { s with dev := { s.dev with refclk := false }, qz := { s.qz with locked := false } }
  if s.dev.porst then .next s1
  else if s.mode = .cold then .next (fullReset s1 false)
  else .next (supplyFault s1)

/-- Alert, release and absolute maximum of the grade in 0.125 °C (19 R561). -/
def thermLimits : Part → Int × Int × Int
  | .t6472c => (720, 680, 840)
  | _ => (800, 760, 920)

/-- A reading reaches its registers: TJ_SENSORi, PEAK with NEW, ALERT (19 R561, R563). -/
def sample (s : State) (i : Nat) (t : BitVec 16) : State :=
  let (hi, lo, _) := thermLimits s.cmap.part
  let m := mput s.therm.temp i t
  let peak := match s.therm.peak with
    | none => t
    | some p => if p.toInt < t.toInt then t else p
  let al := if m.any (fun q => decide (hi ≤ q.2.toInt)) then true
    else if m.all (fun q => decide (q.2.toInt < lo)) then false else s.therm.alert
  { s with therm := { s.therm with temp := m, peak := some peak, alert := al } }

/-- The trip: every island stops, every output is released, THERMTRIP_N is driven low (19 R562). -/
def trip (s : State) : State :=
  { s with
    therm := { s.therm with trip := true, alert := false }
    dev := { s.dev with stopped := true, safeOut := none }
    arb := { s.arb with drive := [], afailOut := false, arstUntil := none }
    mgmt := { s.mgmt with alert := false, ibi := false }
    qz := { s.qz with ppsHigh := none } }

/-- 125 °C (19 R561). -/
def tripLevel : Int := 1000

/-- TJ_SENSOR_SAMPLE (19 R561, R563; 15 R454): the reading, the alert, BELVEDERE above the absolute maximum, the trip at 125 °C. -/
def execTjSensorSample (i : BitVec 5) (temp : BitVec 16) (s : State) : Out :=
  if s.dev.porst || s.therm.trip || decide (20 ≤ i.toNat) then .next s
  else
    let s1 := sample s i.toNat temp
    if tripLevel ≤ temp.toInt then .next (trip s1)
    else if (thermLimits s.cmap.part).2.2 < temp.toInt then .next (supplyFault s1)
    else .next s1

/-- THERMAL_TRIP (19 R562): a sensor reaches 125 °C. -/
def execThermalTrip (i : BitVec 5) (temp : BitVec 16) (s : State) : Out :=
  whenTrue (!s.dev.porst && !s.therm.trip && decide (i.toNat < 20) && decide (tripLevel ≤ temp.toInt)) s (trip (sample s i.toNat temp))

/-- The class of an array's errors, and its unit. No class: the fault-class table has none for it; no unit: UNIT_STATUS has no kind for it (15 R456, R481). -/
def scrubUnit (s : State) : ScrubArr → Option (BitVec 8) × Option (BitVec 8 × Nat)
  | .l1d vc _ => (some 6, some (1, s.pcOf vc))
  | .l2 .. => (some 6, none)
  | .sysCache h _ => (some 9, some (3, h.toNat))
  | .directory h _ => (some 8, some (3, h.toNat))
  | .course vc _ => (some 4, some (1, s.pcOf vc))
  | .folly vc _ => (some 4, some (1, s.pcOf vc))
  | .tagCache c _ => (some 0x15, some (6, c.toNat))
  | .small vc => (some 0x14, some (1, s.pcOf vc))
  | .coreTable vc => (some 1, some (1, s.pcOf vc))
  | .missQueue _ => (some 0x14, none)
  | .stopBuf n => (some 0x14, some (5, n.toNat))
  | .arbor => (none, some (8, 0))
  | .belvedere b => (none, some (10, b.toNat))
  | .gatehouse => (none, some (9, 0))
  | .funnel => (none, none)

/-- A record of an array's error: a class or a unit that the manual does not give is a free value. -/
def scrubRecord (s : State) (a : ScrubArr) (action : BitVec 8) : LogIn × State :=
  let u := scrubUnit s a
  let (e, s1) := match u.2 with
    | some (k, i) => (({ cls := 0, action := action, ukind := k, uindex := i } : LogIn), s)
    | none => openUnit s { cls := 0, action := action, ukind := 0, uindex := 0 }
  match u.1 with
  | some c => ({ e with cls := c }, s1)
  | none => let (f, s2) := s1.free; ({ e with cls := f.setWidth 8 }, s2)

/-- A scrub finds a single-bit error: it is corrected and counted (15 R461, R567). -/
def scrubCorrected (s : State) (a : ScrubArr) : State :=
  let (e, s1) := scrubRecord s a 0
  recordCorrected s1 e.cls e.ukind e.uindex

/-- A fabric stop sends the message of a spoilt buffer again: the transient of its unit (08 R231, R234; 15 R456 class 0x14). -/
def stopError (s : State) (n : Nat) : State :=
  let s1 := uncoreEvent { s with fab := { s.fab with resends := mput s.fab.resends n (mget s.fab.resends n 0 + 1) } } (16 + n) 5 devClass
  recordFault s1 { cls := 0x14, action := 0x10, ukind := 5, uindex := n } none

/-- A scrub finds an uncorrectable word of an array whose fault can be hidden. The manual gives the arrays of Arbor, Belvedere and the Gatehouse no row: they are taken as a mismatch of their pair, and an array of the funnel is recorded alone (DEDUCED, log entry 78). -/
def scrubUncorrectable (s0 : State) (a : ScrubArr) : State :=
  let s := match a with
    | .arbor | .belvedere _ | .gatehouse => s0
    | _ => awake s0
  match a with
  | .l1d vc l => l1dError s vc l
  | .l2 k l => l2Error s k.toNat l
  | .sysCache h l => scError s h.toNat l
  | .directory h l => if (s.txnOf h.toNat l).isNone && (s.dirOf h.toNat l).isSome then dirError s h.toNat l else s
  | .course vc va => storeError (dropRegions s vc (fun r => r.courses.any (fun x => x.pc == va))) vc
  | .folly vc _ => storeError s vc
  | .tagCache c l =>
    let q := mget s.dram.tagCache c.toNat []
    recordFault { s with dram := { s.dram with tagCache := mput s.dram.tagCache c.toNat (q.filter (fun x => x.2 || x.1 != l)) } }
      { cls := 0x15, action := 0x0C, ukind := 6, uindex := c.toNat } none
  | .small vc => coreFault s vc .parity
  | .coreTable vc => coreFault s vc .secded
  | .stopBuf n => stopError s n.toNat
  | .arbor => if s.arb.engine == 0 then arborMismatch s else s
  | .belvedere b => pairMismatch s b
  | .gatehouse => if s.gate.restart then s else gatehouseMismatch s
  | .missQueue _ | .funnel =>
    let (e, s1) := scrubRecord s a 0x10
    recordFault s1 e none

/-- The array stands in the device: a virtual core of this part (00 R5). -/
def arrayHere (s : State) : ScrubArr → Bool
  | .l1d vc _ | .course vc _ | .folly vc _ | .small vc | .coreTable vc => decide (vc.toNat < vcCount s.cmap.part)
  | _ => true

/-- A check of an island fails, or its handshake stalls. A home slice and its memory controller are rebuilt and switched over, a stop takes each agent at it, and the paired engines disagree with their fellows. A cluster island that stalls is taken as isolated, class 0x26, and the trace funnel's stall is recorded alone (DEDUCED, log entry 106). -/
def islandFault (i : Island) (s : State) : State :=
  match i with
  | .core vc k => if (s.core vc).started then coreFault (awake s) vc k else s
  | .translator k => if (s.cluster k.toNat).xlDead then s else translatorFault (awake s) k.toNat
  | .spine => if s.fab.spine.mirror then s else spineFault (awake s)
  | .cluster k => enterBelvedere s { cls := 0x26, action := 9, ukind := 5, uindex := 2 * k.toNat } none
  | .slice k => if s.gate.restart then s else sliceFault s k.toNat
  | .controller c => if s.gate.restart then s else channelFault s c
  | .stop n =>
    if n.getLsbD 0 then
      if s.gate.restart then s
      else
        let s1 := sliceFault s (n.toNat / 2)
        if recovers s1 then channelFault s1 (BitVec.ofNat 3 (n.toNat / 2)) else s1
    else enterBelvedere s { cls := 0x26, action := 9, ukind := 5, uindex := n.toNat } none
  | .arbor => if s.arb.engine == 0 then arborMismatch s else s
  | .belvedere b => pairMismatch s b
  | .gatehouse => if s.gate.restart then s else gatehouseMismatch s
  | .funnel =>
    let (e, s1) := scrubRecord (awake s) .funnel 0x10
    recordFault s1 e none

/-- HANDSHAKE_WATCHDOG_EXPIRY (15 R454, R456). -/
def execHandshakeWatchdogExpiry (i : Island) (s : State) : Out := whenTrue (recovers s) s (islandFault i s)

/-- PCIE_LANE_RETRAIN (14 R446; 15 R456 class 0x13): the link goes on at a smaller width. -/
def execPcieLaneRetrain (port : Bool) (link : BitVec 2) (width : BitVec 5) (s0 : State) : Out :=
  let l := link.toNat
  let s := awake s0
  let k := s.link port l
  whenTrue (recovers s0 && linkLive k && decide (1 ≤ width.toNat ∧ width.toNat < k.width.toNat)) s0
    (recordFault (s.setLink port l { k with width := width, reduced := true })
      { cls := 0x13, action := 0x0F, ukind := 0x0B, uindex := linkUnit port l, stallMax := 500000 } none)

/-- PCIE_UPCONFIG (15 R470): the link goes back to the full width at which it trained, where its partner advertises Upconfigure Capability; never where the policy's period is 0. It waits for a Gatehouse restart to end (15 R468). -/
def execPcieUpconfig (port : Bool) (link : BitVec 2) (up : UpTry) (s : State) : Out :=
  let l := link.toNat
  let k := s.link port l
  whenTrue (linkRuns s port l && k.reduced && s.policy 9 != 0 && !s.gate.restart && up.capable && up.width == k.full) s
    (logEvent (s.setLink port l { k with width := k.full, reduced := false })
      { cls := 0x13, action := 0x0A, ukind := 0x0B, uindex := linkUnit port l })

/-- CACHE_SCRUB (01 R19; 08 R230, R231; 15 R461, R462). -/
def execCacheScrub (arr : ScrubArr) (err : Chk) (s : State) : Out :=
  if recovers s && arrayHere s arr then
    .next (match err with
      | .clean => s
      | .corrected => scrubCorrected s arr
      | .uncorrectable => scrubUncorrectable s arr)
  else .next s

end Sys2Proof.Machine
end

