-- ==== Sys2Proof/Machine/FollyRun.lean ====
section
/-! DEFINITION. Executing a folly instruction (05 R134 to R142; 06 R167, R171 to R185, R192, R194). -/

namespace Sys2Proof.Machine

/-- A place that a micro-op reads or writes: a g register, an f register, a temporary, or CF (06 R172, R184). -/
inductive FLoc where
  | g (r : Reg)
  | f (r : Reg)
  | t (i : Nat)
  | cf
  deriving DecidableEq, Repr

/-- A result of a long micro-op that waits to be written. `hit`: another operation has written its place meanwhile (05 R139 rule 3, R140). -/
structure FWrite where
  loc : FLoc
  val : W64
  hit : Bool
  deriving DecidableEq, Repr

/-- A long micro-op whose ticket has not been awaited, with what it will write: its register, and CF where its S bit is set (05 R135). -/
structure FPend where
  ticket : Nat
  writes : List FWrite
  deriving DecidableEq, Repr

/-- A FOLLY word under way: the state at the commit point before it, its operand fields, the style and the registers before it. -/
structure FWord where
  base : State
  vc : Vc
  rd : Reg
  ra : Reg
  rb : Reg
  imm7 : BitVec 7
  fs : Bool
  arch : Arch
  /-- Past 24 stores on the path, the store buffer fills (06 R179): a free value. -/
  fills : Bool
  deriving DecidableEq, Repr

/-- What a FOLLY word has done so far: the state with its stores buffered, its registers, temporaries and outstanding tickets. -/
structure FRun where
  s : State
  a : Arch
  tmp : SMap W64 := []
  pend : List FPend := []
  /-- Union of the FCSR flags raised (06 R184). -/
  flags : BitVec 5 := 0
  /-- CF as the last flag-setting micro-op in sequence order wrote it (06 R184). -/
  cf : Option (BitVec 4) := none
  /-- Store operations so far; a split one counts as two (06 R179). -/
  stores : Nat := 0
  /-- A store has gone to a code-seen page (05 R161). -/
  code : Bool := false
  evs : List (BitVec 8) := []
  /-- Courses executed, and the slots that they occupy (17 R513). -/
  courses : Nat := 0
  used : Nat := 0
  /-- Courses issued past a micro-branch that was taken, and undone (06 R176, R185). -/
  undone : Nat := 0
  /-- The course that comes next (06 R176). -/
  next : Nat := 0
  deriving DecidableEq, Repr

/-- Why a FOLLY word does not complete: an exception, with the courses that have issued before it and are undone (06 R185), or the state in which it stands unexecuted (none: as it was). -/
inductive FStop where
  | exc (x : Exc) (courses : Nat)
  | wait (o : Option State)

/-- A step of a FOLLY word. -/
abbrev FStep (α : Type) := Except FStop α

/-- The place of a register specifier (06 R172). -/
def flyLoc (c : FWord) (x : Nat) : FLoc :=
  if x < 0x20 then .g (BitVec.ofNat 5 x)
  else if x < 0x40 then .f (BitVec.ofNat 5 x)
  else if x < 0x48 then .t (x - 0x40)
  else match x with
    | 0x48 => .g c.rd
    | 0x49 => .g c.ra
    | 0x4A => .g c.rb
    | 0x4C => .f c.rd
    | 0x4D => .f c.ra
    | _ => .f c.rb

/-- The value that stands in a place, outstanding operations left aside; CF reads as zero in C-style (06 R173, R184). -/
def flyHeld (c : FWord) (r : FRun) : FLoc → W64
  | .g n => gRead r.a n
  | .f n => fRead r.a n
  | .t i => mget r.tmp i 0
  | .cf => if c.fs then r.a.cf.setWidth 64 else 0

/-- Takes one of some values by a free value; a single one needs no choice. -/
def flyPick (r : FRun) (v : W64) (l : List W64) : W64 × FRun :=
  match l with
  | [] => (v, r)
  | _ =>
    let (f, s) := r.s.free
    (((v :: l)[f.toNat % (l.length + 1)]?).getD v, { r with s := s })

/-- Reads a place. A long operation not awaited may or may not have written it: either value is read (05 R139 rule 1, R140); g0 is always zero (02 R31). -/
def flyReadLoc (c : FWord) (r : FRun) (x : FLoc) : W64 × FRun :=
  if x == .g 0 then (0, r)
  else flyPick r (flyHeld c r x) (((r.pend.flatMap (·.writes)).filter (fun p => p.loc == x)).map (·.val))

/-- Reads a source specifier (06 R172). -/
def flyRead (c : FWord) (r : FRun) (u : Uop) (x : Nat) : W64 × FRun :=
  match x with
  | 0x50 => (sext c.imm7, r)
  | 0x51 => (zext c.imm7, r)
  | 0x53 => (sext u.imm, r)
  | 0x54 => (zext u.imm, r)
  | _ => flyReadLoc c r (flyLoc c x)

/-- Writes a place (06 R172, R173); long operations on their way to it are marked (05 R140). -/
def flyWrite (r : FRun) (x : FLoc) (v : W64) : FRun :=
  let mark (p : FWrite) : FWrite := if p.loc == x then { p with hit := true } else p
  let r1 := { r with pend := r.pend.map (fun (p : FPend) => { p with writes := p.writes.map mark }) }
  match x with
  | .g n => { r1 with a := gWrite r1.a n v }
  | .f n => { r1 with a := fWrite r1.a n v }
  | .t i => { r1 with tmp := mput r1.tmp i v }
  | .cf => { r1 with a := { r1.a with cf := v.setWidth 4 } }

/-- One result of a completing operation is written; where another operation has written the place, either value stays (05 R140). -/
def flyLand (c : FWord) (r : FRun) (p : FWrite) : FRun :=
  if p.hit then
    let (v, r1) := flyPick r p.val [flyHeld c r p.loc]
    flyWrite r1 p.loc v
  else flyWrite r p.loc p.val

/-- A long operation completes: its results are written (05 R135). -/
def flySettle (c : FWord) (r : FRun) (p : FPend) : FRun := p.writes.foldl (flyLand c) { r with pend := r.pend.erase p }

/-- The operations that an AWAIT mask of one ticket lets complete: the one that carries it; of several, one that a free value picks (05 R135, R140 rule 2). -/
def flyAwait1 (c : FWord) (r : FRun) (t : Nat) : FRun :=
  match r.pend.filter (fun p => p.ticket == t) with
  | [] => r
  | [p] => flySettle c r p
  | p :: l =>
    let (f, s) := r.s.free
    flySettle c { r with s := s } (((p :: l)[f.toNat % (l.length + 1)]?).getD p)

/-- A course issues once the tickets of its mask are not outstanding (05 R135; 06 R170). -/
def flyAwait (c : FWord) (r : FRun) (mask : BitVec 16) : FRun :=
  ((List.range 16).filter (fun t => mask.getLsbD t)).foldl (flyAwait1 c) r

/-- Every ticket completes before the closing commit point (06 R184). -/
def flyDrain (c : FWord) : Nat → FRun → FRun
  | 0, r => r
  | f + 1, r => match r.pend with
    | [] => r
    | p :: _ => flyDrain c f (flySettle c r p)

/-- A micro-op with the values of its operands, read before the course changes anything (05 R134). -/
structure FOp where
  fn : UopFn
  u : Uop
  x : W64
  y : W64
  z : W64
  cf : BitVec 4

/-- Reads the operands of a slot. -/
def flyOperands (c : FWord) (r : FRun) (w : W64) : Option FOp × FRun :=
  let u := uopOf w
  if !u.v then (none, r)
  else match uopFn u.uop with
    | none => (none, r)
    | some fn =>
      let (_, ua, ub, uc) := usesSpecs fn
      let (x, r1) := if ua then flyRead c r u u.srca else (0, r)
      let (y, r2) := if ub then flyRead c r1 u u.srcb else (0, r1)
      let (z, r3) := if uc then flyRead c r2 u u.srcc else (0, r2)
      let usesCf := u.sf || (match fn with
        | .alu2 k => k == .adc || k == .sbc
        | _ => false)
      let (k, r4) := if usesCf then flyReadLoc c r3 .cf else (0, r3)
      (some { fn := fn, u := u, x := x, y := y, z := z, cf := k.setWidth 4 }, r4)

/-- Reads the operands of every slot of a course. -/
def flyOperandsAll (c : FWord) : List W64 → FRun → List FOp × FRun
  | [], r => ([], r)
  | w :: t, r =>
    let (o, r1) := flyOperands c r w
    let (l, r2) := flyOperandsAll c t r1
    (match o with
      | some p => p :: l
      | none => l, r2)

/-- What a course has written: short results, and long operations with their places, each in sequence order. -/
structure FOut where
  short : List (FLoc × W64) := []
  long : List FPend := []
  jump : Option Nat := none

/-- The bytes of memory and of older stores that a load of a folly instruction reads: its own stores give it the sequential value (05 R157). -/
def flyLoadPart (c : FWord) (s : State) (p : APart) : FStep ((Nat × List (BitVec 8)) × State) :=
  let sb := (s.core c.vc).sb
  let o := sbOverlaps sb p.pa p.n
  let under (r : Mem (Nat × List (BitVec 8))) : FStep ((Nat × List (BitVec 8)) × State) :=
    match r with
    | .error e => .error (.wait e)
    | .ok ((v, e), t) => .ok ((overlay sb p.pa p.n v, e), t)
  if sbCovered sb p.pa p.n then .ok ((overlay sb p.pa p.n 0, []), s)
  else if o.isEmpty || o.any (fun e => !e.committed) then
    under (if p.mt == .normalNc || inKeep s p.pa then uncachedRead s c.vc p.pa p.n else cachedRead s c.vc p.pa p.n)
  else .error (.wait (some (c.base.updCore c.vc (fun d => { d with owait := true }))))

/-- The parts of a load, the lower first. -/
def flyLoadParts (c : FWord) : List APart → State → FStep ((Nat × List (BitVec 8)) × State)
  | [], s => .ok ((0, []), s)
  | p :: t, s =>
    match flyLoadPart c s p with
    | .error o => .error o
    | .ok ((v, e), s1) => match flyLoadParts c t s1 with
      | .error o => .error o
      | .ok ((w, f), s2) => .ok ((v + 2 ^ (8 * p.n) * w, e ++ f), s2)

/-- The parts of a memory micro-op: DEVICE memory is a data-alignment exception (06 R175, R181). -/
def flyParts (c : FWord) (s : State) (va : W64) (n : Nat) (acc : Acc) : FStep (List APart × State) :=
  match accessParts s c.vc va n acc with
  | (.error x, s1) =>
    if undone s s1 c.vc then .error (.wait (some s1))
    else match x with
      | .wait => .error (.wait none)
      | .exc y => .error (.exc y 0)
  | (.ok ps, s1) =>
    if undone s s1 c.vc then .error (.wait (some s1))
    else if ps.any (fun p => p.mt == .device) then .error (.exc (excAlign c.arch va) 0) else .ok (ps, s1)

/-- The address of a memory micro-op (06 R175). -/
def flyAddr (o : FOp) : W64 := o.x + (o.y <<< o.u.shift) + sext o.u.imm

/-- A load. -/
def flyLoad (c : FWord) (r : FRun) (fn : LdFn) (o : FOp) : FStep (W64 × FRun) :=
  let (n, sx, _) := ldForm fn
  match flyParts c r.s (flyAddr o) n .read with
  | .error e => .error e
  | .ok (ps, s1) => match flyLoadParts c ps s1 with
    | .error e => .error e
    | .ok ((v, e), s2) => .ok (extendVal n sx (BitVec.ofNat 64 v), { r with s := s2, evs := r.evs ++ partEvents ps ++ e })

/-- A store: buffered, not committed. More than 24 on the path may fill the buffer, as more than its 48 entries do (05 R142; 06 R179, R180). -/
def flyStore (c : FWord) (r : FRun) (fn : StFn) (o : FOp) : FStep FRun :=
  let (n, _) := stForm fn
  match flyParts c r.s (flyAddr o) n .write with
  | .error e => .error e
  | .ok (ps, s1) =>
    let k := r.stores + ps.length
    let d := s1.core c.vc
    if 24 < k ∧ (c.fills = true ∨ 48 < k) then
      .error (.exc { cls := 0x01, detail := 1, lvl := ownLevel c.arch.level } 0)
    else if 48 < d.sb.length + ps.length then .error (.wait none)
    else .ok { r with
      s := s1.setCore c.vc { d with sb := d.sb ++ sbEntries s1 c.vc ps o.z.toNat }, stores := k, code := r.code || codeParts s1 ps,
      evs := r.evs ++ partEvents ps ++ storeMisses s1 c.vc ps }

/-- A short result with the flags of its S bit, which C-style ignores (06 R184). -/
def flyShort (c : FWord) (r : FRun) (q : FOut) (o : FOp) (v : W64) (k : BitVec 4) : FRun × FOut :=
  let w := q.short ++ [(flyLoc c o.u.dst, v)]
  if o.u.sf && c.fs then ({ r with cf := some k }, { q with short := w ++ [(.cf, k.setWidth 64)] }) else (r, { q with short := w })

/-- A long result with its ticket, and its flags where S is set: both are written when the ticket completes (05 R135). -/
def flyLong (c : FWord) (r : FRun) (q : FOut) (o : FOp) (v : W64) (k : BitVec 4) : FRun × FOut :=
  let w : FWrite := { loc := flyLoc c o.u.dst, val := v, hit := false }
  let p (ws : List FWrite) : FOut := { q with long := q.long ++ [{ ticket := o.u.ticket, writes := ws }] }
  if o.u.sf && c.fs then ({ r with cf := some k }, p [w, { loc := .cf, val := k.setWidth 64, hit := false }])
  else (r, p [w])

/-- Executes one micro-op (06 R174 to R176). -/
def flyOp (c : FWord) (r : FRun) (q : FOut) (o : FOp) : FStep (FRun × FOut) :=
  let target := o.u.imm.toNat
  match o.fn with
  | .alu fn => .ok (flyShort c r q o (aluVal fn o.x o.y) (aluCf fn o.x o.y o.cf))
  | .shi fn =>
    let y : W64 := (o.u.imm.setWidth 6).setWidth 64
    .ok (flyShort c r q o (aluVal (shAlu fn) o.x y) (aluCf (shAlu fn) o.x y o.cf))
  | .alu2 fn => .ok (flyShort c r q o (alu2Val fn o.x o.y (cfC o.cf)) (alu2Cf fn o.x o.y o.cf))
  | .un fn =>
    let v := unVal fn o.x
    .ok (flyShort c r q o v (cfNZ v o.cf))
  | .muldiv fn => .ok (flyLong c r q o (mdVal fn o.x o.y) (mdCf fn o.x o.y o.cf))
  | .load fn => match flyLoad c r fn o with
    | .error e => .error e
    | .ok (v, r1) => .ok (flyLong c r1 q o v 0)
  | .store fn => match flyStore c r fn o with
    | .error e => .error e
    | .ok r1 => .ok (r1, q)
  | .fp dbl fn =>
    let v := fpVal dbl fn (fpMode o.u.rm c.arch.fcsr) o.x o.y
    let src := fmtOf (if fn == .fcvt then !dbl else dbl)
    let ops := if fpFromG fn then [] else if fpUnary fn then [fpTrim src o.x] else [fpTrim src o.x, fpTrim src o.y]
    let evs := fpEvents (fpPenalty fn) src (fmtOf dbl) ops (if fpToG fn then { v with val := 0 } else v)
    .ok (flyLong c { r with flags := r.flags ||| v.flags, evs := r.evs ++ evs } q o v.val (fpCmpCf dbl o.x o.y))
  | .fma dbl n =>
    let f := fmtOf dbl
    let v := fmaVal dbl n (rmOf (c.arch.fcsr.extractLsb' 5 3)) o.x o.y o.z
    let evs := fpEvents true f f [fpTrim f o.x, fpTrim f o.y, fpTrim f o.z] v
    .ok (flyLong c { r with flags := r.flags ||| v.flags, evs := r.evs ++ evs } q o v.val 0)
  | .mbr => .ok (r, if ccHolds o.u.rm o.x o.y then { q with jump := some target } else q)
  | .mj => .ok (r, { q with jump := some target })

/-- Executes the micro-ops of a course in sequence order: the first that meets an exception ends it (06 R182). -/
def flyOps (c : FWord) : List FOp → FRun → FOut → FStep (FRun × FOut)
  | [], r, q => .ok (r, q)
  | o :: t, r, q =>
    match flyOp c r q o with
    | .error e => .error e
    | .ok (r1, q1) => flyOps c t r1 q1

/-- Writes one place from the short results of a course: of two that write one register a free value picks which stays (05 R136); CF takes the last (06 R184). -/
def flyShort1 (l : List (FLoc × W64)) (r : FRun) (x : FLoc) : FRun :=
  match (l.filter (fun p => p.1 == x)).map (·.2) with
  | [] => r
  | v :: t =>
    if x == .cf then flyWrite r x (t.getLastD v)
    else
      let (w, r1) := flyPick r v t
      flyWrite r1 x w

/-- Writes the short results of a course. -/
def flyShorts (l : List (FLoc × W64)) (r : FRun) : FRun := (l.map (·.1)).eraseDups.foldl (flyShort1 l) r

/-- A course has executed: its short results are written, its long ones are on their way; a register that both write holds one of the two values (05 R134, R136). -/
def flyCourseEnd (r : FRun) (q : FOut) (k : Nat) : FRun :=
  let r1 := flyShorts q.short r
  let mark (w : FWrite) : FWrite := { w with hit := q.short.any (fun p => p.1 == w.loc) }
  let longs := q.long.map (fun (p : FPend) => { p with writes := p.writes.map mark })
  { r1 with pend := r1.pend ++ longs, courses := r1.courses + 1, next := q.jump.getD (k + 1) }

/-- The younger courses that issue before a taken micro-branch of course k resolves, at most SPEC and none with PRED_OFF; how many is a matter of time and free. They are undone, their slots are wasted, and the model leaves out the fills they may leave (05 R137; 06 R176, R185; log entry 12). `left`: the courses that follow. -/
def flyUndone (c : FWord) (x : Course) (q : FOut) (left : Nat) (r : FRun) : FRun :=
  if q.jump.isSome && !r.s.predOff c.arch then
    let (f, s) := r.s.free
    { r with s := s, undone := r.undone + f.toNat % (min (crSpec x) left + 1) }
  else r

/-- The courses of a sequence that have issued before a stop of it: an exception undoes them (06 R182, R185). -/
def flyStopped (r : FRun) : FStop → FStop
  | .exc x n => .exc x (n + r.courses + r.undone)
  | .wait o => .wait o

/-- Executes course k, which `left` others follow. -/
def flyCourse (c : FWord) (k left : Nat) (x : Course) (r : FRun) : FStep FRun :=
  let r1 := flyAwait c r (crAwait x)
  let (l, r2) := flyOperandsAll c x.slots r1
  match flyOps c l { r2 with used := r2.used + l.length } {} with
  | .error e => .error (flyStopped r e)
  | .ok (r3, q) => .ok (flyCourseEnd (flyUndone c x q left r3) q k)

/-- Executes the courses of a sequence from number k on; those before the next one are passed over (06 R176). -/
def flyCourses (c : FWord) : List Course → Nat → FRun → FStep FRun
  | [], _, r => .ok r
  | x :: t, k, r =>
    if k < r.next then flyCourses c t (k + 1) r
    else match flyCourse c k t.length x r with
      | .error e => .error e
      | .ok r1 => flyCourses c t (k + 1) r1

/-- The registers at the closing commit point (06 R184). -/
def flyArch (c : FWord) (r : FRun) : Arch :=
  { r.a with
    cf := if c.fs then r.cf.getD c.arch.cf else c.arch.cf
    fcsr := c.arch.fcsr ||| r.flags.setWidth 8
    pc := c.arch.pc + 4 }

/-- The retirement of a FOLLY word: its courses and slots in the place of one course and one slot (06 R185; 17 R513). -/
def flyRetire (r : FRun) (x : Retire) : Retire := { x with courses := r.courses, used := r.used }

/-- The closing commit point (06 R167, R184, R185); after a store to a code-seen page fetch waits for the store (05 R161). -/
def flyFinish (c : FWord) (r : FRun) : State :=
  let extra := r.courses - 1
  let s1 := r.s.updCore c.vc (fun d => { d with
    retire := [], evq := d.evq ++ List.replicate (extra + r.undone) (0x02#8, c.arch.level),
    wasted := d.wasted ++ List.replicate r.undone c.arch.level })
  let (e, s2) := waited s1 c.vc
  let evs := 0x19#8 :: (r.evs ++ e ++ List.replicate extra 0x03#8 ++ (if r.code then [0x18#8] else []))
  let old := (s2.core c.vc).arch
  let s3 := (executed s2 c.vc (flyArch c r) evs false false none none).updCore c.vc
    (fun d => { d with retire := d.retire.map (flyRetire r) })
  let s4 := traceCtx (commitCore s3 c.vc) c.vc old (flyArch c r)
  if r.code then s4.updCore c.vc awaitCode else s4

/-- Marks work past the commit point, so that a rollback by another agent shows while the sequence runs. -/
def flyMark (s : State) (vc : Vc) : State :=
  s.updCore vc (fun d => { d with retire := [{
    pc := d.spec.pc, level := d.spec.level, events := [], cond := none, ind := none, blockEnd := none }] })

/-- An uncorrectable word of the core's folly table is rewritten from the Gatehouse's copy, and the word executes again (06 R194). -/
def flyCheck (s : State) (vc : Vc) (err : Chk) : State :=
  match err with
  | .clean => s
  | .corrected => recordCorrected s 4 1 (s.pcOf vc)
  | .uncorrectable => storeError s vc

/-- Runs the sequence of an image from the commit point before the FOLLY word (06 R167, R173, R182). -/
def flyRun (s : State) (vc : Vc) (w : W32) (rd ra rb : Reg) (imm7 : BitVec 7) (img : List Byte) : Option State :=
  let (f, s1) := s.free
  let a := s1.regs vc
  let c : FWord := {
    base := s1, vc := vc, rd := rd, ra := ra, rb := rb, imm7 := imm7, fs := s1.fStyleOf a, arch := a, fills := f.getLsbD 0 }
  match flyCourses c (coursesOf img) 0 { s := flyMark s1 vc, a := a } with
  | .ok r => some (flyFinish c (flyDrain c 192 r))
  | .error (.exc x n) =>
    let s2 := s1.updCore vc (fun d => { d with
      evq := d.evq ++ List.replicate n (0x02#8, a.level), wasted := d.wasted ++ List.replicate n a.level })
    raise s2 vc (if x.cls == 0x01 then { x with addr := zext w } else x)
  | .error (.wait o) => o

/-- FOLLY: class 0x01 where the index holds no microcode or the pavilion no grant (06 R180, R192). -/
def follyRun (vc : Vc) (w : W32) (err : Chk) (op : CoreOp) (s : State) : Option State :=
  match op with
  | .folly i rd ra rb imm7 =>
    let a := s.regs vc
    match (if follyAllowed s a i.toNat then mget? s.gate.folly i.toNat else none) with
    | none => raise s vc (excIllegal a w)
    | some e => match drained s vc with
      | none => none
      | some s1 =>
        let s2 := flyCheck s1 vc err
        if s2.mode == .service then flyRun s2 vc w rd ra rb imm7 e.image else some s2
  | _ => none

/-- The word is a FOLLY. -/
def isFolly : CoreOp → Bool
  | .folly .. => true
  | _ => false

/-- FOLLY (03 R95; 06 R167). -/
def execFolly (vc : Vc) (w : W32) (err : Chk) (s : State) : Out := .next (instrRow s vc w isFolly (follyRun vc w err))

end Sys2Proof.Machine
end

