-- ==== Sys2Proof/Machine/Jtag.lean ====
section
/-! DEFINITION. The test port (18 R539; 09 R289). -/

namespace Sys2Proof.Machine

/-- The test port is powered: its balls lie on VDD_IO18. -/
def jtagUp (s : State) : Bool := s.dev.rails.getLsbD 8

/-- The identification code of the part (18 R539). -/
def idcode : Part → BitVec 640
  | .t6440i => 0x16440A67
  | _ => 0x16472A67

/-- An instruction that acts as BYPASS; its one-bit register captures 0 (PRESUMED, IEEE 1149.1; log entry 53). -/
def jtagPass (s : State) (code : BitVec 8) : State := jtagLoad s code 0xFF 0 false false

/-- An instruction that controls the balls only while PORST_N is low, and acts as BYPASS otherwise (18 R539). -/
def jtagBalls (s : State) (code : BitVec 8) (drives highz : Bool) : State :=
  if s.dev.porst then jtagLoad s code code 0 drives highz else jtagPass s code

/-- JTAG_IDCODE (18 R539). -/
def execJtagIdcode (s : State) : Out := whenTrue (jtagUp s) s (jtagLoad s 1 1 (idcode s.cmap.part) false false)

/-- JTAG_SAMPLE_PRELOAD (18 R539): the levels sampled, and the cells preloaded. -/
def execJtagSamplePreload (sample : BitVec 640) (preload : List (Nat × Bool)) (s : State) : Out :=
  let s1 := jtagLoad s 2 2 sample false false
  whenTrue (jtagUp s) s
    { s1 with jtag := { s1.jtag with chain := preload.foldl (fun m p => mput m p.1 p.2) s1.jtag.chain } }

/-- JTAG_EXTEST (18 R539). -/
def execJtagExtest (s : State) : Out := whenTrue (jtagUp s) s (jtagBalls s 3 true false)

/-- JTAG_CLAMP (18 R539). -/
def execJtagClamp (s : State) : Out := whenTrue (jtagUp s) s (jtagBalls s 4 true false)

/-- JTAG_HIGHZ (18 R539). -/
def execJtagHighz (s : State) : Out := whenTrue (jtagUp s) s (jtagBalls s 5 false true)

/-- JTAG_EXTEST_PULSE (18 R539). -/
def execJtagExtestPulse (s : State) : Out := whenTrue (jtagUp s) s (jtagBalls s 6 true false)

/-- JTAG_EXTEST_TRAIN (18 R539). -/
def execJtagExtestTrain (s : State) : Out := whenTrue (jtagUp s) s (jtagBalls s 7 true false)

/-- DBG_MEM is accepted: the booted slot has DEBUG = 1, in ASSEMBLY or SERVICE (18 R539). -/
def dbgAccepted (s : State) : Bool :=
  (match s.dev.hdr with | some h => h.debug | none => false)
    && (s.mode == .assembly || s.mode == .service) && !s.dev.porst && !s.dev.stopped

/-- A line of the channel that does not exist: the register holds a free value. -/
def dbgNone (s : State) : State :=
  let (f, s1) := s.free
  jtagLoad s1 0x40 0x40 (f.setWidth 640) false false

/-- JTAG_DBG_MEM (18 R539; 09 R289). Not accepted, it acts as BYPASS (PRESUMED, log entry 53). In a row that the fill has not reached the access waits: the data register keeps what it held until the fill passes the row (09 R293). -/
def execJtagDbgMem (c : Oct) (r : BitVec 34) (s : State) : Out :=
  whenTrue (jtagUp s) s (
    if dbgAccepted s then (if r.toNat < slotsPerChannel s.dram then dbgTake (dbgWant s c r.toNat) else dbgNone s)
    else jtagPass s 0x40)

/-- Codes with an instruction of their own (18 R539). -/
def jtagCodes : List Nat := [1, 2, 3, 4, 5, 6, 7, 0x40]

/-- JTAG_BYPASS (18 R539): 0xFF and every code that the table does not list. -/
def execJtagBypass (code : BitVec 8) (s : State) : Out :=
  whenTrue (jtagUp s && !jtagCodes.contains code.toNat) s (jtagPass s code)

/-- TEST_LOGIC_RESET (18 R539): IDCODE is loaded. -/
def execTestLogicReset (s : State) : Out := whenTrue (jtagUp s) s (jtagLoad s 1 1 (idcode s.cmap.part) false false)

end Sys2Proof.Machine
end

