-- ==== Sys2Proof/Machine/Dispatch.lean ====
section
/-! DEFINITION. The dispatch of the commands to their meanings. -/

namespace Sys2Proof.Machine

/-- The effect of a command on everything but the queue. -/
def exec (i : Instr) (s : State) : Host.Outcome State Fault Refusal :=
  match i with
  | .aluOp vc w => Sys2Proof.Machine.execAluOp vc w s
  | .alu2Op vc w => Sys2Proof.Machine.execAlu2Op vc w s
  | .muldivOp vc w => Sys2Proof.Machine.execMuldivOp vc w s
  | .riIntegerOp vc w => Sys2Proof.Machine.execRiIntegerOp vc w s
  | .load vc w err => Sys2Proof.Machine.execLoad vc w err s
  | .store vc w => Sys2Proof.Machine.execStore vc w s
  | .atomic vc w => Sys2Proof.Machine.execAtomic vc w s
  | .brCompare vc w => Sys2Proof.Machine.execBrCompare vc w s
  | .bri vc w => Sys2Proof.Machine.execBri vc w s
  | .brFlags vc w => Sys2Proof.Machine.execBrFlags vc w s
  | .j vc w => Sys2Proof.Machine.execJ vc w s
  | .call vc w => Sys2Proof.Machine.execCall vc w s
  | .callr vc w => Sys2Proof.Machine.execCallr vc w s
  | .jr vc w => Sys2Proof.Machine.execJr vc w s
  | .ret vc w => Sys2Proof.Machine.execRet vc w s
  | .fpOp vc w => Sys2Proof.Machine.execFpOp vc w s
  | .fmaOp vc w => Sys2Proof.Machine.execFmaOp vc w s
  | .folly vc w err => Sys2Proof.Machine.execFolly vc w err s
  | .sync vc w => Sys2Proof.Machine.execSync vc w s
  | .syncD vc w => Sys2Proof.Machine.execSyncD vc w s
  | .syncT vc w => Sys2Proof.Machine.execSyncT vc w s
  | .syncI vc w => Sys2Proof.Machine.execSyncI vc w s
  | .wfe vc w => Sys2Proof.Machine.execWfe vc w s
  | .eret vc w => Sys2Proof.Machine.execEret vc w s
  | .trapS vc w => Sys2Proof.Machine.execTrapS vc w s
  | .trapH vc w => Sys2Proof.Machine.execTrapH vc w s
  | .trapB vc w => Sys2Proof.Machine.execTrapB vc w s
  | .mfs vc w => Sys2Proof.Machine.execMfs vc w s
  | .mts vc w => Sys2Proof.Machine.execMts vc w s
  | .vcpuHWrite vc w => Sys2Proof.Machine.execVcpuHWrite vc w s
  | .vmidHWrite vc w => Sys2Proof.Machine.execVmidHWrite vc w s
  | .tlbiVa vc w => Sys2Proof.Machine.execTlbiVa vc w s
  | .tlbiVaa vc w => Sys2Proof.Machine.execTlbiVaa vc w s
  | .tlbiAsid vc w => Sys2Proof.Machine.execTlbiAsid vc w s
  | .tlbiIpa vc w => Sys2Proof.Machine.execTlbiIpa vc w s
  | .tlbiVmid vc w => Sys2Proof.Machine.execTlbiVmid vc w s
  | .tlbiAll vc w => Sys2Proof.Machine.execTlbiAll vc w s
  | .tlbiCompletion vc => Sys2Proof.Machine.execTlbiCompletion vc s
  | .interruptEntry vc => Sys2Proof.Machine.execInterruptEntry vc s
  | .noticeEntry vc => Sys2Proof.Machine.execNoticeEntry vc s
  | .ticketComplete vc t => Sys2Proof.Machine.execTicketComplete vc t s
  | .regionCommit vc => Sys2Proof.Machine.execRegionCommit vc s
  | .branchMispredictUndo vc => Sys2Proof.Machine.execBranchMispredictUndo vc s
  | .storeDrain vc => Sys2Proof.Machine.execStoreDrain vc s
  | .translationRequest vc => Sys2Proof.Machine.execTranslationRequest vc s
  | .regionInstall vc => Sys2Proof.Machine.execRegionInstall vc s
  | .handshakeWatchdogExpiry isl => Sys2Proof.Machine.execHandshakeWatchdogExpiry isl s
  | .coreMigration vc readable => Sys2Proof.Machine.execCoreMigration vc readable s
  | .pmuCounterOverflow vc n => Sys2Proof.Machine.execPmuCounterOverflow vc n s
  | .virqPost src => Sys2Proof.Machine.execVirqPost src s
  | .virqSendWrite vc p v => Sys2Proof.Machine.execVirqSendWrite vc p v s
  | .qosEpochStart => Sys2Proof.Machine.execQosEpochStart s
  | .arbTenureWindowStart => Sys2Proof.Machine.execArbTenureWindowStart s
  | .deviceInfo lane => Sys2Proof.Machine.execDeviceInfo lane s
  | .modeSet lane => Sys2Proof.Machine.execModeSet lane s
  | .deviceReset lane => Sys2Proof.Machine.execDeviceReset lane s
  | .deviceResetEffect boot => Sys2Proof.Machine.execDeviceResetEffect boot s
  | .voltageSet lane => Sys2Proof.Machine.execVoltageSet lane s
  | .coreVidStep => Sys2Proof.Machine.execCoreVidStep s
  | .restEnter lane => Sys2Proof.Machine.execRestEnter lane s
  | .restEntry => Sys2Proof.Machine.execRestEntry s
  | .restWake ev => Sys2Proof.Machine.execRestWake ev s
  | .pavCreate lane => Sys2Proof.Machine.execPavCreate lane s
  | .pavDestroy lane => Sys2Proof.Machine.execPavDestroy lane s
  | .pavStart lane => Sys2Proof.Machine.execPavStart lane s
  | .pavStop lane => Sys2Proof.Machine.execPavStop lane s
  | .pavReset lane => Sys2Proof.Machine.execPavReset lane s
  | .pavVcpuMap lane => Sys2Proof.Machine.execPavVcpuMap lane s
  | .pavCtlSet lane => Sys2Proof.Machine.execPavCtlSet lane s
  | .memAssign lane => Sys2Proof.Machine.execMemAssign lane s
  | .memRelease lane => Sys2Proof.Machine.execMemRelease lane s
  | .memParitySet lane => Sys2Proof.Machine.execMemParitySet lane s
  | .keepRegionSet lane => Sys2Proof.Machine.execKeepRegionSet lane s
  | .micaSet lane => Sys2Proof.Machine.execMicaSet lane s
  | .arbProfileLoad lane => Sys2Proof.Machine.execArbProfileLoad lane s
  | .sessionOpen lane => Sys2Proof.Machine.execSessionOpen lane s
  | .sessionWindowSet lane => Sys2Proof.Machine.execSessionWindowSet lane s
  | .sessionClose lane => Sys2Proof.Machine.execSessionClose lane s
  | .sessionReset lane => Sys2Proof.Machine.execSessionReset lane s
  | .arbRoleSet lane => Sys2Proof.Machine.execArbRoleSet lane s
  | .qosMemSet lane => Sys2Proof.Machine.execQosMemSet lane s
  | .qosCacheSet lane => Sys2Proof.Machine.execQosCacheSet lane s
  | .qosArbSet lane => Sys2Proof.Machine.execQosArbSet lane s
  | .qosIrqRateSet lane => Sys2Proof.Machine.execQosIrqRateSet lane s
  | .irqRouteSet lane => Sys2Proof.Machine.execIrqRouteSet lane s
  | .irqRouteClear lane => Sys2Proof.Machine.execIrqRouteClear lane s
  | .logRead lane => Sys2Proof.Machine.execLogRead lane s
  | .logClear lane => Sys2Proof.Machine.execLogClear lane s
  | .faultPolicySet lane => Sys2Proof.Machine.execFaultPolicySet lane s
  | .unitStatus lane => Sys2Proof.Machine.execUnitStatus lane s
  | .follyLoad lane => Sys2Proof.Machine.execFollyLoad lane s
  | .fwUpdateStage lane => Sys2Proof.Machine.execFwUpdateStage lane s
  | .fwActivate lane => Sys2Proof.Machine.execFwActivate lane s
  | .slateBegin lane => Sys2Proof.Machine.execSlateBegin lane s
  | .slateCommit lane => Sys2Proof.Machine.execSlateCommit lane s
  | .slateCommitInstant id => Sys2Proof.Machine.execSlateCommitInstant id s
  | .slateRollback lane => Sys2Proof.Machine.execSlateRollback lane s
  | .slateStatus lane => Sys2Proof.Machine.execSlateStatus lane s
  | .slateIdleExpiry id => Sys2Proof.Machine.execSlateIdleExpiry id s
  | .qzDisciplineSet lane => Sys2Proof.Machine.execQzDisciplineSet lane s
  | .timerAlloc lane => Sys2Proof.Machine.execTimerAlloc lane s
  | .pcieRoleSet lane => Sys2Proof.Machine.execPcieRoleSet lane s
  | .pcieVfAssign lane => Sys2Proof.Machine.execPcieVfAssign lane s
  | .traceConfig lane => Sys2Proof.Machine.execTraceConfig lane s
  | .pmuUncoreConfig lane => Sys2Proof.Machine.execPmuUncoreConfig lane s
  | .crTailDoorbell lane v => Sys2Proof.Machine.execCrTailDoorbell lane v s
  | .ringEnWrite lane v => Sys2Proof.Machine.execRingEnWrite lane v s
  | .ringCommandTake lane => Sys2Proof.Machine.execRingCommandTake lane s
  | .mbDoorbellWrite lane v => Sys2Proof.Machine.execMbDoorbellWrite lane v s
  | .mbStatRead lane => Sys2Proof.Machine.execMbStatRead lane s
  | .gatehouseRestart => Sys2Proof.Machine.execGatehouseRestart s
  | .i3cPrivateTransfer read off n ws => Sys2Proof.Machine.execI3cPrivateTransfer read off n ws s
  | .spiFrame read off n ws => Sys2Proof.Machine.execSpiFrame read off n ws s
  | .i3cSetdasa addr => Sys2Proof.Machine.execI3cSetdasa addr s
  | .i3cEntdaa addr => Sys2Proof.Machine.execI3cEntdaa addr s
  | .i3cEnec => Sys2Proof.Machine.execI3cEnec s
  | .arborOutboundAccess kind cls pa size data cmpv => Sys2Proof.Machine.execArborOutboundAccess kind cls pa size data cmpv s
  | .outboundBusCycle ses => Sys2Proof.Machine.execOutboundBusCycle ses s
  | .outboundCycleEnd resp data => Sys2Proof.Machine.execOutboundCycleEnd resp data s
  | .loopbackCycle ses => Sys2Proof.Machine.execLoopbackCycle ses s
  | .sessionCycleTimerExpiry => Sys2Proof.Machine.execSessionCycleTimerExpiry s
  | .busTimerExpiry => Sys2Proof.Machine.execBusTimerExpiry s
  | .sessionWedge ses => Sys2Proof.Machine.execSessionWedge ses s
  | .busGranted => Sys2Proof.Machine.execBusGranted s
  | .busYield => Sys2Proof.Machine.execBusYield s
  | .busRequestArbitration req => Sys2Proof.Machine.execBusRequestArbitration req s
  | .arbitrationGrantTimeout => Sys2Proof.Machine.execArbitrationGrantTimeout s
  | .inboundAddressPhase space am addr write parityOk answered => Sys2Proof.Machine.execInboundAddressPhase space am addr write parityOk answered s
  | .inboundWriteData size data parityOk timedOut => Sys2Proof.Machine.execInboundWriteData size data parityOk timedOut s
  | .inboundReadData size => Sys2Proof.Machine.execInboundReadData size s
  | .inboundRmwCycle size data => Sys2Proof.Machine.execInboundRmwCycle size data s
  | .interruptAcknowledgeCycle ai vector => Sys2Proof.Machine.execInterruptAcknowledgeCycle ai vector s
  | .ackCycleTimeout ai => Sys2Proof.Machine.execAckCycleTimeout ai s
  | .vecPop ses => Sys2Proof.Machine.execVecPop ses s
  | .iackChainPass iackIn as_ => Sys2Proof.Machine.execIackChainPass iackIn as_ s
  | .bmGo ses v => Sys2Proof.Machine.execBmGo ses v s
  | .sesRunWrite ses v => Sys2Proof.Machine.execSesRunWrite ses v s
  | .errCodeRead ses cls => Sys2Proof.Machine.execErrCodeRead ses cls s
  | .arstInput => Sys2Proof.Machine.execArstInput s
  | .backplaneResetEnd => Sys2Proof.Machine.execBackplaneResetEnd s
  | .afailInput level => Sys2Proof.Machine.execAfailInput level s
  | .arborMismatchRecovery => Sys2Proof.Machine.execArborMismatchRecovery s
  | .seqOut th w => Sys2Proof.Machine.execSeqOut th w s
  | .seqDrv th w => Sys2Proof.Machine.execSeqDrv th w s
  | .seqRel th w => Sys2Proof.Machine.execSeqRel th w s
  | .seqSmp th w lines => Sys2Proof.Machine.execSeqSmp th w lines s
  | .seqAxs th w => Sys2Proof.Machine.execSeqAxs th w s
  | .seqDly th w => Sys2Proof.Machine.execSeqDly th w s
  | .seqDlyExpiry th => Sys2Proof.Machine.execSeqDlyExpiry th s
  | .seqWt th w => Sys2Proof.Machine.execSeqWt th w s
  | .seqWtn th w => Sys2Proof.Machine.execSeqWtn th w s
  | .seqWte th w => Sys2Proof.Machine.execSeqWte th w s
  | .seqWaitComplete th lines => Sys2Proof.Machine.execSeqWaitComplete th lines s
  | .seqWaitTimeout th => Sys2Proof.Machine.execSeqWaitTimeout th s
  | .seqSig th w => Sys2Proof.Machine.execSeqSig th w s
  | .seqLde th w => Sys2Proof.Machine.execSeqLde th w s
  | .seqSte th w => Sys2Proof.Machine.execSeqSte th w s
  | .seqOpr th w => Sys2Proof.Machine.execSeqOpr th w s
  | .seqOpi th w => Sys2Proof.Machine.execSeqOpi th w s
  | .seqBr th w => Sys2Proof.Machine.execSeqBr th w s
  | .seqEnd th w => Sys2Proof.Machine.execSeqEnd th w s
  | .rdS clu line cls => Sys2Proof.Machine.execRdS clu line cls s
  | .rdCode clu line core cls => Sys2Proof.Machine.execRdCode clu line core cls s
  | .rdX clu line store cls => Sys2Proof.Machine.execRdX clu line store cls s
  | .upg clu line store cls => Sys2Proof.Machine.execUpg clu line store cls s
  | .wb clu line => Sys2Proof.Machine.execWb clu line s
  | .ncRd agent cls pa size => Sys2Proof.Machine.execNcRd agent cls pa size s
  | .ncWr agent cls line mask data => Sys2Proof.Machine.execNcWr agent cls line mask data s
  | .atom agent cls pa size op opnd cmpv => Sys2Proof.Machine.execAtom agent cls pa size op opnd cmpv s
  | .keepRd agent pa size => Sys2Proof.Machine.execKeepRd agent pa size s
  | .keepWr agent line mask data => Sys2Proof.Machine.execKeepWr agent line mask data s
  | .keepAtom agent pa size op opnd cmpv => Sys2Proof.Machine.execKeepAtom agent pa size op opnd cmpv s
  | .mrd line burst => Sys2Proof.Machine.execMrd line burst s
  | .mwr line => Sys2Proof.Machine.execMwr line s
  | .parityWriteGroup row => Sys2Proof.Machine.execParityWriteGroup row s
  | .codeMark page => Sys2Proof.Machine.execCodeMark page s
  | .codeSet slice page => Sys2Proof.Machine.execCodeSet slice page s
  | .codeClr slice page => Sys2Proof.Machine.execCodeClr slice page s
  | .codeQuery page => Sys2Proof.Machine.execCodeQuery page s
  | .fwdS clu line => Sys2Proof.Machine.execFwdS clu line s
  | .fwdX clu line => Sys2Proof.Machine.execFwdX clu line s
  | .fwdRd clu line => Sys2Proof.Machine.execFwdRd clu line s
  | .inv clu line => Sys2Proof.Machine.execInv clu line s
  | .binv clu line => Sys2Proof.Machine.execBinv clu line s
  | .drop clu page => Sys2Proof.Machine.execDrop clu page s
  | .kinv line => Sys2Proof.Machine.execKinv line s
  | .ack dst line => Sys2Proof.Machine.execAck dst line s
  | .fwdAck clu line => Sys2Proof.Machine.execFwdAck clu line s
  | .notHeld clu line => Sys2Proof.Machine.execNotHeld clu line s
  | .grant clu line => Sys2Proof.Machine.execGrant clu line s
  | .cmp clu line => Sys2Proof.Machine.execCmp clu line s
  | .wbAck clu line => Sys2Proof.Machine.execWbAck clu line s
  | .nack agent line => Sys2Proof.Machine.execNack agent line s
  | .retry agent line => Sys2Proof.Machine.execRetry agent line s
  | .done agent line => Sys2Proof.Machine.execDone agent line s
  | .dropAck clu page => Sys2Proof.Machine.execDropAck clu page s
  | .data clu line => Sys2Proof.Machine.execData clu line s
  | .dataH clu line => Sys2Proof.Machine.execDataH clu line s
  | .mdata line => Sys2Proof.Machine.execMdata line s
  | .adata agent line => Sys2Proof.Machine.execAdata agent line s
  | .fabricAckTimeout link stop => Sys2Proof.Machine.execFabricAckTimeout link stop s
  | .cacheWayRetire home k way => Sys2Proof.Machine.execCacheWayRetire home k way s
  | .homeSliceRebuild k => Sys2Proof.Machine.execHomeSliceRebuild k s
  | .channelSwitchover c => Sys2Proof.Machine.execChannelSwitchover c s
  | .channelRetrain c ok => Sys2Proof.Machine.execChannelRetrain c ok s
  | .channelRebuildEnd => Sys2Proof.Machine.execChannelRebuildEnd s
  | .belvederePairRestart b => Sys2Proof.Machine.execBelvederePairRestart b s
  | .pcieLaneRetrain port link width => Sys2Proof.Machine.execPcieLaneRetrain port link width s
  | .linkRetest link ok => Sys2Proof.Machine.execLinkRetest link ok s
  | .pcieUpconfig port link width => Sys2Proof.Machine.execPcieUpconfig port link width s
  | .belvedereEntry cause => Sys2Proof.Machine.execBelvedereEntry cause s
  | .gatehouseHeartbeatTimeout => Sys2Proof.Machine.execGatehouseHeartbeatTimeout s
  | .railOutOfRange rail => Sys2Proof.Machine.execRailOutOfRange rail s
  | .refclkLoss => Sys2Proof.Machine.execRefclkLoss s
  | .tjSensorSample isl temp => Sys2Proof.Machine.execTjSensorSample isl temp s
  | .tjPeakRead lane => Sys2Proof.Machine.execTjPeakRead lane s
  | .thermalTrip isl temp => Sys2Proof.Machine.execThermalTrip isl temp s
  | .dramScrub c burst => Sys2Proof.Machine.execDramScrub c burst s
  | .cacheScrub arr err => Sys2Proof.Machine.execCacheScrub arr err s
  | .dramRefresh c hot => Sys2Proof.Machine.execDramRefresh c hot s
  | .dqsDriftTrack c => Sys2Proof.Machine.execDqsDriftTrack c s
  | .dramFill rows => Sys2Proof.Machine.execDramFill rows s
  | .hypervisorCopy shaOk => Sys2Proof.Machine.execHypervisorCopy shaOk s
  | .porstNAssert => Sys2Proof.Machine.execPorstNAssert s
  | .porstNRelease boot => Sys2Proof.Machine.execPorstNRelease boot s
  | .quartzPllLock => Sys2Proof.Machine.execQuartzPllLock s
  | .assemblyEntry => Sys2Proof.Machine.execAssemblyEntry s
  | .vddIo18Up => Sys2Proof.Machine.execVddIo18Up s
  | .qzPpsInEdge rising at_ => Sys2Proof.Machine.execQzPpsInEdge rising at_ s
  | .ppsHoldover => Sys2Proof.Machine.execPpsHoldover s
  | .qzPpsOutPulse => Sys2Proof.Machine.execQzPpsOutPulse s
  | .qzPpsOutFall => Sys2Proof.Machine.execQzPpsOutFall s
  | .timerTick ch => Sys2Proof.Machine.execTimerTick ch s
  | .timerWrap ch => Sys2Proof.Machine.execTimerWrap ch s
  | .timerCompareEvent ch => Sys2Proof.Machine.execTimerCompareEvent ch s
  | .tgGateChange src level => Sys2Proof.Machine.execTgGateChange src level s
  | .tmrCmpWrite cls ch v => Sys2Proof.Machine.execTmrCmpWrite cls ch v s
  | .tmrCntWrite cls ch v => Sys2Proof.Machine.execTmrCntWrite cls ch v s
  | .tmrCtlWrite cls ch v => Sys2Proof.Machine.execTmrCtlWrite cls ch v s
  | .holdRegisterRead vc cls pa => Sys2Proof.Machine.execHoldRegisterRead vc cls pa s
  | .traceSinkWrite => Sys2Proof.Machine.execTraceSinkWrite s
  | .tfRptrWrite high v => Sys2Proof.Machine.execTfRptrWrite high v s
  | .tfFlush v => Sys2Proof.Machine.execTfFlush v s
  | .tracePacketArrival => Sys2Proof.Machine.execTracePacketArrival s
  | .pcieInboundWrite port link fn addr size data poisoned => Sys2Proof.Machine.execPcieInboundWrite port link fn addr size data poisoned s
  | .pcieInboundRead port link fn addr size => Sys2Proof.Machine.execPcieInboundRead port link fn addr size s
  | .pcieInboundAtomicop port link fn addr size op opnd cmpv => Sys2Proof.Machine.execPcieInboundAtomicop port link fn addr size op opnd cmpv s
  | .pcieMsiMessage port link fn data => Sys2Proof.Machine.execPcieMsiMessage port link fn data s
  | .pcieCompletion port link ok data => Sys2Proof.Machine.execPcieCompletion port link ok data s
  | .pcieCompletionTimeout port link => Sys2Proof.Machine.execPcieCompletionTimeout port link s
  | .msixSend port link cls fn v => Sys2Proof.Machine.execMsixSend port link cls fn v s
  | .pciePerstInput port link asserted hot => Sys2Proof.Machine.execPciePerstInput port link asserted hot s
  | .rootPerstRelease port => Sys2Proof.Machine.execRootPerstRelease port s
  | .flrComplete port link fn => Sys2Proof.Machine.execFlrComplete port link fn s
  | .jtagIdcode => Sys2Proof.Machine.execJtagIdcode s
  | .jtagSamplePreload sample preload => Sys2Proof.Machine.execJtagSamplePreload sample preload s
  | .jtagExtest => Sys2Proof.Machine.execJtagExtest s
  | .jtagClamp => Sys2Proof.Machine.execJtagClamp s
  | .jtagHighz => Sys2Proof.Machine.execJtagHighz s
  | .jtagExtestPulse => Sys2Proof.Machine.execJtagExtestPulse s
  | .jtagExtestTrain => Sys2Proof.Machine.execJtagExtestTrain s
  | .jtagDbgMem c r => Sys2Proof.Machine.execJtagDbgMem c r s
  | .jtagBypass code => Sys2Proof.Machine.execJtagBypass code s
  | .registerWrite vc cls pa v => Sys2Proof.Machine.execRegisterWrite vc cls pa v s
  | .illegalInstruction vc w => Sys2Proof.Machine.execIllegalInstruction vc w s
  | .wfeReturnWithoutEvent vc => Sys2Proof.Machine.execWfeReturnWithoutEvent vc s
  | .restEntryWaitExpiry => Sys2Proof.Machine.execRestEntryWaitExpiry s
  | .supplyInRange rail boot => Sys2Proof.Machine.execSupplyInRange rail boot s
  | .arstNRise => Sys2Proof.Machine.execArstNRise s
  | .channelRebuildRow => Sys2Proof.Machine.execChannelRebuildRow s
  | .pcieLinkUp port link speed width => Sys2Proof.Machine.execPcieLinkUp port link speed width s
  | .pcieInboundConfigRequest port link fn reg write => Sys2Proof.Machine.execPcieInboundConfigRequest port link fn reg write s
  | .testLogicReset => Sys2Proof.Machine.execTestLogicReset s
  | .rcRegisterRead vc cls pa => Sys2Proof.Machine.execRcRegisterRead vc cls pa s

end Sys2Proof.Machine
end

