-- ==== Sys2Proof/Machine/Idle.lean ====
section
/-! DEFINITION. What the block does on an empty queue: time passes, and what waits for nothing else goes on (01 R24; 05 R164; 11 R349; 16 R482; DESIGN CHOICE, log entry 1). -/

namespace Sys2Proof.Machine

/-- The REPAIR episode ends: its recoveries have run (01 R24; 15 R465 step 7; 09 R294 step 5). -/
def endRepair (s : State) : State := if s.mode == .repair then { s with dev := { s.dev with mode := .service } } else s

/-- The posted writes in the receive order of every PCI Express link go on, after what the link held in REST (05 R164; 14 R445). -/
def drainLinks (s : State) : State :=
  [false, true].foldl (fun t p => (mkeys (t.port p).links).foldl (fun u l => drainRx (deliverHeld u p l) p l) t) s

/-- One idle step: Quartz counts a nanosecond where it is locked, a REPAIR episode ends, losses of channels that have waited are taken up (15 R468, R478), the messages in flight move on by a link (08 R250), posted inbound writes drain. -/
def idle (s : State) : State := drainLinks (drainInbound (moveAll (takeLosses (endRepair (quartzTick s)))))

end Sys2Proof.Machine
end

