-- ==== Sys2Proof/Machine/Header.lean ====
section
/-! DEFINITION. How the fabric carries what the model's messages say: type codes, ends, header, trailer; and the layout of a directory entry (08 R232, R233, R245, R256). -/

namespace Sys2Proof.Machine

/-- TYPE of a request: class REQ and its code (08 R245). -/
def reqType : ReqKind → BitVec 8
  | .rdS => 0x01
  | .rdCode => 0x02
  | .rdX => 0x03
  | .upg => 0x04
  | .wb => 0x05
  | .ncRd => 0x06
  | .ncWr => 0x07
  | .atom => 0x08

/-- TYPE of a keep-region request (08 R245). -/
def keepType : ReqKind → BitVec 8
  | .ncWr => 0x0A
  | .atom => 0x0B
  | _ => 0x09

/-- TYPE of MWR, which a controller takes with its row (08 R245). -/
def mwrType : BitVec 8 := 0x0D

/-- TYPE of a message: its class in [7:6], its code in [5:0] (08 R233, R245). -/
def msgType : Msg → BitVec 8
  | .wb .. => 0x05
  | .mrd .. => 0x0C
  | .codeMark .. => 0x10
  | .codeSet .. => 0x11
  | .codeClr .. => 0x12
  | .codeQuery .. => 0x13
  | .fwdS .. => 0x41
  | .fwdX .. => 0x42
  | .fwdRd .. => 0x43
  | .inv .. => 0x44
  | .binv .. => 0x45
  | .drop .. => 0x46
  | .kinv .. => 0x47
  | .ack .. => 0x81
  | .fwdAck .. => 0x82
  | .notHeld .. => 0x83
  | .grant .. => 0x84
  | .cmp .. => 0x85
  | .wbAck .. => 0x86
  | .nack .. => 0x87
  | .retry .. => 0x88
  | .done .. | .codeDone .. => 0x89
  | .dropAck .. => 0x8A
  | .data .. => 0xC1
  | .dataH .. => 0xC2
  | .mdata .. => 0xC3
  | .adata .. => 0xC4

/-- DST of a request (08 R245). -/
def reqDst (s : State) (r : Req) : Agent := if inKeep s (r.line.toNat * 64) then 30 else homeAgent (s.homeNo r.line)

/-- Code of a granted state in INFO; the manual names no codes (DESIGN CHOICE, log entry 80). -/
def grantCode : L2St → BitVec 4
  | .s => 1
  | .e => 2
  | .m => 3
  | .o => 4

/-- INFO of a message: granted state, acknowledgement count, or response code. The manual does not say how DATA's two share the byte, nor where NACK's token stands: the count takes [3:0] and the state [7:4], and 1 is a token (DESIGN CHOICE, log entry 80). -/
def msgInfo : Msg → BitVec 8
  | .fwdAck _ _ i => BitVec.ofNat 8 i
  | .grant _ _ n | .fwdX _ _ _ n | .inv _ _ _ n => BitVec.ofNat 8 n
  | .data _ _ _ st n _ => grantCode st ++ BitVec.ofNat 4 n
  | .nack _ _ t => if t then 1 else 0
  | _ => 0

/-- The line or the page that a message names, as PA[47:0]. -/
def msgAddr (m : Msg) : BitVec 48 :=
  match msgPage m, msgLine m with
  | some p, none => p ++ 0#12
  | _, some l => l ++ 0#6
  | none, none => 0

/-- The line data that a message carries behind its header (08 R233). -/
def msgPayload : Msg → Option Line
  | .wb _ _ d _ | .data _ _ d _ _ _ | .dataH _ _ d _ | .mdata _ d => some d
  | .adata _ _ v => some (v.setWidth 512)
  | _ => none

/-- DIRTY of a message (08 R233). -/
def msgDirty : Msg → Bool
  | .wb .. => true
  | .dataH _ _ _ b | .data _ _ _ _ _ b => b
  | _ => false

/-- The message header (08 R233). -/
structure Header where
  type : BitVec 8
  src : Agent
  dst : Agent
  dirty : Bool
  payload : Bool
  cls : ClassId
  tag : BitVec 16
  info : BitVec 8
  addr : BitVec 48
  size : BitVec 8
  seq : BitVec 8
  deriving DecidableEq, Repr

/-- FLAGS: DIRTY, PAYLOAD, HYP, DEV (08 R233). -/
def Header.flags (h : Header) : BitVec 8 :=
  BitVec.ofNat 8 (h.dirty.toNat + 2 * h.payload.toNat + 4 * (h.cls == hypClass).toNat + 8 * (h.cls == devClass).toNat)

/-- The sixteen bytes of a header, byte 0 in the low bits (08 R233). -/
def Header.word (h : Header) : BitVec 128 :=
  let vmid : BitVec 8 := if h.cls = hypClass ∨ h.cls = devClass then 0 else h.cls.setWidth 8
  h.seq ++ h.size ++ h.addr ++ vmid ++ h.info ++ h.tag ++ h.flags ++ h.dst.setWidth 8 ++ h.src.setWidth 8 ++ h.type

/-- The header of a message on its way (08 R233). -/
def msgHeader (s : State) (p : FabMsg) : Header :=
  { type := msgType p.msg, src := p.src, dst := msgDst s p.msg, dirty := msgDirty p.msg, payload := (msgPayload p.msg).isSome, cls := p.cls,
    tag := p.tag, info := msgInfo p.msg, addr := msgAddr p.msg, size := 0, seq := p.seq }

/-- The header of a request (08 R233): SIZE is the size of an uncached access, with the operation code of an atomic. -/
def reqHeader (s : State) (seq : BitVec 8) (r : Req) : Header :=
  let keep := inKeep s (r.line.toNat * 64)
  let nc := r.kind == .ncRd || r.kind == .ncWr || r.kind == .atom
  { type := if keep then keepType r.kind else reqType r.kind, src := r.src, dst := reqDst s r, dirty := false,
    payload := r.kind == .ncWr || r.kind == .atom, cls := r.cls, tag := r.tag, info := 0,
    addr := (r.line ++ 0#6) + (if nc then BitVec.ofNat 48 r.off else 0),
    size := if r.kind == .atom then BitVec.ofNat 8 (r.size + 16 * r.op.toNat) else if nc then BitVec.ofNat 8 r.size else 0, seq := seq }

/-- One bit of a CRC-32C, in its reflected form (the polynomial and the form are those that the name CRC-32C has outside the manual: PRESUMED, log entry 80). -/
def castagnoliBit (c : BitVec 32) : BitVec 32 := if c.getLsbD 0 then (c >>> 1) ^^^ 0x82F63B78#32 else c >>> 1

/-- One byte of a CRC-32C. -/
def castagnoliByte (c : BitVec 32) (b : Byte) : BitVec 32 := (List.range 8).foldl (fun a _ => castagnoliBit a) (c ^^^ b.setWidth 32)

/-- CRC-32C of n bytes of a word, byte 0 first. -/
def crc32c (w : Nat) (n : Nat) : BitVec 32 :=
  ~~~ ((List.range n).foldl (fun a i => castagnoliByte a (BitVec.ofNat 8 (w / 256 ^ i))) 0xFFFFFFFF#32)

/-- The trailer of a message: the CRC of its header and, where it carries a line, of the 64 bytes and the byte mask (08 R233). -/
def trailer (h : Header) (data : Option (Line × BitVec 64)) : BitVec 32 :=
  match data with
  | none => crc32c h.word.toNat 16
  | some (d, m) => crc32c (h.word.toNat + 2 ^ 128 * d.toNat + 2 ^ 640 * m.toNat) 88

/-- The 48 bits of information of a directory entry (08 R256). -/
def dirBits (e : DirEntry) (busy : Bool) (l : LineNo) : BitVec 48 :=
  let st : BitVec 2 := match e.st with
    | .ds => 1
    | .dx => 2
    | .do_ => 3
  (0#3) ++ (l.extractLsb' 12 30) ++ BitVec.ofBool e.nru ++ BitVec.ofBool busy ++ (if e.st == .ds then 0#3 else e.owner) ++ e.sharers ++ st

/-- The directory entry of a line as its store holds it: zero where it is free, with its check bits (08 R256). -/
def dirWord (s : State) (l : LineNo) : BitVec 56 :=
  let k := s.homeNo l
  let b : BitVec 48 := match s.dirOf k l with
    | none => 0
    | some e => dirBits e (s.txnOf k l).isSome l
  Config.dirCheck b ++ b

end Sys2Proof.Machine
end

