-- ==== Sys2Proof/Safety.lean ====
section
/-! DEFINITION. What claims are stated in: a safe step, a core that may execute its next word, what an executed instruction leaves alone, quiet instruments. -/

namespace Sys2Proof.Machine

/-- The step of a state neither faults nor is refused. -/
def Safe (s : State) : Prop := ∃ t, step s = .next t

/-- The word `w` at the PC of core `vc` may execute now, as the operation `op`: the core runs and is not suspended (14 R441, 02 R60), its window has room (05 R142, R143), no pending interrupt must be taken first (02 R59), the fetch at PC finds the word executable and leaves `s1` (`en`: it has entered a region), the word decodes under the style in force (03 R74, R98), and no outstanding ticket holds a register of it (05 R135). -/
structure Ready (s : State) (vc : Vc) (w : W32) (op : CoreOp) (s1 : State) (en : Bool) : Prop where
  awake : (s.core vc).wfe = false
  runs : coreRuns s vc = true
  window : windowOpen (s.core vc) = true
  open_ : irqOpen s (s.core vc) = true
  fetched : fetchAt s vc = .ok s1 en
  decoded : decodeCore (s1.fStyleOf (s1.core vc).spec) w = some op
  operands : awaits (s1.core vc) op = false

/-- The same where the word decodes to nothing: it is illegal by its encoding (03 R98). -/
structure ReadyIllegal (s : State) (vc : Vc) (w : W32) (s1 : State) (en : Bool) : Prop where
  awake : (s.core vc).wfe = false
  runs : coreRuns s vc = true
  window : windowOpen (s.core vc) = true
  open_ : irqOpen s (s.core vc) = true
  fetched : fetchAt s vc = .ok s1 en
  undecoded : decodeCore (s1.fStyleOf (s1.core vc).spec) w = none

/-- A core without its shadow registers and without what every executed instruction changes: the list of what has executed, the place in the block and the region, the events that wait to be counted, the age of a pending interrupt. -/
def aside (c : Core) : Core :=
  { c with spec := {}, retire := [], entry := false, codeWait := false, block := none, region := none, rix := 0, evq := [], irqAge := 0 }

/-- Nothing outside core `vc` has changed. -/
structure OnlyCore (vc : Vc) (s t : State) : Prop where
  others : ∀ v, v ≠ vc → t.core v = s.core v
  device : t = { s with cores := t.cores }

/-- An instruction of core `vc` has executed from `s` to `t`: the registers that the next instruction reads are `a`, every other register of the core, its store buffer, translation caches and instruments are as they were, and nothing outside the core has changed. -/
structure Executes (vc : Vc) (s t : State) (a : Arch) : Prop where
  regs : (t.core vc).spec = a
  rest : aside (t.core vc) = aside (s.core vc)
  outside : OnlyCore vc s t

/-- A long operation of core `vc` has taken a ticket that was free, in step mode the lowest: it now holds what the operation will write, PC has moved on, and nothing else has changed (05 R135). -/
structure TakesTicket (vc : Vc) (s t : State) (x : Ticket) : Prop where
  regs : (t.core vc).spec = { (s.core vc).spec with pc := (s.core vc).spec.pc + 4 }
  ticket : ∃ k, k < 16 ∧ mget? (s.core vc).tickets k = none
    ∧ ((s.core vc).region = none → ∀ j, j < k → (mget? (s.core vc).tickets j).isSome)
    ∧ (t.core vc).tickets = mput (s.core vc).tickets k x
  rest : aside { t.core vc with tickets := [] } = aside { s.core vc with tickets := [] }
  outside : OnlyCore vc s t

/-- A long operation finds its ticket free: the one of its course in a region, any of the 16 elsewhere (05 R135, R139). -/
def ticketFree (c : Core) : Prop :=
  match (courseNow c).bind (·.ticket) with
  | some k => mget? c.tickets k.toNat = none
  | none => ∃ k, k < 16 ∧ mget? c.tickets k = none

/-- The counters and the encoder of a core are off: PMU_CTL.EN and TRC_CTL.EN are 0 (17 R506, R517). -/
structure InstrumentsOff (s : State) (vc : Vc) : Prop where
  pmu : (s.core vc).pmu.ctl.getLsbD 0 = false
  trc : (s.core vc).trc.ctl.getLsbD 0 = false

/-- Both copies of a core's registers are `a`: they are architectural. -/
def Settled (t : State) (vc : Vc) (a : Arch) : Prop := (t.core vc).arch = a ∧ (t.core vc).spec = a

/-- The ALU table (03 R79). -/
def aluTable (fn : AluFn) (x y : W64) : W64 :=
  match fn with
  | .add => x + y
  | .sub => x - y
  | .and => x &&& y
  | .or => x ||| y
  | .xor => x ^^^ y
  | .andn => x &&& ~~~ y
  | .slt => if x.toInt < y.toInt then 1 else 0
  | .sltu => if x.toNat < y.toNat then 1 else 0
  | .sll => x <<< (y.toNat % 64)
  | .srl => x >>> (y.toNat % 64)
  | .sra => x.sshiftRight (y.toNat % 64)
  | .ror => x.rotateRight (y.toNat % 64)

/-- A sum or difference leaves the signed 64-bit range. -/
def outOfRange (z : Int) : Bool := decide (z < -(2 ^ 63) ∨ 2 ^ 63 ≤ z)

/-- The flag table for the ALU operations (03 R82), CF from the operands and CF as it stood. -/
def aluFlagTable (fn : AluFn) (x y : W64) (old : BitVec 4) : BitVec 4 :=
  let r := aluTable fn x y
  let n := y.toNat % 64
  let c : Bool := match fn with
    | .add => decide (2 ^ 64 ≤ x.toNat + y.toNat)
    | .sub => decide (y.toNat ≤ x.toNat)
    | .sll => if n = 0 then cfC old else x.getLsbD (64 - n)
    | .srl | .sra => if n = 0 then cfC old else x.getLsbD (n - 1)
    | .ror => if n = 0 then cfC old else r.getLsbD 63
    | .and | .or | .xor | .andn | .slt | .sltu => cfC old
  let v : Bool := match fn with
    | .add => outOfRange (x.toInt + y.toInt)
    | .sub => outOfRange (x.toInt - y.toInt)
    | _ => cfV old
  cfMk (r.getLsbD 63) (r == 0) c v

/-- The C-style conditions (02 R41). -/
def condTable (cc : BitVec 3) (x y : W64) : Bool :=
  match cc.toNat with
  | 0 => decide (x = y)
  | 1 => decide (x ≠ y)
  | 2 => decide (x.toInt < y.toInt)
  | 3 => decide (y.toInt ≤ x.toInt)
  | 4 => decide (x.toNat < y.toNat)
  | 5 => decide (y.toNat ≤ x.toNat)
  | 6 => x.getLsbD (y.toNat % 64)
  | _ => !x.getLsbD (y.toNat % 64)

/-- The F-style conditions (02 R42); 0b1111 is no condition. -/
def flagCondTable (cc : BitVec 4) (f : BitVec 4) : Bool :=
  match cc.toNat with
  | 0 => cfZ f
  | 1 => cfC f
  | 2 => cfN f
  | 3 => cfV f
  | 4 => cfC f && !cfZ f
  | 5 => decide (cfN f = cfV f)
  | 6 => !cfZ f && decide (cfN f = cfV f)
  | 7 => true
  | 8 => !cfZ f
  | 9 => !cfC f
  | 10 => !cfN f
  | 11 => !cfV f
  | 12 => !cfC f || cfZ f
  | 13 => decide (cfN f ≠ cfV f)
  | _ => cfZ f || decide (cfN f ≠ cfV f)

/-- The registers where a branch goes: `target` where it is taken, else the next instruction. -/
def branchOut (a : Arch) (taken : Bool) (target : W64) : Arch := { a with pc := if taken then target else a.pc + 4 }

/-- A control transfer of core `vc` has executed from `s` to `t` toward the registers `a`: either the next instruction reads them, or it was predicted wrongly, and they wait at the end of the list of branches to undo (05 R145, R149, R151). Every other register of the core, its store buffer and its instruments are as they were, and nothing outside the core has changed. -/
structure Transfers (vc : Vc) (s t : State) (a : Arch) : Prop where
  goes : ((t.core vc).spec = a ∧ (t.core vc).ckpts = (s.core vc).ckpts)
    ∨ ((∃ p, (t.core vc).spec = { a with pc := p }) ∧ ∃ k, k.actual = a ∧ (t.core vc).ckpts = (s.core vc).ckpts ++ [k])
  rest : aside { t.core vc with ckpts := [], micro := { (t.core vc).micro with ghist := 0, ras := [] } }
    = aside { s.core vc with ckpts := [], micro := { (s.core vc).micro with ghist := 0, ras := [] } }
  outside : OnlyCore vc s t

/-- Stores of core `vc` have entered its store buffer, and the next instruction reads the registers `a`; nothing else of the core but its return-address stack has changed, and nothing outside it (05 R142). -/
structure Stores (vc : Vc) (s t : State) (a : Arch) (es : List SbEntry) : Prop where
  regs : (t.core vc).spec = a
  buffer : (t.core vc).sb = (s.core vc).sb ++ es
  rest : aside { t.core vc with sb := [], micro := { (t.core vc).micro with ras := [] } }
    = aside { s.core vc with sb := [], micro := { (s.core vc).micro with ras := [] } }
  outside : OnlyCore vc s t

/-- The exception registers of the level that takes an exception. -/
def bankAt (a : Arch) (l : Level) : ExcBank := if l = .h then a.excH else a.excS

/-- CSTAT.IE of that level. -/
def ieAt (a : Arch) (l : Level) : Bool := if l = .h then a.ieH else a.ieS

/-- The registers `a` are those that an exception leaves when a core with the registers `old` takes it (02 R51): class, detail and address in the syndrome, EPC, the saved status, IE cleared, the level and the vector; `fs`: F-style was in force. Every other register is as it was. -/
structure TakenAs (old a : Arch) (fs : Bool) (cls : BitVec 6) (detail : BitVec 26) (addr epc : W64) (l : Level) (offset : W64) : Prop where
  esynClass : (bankAt a l).esyn.extractLsb' 0 6 = cls
  esynDetail : (bankAt a l).esyn.extractLsb' 6 26 = detail
  eaddr : (bankAt a l).eaddr = addr
  epc : (bankAt a l).epc = epc &&& ~~~ 3#64
  ppl : (bankAt a l).estat.extractLsb' 0 2 = levelCode old.level
  pie : (bankAt a l).estat.getLsbD 2 = ieAt old l
  pcf : (bankAt a l).estat.extractLsb' 4 4 = if fs then old.cf else 0
  ie : ieAt a l = false
  level : a.level = l
  pc : a.pc = (bankAt old l).evb + offset
  bank : (bankAt a l).evb = (bankAt old l).evb ∧ (bankAt a l).scratch = (bankAt old l).scratch
  other : if l = .h then a.excS = old.excS ∧ a.ieS = old.ieS else a.excH = old.excH ∧ a.ieH = old.ieH
  rest : a.g = old.g ∧ a.spU = old.spU ∧ a.spS = old.spS ∧ a.spH = old.spH ∧ a.f = old.f ∧ a.cf = old.cf ∧ a.fcsr = old.fcsr
    ∧ a.tr = old.tr ∧ a.vcpu = old.vcpu ∧ a.run = old.run ∧ a.refused = old.refused

/-- The vector offset (02 R50): 0x000 and 0x100 from the level that takes it, 0x200 and 0x300 from a lower one, 0x400 for a notice. -/
def vectorTable (old new : Level) (irq : Bool) : W64 :=
  if old = new then (if irq then 0x100 else 0x000) else (if irq then 0x300 else 0x200)

/-- A core is ready for an instruction of the SYS group: everything older has completed, no store is buffered, its instruments are off, and it is in step mode (03 R97). -/
structure SysReady (s : State) (vc : Vc) : Prop where
  complete : canCommit (s.core vc) = true
  stores : (s.core vc).sb = []
  off : InstrumentsOff s vc
  step : (s.core vc).region = none

/-- A lane's command came by its mailbox, and the lane posts no completion (13 R405, R410). -/
structure ByMailbox (s : State) (n : LaneNo) : Prop where
  mailbox : (s.lane n).curRing = false
  quiet : (s.lane n).postEn = false

/-- The lane shows command `p` of opcode `c.op`, and it passes the checks 2 to 7 of R415 with its own packet checks; no commit is armed. -/
structure Passes (s : State) (n : LaneNo) (c : CmdSpec) (p : Packet) (own : List (Nat × Bool)) : Prop where
  shown : presented s n c.op = some p
  early : earlyChecks s n c p false own = none
  alone : armedAny s = false

/-- The same for a command that changes no configuration: a commit that is armed does not hold it up (13 R404). -/
structure Heard (s : State) (n : LaneNo) (c : CmdSpec) (p : Packet) (own : List (Nat × Bool)) : Prop where
  shown : presented s n c.op = some p
  early : earlyChecks s n c p false own = none

/-- Nothing is under way that a recovery ends or stops first: no REST nor an entry into it, and no commit (13 R428; 14 R443, R446). -/
structure AtWork (s : State) : Prop where
  mode : s.mode ≠ .rest
  entry : s.gate.restReq = none
  armed : armedAny s = false
  commit : ∀ n, mayCommit s n = false

/-- The log holds a record of the class, with the action, of the unit (15 R479). -/
def Logged (t : State) (cls action ukind : BitVec 8) (index : Nat) : Prop :=
  ∃ r ∈ t.gate.log, r.cls = cls ∧ r.action = action ∧ r.ukind = ukind ∧ r.uindex = BitVec.ofNat 16 index

/-- The device is in BELVEDERE as R473 leaves it: islands stopped, DRAM in self-refresh where its supplies are good, the port with Belvedere, no slate, SAFE at the levels of its port block where VDD_IO18 is in range. -/
structure InBelvedere (t : State) : Prop where
  mode : t.mode = .belvedere
  stopped : t.dev.stopped = true
  refresh : t.dev.rails &&& 0x33 = 0x33 → t.dram.selfRefresh = true
  engine : t.arb.engine = 2
  slates : t.gate.slates = []
  safe : t.dev.safeOut = if t.dev.rails.getLsbD 8 then some t.dev.blv.safe else none

/-- The oldest message in flight for a line or its page is `m`, with a tag, and `u` is the state in which it has arrived: its stops have checked, noted and acknowledged it (08 R233, R234). -/
def FirstOf (s : State) (l : LineNo) (m : Msg) (tag : BitVec 16) (u : State) : Prop :=
  ∃ as bs p, s.fab.net = as ++ p :: bs ∧ (∀ x ∈ as, msgFor l x.msg = false) ∧ p.msg = m ∧ p.tag = tag ∧ u = arrive s p (as ++ bs)

/-- The same, whatever the tag. -/
def First (s : State) (l : LineNo) (m : Msg) (u : State) : Prop := ∃ tag, FirstOf s l m tag u

/-- Nothing waits at a home slice: its conflict queue is empty, it holds no token, no CODE_SET is unanswered, no request that it refused without a token is to come again, and no read waits for a budget (08 R248, R258, R260; 10 R322). -/
structure HomeCalm (s : State) (h : Nat) : Prop where
  queue : (s.home h).confq = []
  tokens : (s.home h).tokens = []
  sets : (s.home h).sets = []
  left : ∀ q ∈ s.fab.retryq, q.2 = true ∨ s.homeNo q.1.line ≠ h
  held : ∀ q ∈ s.fab.heldReads, s.homeNo q.line ≠ h

/-- The home of a line is idle: no transaction on the line, and nothing waits there (08 R248). -/
structure HomeIdle (s : State) (l : LineNo) : Prop where
  txn : s.txnOf (s.homeNo l) l = none
  calm : HomeCalm s (s.homeNo l)

/-- The set of a cluster L2 that a line belongs to holds the line, or has a way for it (08 R230). -/
def L2Fits (s : State) (k : Nat) (l : LineNo) : Prop := (s.l2 k l).isSome ∨ (l2Set (s.cluster k) l).length < l2Ways (s.cluster k)

/-- The page of a session after an outbound error at bus address `addr`: counted, captured with the Quartz time where ERR_CODE is zero, and a store that had no cycle counted in DISCARDS (11 R362). -/
def pageAfterError (e : Session) (code : ArbErr) (addr : W64) (now : Nat) (discard : Bool) : Session :=
  let e1 := { e with errCount := satAdd32 e.errCount 1, discards := if discard then satAdd32 e.discards 1 else e.discards }
  if e.errCode = .none then { e1 with errCode := code, errAddr := addr, errTime := BitVec.ofNat 64 now } else e1

/-- A session beside which nothing waits at Arbor: no reset of it is under way, no access waits for room, the inbound write buffer is empty. -/
structure SesQuiet (s : State) (n : Ses) : Prop where
  wait : (s.ses n).wait = none
  room : s.arb.waiting = []
  inbound : s.arb.inbuf = []

/-- Thread `th` of the step sequencer executes the word `w` of operation `op` now: the threads run, it waits for nothing, the encoding stands in the table, and the word stands at the program counter of a profile whose microcode is known (12 R379, R382). -/
structure SeqAt (s : State) (th : Thread) (w : W32) (op : Nat) : Prop where
  running : s.arb.running = true
  power : s.dev.porst = false
  ready : (s.thread th).wait = .ready
  kind : (w.extractLsb' 26 6).toNat = op
  legal : sqLegal w = true
  here : ∃ p, s.arb.prof = some p ∧ (p.insn = [] ∨ p.insn[(s.thread th).pc.toNat]? = some w)

/-- The state in which the sequencer word acts: the thread's program counter has moved on. -/
def seqNext (s : State) (th : Thread) : State := s.setThread th { s.thread th with pc := (s.thread th).pc + 1 }

/-- A thread may drive the group: off the data path always, on it only while it holds it (12 R380). -/
def mayDrive (s : State) (th : Thread) (g : Nat) : Prop := 3 < g ∨ s.arb.path = some th

/-- The vc→pc map is usable: no core that is fused off is mapped or spare, no two virtual cores share a core, no spare is mapped (00 R5; 15 R459, R569). -/
structure MapUsable (m : CoreMap) : Prop where
  mapped : ∀ k p, mget? m.map k = some p → p.toNat < 72 ∧ m.fused.getLsbD p.toNat = false ∧ p ∉ m.spares
  distinct : ∀ k j p, mget? m.map k = some p → mget? m.map j = some p → k = j
  spare : ∀ p ∈ m.spares, p.toNat < 72 ∧ m.fused.getLsbD p.toNat = false

/-- What every step keeps: the map is usable, and the memory is in its canonical form. -/
structure Sound (s : State) : Prop where
  map : MapUsable s.cmap
  memory : s.dram.wf

/-- A configuration command passes every check of R415 outside a slate, and the fill has passed the rows that it reads (09 R293). -/
structure Accepts (s : State) (n : LaneNo) (c : Cfg) (p : Packet) : Prop where
  passes : Passes s n c.spec p (c.packet s p)
  rows : readWaits s (c.reads p).1 (c.reads p).2 = false
  unslated : pkSlate p = 0
  staged : c.staging s p = none
  state : c.check s p = none

/-- A configuration command outside a slate has committed: at T, 5 µs on, the change is made, the objects that it changes carry the commit's number, and the reply is DONE with T (13 R425). -/
structure Commits (s : State) (n : LaneNo) (c : Cfg) (p : Packet) (t : State) : Prop where
  time : (s.reach (s.qz.time + 5000)).qz.time = s.qz.time + 5000
  made : t = reply (markChanged (c.apply (s.reach (s.qz.time + 5000)) p (c.image s p)) (c.objs s p)) n 0 0 (s.qz.time + 5000) 0

/-- The lane's command is over, and its reply stands in the mailbox: BUSY 0, READY 1 (13 R410, R414). -/
def RepliedBy (t : State) (n : LaneNo) (p : Packet) (status detail result payload : Nat) : Prop :=
  (t.lane n).cur = none ∧ (t.lane n).begun = false ∧ (t.lane n).busy = false ∧ (t.lane n).ready = true
    ∧ (t.lane n).mbRpl = mkReply status (pkTag p) detail result payload

/-- Nothing but the Gatehouse and the board manager's transports has changed. -/
def OnlyGate (s t : State) : Prop := t = { s with gate := t.gate, mgmt := t.mgmt }

/-- The commands that change configuration, with what each checks and does (13 R416, column Stage). -/
def configRows : List ((LaneNo → Instr) × Cfg) := [
  (.pavCreate, cfgPavCreate), (.pavDestroy, cfgPavDestroy), (.pavStart, cfgPavStart), (.pavVcpuMap, cfgPavVcpuMap),
  (.pavCtlSet, cfgPavCtlSet), (.memAssign, cfgMemAssign), (.memRelease, cfgMemRelease), (.memParitySet, cfgMemParitySet),
  (.keepRegionSet, cfgKeepRegionSet), (.micaSet, cfgMicaSet), (.sessionOpen, cfgSessionOpen),
  (.sessionWindowSet, cfgSessionWindowSet), (.arbRoleSet, cfgArbRoleSet), (.qosMemSet, cfgQosMemSet),
  (.qosCacheSet, cfgQosCacheSet), (.qosArbSet, cfgQosArbSet), (.qosIrqRateSet, cfgQosIrqRateSet),
  (.irqRouteSet, cfgIrqRouteSet), (.irqRouteClear, cfgIrqRouteClear), (.faultPolicySet, cfgFaultPolicySet),
  (.follyLoad, cfgFollyLoad), (.qzDisciplineSet, cfgQzDisciplineSet), (.timerAlloc, cfgTimerAlloc),
  (.pcieRoleSet, cfgPcieRoleSet), (.pcieVfAssign, cfgPcieVfAssign), (.traceConfig, cfgTraceConfig),
  (.pmuUncoreConfig, cfgPmuUncoreConfig)]

/-- No PAV_STOP or PAV_RESET waits for the hypervisor (10 R325, R328). -/
def noPavWait (s : State) : Prop := ∀ p ∈ s.pavs, p.2.wait = none ∧ p.2.stops = []

/-- The set of the L1D that a line belongs to holds the line, or has room for it among its 4 ways (08 R230). -/
def L1dFits (s : State) (vc : Vc) (l : LineNo) : Prop := (l1dSet s vc l).contains l = true ∨ (l1dSet s vc l).length < 4

/-- A data access of the core at VA `va` translates from `s` to `t`: its parts are `ps`, none of them at a device, and no uncommitted work of the core is undone by it (02 R71; 07 R210, R215). -/
structure Translates (s : State) (vc : Vc) (va : W64) (n : Nat) (acc : Acc) (ps : List APart) (t : State) : Prop where
  parts : accessParts s vc va n acc = (.ok ps, t)
  stays : undone s t vc = false
  regs : (t.core vc).spec = (s.core vc).spec
  some_ : ps ≠ []
  memory : ∀ p ∈ ps, p.mt ≠ .device

/-- The doublewords at `first`, `first + 1`, … of the frame at `sp` translate in the same way. -/
structure FrameTranslates (s : State) (vc : Vc) (sp : W64) (first n : Nat) (acc : Acc) (ps : List APart) (t : State) : Prop where
  parts : frameParts vc acc (wordAddrs sp first n) s = (.ok ps, t)
  stays : undone s t vc = false
  regs : (t.core vc).spec = (s.core vc).spec
  memory : ∀ p ∈ ps, p.mt ≠ .device

/-- The frame at g31 reads, in memory that is no device's, as the mask `m`, the return address `ra` and the doublewords `vs` of the pairs that the mask names; `t` is the state with the lines read (02 R45, R46). -/
def FrameReads (s : State) (vc : Vc) (m ra : W64) (vs : List W64) (evs : List (BitVec 8)) (t : State) : Prop :=
  let sp := spRead (s.core vc).spec
  let n := 2 * (pairsOf (m.setWidth 8)).length
  ∃ p q ps s2 s3 s4 e f, FrameTranslates s vc sp 0 2 .read [p, q] s2 ∧ frameRead s2 vc 1 q = .ok ((m, e), s3)
    ∧ (s3.core vc).spec = (s.core vc).spec ∧ FrameTranslates s3 vc sp 2 n .read ps s4
    ∧ frameReads vc ((0 :: (List.range n).map (· + 2)).zip (p :: ps)) s4 = .ok ((ra :: vs, f), t)
    ∧ (t.core vc).spec = (s.core vc).spec ∧ evs = e ++ f

/-- A TLBI of core `vc` is on its way: it is the last of the outstanding ones, and the core's own caches and regions hold nothing in its reach (07 R218, R220, R221). -/
structure Invalidates (vc : Vc) (s t : State) (x : Tlbi) : Prop where
  regs : Settled t vc { (s.core vc).spec with pc := (s.core vc).spec.pc + 4 }
  sent : (t.core vc).tlbis = (s.core vc).tlbis ++ [x]
  entries : ∀ e ∈ (t.core vc).micro.dtlb ++ (t.core vc).micro.ftlb ++ (t.core vc).micro.l2tlb, tlbHit x e = false
  regions : ∀ g ∈ (t.core vc).micro.regions, regionHit x g.key g.ipaPage = false
  outside : OnlyCore vc s t

end Sys2Proof.Machine
end

