-- ==== Sys2Proof/WellFormed.lean ====
section
/-! DEFINITION. Well-formedness of a command: the operands that the outside world can present. -/

namespace Sys2Proof

/-- Sizes of an access in bytes (02 R61). -/
def sizeOk (n : Nat) : Bool := n == 1 || n == 2 || n == 4 || n == 8

/-- The operands a command can carry: access sizes are 1, 2, 4 or 8 bytes, a management transfer moves at most 64 words, an SPI or I3C transfer writes as many words as it names, a rail number names a rail. -/
def Instr.wf : Instr → Bool
  | .arborOutboundAccess k _ _ n _ _ => match k with
    | .mover .. => true
    | _ => sizeOk n
  | .inboundWriteData n _ _ _ => sizeOk n
  | .inboundReadData n => sizeOk n
  | .inboundRmwCycle n _ => sizeOk n
  | .ncRd _ _ _ n => sizeOk n
  | .atom _ _ _ n _ _ _ => sizeOk n
  | .keepRd _ _ n => sizeOk n
  | .keepAtom _ _ n _ _ _ => sizeOk n
  | .pcieInboundAtomicop _ _ _ _ n _ _ _ => n == 4 || n == 8
  | .i3cPrivateTransfer read _ n ws => read || n == ws.length
  | .spiFrame read _ n ws => read || n == ws.length
  | .railOutOfRange r => r.toNat < 9
  | _ => true

end Sys2Proof
end

