-- ==== Sys2Proof/Certificates/Slice0/Obligations.lean ====
section
/-! DEFINITION. The statements for the provers: what each family of commands does, from the numbered rules of the spec, and what every step keeps. -/

open Sys2Proof Sys2Proof.Machine

/-- O1. A step of a state with a command in front runs it on the state with the rest of the queue. -/
def Obligations.StepRunsTheFrontCommand : Prop :=
  ∀ (s : State) (c : Instr) (rest : List Instr), s.pending = c :: rest → step s = exec c { s with pending := rest }

/-- O2. On an empty queue a step is one nanosecond of Quartz where it is locked and PORST_N is high, and nothing else where no posted inbound write waits; in REPAIR it ends the episode (the model's choice, log entries 1 and 76). -/
def Obligations.EmptyQueueTicksQuartz : Prop :=
  ∀ s : State, s.pending = [] → s.arb.inbuf = [] → (∀ p ∈ s.ports, ∀ k ∈ p.2.links, k.2.rx = []) →
    let back : Device := if s.mode = .repair then { s.dev with mode := .service } else s.dev
    (s.qz.locked = true → s.dev.porst = false →
      step s = .next { s with dev := back, qz := { s.qz with time := s.qz.time + 1, osc := s.qz.osc + 1 } })
    ∧ ((s.qz.locked = false ∨ s.dev.porst = true) → step s = .next { s with dev := back })

/-- O3. The register file (02 R31): g0 reads as zero and takes no write; g31 is the stack pointer of the current level; a write is read back and leaves every other register. -/
def Obligations.RegisterFile : Prop :=
  ∀ (a : Arch) (v : W64),
    gRead a 0#5 = 0 ∧ gWrite a 0#5 v = a
    ∧ (a.level = .u → gRead a 31#5 = a.spU ∧ gWrite a 31#5 v = { a with spU := v })
    ∧ (a.level = .s → gRead a 31#5 = a.spS ∧ gWrite a 31#5 v = { a with spS := v })
    ∧ (a.level = .h → gRead a 31#5 = a.spH ∧ gWrite a 31#5 v = { a with spH := v })
    ∧ (∀ r, r ≠ 0#5 → gRead (gWrite a r v) r = v)
    ∧ (∀ r q, q ≠ r → gRead (gWrite a r v) q = gRead a q)
    ∧ (∀ r, fRead (fWrite a r v) r = v) ∧ (∀ r q, q ≠ r → fRead (fWrite a r v) q = fRead a q)
    ∧ (∀ r q, fRead (gWrite a r v) q = fRead a q ∧ gRead (fWrite a r v) q = gRead a q)

/-- O4. ALU_OP: every operation of the ALU group writes the value of the table to rd and moves on, and its S form writes CF by the flag table (03 R79, R82). ALU2_OP (03 R80, R82): carry forms, minimum and maximum, and the single-operand forms. RI_INTEGER_OP (03 R83): none of the operations writes CF. -/
def Obligations.IntegerResults : Prop :=
  (∀ (s : State) (vc : Vc) (w : W32) (s1 : State) (en : Bool),
     let a := (s1.core vc).spec
     (∀ sf fn rd ra rb, Ready s vc w (.alu sf fn rd ra rb) s1 en →
       ∃ t, exec (.aluOp vc w) s = .next t ∧ Executes vc s1 t
         { gWrite a rd (aluTable fn (gRead a ra) (gRead a rb)) with
           pc := a.pc + 4, cf := if sf then aluFlagTable fn (gRead a ra) (gRead a rb) a.cf else a.cf })
     ∧ (∀ sf fn rd ra sh f, Ready s vc w (.shi sf fn rd ra sh) s1 en →
       (fn, f) ∈ [(ShFn.slli, AluFn.sll), (.srli, .srl), (.srai, .sra), (.rori, .ror)] →
       ∃ t, exec (.aluOp vc w) s = .next t ∧ Executes vc s1 t
         { gWrite a rd (aluTable f (gRead a ra) (sh.setWidth 64)) with
           pc := a.pc + 4, cf := if sf then aluFlagTable f (gRead a ra) (sh.setWidth 64) a.cf else a.cf }))
  ∧ (∀ (s : State) (vc : Vc) (w : W32) (s1 : State) (en : Bool),
       (∀ sf fn rd ra rb, Ready s vc w (.alu2 sf fn rd ra rb) s1 en →
         let a := (s1.core vc).spec
         let x := gRead a ra
         let y := gRead a rb
         let k : Nat := (cfC a.cf).toNat
         let r : W64 := match fn with
           | .adc => BitVec.ofNat 64 (x.toNat + y.toNat + k)
           | .sbc => BitVec.ofNat 64 (x.toNat + (~~~ y).toNat + k)
           | .min => if y.toInt < x.toInt then y else x
           | .max => if x.toInt < y.toInt then y else x
           | .minu => if y.toNat < x.toNat then y else x
           | .maxu => if x.toNat < y.toNat then y else x
         let c : Bool := match fn with
           | .adc => decide (2 ^ 64 ≤ x.toNat + y.toNat + k)
           | .sbc => decide (2 ^ 64 ≤ x.toNat + (~~~ y).toNat + k)
           | _ => cfC a.cf
         let v : Bool := match fn with
           | .adc => outOfRange (x.toInt + y.toInt + k)
           | .sbc => outOfRange (x.toInt + (~~~ y).toInt + k)
           | _ => cfV a.cf
         ∃ t, exec (.alu2Op vc w) s = .next t ∧ Executes vc s1 t
           { gWrite a rd r with pc := a.pc + 4, cf := if sf then cfMk (r.getLsbD 63) (r == 0) c v else a.cf })
       ∧ (∀ sf fn rd ra, Ready s vc w (.un sf fn rd ra) s1 en →
         let a := (s1.core vc).spec
         let x := gRead a ra
         ∃ t r, exec (.alu2Op vc w) s = .next t ∧ Executes vc s1 t
             { gWrite a rd r with
               pc := a.pc + 4, cf := if sf then cfMk (r.getLsbD 63) (r == 0) (cfC a.cf) (cfV a.cf) else a.cf }
           ∧ (fn = .clz → r.toNat ≤ 64 ∧ (∀ i, i < r.toNat → x.getLsbD (63 - i) = false) ∧ (r.toNat < 64 → x.getLsbD (63 - r.toNat) = true))
           ∧ (fn = .ctz → r.toNat ≤ 64 ∧ (∀ i, i < r.toNat → x.getLsbD i = false) ∧ (r.toNat < 64 → x.getLsbD r.toNat = true))
           ∧ (fn = .popc → r.toNat = ((List.range 64).filter (fun i => x.getLsbD i)).length)
           ∧ (fn = .bswap → ∀ i, i < 8 → r.extractLsb' (8 * i) 8 = x.extractLsb' (8 * (7 - i)) 8)
           ∧ (fn = .bswapw → r.extractLsb' 32 32 = 0 ∧ ∀ i, i < 4 → r.extractLsb' (8 * i) 8 = x.extractLsb' (8 * (3 - i)) 8)
           ∧ (fn = .sextb → r = (x.extractLsb' 0 8).signExtend 64) ∧ (fn = .sexth → r = (x.extractLsb' 0 16).signExtend 64)
           ∧ (fn = .sextw → r = (x.extractLsb' 0 32).signExtend 64) ∧ (fn = .zextw → r = (x.extractLsb' 0 32).setWidth 64)))
  ∧ (∀ (s : State) (vc : Vc) (w : W32) (s1 : State) (en : Bool),
       let a := (s1.core vc).spec
       (∀ fn rd ra imm, Ready s vc w (.ri fn rd ra imm) s1 en →
         let x := gRead a ra
         let r : W64 := match fn with
           | .addi => x + imm.signExtend 64
           | .andi => x &&& imm.setWidth 64
           | .ori => x ||| imm.setWidth 64
           | .xori => x ^^^ imm.setWidth 64
           | .slti => if x.toInt < imm.toInt then 1 else 0
           | .sltui => if x.toNat < (imm.signExtend 64).toNat then 1 else 0
         ∃ t, exec (.riIntegerOp vc w) s = .next t ∧ Executes vc s1 t { gWrite a rd r with pc := a.pc + 4 })
       ∧ (∀ rd imm, Ready s vc w (.addpc rd imm) s1 en →
         ∃ t, exec (.riIntegerOp vc w) s = .next t
           ∧ Executes vc s1 t { gWrite a rd ((a.pc &&& ~~~ 0xFFF#64) + (imm.signExtend 64 <<< 12)) with pc := a.pc + 4 })
       ∧ (∀ rd h imm, Ready s vc w (.insh rd h imm) s1 en →
         ∃ t r, exec (.riIntegerOp vc w) s = .next t ∧ Executes vc s1 t { gWrite a rd r with pc := a.pc + 4 }
           ∧ ∀ i, i < 4 → r.extractLsb' (16 * i) 16 = if i = h.toNat then imm else (gRead a rd).extractLsb' (16 * i) 16))

/-- O5. MULDIV_OP (03 R81, R82; 04 R103, R104): the operation takes a ticket with the value of the table; division by zero and the signed overflow give the values of R104. -/
def Obligations.MulDivResults : Prop :=
  ∀ (s : State) (vc : Vc) (w : W32) (s1 : State) (en : Bool) (sf : Bool) (fn : MdFn) (rd ra rb : Reg),
    Ready s vc w (.muldiv sf fn rd ra rb) s1 en → ticketFree (s1.core vc) →
    let a := (s1.core vc).spec
    let x := gRead a ra
    let y := gRead a rb
    ∃ t r, exec (.muldivOp vc w) s = .next t
      ∧ TakesTicket vc s1 t { dest := .g rd, val := r, flags := 0, cf := if sf then some (cfMk (r.getLsbD 63) (r == 0)
          (if fn = .mul then decide (2 ^ 64 ≤ x.toNat * y.toNat) else cfC a.cf)
          (if fn = .mul then outOfRange (x.toInt * y.toInt) else cfV a.cf)) else none }
      ∧ (fn = .mul → r.toNat = x.toNat * y.toNat % 2 ^ 64)
      ∧ (fn = .mulh → r = BitVec.ofInt 64 (x.toInt * y.toInt / 2 ^ 64))
      ∧ (fn = .mulhu → r.toNat = x.toNat * y.toNat / 2 ^ 64)
      ∧ (fn = .mulhsu → r = BitVec.ofInt 64 (x.toInt * y.toNat / 2 ^ 64))
      ∧ (fn = .div → r = if y = 0 then BitVec.allOnes 64 else BitVec.ofInt 64 (x.toInt.tdiv y.toInt))
      ∧ (fn = .divu → r = if y = 0 then BitVec.allOnes 64 else BitVec.ofNat 64 (x.toNat / y.toNat))
      ∧ (fn = .rem → r = if y = 0 then x else BitVec.ofInt 64 (x.toInt.tmod y.toInt))
      ∧ (fn = .remu → r = if y = 0 then x else BitVec.ofNat 64 (x.toNat % y.toNat))
      ∧ (fn = .div → x = BitVec.intMin 64 → y = BitVec.allOnes 64 → r = BitVec.intMin 64)
      ∧ (fn = .rem → x = BitVec.intMin 64 → y = BitVec.allOnes 64 → r = 0)

/-- O6. FP_OP and FMA_OP: the operation takes a ticket with the value and the flags of its computation, and an S compare with the CF of the relation. TICKET_COMPLETE (05 R135): the result of the long operation lands in the shadow file, with the FCSR flags that it raised and the CF of its S form; the ticket is free again. -/
def Obligations.FloatingPointAndTickets : Prop :=
  (∀ (s : State) (vc : Vc) (w : W32) (s1 : State) (en : Bool),
     let a := (s1.core vc).spec
     (∀ sf dbl fn rm rd ra rb, Ready s vc w (.fp sf dbl fn rm rd ra rb) s1 en → ticketFree (s1.core vc) →
       let x := if fpFromG fn then gRead a ra else fRead a ra
       let y := if fpUnary fn then 0 else fRead a rb
       ∃ t, exec (.fpOp vc w) s = .next t ∧ TakesTicket vc s1 t {
         dest := if fpToG fn then .g rd else .f rd, val := (fpVal dbl fn (fpMode rm a.fcsr) x y).val,
         flags := (fpVal dbl fn (fpMode rm a.fcsr) x y).flags, cf := if sf then some (fpCmpCf dbl x y) else none })
     ∧ (∀ dbl v rd ra rb rc, Ready s vc w (.fma dbl v rd ra rb rc) s1 en → ticketFree (s1.core vc) →
       let r := fmaVal dbl v (rmOf (a.fcsr.extractLsb' 5 3)) (fRead a ra) (fRead a rb) (fRead a rc)
       ∃ t, exec (.fmaOp vc w) s = .next t
         ∧ TakesTicket vc s1 t { dest := .f rd, val := r.val, flags := r.flags, cf := none }))
  ∧ (∀ (s : State) (vc : Vc) (k : BitVec 4) (x : Ticket), coreOn s vc = true → mget? (s.core vc).tickets k.toNat = some x →
       let a := (s.core vc).spec
       let a1 := match x.dest with | .none => a | .g r => gWrite a r x.val | .f r => fWrite a r x.val
       ∃ t, exec (.ticketComplete vc k) s = .next t
         ∧ (t.core vc).spec = { a1 with cf := x.cf.getD a.cf, fcsr := a.fcsr ||| x.flags.setWidth 8 }
         ∧ (t.core vc).tickets = mdel (s.core vc).tickets k.toNat
         ∧ t.core vc = { s.core vc with spec := (t.core vc).spec, tickets := (t.core vc).tickets, ckpts := (t.core vc).ckpts, retire := (t.core vc).retire }
         ∧ OnlyCore vc s t)

/-- O7. BR_COMPARE, BRI and BR_FLAGS (02 R41, R42; 03 R75, R89): the branch goes to its target where the condition of the table holds, else to the next instruction, at once or, predicted wrongly, when it is undone. J and JR (03 R91; 02 R32): PC takes the target; no other register changes. BRANCH_MISPREDICT_UNDO (05 R145): the oldest branch that was predicted wrongly is undone; the core goes on from its actual registers, younger stores leave the buffer, committed state stays. -/
def Obligations.ControlTransfers : Prop :=
  (∀ (s : State) (vc : Vc) (w : W32) (s1 : State) (en : Bool),
     let a := (s1.core vc).spec
     (∀ cc ra rb off, Ready s vc w (.br cc ra rb off) s1 en →
       let taken := condTable cc (gRead a ra) (gRead a rb)
       let target := a.pc + (off.signExtend 64 <<< 2)
       (taken = true → canonical target = true) →
       ∃ t, exec (.brCompare vc w) s = .next t ∧ Transfers vc s1 t (branchOut a taken target))
     ∧ (∀ cc ra imm off, Ready s vc w (.bri cc ra imm off) s1 en →
       let taken := condTable cc (gRead a ra) (if 6 ≤ cc.toNat then imm.setWidth 64 else imm.signExtend 64)
       let target := a.pc + (off.signExtend 64 <<< 2)
       (taken = true → canonical target = true) →
       ∃ t, exec (.bri vc w) s = .next t ∧ Transfers vc s1 t (branchOut a taken target))
     ∧ (∀ cc off, Ready s vc w (.fb cc off) s1 en →
       let taken := flagCondTable cc a.cf
       let target := a.pc + (off.signExtend 64 <<< 2)
       (taken = true → canonical target = true) →
       ∃ t, exec (.brFlags vc w) s = .next t ∧ Transfers vc s1 t (branchOut a taken target)))
  ∧ (∀ (s : State) (vc : Vc) (w : W32) (s1 : State) (en : Bool),
       let a := (s1.core vc).spec
       (∀ off, Ready s vc w (.j off) s1 en → canonical (a.pc + (off.signExtend 64 <<< 2)) = true →
         ∃ t, exec (.j vc w) s = .next t ∧ Executes vc s1 t { a with pc := a.pc + (off.signExtend 64 <<< 2) })
       ∧ (∀ ra, Ready s vc w (.jr ra) s1 en → (gRead a ra).extractLsb' 0 2 = 0#2 → canonical (gRead a ra) = true →
         ∃ t, exec (.jr vc w) s = .next t ∧ Executes vc s1 t { a with pc := gRead a ra }))
  ∧ (∀ (s : State) (vc : Vc) (k : Ckpt) (rest : List Ckpt), coreOn s vc = true → (s.core vc).ckpts = k :: rest →
       ∃ t, exec (.branchMispredictUndo vc) s = .next t
         ∧ (t.core vc).spec = k.actual ∧ (t.core vc).ckpts = [] ∧ (t.core vc).arch = (s.core vc).arch
         ∧ (t.core vc).sb.filter (·.committed) = (s.core vc).sb.filter (·.committed)
         ∧ (t.core vc).sb.filter (fun e => !e.committed) = ((s.core vc).sb.filter (fun e => !e.committed)).take k.sbLen
         ∧ (t.core vc).retire = (s.core vc).retire.take k.retLen
         ∧ (t.core vc).micro.ghist = k.ghist ∧ (t.core vc).micro.ras = k.ras
         ∧ (∀ v, v ≠ vc → t.core v = s.core v) ∧ t.dram = s.dram)

/-- O8. CALL and CALLR (02 R45; 03 R91): the frame RA, MASK and the pairs that the mask names goes into the store buffer at g31 - size in ascending order, g31 becomes g31 - size and PC the target. The frame lies in pages that translate, none of them DEVICE and none code-seen, and the store buffer has room. RET (02 R46): the pairs that MASK names take the doublewords of the frame, g31 moves past it unless MASK bit 7 restores it, PC takes RA. The frame reads as `m`, `ra` and `vs`, none of it DEVICE. What RET restores (02 R46): each pair named takes its two doublewords, a pair not named keeps its registers, g31 is the restored value where MASK bit 7 is 1 and g31 + 16 + 16n where it is 0, and PC is RA. -/
def Obligations.CallsAndReturns : Prop :=
  (∀ (s : State) (vc : Vc) (w : W32) (s1 : State) (en : Bool) (pm : BitVec 8) (ps : List APart) (s2 : State),
     let a := (s1.core vc).spec
     let n := ((List.range 8).filter (fun i => pm.getLsbD i)).length
     let base := spRead a - BitVec.ofNat 64 (16 + 16 * n)
     let words := [a.pc + 4, pm.setWidth 64] ++ ((List.range 8).filter (fun i => pm.getLsbD i)).flatMap
       (fun i => [gRead a (BitVec.ofNat 5 (16 + 2 * i)), gRead a (BitVec.ofNat 5 (17 + 2 * i))])
     (spRead a).extractLsb' 0 4 = 0#4 →
     FrameTranslates s1 vc base 0 words.length .write ps s2 → codeParts s2 ps = false →
     (s2.core vc).sb.length + (frameEntries s2 vc ps words).length ≤ 48 →
     (∀ off, Ready s vc w (.call pm off) s1 en →
       let target := a.pc + (off.signExtend 64 <<< 2)
       canonical target = true →
       ∃ t, exec (.call vc w) s = .next t ∧ Stores vc s2 t { spWrite a base with pc := target } (frameEntries s2 vc ps words))
     ∧ (∀ ra, Ready s vc w (.callr ra pm) s1 en → (gRead a ra).extractLsb' 0 2 = 0#2 → canonical (gRead a ra) = true →
       ∃ t, exec (.callr vc w) s = .next t ∧ Stores vc s2 t { spWrite a base with pc := gRead a ra } (frameEntries s2 vc ps words)))
  ∧ (∀ (s : State) (vc : Vc) (w : W32) (s1 s2 : State) (en : Bool) (m ra : W64) (vs : List W64) (e : List (BitVec 8)),
       let a := (s1.core vc).spec
       Ready s vc w .ret s1 en → (spRead a).extractLsb' 0 4 = 0#4 → FrameReads s1 vc m ra vs e s2 →
       (s2.core vc).owait = false → ra.extractLsb' 0 2 = 0#2 → canonical ra = true →
       ∃ t, exec (.ret vc w) s = .next t ∧ Transfers vc s2 t (retArch a (m.setWidth 8) ra vs))
  ∧ (∀ (a : Arch) (pm : BitVec 8) (ra : W64) (vs : List W64),
       let l := (List.range 8).filter (fun i => pm.getLsbD i)
       vs.length = 2 * l.length →
       let b := retArch a pm ra vs
       b.pc = ra ∧ b.cf = a.cf ∧ b.level = a.level ∧ b.f = a.f
       ∧ (∀ i j, l[j]? = some i → i < 7 → gRead b (BitVec.ofNat 5 (16 + 2 * i)) = (vs[2 * j]?).getD 0
           ∧ gRead b (BitVec.ofNat 5 (17 + 2 * i)) = (vs[2 * j + 1]?).getD 0)
       ∧ (∀ r : Reg, r.toNat < 16 → gRead b r = gRead a r)
       ∧ (∀ i, i < 7 → pm.getLsbD i = false → gRead b (BitVec.ofNat 5 (16 + 2 * i)) = gRead a (BitVec.ofNat 5 (16 + 2 * i))
           ∧ gRead b (BitVec.ofNat 5 (17 + 2 * i)) = gRead a (BitVec.ofNat 5 (17 + 2 * i)))
       ∧ (pm.getLsbD 7 = false → spRead b = spRead a + BitVec.ofNat 64 (16 + 16 * l.length))
       ∧ (pm.getLsbD 7 = true → spRead b = (vs[2 * l.length - 1]?).getD 0))

/-- O9. LOAD (03 R84, R85): the operation takes a ticket with the bytes read, sign- or zero-extended as the table says, for its register. The access translates to no DEVICE memory, the L1D checks clean, and its bytes read as `v`. What a part of a load reads (02 R64; 05 R157; 08 R236): the bytes of the store buffer where it writes every one of them, and those of the line that the cluster holds where the buffer holds none of them. -/
def Obligations.LoadsReadTheirBytes : Prop :=
  (∀ (s : State) (vc : Vc) (w : W32) (s1 s2 s3 : State) (en : Bool) (fn : LdFn) (rd ra rb : Reg) (imm : BitVec 16)
     (sh : BitVec 2) (ix : Bool) (p : APart) (ps : List APart) (v : Nat) (e : List (BitVec 8)),
     let a := (s1.core vc).spec
     let va := gRead a ra + (if ix then gRead a rb <<< sh.toNat else imm.signExtend 64)
     let n := match fn with | .ldb | .ldbu => 1 | .ldh | .ldhu => 2 | .ldw | .ldwu | .flds => 4 | .ldd | .fldd => 8
     let fp := match fn with | .flds | .fldd => true | _ => false
     let r : W64 := match fn with
       | .ldb => (BitVec.ofNat 8 v).signExtend 64 | .ldh => (BitVec.ofNat 16 v).signExtend 64 | .ldw => (BitVec.ofNat 32 v).signExtend 64
       | .ldbu => (BitVec.ofNat 8 v).setWidth 64 | .ldhu => (BitVec.ofNat 16 v).setWidth 64
       | .ldwu | .flds => (BitVec.ofNat 32 v).setWidth 64 | .ldd | .fldd => BitVec.ofNat 64 v
     Ready s vc w (if ix then .ldx fn rd ra rb sh else .ld fn rd ra imm) s1 en →
     Translates s1 vc va n .read (p :: ps) s2 → s2.mode = .service →
     loadParts vc (p :: ps) s2 = .ok ((v, e), s3) → ticketFree (s3.core vc) → (s3.core vc).owait = false →
     ∃ t, exec (.load vc w .clean) s = .next t
       ∧ TakesTicket vc s3 t { dest := if fp then .f rd else .g rd, val := r, flags := 0, cf := none })
  ∧ (∀ (s : State) (vc : Vc) (p : APart),
       (sbOverlaps (s.core vc).sb p.pa p.n ≠ [] → sbCovered (s.core vc).sb p.pa p.n = true →
         loadPart s vc p = .ok ((overlay (s.core vc).sb p.pa p.n 0, []), s))
       ∧ (∀ x : L2Line, sbOverlaps (s.core vc).sb p.pa p.n = [] → p.mt = .normal → inKeep s p.pa = false →
           settle (lineOf p.pa) settleFuel s = s → L1dFits s vc (lineOf p.pa) → s.l2 (s.clusterOf vc) (lineOf p.pa) = some x →
           ∃ e t, loadPart s vc p = .ok ((lineGet x.data (p.pa % 64) p.n, e), t)
             ∧ (∃ y, t.l2 (s.clusterOf vc) (lineOf p.pa) = some y ∧ y.data = x.data ∧ y.st = x.st ∧ vc ∈ y.pres)
             ∧ t.dram = s.dram ∧ (t.core vc).spec = (s.core vc).spec ∧ (t.core vc).sb = (s.core vc).sb
             ∧ (∀ v, v ≠ vc → t.core v = s.core v))
       ∧ (sbOverlaps (s.core vc).sb p.pa p.n ≠ [] → sbCovered (s.core vc).sb p.pa p.n = false →
           (s.core vc).region = none → ∃ t, loadPart s vc p = .error (some t) ∧ (t.core vc).owait = true))

/-- O10. STORE (03 R84, R85; 05 R142, R158): the low bytes of the register enter the store buffer, uncommitted; memory stays as it is. The access translates to no DEVICE memory and to no code-seen page, and the buffer has room. STORE_DRAIN (08 R266, R267; 05 R142): the oldest store, committed, is written to the line that the cluster holds in M or E: its bytes alone change, the line is M and only the core's L1D holds it, dirty, the entry leaves the buffer, and an uncommitted fill of the line is no longer discarded by a rollback (05 R156). -/
def Obligations.StoresReachTheirLine : Prop :=
  (∀ (s : State) (vc : Vc) (w : W32) (s1 s2 : State) (en : Bool) (fn : StFn) (rd ra rb : Reg) (imm : BitVec 16)
     (sh : BitVec 2) (ix : Bool) (p : APart) (ps : List APart),
     let a := (s1.core vc).spec
     let va := gRead a ra + (if ix then gRead a rb <<< sh.toNat else imm.signExtend 64)
     let n := match fn with | .stb => 1 | .sth => 2 | .stw | .fsts => 4 | .std | .fstd => 8
     let v := match fn with | .fsts | .fstd => fRead a rd | _ => gRead a rd
     Ready s vc w (if ix then .stx fn rd ra rb sh else .st fn rd ra imm) s1 en →
     Translates s1 vc va n .write (p :: ps) s2 → codeParts s2 (p :: ps) = false →
     (s2.core vc).sb.length + (sbEntries s2 vc (p :: ps) v.toNat).length ≤ 48 →
     ∃ t, exec (.store vc w) s = .next t
       ∧ Stores vc s2 t { a with pc := a.pc + 4 } (sbEntries s2 vc (p :: ps) v.toNat))
  ∧ (∀ (s : State) (vc : Vc) (e : SbEntry) (rest : List SbEntry) (x : L2Line),
       let k := s.clusterOf vc
       let l := lineOf e.pa.toNat
       drainsNow s vc = true → (s.core vc).sb = e :: rest → e.committed = true → e.nc = false →
       s.l2 k l = some x → (x.st = .m ∨ x.st = .e) → (s.cluster k).l2.any (fun p => p.2.unperf == some vc) = false →
       x.unperf = none → (s.cluster k).mshr = [] → noPavWait s → L1dFits s vc l →
       (∀ v, v ≠ vc → (s.core v).micro.readMarks.contains l = false) →
       ∃ t, exec (.storeDrain vc) s = .next t
         ∧ t.l2 k l = some { x with st := .m, data := linePut x.data (e.pa.toNat % 64) e.size e.data.toNat, pres := [vc], unperf := none, dirtyIn := some vc }
         ∧ (∀ m, m ≠ l → t.l2 k m = s.l2 k m) ∧ (t.core vc) = { s.core vc with sb := rest, fills := (t.core vc).fills }
         ∧ (t.core vc).fills = (s.core vc).fills.map (fun f => if f = .l1d l ∨ f = .l2 l then .kept else f)
         ∧ (∀ v, v ≠ vc → t.core v = s.core v) ∧ t.dram = s.dram ∧ t.fab.net = s.fab.net)

/-- O11. ATOMIC on NORMAL memory (03 R86, R88): with every older instruction committed and every store performed, rd takes the old value zero-extended, and the line takes the table's result, where CAS matches only. What an atomic does to a line held in M or E with no request open (03 R86, R88). -/
def Obligations.AtomicsUpdateTheirLine : Prop :=
  (∀ (s : State) (vc : Vc) (w : W32) (s1 s2 s3 : State) (en : Bool) (fn : AtomFn) (z : BitVec 2) (sy : Bool) (rd ra rb : Reg)
     (p : APart) (old : W64),
     let a := (s1.core vc).spec
     let n := 2 ^ z.toNat
     Ready s vc w (.atom fn z sy rd ra rb) s1 en → (gRead a ra).toNat % n = 0 →
     Translates s1 vc (gRead a ra) n .rmw [p] s2 → canCommit (s2.core vc) = true →
     let s4 := commitCore s2 vc
     (if sy then syncReady s4 vc else storesDone s4 vc) = true → paKind s4 p.pa = .dram → p.mt = .normal →
     atomCached s4 vc fn n p.pa (gRead a rb) (gRead a rd) = some (old, s3) → (s3.core vc).spec = a → InstrumentsOff s3 vc →
     (s3.core vc).retire = [] → (s3.core vc).region = none →
     ∃ t, exec (.atomic vc w) s = .next t
       ∧ Settled t vc { gWrite a rd (old &&& BitVec.ofNat 64 (2 ^ (8 * n) - 1)) with pc := a.pc + 4 }
       ∧ OnlyCore vc s3 t)
  ∧ (∀ (s : State) (vc : Vc) (fn : AtomFn) (n pa : Nat) (opnd cmpv : W64) (x : L2Line),
       let k := s.clusterOf vc
       let l := lineOf pa
       let old := lineGet x.data (pa % 64) n
       let o := opnd.toNat % 2 ^ (8 * n)
       let sg : Nat → Int := fun u => if u < 2 ^ (8 * n - 1) then u else (u : Int) - 2 ^ (8 * n)
       let new : Nat := match fn with
         | .swap => o | .add => (old + o) % 2 ^ (8 * n) | .and => old &&& o | .or => old ||| o | .xor => old ^^^ o
         | .min => if sg o < sg old then o else old | .max => if sg old < sg o then o else old
         | .minu => if o < old then o else old | .maxu => if old < o then o else old
         | .cas => o
       (n = 1 ∨ n = 2 ∨ n = 4 ∨ n = 8) → pa % n = 0 → s.l2 k l = some x → (x.st = .m ∨ x.st = .e) →
       (s.cluster k).mshr = [] → settle l settleFuel s = s → L1dFits s vc l →
       (∀ v, v ≠ vc → (s.core v).micro.readMarks.contains l = false) →
       ∃ t, atomCached s vc fn n pa opnd cmpv = some (BitVec.ofNat 64 old, t)
         ∧ (fn = .cas → old ≠ cmpv.toNat % 2 ^ (8 * n) → ∃ y, t.l2 k l = some y ∧ y.data = x.data)
         ∧ ((fn ≠ .cas ∨ old = cmpv.toNat % 2 ^ (8 * n)) →
             ∃ y, t.l2 k l = some y ∧ y.st = .m ∧ y.data = linePut x.data (pa % 64) n new)
         ∧ t.dram = s.dram ∧ (∀ m, m ≠ l → t.l2 k m = s.l2 k m))

/-- O12. Class 0x01 (02 R48, R51, R52; 03 R98): a word that decodes to nothing under the style in force is taken as an illegal instruction, with the word in EADDR and the address of the instruction in EPC. ILLEGAL_INSTRUCTION and every core row agree. TRAP_S, TRAP_H and TRAP_B (02 R48, R51, R52; 03 R96): the trap takes its exception with the immediate in ESYN[31:16] and the next instruction in EPC; EADDR is a value that the manual does not give. -/
def Obligations.ExceptionsAreTaken : Prop :=
  (∀ (s : State) (vc : Vc) (w : W32) (s1 : State) (en : Bool),
     let a := (s1.core vc).spec
     let l : Level := if a.level = .h then .h else .s
     ReadyIllegal s vc w s1 en → (s1.core vc).region = none → canCommit (s1.core vc) = true → InstrumentsOff s1 vc →
     irqFirst s1 vc = false →
     ∀ c, c ∈ [Instr.illegalInstruction vc w, .aluOp vc w, .alu2Op vc w, .muldivOp vc w, .riIntegerOp vc w, .load vc w .clean,
         .store vc w, .atomic vc w, .brCompare vc w, .bri vc w, .brFlags vc w, .j vc w, .call vc w, .callr vc w, .jr vc w,
         .ret vc w, .fpOp vc w, .fmaOp vc w, .folly vc w .clean, .mfs vc w, .mts vc w] →
       ∃ t b, exec c s = .next t ∧ Settled t vc b ∧ OnlyCore vc s1 t
         ∧ TakenAs a b (s1.fStyleOf a) 0x01 0 (w.setWidth 64) a.pc l (vectorTable a.level l false))
  ∧ (∀ (s : State) (vc : Vc) (w : W32) (s1 : State) (en : Bool) (code : BitVec 16),
       let a := (s1.core vc).spec
       let taken : Instr → BitVec 6 → Level → Prop := fun c cls l =>
         ∃ t b, exec c s = .next t ∧ Settled t vc b
           ∧ TakenAs { a with pc := a.pc + 4 } b (s1.fStyleOf a) cls (code.setWidth 26 <<< 10) (Config.freeBits s1.fresh) (a.pc + 4) l
               (vectorTable a.level l false)
       SysReady s1 vc → noPavWait s1 → irqFirst s1 vc = false →
       (Ready s vc w (.trapS code) s1 en → a.level ≠ .h → taken (.trapS vc w) 0x05 .s)
       ∧ (Ready s vc w (.trapH code) s1 en → a.level ≠ .u → taken (.trapH vc w) 0x06 .h)
       ∧ (Ready s vc w (.trapB code) s1 en → taken (.trapB vc w) 0x07 (if a.level = .h then .h else .s)))

/-- O13. ERET (02 R53): it restores IE, CF in an F-style pavilion, the level and the PC from the registers of the current level, and nothing else changes. ERET that may not run (02 R53): at U, with PPL 0b11 or above the current level it is illegal; with a bad target it is an instruction translation fault, and nothing is restored. -/
def Obligations.EretRestoresOrIsDenied : Prop :=
  (∀ (s : State) (vc : Vc) (w : W32) (s1 : State) (en : Bool) (p : Level),
     let a := (s1.core vc).spec
     let b := bankAt a a.level
     Ready s vc w .eret s1 en → SysReady s1 vc → noPavWait s1 → a.level ≠ .u →
     levelOf (b.estat.extractLsb' 0 2) = some p → levelNum p ≤ levelNum a.level → canonical b.epc = true →
     let cf := if s1.fStyleOf { a with level := p } then b.estat.extractLsb' 4 4 else a.cf
     ∃ t, exec (.eret vc w) s = .next t
       ∧ (a.level = .h → Settled t vc { a with ieH := b.estat.getLsbD 2, cf := cf, level := p, pc := b.epc })
       ∧ (a.level = .s → Settled t vc { a with ieS := b.estat.getLsbD 2, cf := cf, level := p, pc := b.epc }))
  ∧ (∀ (s : State) (vc : Vc) (w : W32) (s1 : State) (en : Bool),
       let a := (s1.core vc).spec
       let l : Level := if a.level = .h then .h else .s
       let ppl := (bankAt a a.level).estat.extractLsb' 0 2
       Ready s vc w .eret s1 en → SysReady s1 vc → irqFirst s1 vc = false →
       ((a.level = .u ∨ ppl = 3#2 ∨ (levelCode a.level).toNat < ppl.toNat) →
         ∃ t b, exec (.eret vc w) s = .next t ∧ Settled t vc b
           ∧ TakenAs a b (s1.fStyleOf a) 0x01 0 (w.setWidth 64) a.pc l (vectorTable a.level l false))
       ∧ (a.level ≠ .u → ppl.toNat ≤ (levelCode a.level).toNat → canonical (bankAt a a.level).epc = false →
         ∃ t b d, exec (.eret vc w) s = .next t ∧ Settled t vc b
           ∧ TakenAs a b (s1.fStyleOf a) 0x08 d (bankAt a a.level).epc a.pc l (vectorTable a.level l false)))

/-- O14. SYNC, SYNC.D, SYNC.T and SYNC.I (02 R66 to R69): each completes, changing PC alone, once its condition holds; until then it waits. WFE and WFE_RETURN_WITHOUT_EVENT (02 R60): the vCPU suspends unless an interrupt is pending for it, masked or not; it resumes, changing no register. -/
def Obligations.BarriersAndWaits : Prop :=
  (∀ (s : State) (vc : Vc) (w : W32) (s1 : State) (en : Bool),
     let a := (s1.core vc).spec
     let goes : Instr → Prop := fun c =>
       ∃ t, exec c s = .next t ∧ Settled t vc { a with pc := a.pc + 4 } ∧ OnlyCore vc s1 t
     let waits : Instr → Prop := fun c => ∃ t, exec c s = .next t ∧ Settled t vc a ∧ OnlyCore vc s1 t
     let first := syncReady s1 vc
     SysReady s1 vc →
     (Ready s vc w .sync s1 en → if first then goes (.sync vc w) else waits (.sync vc w))
     ∧ (Ready s vc w .syncD s1 en → if first && (s1.core vc).devStores == 0 then goes (.syncD vc w) else waits (.syncD vc w))
     ∧ (Ready s vc w .syncT s1 en → if first && (s1.core vc).tlbis.isEmpty then goes (.syncT vc w) else waits (.syncT vc w))
     ∧ (Ready s vc w .syncI s1 en → goes (.syncI vc w)))
  ∧ ((∀ (s : State) (vc : Vc) (w : W32) (s1 : State) (en : Bool), Ready s vc w .wfe s1 en → canCommit (s1.core vc) = true →
         InstrumentsOff s1 vc → (s1.core vc).spec.tr = (s1.core vc).arch.tr →
         ∃ t, exec (.wfe vc w) s = .next t ∧ Settled t vc { (s1.core vc).spec with pc := (s1.core vc).spec.pc + 4 }
           ∧ (t.core vc).wfe = ((physPending s1 (s1.core vc)).isEmpty && (s1.core vc).latch.isEmpty) ∧ OnlyCore vc s1 t)
     ∧ (∀ (s : State) (vc : Vc), coreOn s vc = true → (s.core vc).wfe = true → InstrumentsOff s vc →
         ∃ t, exec (.wfeReturnWithoutEvent vc) s = .next t ∧ (t.core vc).wfe = false
           ∧ (t.core vc).arch = (s.core vc).arch ∧ (t.core vc).spec = (s.core vc).spec ∧ OnlyCore vc s t))

/-- O15. Which system registers a level may reach (02 R34; 03 R101): MFS and MTS of a number below the level's range are illegal, of 0x400 to 0x7FF from S a system-register access taken at H, of an unassigned number in reach illegal. MFS and MTS of a register in reach (02 R34, R35): MFS writes the register's value to its g register, MTS writes the g register's value to the register; PC moves on. VCPU_H and VMID_H have statements of their own. What each register of the vCPU and the hypervisor reads after a write (02, system register numbers; 02 R36, R37; 07 R199): its writable bits as written, its other bits zero; a register that is read-only keeps its value. VMID_H_WRITE and VCPU_H_WRITE with no vCPU loaded (07 R199; 10 R305, R306): VMID_H names the pavilion and VTB is its table, zero where the pavilion is NONE; VCPU_H takes the number, and a load that the rule refuses leaves RUN 0 and sets REFUSED. -/
def Obligations.SystemRegisters : Prop :=
  (∀ (s : State) (vc : Vc) (w : W32) (s1 : State) (en : Bool) (r : Reg) (n : BitVec 12) (wr : Bool),
     let a := (s1.core vc).spec
     let c : Instr := if wr then .mts vc w else .mfs vc w
     let ill : Prop := (a.level = .u ∧ 0x100 ≤ n.toNat) ∨ 0x800 ≤ n.toNat
       ∨ (sysAssigned n.toNat = false ∧ ¬ (a.level = .s ∧ 0x400 ≤ n.toNat))
     Ready s vc w (if wr then .mts r n else .mfs r n) s1 en → SysReady s1 vc → irqFirst s1 vc = false →
     (ill → ∃ t b, exec c s = .next t ∧ Settled t vc b ∧ TakenAs a b (s1.fStyleOf a) 0x01 0 (w.setWidth 64) a.pc
         (if a.level = .h then .h else .s) (vectorTable a.level (if a.level = .h then .h else .s) false))
     ∧ (a.level = .s → 0x400 ≤ n.toNat → n.toNat < 0x800 →
         ∃ t b, exec c s = .next t ∧ Settled t vc b ∧ TakenAs a b (s1.fStyleOf a) 0x0B 0 (w.setWidth 64) a.pc .h 0x200))
  ∧ (∀ (s : State) (vc : Vc) (w : W32) (s1 : State) (en : Bool) (r : Reg) (n : BitVec 12),
       let a := (s1.core vc).spec
       let s2 := commitCore s1 vc
       SysReady s1 vc → sysDenied a w n = none →
       (Ready s vc w (.mfs r n) s1 en →
         ∃ t, exec (.mfs vc w) s = .next t ∧ Settled t vc { gWrite a r (sysRead s2 vc n.toNat) with pc := a.pc + 4 })
       ∧ (Ready s vc w (.mts r n) s1 en → n ≠ 0x426#12 → n ≠ 0x421#12 → InstrumentsOff (s2.updCore vc (fun c => unitWrite c n.toNat (gRead a r))) vc →
         ∃ t, exec (.mts vc w) s = .next t
           ∧ Settled t vc { archWrite a (s1.fStyleOf a) n.toNat (gRead a r) with pc := a.pc + 4 } ∧ OnlyCore vc s1 t))
  ∧ (∀ (s : State) (vc : Vc) (c : Core) (v : W64) (fs : Bool),
       let a := c.spec
       let rd : Nat → Nat → W64 := fun n k => sysRead (s.setCore vc { c with spec := archWrite a fs n v }) vc k
       let mask : Nat → Option W64 := fun n => match n with
         | 0x110 | 0x410 | 0x105 | 0x107 | 0x405 | 0x407 => some 0xFFFFFFFFFFFFFFFF#64
         | 0x101 | 0x401 => some 0xFFFFFFFFFFFFFFFC#64
         | 0x102 | 0x402 => some 0xF7#64
         | 0x104 | 0x404 => some 0xFFFFFFFF#64
         | 0x106 | 0x406 => some 0xFFFFFFFFFFFFF000#64
         | 0x120 | 0x121 | 0x422 | 0x423 => some 0x0000FFFFFFFFF000#64
         | 0x122 | 0x424 => some 0xFFFF#64
         | 0x123 => some 0x7#64
         | 0x425 => some 0xF#64
         | _ => none
       (∀ n m, mask n = some m → rd n n = v &&& m)
       ∧ (∀ n m k, mask n = some m → k ≠ n → (mask k).isSome = true → rd n k = sysRead (s.setCore vc c) vc k)
       ∧ ((rd 0x002 0x002).extractLsb' 0 5 = v.extractLsb' 0 5)
       ∧ ((rd 0x002 0x002).extractLsb' 5 3 = if (v.extractLsb' 5 3).toNat < 5 then v.extractLsb' 5 3 else a.fcsr.extractLsb' 5 3)
       ∧ (∀ n, n ∈ [0x010, 0x103, 0x200, 0x201, 0x202, 0x204, 0x408, 0x440] → ∀ k, k ∈ [0x010, 0x200, 0x201, 0x202, 0x204, 0x408, 0x440] →
           rd n k = sysRead (s.setCore vc c) vc k))
  ∧ (∀ (s : State) (vc : Vc) (w : W32) (s1 : State) (en : Bool) (r : Reg),
       let a := (s1.core vc).spec
       let v := gRead a r
       SysReady s1 vc → a.level = .h → a.run = false → noPavWait s1 →
       (Ready s vc w (.mts r 0x421#12) s1 en →
         let p := s1.pav (v.setWidth 8)
         ∃ t, exec (.vmidHWrite vc w) s = .next t ∧ OnlyCore vc s1 t
           ∧ Settled t vc { a with pc := a.pc + 4, tr := { a.tr with
               vmid := v.setWidth 8, vtb := if p.st = .none then 0 else p.vtb.setWidth 64 &&& 0xFFFFFFFFF000#64 } })
       ∧ (Ready s vc w (.mts r 0x426#12) s1 en → v.getLsbD 16 = false →
         ∃ t, exec (.vcpuHWrite vc w) s = .next t ∧ Settled t vc { a with pc := a.pc + 4, vcpu := v.setWidth 16 } ∧ OnlyCore vc s1 t)
       ∧ (Ready s vc w (.mts r 0x426#12) s1 en → v.getLsbD 16 = true → (s1.pav a.tr.vmid).st ≠ .running →
         ∃ t, exec (.vcpuHWrite vc w) s = .next t ∧ OnlyCore vc s1 t
           ∧ Settled t vc { a with pc := a.pc + 4, vcpu := v.setWidth 16, run := false, refused := true }))

/-- O16. The TLBI instructions (03 R96; 07 R218, R220, R221): with fewer than 8 outstanding, the operation of the table goes out with its context, ASID and page, and the core's own caches lose what is in its reach. TLBI_COMPLETION (07 R218, R220): the core's oldest TLBI completes where no store waits anywhere; every core then holds no entry and no region in its reach, and the inbound caches none that an IPA, VMID or ALL operation reaches. -/
def Obligations.InvalidationsReachEveryCore : Prop :=
  (∀ (s : State) (vc : Vc) (w : W32) (s1 : State) (en : Bool) (r : Reg),
     let a := (s1.core vc).spec
     let v := gRead a r
     let guest : ClassId := a.tr.vmid.setWidth 16
     SysReady s1 vc → (s1.core vc).tlbis.length < 8 → uncommitted (s1.core vc) = false →
     (Ready s vc w (.tlbiVa r) s1 en → a.level ≠ .u →
       ∃ t, exec (.tlbiVa vc w) s = .next t ∧ Invalidates vc s1 t { op := .va, ctx := if a.level = .h ∧ v.getLsbD 8 = true then 0x100#16 else guest, asid := v.extractLsb' 48 16, page := v.extractLsb' 12 36 })
     ∧ (Ready s vc w (.tlbiVaa r) s1 en → a.level ≠ .u →
       ∃ t, exec (.tlbiVaa vc w) s = .next t ∧ Invalidates vc s1 t { op := .vaa, ctx := if a.level = .h ∧ v.getLsbD 8 = true then 0x100#16 else guest, asid := 0, page := v.extractLsb' 12 36 })
     ∧ (Ready s vc w (.tlbiAsid r) s1 en → a.level ≠ .u →
       ∃ t, exec (.tlbiAsid vc w) s = .next t ∧ Invalidates vc s1 t { op := .asid, ctx := if a.level = .h ∧ v.getLsbD 16 = true then 0x100#16 else guest, asid := v.extractLsb' 0 16, page := 0 })
     ∧ (Ready s vc w (.tlbiIpa r) s1 en → a.level = .h →
       ∃ t, exec (.tlbiIpa vc w) s = .next t ∧ Invalidates vc s1 t { op := .ipa, ctx := guest, asid := 0, page := v.extractLsb' 12 36 })
     ∧ (Ready s vc w (.tlbiVmid r) s1 en → a.level = .h →
       ∃ t, exec (.tlbiVmid vc w) s = .next t ∧ Invalidates vc s1 t { op := .vmid, ctx := (v.extractLsb' 0 8).setWidth 16, asid := 0, page := 0 })
     ∧ (Ready s vc w .tlbiAll s1 en → a.level = .h → ∃ t, exec (.tlbiAll vc w) s = .next t ∧ Invalidates vc s1 t { op := .all, ctx := 0, asid := 0, page := 0 }))
  ∧ (∀ (s : State) (vc : Vc) (x : Tlbi) (rest : List Tlbi), coreOn s vc = true → storesOut s = true →
       (s.core vc).tlbis = x :: rest →
       ∃ t, exec (.tlbiCompletion vc) s = .next t ∧ (t.core vc).tlbis = rest
         ∧ (∀ v ∈ s.allCores, (∀ e ∈ (t.core v).micro.dtlb ++ (t.core v).micro.ftlb ++ (t.core v).micro.l2tlb, tlbHit x e = false)
             ∧ (∀ g ∈ (t.core v).micro.regions, regionHit x g.key g.ipaPage = false)
             ∧ (t.core v).arch = (s.core v).arch)
         ∧ ((x.op = .ipa ∨ x.op = .vmid ∨ x.op = .all) → (∀ e ∈ t.arb.itlb, tlbHit x e = false)
             ∧ ∀ p ∈ t.ports, ∀ e ∈ p.2.itlb, tlbHit x e = false))

/-- O17. INTERRUPT_ENTRY COMPLETES (02 R48, R51, R54, R58; 10 R315). At every boundary, whether the vCPU runs or is suspended by WFE: a physical interrupt that is not masked is taken at H; where there is none, the lowest virtual interrupt that is not masked is taken at S; where neither can be taken nothing changes. The interrupt's ID is in ESYN[31:16], EPC is the first instruction not executed, and the vCPU is no longer suspended. Which physical interrupt comes first, and EADDR, are values that the manual does not give. With no counter and no trace on, the interrupt taken is pending no more and the others stay. NOTICE_ENTRY COMPLETES (15 R472; 02 R51, R58). At every boundary with no interrupt to take, whether the vCPU runs or is suspended by WFE: a notice that is not masked is entered at its level with class 0x21, the fault class and the low bits of SEQ in the detail, EADDR zero, at offset 0x400, and is pending no more. With one to H and one to S the order is a free value (the manual orders notices only against interrupts), and the other stays pending. -/
def Obligations.InterruptsAndNotices : Prop :=
  (∀ (s : State) (vc : Vc), let c := s.core vc
     atBoundary s vc = true → noPavWait s →
     (physPending s c ≠ [] → (c.spec.level ≠ .h ∨ c.spec.ieH = true) →
       ∃ t b id, exec (.interruptEntry vc) s = .next t ∧ id ∈ physPending s c ∧ Settled t vc b ∧ (t.core vc).wfe = false
         ∧ TakenAs c.spec b (s.fStyleOf c.spec) 0x20 (BitVec.ofNat 26 (id * 1024)) (Config.freeBits (s.fresh + 1)) c.spec.pc .h
             (vectorTable c.spec.level .h true)
         ∧ (InstrumentsOff s vc → (t.core vc).phys = c.phys.filter (· != id) ∧ (t.core vc).latch = c.latch))
     ∧ (∀ id rest, (physPending s c = [] ∨ (c.spec.level = .h ∧ c.spec.ieH = false)) → c.latch = id :: rest →
         (c.spec.level = .u ∨ (c.spec.level = .s ∧ c.spec.ieS = true)) →
       ∃ t b, exec (.interruptEntry vc) s = .next t ∧ Settled t vc b ∧ (t.core vc).wfe = false
         ∧ TakenAs c.spec b (s.fStyleOf c.spec) 0x20 (BitVec.ofNat 26 (id * 1024)) (Config.freeBits s.fresh) c.spec.pc .s
             (vectorTable c.spec.level .s true)
         ∧ (InstrumentsOff s vc → (t.core vc).latch = rest ∧ (t.core vc).phys = c.phys))
     ∧ (physTakes s c = false → virtTakes c = false → exec (.interruptEntry vc) s = .next s))
  ∧ (∀ (s : State) (vc : Vc) (n m : Notice), let c := s.core vc
       atBoundary s vc = true → noPavWait s → physTakes s c = false → virtTakes c = false →
       let d : Notice → BitVec 26 := fun n => n.cls.setWidth 26 ||| ((n.seq.setWidth 18).setWidth 26 <<< 8)
       let opensH := c.spec.level ≠ .h ∨ c.spec.ieH = true
       let opensS := c.spec.level = .u ∨ (c.spec.level = .s ∧ c.spec.ieS = true)
       let entersH := ∃ t b, exec (.noticeEntry vc) s = .next t ∧ Settled t vc b ∧ (t.core vc).noticeH = none
           ∧ (t.core vc).noticeS = c.noticeS ∧ (t.core vc).wfe = false
           ∧ TakenAs c.spec b (s.fStyleOf c.spec) 0x21 (d n) 0 c.spec.pc .h 0x400
       let entersS := ∃ t b, exec (.noticeEntry vc) s = .next t ∧ Settled t vc b ∧ (t.core vc).noticeS = none
           ∧ (t.core vc).noticeH = c.noticeH ∧ (t.core vc).wfe = false
           ∧ TakenAs c.spec b (s.fStyleOf c.spec) 0x21 (d m) 0 c.spec.pc .s 0x400
       (c.noticeH = some n → opensH → (c.noticeS = none ∨ ¬ opensS) → entersH)
       ∧ (c.noticeS = some m → opensS → (c.noticeH = none ∨ ¬ opensH) → entersS)
       ∧ (c.noticeH = some n → c.noticeS = some m → opensH → opensS →
           if (Config.freeBits s.fresh).getLsbD 0 = true then entersH else entersS)
       ∧ (noticeHTakes c = false → noticeSTakes c = false → exec (.noticeEntry vc) s = .next s))

/-- O18. REGION_COMMIT (05 R142, R144): with every ticket complete, no branch to undo and a commit point behind it, the shadow registers become architectural and every buffered store is committed; else what stands before the youngest commit point behind which all has completed does, and the rest stays. A rollback (05 R145): the core's registers are those of its last commit point, its uncommitted stores are gone, and no committed state changes. -/
def Obligations.CommitAndRollback : Prop :=
  (∀ (s : State) (vc : Vc), coreOn s vc = true → InstrumentsOff s vc →
     ((s.core vc).tickets = [] → (s.core vc).ckpts = [] → atPoint (s.core vc) = true →
       ∃ t, exec (.regionCommit vc) s = .next t ∧ Settled t vc (s.core vc).spec ∧ (t.core vc).retire = []
         ∧ (t.core vc).sb = (s.core vc).sb.map (fun e => { e with committed := true }) ∧ OnlyCore vc s t)
     ∧ (∀ p, canCommit (s.core vc) = false → openPoint (s.core vc) = some p →
       ∃ t, exec (.regionCommit vc) s = .next t ∧ (t.core vc).arch = p.actual ∧ (t.core vc).spec = (s.core vc).spec
         ∧ (t.core vc).retire.length = (s.core vc).retire.length - p.retLen ∧ (t.core vc).tickets = (s.core vc).tickets
         ∧ (t.core vc).sb = commitStores p.sbLen (s.core vc).sb ∧ OnlyCore vc s t)
     ∧ (canCommit (s.core vc) = false → openPoint (s.core vc) = none → exec (.regionCommit vc) s = .next s))
  ∧ (∀ (s : State) (vc : Vc),
       let t := rollbackCore s vc
       Settled t vc (s.core vc).arch ∧ (t.core vc).sb = (s.core vc).sb.filter (·.committed) ∧ (t.core vc).tickets = []
       ∧ (t.core vc).ckpts = [] ∧ (t.core vc).retire = [] ∧ (∀ v, v ≠ vc → t.core v = s.core v) ∧ t.dram = s.dram ∧ t.fab.homes = s.fab.homes)

/-- O19. TRANSLATION_REQUEST and REGION_INSTALL (05 R126, R128, R129, R131): a hot block's request enters the translator's queue; at a block entry the finished region enters the course store as its most recent, and its hot entry is freed. PMU_COUNTER_OVERFLOW (17 R508, R509, R513): a pace in which no course issues takes a counter that counts it past all ones, by one or, for slots, by six: the counter wraps and its OVF bit is set, and its interrupt is pending where it is enabled. No counter is granted or chained, and an overflow freezes none. -/
def Obligations.RegionsAndPaces : Prop :=
  ((∀ (s : State) (vc : Vc) (h : HotEntry) (r : XlateReq) (s1 : State) (k : Nat),
       coreOn s vc = true → uncommitted (s.core vc) = false →
       (s.core vc).micro.hot.find? (fun h => h.due && !h.sent && h.ctx == ctxOf (s.core vc).spec && h.fstyle == s.fStyleOf (s.core vc).spec) = some h →
       requestFor s vc h = some (r, s1) → translatorOf s1 (s1.clusterOf vc) = some k → (s1.cluster k).xlq.length < 16 →
       ∃ t, exec (.translationRequest vc) s = .next t ∧ (t.cluster k).xlq = (s1.cluster k).xlq ++ [withFolly s1 r]
         ∧ (t.core vc).arch = (s1.core vc).arch ∧ (t.core vc).spec = (s1.core vc).spec)
   ∧ (∀ (s : State) (vc : Vc) (k : Nat) (r : XlateReq) (g : Region) (s1 : State),
       coreOn s vc = true → translatorOf s (s.clusterOf vc) = some k → (s.core vc).entry = true →
       (s.cluster k).ready.find? (fun r => r.vc == vc) = some r → regionFor s k r = some (g, s1) → g.courses ≠ [] →
       ∃ t, exec (.regionInstall vc) s = .next t ∧ (t.core vc).micro.regions.getLast? = some g
         ∧ (∀ x ∈ (t.core vc).micro.regions, x = g ∨ x ∈ (s1.core vc).micro.regions)
         ∧ (∀ h ∈ (t.core vc).micro.hot, ¬ (h.pa = r.pa ∧ h.ctx = r.key.ctx ∧ h.fstyle = r.key.fstyle))
         ∧ (t.cluster k).ready = (s1.cluster k).ready.erase r ∧ (t.cluster k).recent.head? = some g
         ∧ (t.core vc).spec = (s1.core vc).spec))
  ∧ (∀ (s : State) (vc : Vc) (n : BitVec 3), let p := (s.core vc).pmu
       coreOn s vc = true → (s.core vc).wfe = false → pmuRuns p = true → p.ctl.getLsbD 1 = false → countsPaces p n.toNat = true →
       pmuAdmits p n.toNat (s.core vc).spec.level = true → p.grant = 0 → (∀ k, k < 7 → pmuChained p k = false) →
       2 ^ 64 ≤ (pmuCnt p n.toNat).toNat + paceAdds p n.toNat →
       ∃ t, exec (.pmuCounterOverflow vc n) s = .next t
         ∧ (pmuCnt (t.core vc).pmu n.toNat).toNat = (pmuCnt p n.toNat).toNat + paceAdds p n.toNat - 2 ^ 64
         ∧ (t.core vc).pmu.ovf.getLsbD n.toNat = true ∧ (t.core vc).pmu.ovf &&& p.ovf = p.ovf
         ∧ (pmuIrqOn p n.toNat = true → 0x1000 + n.toNat ∈ (t.core vc).phys)
         ∧ (∀ v, v ≠ vc → t.core v = s.core v) ∧ t = { s with cores := t.cores, fresh := t.fresh })

/-- O20. FOLLY (06 R167, R173, R184): a loaded index that the level may execute runs its microcode from the commit point before it; the sequence commits as one instruction, and PC moves past the word. A FOLLY word whose index holds no microcode, or none that the level may execute, is an illegal instruction (06 R180, R192; 02 R48). -/
def Obligations.FollyRunsOrIsIllegal : Prop :=
  (∀ (s : State) (vc : Vc) (w : W32) (s1 : State) (en : Bool) (i : BitVec 4) (rd ra rb : Reg) (imm : BitVec 7) (e : FollyEntry) (r : FRun),
     let a := (s1.core vc).spec
     let s2 := commitCore s1 vc
     let s3 := s2.free.2
     let c : FWord := { base := s3, vc := vc, rd := rd, ra := ra, rb := rb, imm7 := imm, fs := s3.fStyleOf a, arch := a,
                        fills := s2.free.1.getLsbD 0 }
     let r2 := flyDrain c 192 r
     Ready s vc w (.folly i rd ra rb imm) s1 en → canCommit (s1.core vc) = true → InstrumentsOff s1 vc →
     follyAllowed s1 a i.toNat = true → mget? s1.gate.folly i.toNat = some e → s2.mode = .service →
     flyCourses c (coursesOf e.image) 0 { s := flyMark s3 vc, a := a } = .ok r →
     InstrumentsOff r2.s vc → (r2.s.core vc).owait = false →
     ∃ t, exec (.folly vc w .clean) s = .next t
       ∧ Settled t vc { r2.a with cf := if c.fs then r2.cf.getD a.cf else a.cf, fcsr := a.fcsr ||| r2.flags.setWidth 8, pc := a.pc + 4 })
  ∧ (∀ (s : State) (vc : Vc) (w : W32) (s1 : State) (en : Bool) (i : BitVec 4) (rd ra rb : Reg) (imm : BitVec 7),
       let a := (s1.core vc).spec
       let l : Level := if a.level = .h then .h else .s
       Ready s vc w (.folly i rd ra rb imm) s1 en → SysReady s1 vc → irqFirst s1 vc = false →
       (mget? s1.gate.folly i.toNat = none
         ∨ ∃ e, mget? s1.gate.folly i.toNat = some e ∧ (if a.level = .h then e.hyp else e.grant.getLsbD a.tr.vmid.toNat) = false) →
       ∃ t b, exec (.folly vc w .clean) s = .next t ∧ Settled t vc b
         ∧ TakenAs a b (s1.fStyleOf a) 0x01 0 (w.setWidth 64) a.pc l (vectorTable a.level l false))

/-- O21. Every configuration command outside a slate (13 R415, R425): with every check passed it is applied at T, 5 µs on, the objects it changes carry the commit's number, and the reply is DONE with T. -/
def Obligations.ConfigurationCommandsCommit : Prop :=
  ∀ (s : State) (n : LaneNo) (p : Packet),
    (Accepts s n cfgPavCreate p → ∃ t, exec (.pavCreate n) s = .next t ∧ Commits s n cfgPavCreate p t)
    ∧ (Accepts s n cfgPavDestroy p → ∃ t, exec (.pavDestroy n) s = .next t ∧ Commits s n cfgPavDestroy p t)
    ∧ (Accepts s n cfgPavStart p → ∃ t, exec (.pavStart n) s = .next t ∧ Commits s n cfgPavStart p t)
    ∧ (Accepts s n cfgPavVcpuMap p → ∃ t, exec (.pavVcpuMap n) s = .next t ∧ Commits s n cfgPavVcpuMap p t)
    ∧ (Accepts s n cfgPavCtlSet p → ∃ t, exec (.pavCtlSet n) s = .next t ∧ Commits s n cfgPavCtlSet p t)
    ∧ (Accepts s n cfgMemAssign p → ∃ t, exec (.memAssign n) s = .next t ∧ Commits s n cfgMemAssign p t)
    ∧ (Accepts s n cfgMemRelease p → ∃ t, exec (.memRelease n) s = .next t ∧ Commits s n cfgMemRelease p t)
    ∧ (Accepts s n cfgMemParitySet p → ∃ t, exec (.memParitySet n) s = .next t ∧ Commits s n cfgMemParitySet p t)
    ∧ (Accepts s n cfgKeepRegionSet p → ∃ t, exec (.keepRegionSet n) s = .next t ∧ Commits s n cfgKeepRegionSet p t)
    ∧ (Accepts s n cfgMicaSet p → ∃ t, exec (.micaSet n) s = .next t ∧ Commits s n cfgMicaSet p t)
    ∧ (Accepts s n cfgSessionOpen p → ∃ t, exec (.sessionOpen n) s = .next t ∧ Commits s n cfgSessionOpen p t)
    ∧ (Accepts s n cfgSessionWindowSet p → ∃ t, exec (.sessionWindowSet n) s = .next t ∧ Commits s n cfgSessionWindowSet p t)
    ∧ (Accepts s n cfgArbRoleSet p → ∃ t, exec (.arbRoleSet n) s = .next t ∧ Commits s n cfgArbRoleSet p t)
    ∧ (Accepts s n cfgQosMemSet p → ∃ t, exec (.qosMemSet n) s = .next t ∧ Commits s n cfgQosMemSet p t)
    ∧ (Accepts s n cfgQosCacheSet p → ∃ t, exec (.qosCacheSet n) s = .next t ∧ Commits s n cfgQosCacheSet p t)
    ∧ (Accepts s n cfgQosArbSet p → ∃ t, exec (.qosArbSet n) s = .next t ∧ Commits s n cfgQosArbSet p t)
    ∧ (Accepts s n cfgQosIrqRateSet p → ∃ t, exec (.qosIrqRateSet n) s = .next t ∧ Commits s n cfgQosIrqRateSet p t)
    ∧ (Accepts s n cfgIrqRouteSet p → ∃ t, exec (.irqRouteSet n) s = .next t ∧ Commits s n cfgIrqRouteSet p t)
    ∧ (Accepts s n cfgIrqRouteClear p → ∃ t, exec (.irqRouteClear n) s = .next t ∧ Commits s n cfgIrqRouteClear p t)
    ∧ (Accepts s n cfgFaultPolicySet p → ∃ t, exec (.faultPolicySet n) s = .next t ∧ Commits s n cfgFaultPolicySet p t)
    ∧ (Accepts s n cfgFollyLoad p → ∃ t, exec (.follyLoad n) s = .next t ∧ Commits s n cfgFollyLoad p t)
    ∧ (Accepts s n cfgQzDisciplineSet p → ∃ t, exec (.qzDisciplineSet n) s = .next t ∧ Commits s n cfgQzDisciplineSet p t)
    ∧ (Accepts s n cfgTimerAlloc p → ∃ t, exec (.timerAlloc n) s = .next t ∧ Commits s n cfgTimerAlloc p t)
    ∧ (Accepts s n cfgPcieRoleSet p → ∃ t, exec (.pcieRoleSet n) s = .next t ∧ Commits s n cfgPcieRoleSet p t)
    ∧ (Accepts s n cfgPcieVfAssign p → ∃ t, exec (.pcieVfAssign n) s = .next t ∧ Commits s n cfgPcieVfAssign p t)
    ∧ (Accepts s n cfgTraceConfig p → ∃ t, exec (.traceConfig n) s = .next t ∧ Commits s n cfgTraceConfig p t)
    ∧ (Accepts s n cfgPmuUncoreConfig p → ∃ t, exec (.pmuUncoreConfig n) s = .next t ∧ Commits s n cfgPmuUncoreConfig p t)

/-- O22. A configuration command that names the lane's open slate is staged, not applied (13 R415, R424): it joins the slate's commands as the last, the reply is STAGED with its index, and nothing but the Gatehouse changes. SLATE_BEGIN, SLATE_ROLLBACK, SLATE_STATUS and SLATE_IDLE_EXPIRY (13 R423, R424, R427; 15 R568): a slate opens empty under a free id for its lane, is dropped with its commands on rollback and after its idle limit, and is reported. SLATE_COMMIT and SLATE_COMMIT_INSTANT (13 R425, R426): a slate whose commands all pass against the state that the earlier ones leave is armed for T, 5 µs on; one that does not is closed with the failure's status; at T every command has its effect in staged order, the slate closes and the reply carries T. -/
def Obligations.SlatesStageAndCommit : Prop :=
  (∀ (c : (LaneNo → Instr) × Cfg) (s : State) (n : LaneNo) (p : Packet) (k : Slate), c ∈ configRows →
     Passes s n c.2.spec p (c.2.packet s p) → pkSlate p ≠ 0 → mget? s.gate.slates (pkSlate p) = some k → c.2.staging s p = none →
     readWaits s (c.2.reads p).1 (c.2.reads p).2 = false → ByMailbox s n → (c.2.spec.op = 0x0B02 → pvOwner p ≠ 0xFFFF) →
     ∃ t x, exec (c.1 n) s = .next t ∧ RepliedBy t n p 2 k.cmds.length 0 0
       ∧ mget? t.gate.slates (pkSlate p) = some { k with cmds := k.cmds ++ [x], last := s.qz.time } ∧ x.pkt = p ∧ x.seq = s.gate.seq
       ∧ OnlyGate s t)
  ∧ ((∀ (s : State) (n : LaneNo) (p : Packet), ByMailbox s n →
         Passes s n specSlateBegin p [(16, decide (pkGet p 16 2 ≤ 3600)), (18, pkZero p 18 14)] → s.gate.slates.length < 16 →
         (∀ k ∈ s.gate.slates, k.1 < 2 ^ 16) → s.gate.lastSlate < 2 ^ 16 →
         ∃ t id, exec (.slateBegin n) s = .next t ∧ RepliedBy t n p 0 0 id 0 ∧ 0 < id ∧ id < 2 ^ 16
           ∧ mget? s.gate.slates id = none ∧ t.gate.lastSlate = id ∧ OnlyGate s t
           ∧ mget? t.gate.slates id = some { lane := n, cmds := [], idle := (if pkGet p 16 2 = 0 then 60 else pkGet p 16 2), begun := s.qz.time, last := s.qz.time, armed := none, tag := 0 })
     ∧ (∀ (s : State) (n : LaneNo) (p : Packet), ByMailbox s n → presented s n 0x0903 = some p →
         earlyChecks s n specSlateRollback p true [] = none →
         ∃ t, exec (.slateRollback n) s = .next t ∧ RepliedBy t n p 0 0 s.qz.time 0 ∧ mget? t.gate.slates (pkSlate p) = none
           ∧ (∀ i, i ≠ pkSlate p → mget? t.gate.slates i = mget? s.gate.slates i) ∧ OnlyGate s t)
     ∧ (∀ (s : State) (n : LaneNo) (p : Packet) (k : Slate), ByMailbox s n → Passes s n specSlateStatus p [] →
         mget? s.gate.slates (pkTarget p) = some k →
         ∃ t, exec (.slateStatus n) s = .next t ∧ RepliedBy t n p 0 0 s.qz.time (slateInfo s k) ∧ t.gate.slates = s.gate.slates)
     ∧ (∀ (s : State) (id : BitVec 16) (k : Slate), mget? s.gate.slates id.toNat = some k → k.armed = none →
         ∃ t, exec (.slateIdleExpiry id) s = .next t ∧ mget? t.gate.slates id.toNat = none ∧ k.last + k.idle * 1000000000 ≤ t.qz.time))
  ∧ ((∀ (s : State) (n : LaneNo) (p : Packet) (k : Slate), ByMailbox s n → presented s n 0x0902 = some p →
         earlyChecks s n specSlateCommit p true [] = none → ownSlate s n (pkSlate p) = some k → armedAny s = false →
         (∀ u os, runSlate s k.cmds 0 s [] = .inr (u, os) →
           ∃ t, exec (.slateCommit n) s = .next t ∧ OnlyGate s t ∧ (t.lane n).begun = true
             ∧ mget? t.gate.slates (pkSlate p) = some { k with armed := some (s.qz.time + 5000), tag := BitVec.ofNat 16 (pkTag p) })
         ∧ (∀ r, runSlate s k.cmds 0 s [] = .inl r →
           ∃ t, exec (.slateCommit n) s = .next t ∧ OnlyGate s t ∧ RepliedBy t n p r.1 r.2 0 0 ∧ mget? t.gate.slates (pkSlate p) = none))
     ∧ (∀ (s : State) (id : BitVec 16) (k : Slate) (T : Nat), mget? s.gate.slates id.toNat = some k → k.armed = some T → s.qz.time ≤ T →
         let s1 := (s.reach T).setSlate id.toNat none
         let r := applySlate k.cmds s1 []
         s1.qz.time = T ∧ exec (.slateCommitInstant id) s = .next (reply (markChanged r.1 r.2) k.lane 0 0 T 0)))

/-- O23. The order of the checks of R415: a lane without the right gets NO_RIGHT with the right's bit, whatever else is wrong; with it, a command outside a slate in a mode that its row does not name gets WRONG_MODE with the mode's code; in a mode of its row, one whose LENGTH is not the row's gets BAD_PARAM with the offset 6. What a reply leaves (13 R410, R414, R429, R430): the packet with status, tag, DETAIL, RESULT and payload in MB_RPL, the command over, and command and reply remembered; while the Gatehouse restarts the reply is owed, and nothing else changes. -/
def Obligations.ChecksAndReplies : Prop :=
  (∀ (c : (LaneNo → Instr) × Cfg) (s : State) (n : LaneNo) (p : Packet), c ∈ configRows → presented s n c.2.spec.op = some p →
     (c.2.spec.op = 0x0B02 → pvOwner p ≠ 0xFFFF) → ByMailbox s n →
     ((s.lane n).rights.getLsbD c.2.spec.right = false →
       ∃ t, exec (c.1 n) s = .next t ∧ RepliedBy t n p 0x12 (2 ^ c.2.spec.right) 0 0 ∧ OnlyGate s t)
     ∧ ((s.lane n).rights.getLsbD c.2.spec.right = true → pkSlate p = 0 → c.2.spec.modes.getLsbD (modeCode s.mode) = false →
       ∃ t, exec (c.1 n) s = .next t ∧ RepliedBy t n p 0x13 (modeCode s.mode) 0 0 ∧ OnlyGate s t)
     ∧ ((s.lane n).rights.getLsbD c.2.spec.right = true → pkSlate p = 0 → c.2.spec.modes.getLsbD (modeCode s.mode) = true →
       pkLength p ≠ c.2.spec.len → ∃ t, exec (c.1 n) s = .next t ∧ RepliedBy t n p 0x11 0x600 0 0 ∧ OnlyGate s t))
  ∧ (∀ (s : State) (n : LaneNo) (p : Packet) (st d r y : Nat), (s.lane n).cur = some p → ByMailbox s n →
       let t := reply s n st d r y
       (s.gate.restart = true → t = s.setLane n { s.lane n with begun := true, owed := some (mkReply st (pkTag p) d r y, true) })
       ∧ (s.gate.restart = false → RepliedBy t n p st d r y ∧ OnlyGate s t ∧ (∀ m, m ≠ n → t.lane m = s.lane m)
       ∧ (t.lane n).recent = ((p, mkReply st (pkTag p) d r y) :: (s.lane n).recent).take 64
       ∧ (n ≠ 0 → t.mgmt = s.mgmt) ∧ (n = 0 → t.mgmt.alert = true)))

/-- O24. The life of a pavilion (10 R299, R300, R302, R309, R325, R328): PAV_START makes it RUNNING, PAV_STOP STOPPED and PAV_RESET RESETTING at once, PAV_DESTROY leaves it NONE with no budgets and the counts that only a device reset clears. -/
def Obligations.PavilionStates : Prop :=
  ∀ (s : State) (n : LaneNo) (p : Packet), ByMailbox s n → let pn := pkPav p
    (Accepts s n cfgPavStart p → ∃ t, exec (.pavStart n) s = .next t ∧ t.pav pn = { s.pav pn with st := .running }
      ∧ (∀ q, q ≠ pn → t.pav q = s.pav q) ∧ RepliedBy t n p 0 0 (s.qz.time + 5000) 0)
    ∧ (Accepts s n cfgPavDestroy p → ∃ t, exec (.pavDestroy n) s = .next t ∧ t.pav pn = keptCounts (s.pav pn) ∧ t.qosOf (pn.setWidth 16) = {}
      ∧ (∀ q, q ≠ pn → t.pav q = s.pav q) ∧ RepliedBy t n p 0 0 (s.qz.time + 5000) 0)
    ∧ (Passes s n specPavStop p [] → (s.pav pn).st = .running → (s.pav pn).wait = none → (s.pav pn).stops = [] →
      ∃ t, exec (.pavStop n) s = .next t ∧ (t.pav pn).st = .stopped ∧ (∀ q, q ≠ pn → t.pav q = s.pav q)
        ∧ (t.pav pn).wait = none ∧ (if pavExited s pn then (t.pav pn).stops = [] ∧ RepliedBy t n p 0 0 s.qz.time 0
           else (t.pav pn).stops = [n] ∧ (t.lane n).begun = true ∧ (t.lane n).cur = some p))
    ∧ (Passes s n specPavReset p [] → ((s.pav pn).st = .running ∨ (s.pav pn).st = .stopped) → (s.pav pn).wait = none →
      pavExited s pn = false →
      ∃ t w, exec (.pavReset n) s = .next t ∧ (t.pav pn).st = .resetting ∧ (t.pav pn).wait = some w ∧ w.step = 1
        ∧ (t.lane n).begun = true ∧ (∀ q, q ≠ pn → t.pav q = s.pav q))

/-- O25. Budgets (08 R240; 10 R322, R323): each QOS command sets its own fields of the class it names, and no other class changes. MEM_ASSIGN and MEM_RELEASE (13 R422): the range is recorded, and the equal range removed; MEM_ASSIGN of a range that overlaps one already recorded is turned away as busy. -/
def Obligations.BudgetsAndRanges : Prop :=
  (∀ (s : State) (n : LaneNo) (p : Packet), ByMailbox s n → let c := pkClass p
     let only : State → Prop := fun t => ∀ d, d ≠ c → t.qosOf d = s.qosOf d
     (Accepts s n cfgQosMemSet p → ∃ t, exec (.qosMemSet n) s = .next t ∧ only t
       ∧ t.qosOf c = { s.qosOf c with mem := pkGet p 16 2, cap := decide (pkGet p 18 1 = 1) })
     ∧ (Accepts s n cfgQosCacheSet p → ∃ t, exec (.qosCacheSet n) s = .next t ∧ only t
       ∧ t.qosOf c = { s.qosOf c with ways := BitVec.ofNat 16 (pkGet p 16 2) })
     ∧ (Accepts s n cfgQosArbSet p → ∃ t, exec (.qosArbSet n) s = .next t ∧ only t
       ∧ t.qosOf c = { s.qosOf c with arb := pkGet p 16 2, prio := BitVec.ofNat 2 (pkGet p 18 1) })
     ∧ (Accepts s n cfgQosIrqRateSet p → ∃ t, exec (.qosIrqRateSet n) s = .next t ∧ only t
       ∧ t.qosOf c = { s.qosOf c with rate := pkGet p 16 2 }))
  ∧ (∀ (s : State) (n : LaneNo) (p : Packet), ByMailbox s n →
       let r : Range := { owner := BitVec.ofNat 16 (pkTarget p), base := pkGet p 16 8, len := pkGet p 24 8 }
       (Accepts s n cfgMemAssign p → ∃ t, exec (.memAssign n) s = .next t ∧ t.gate.ranges = s.gate.ranges ++ [r]
         ∧ t.dram.assigned = true ∧ t.dram.cells = s.dram.cells)
       ∧ (Accepts s n cfgMemRelease p → ∃ t, exec (.memRelease n) s = .next t ∧ t.gate.ranges = s.gate.ranges.erase r ∧ t.dram = s.dram)
       ∧ (Passes s n cfgMemAssign.spec p (cfgMemAssign.packet s p) → pkSlate p = 0 →
           dramHolds s (pkGet p 16 8) (pkGet p 24 8) = true →
           (∃ q ∈ s.gate.ranges, pkGet p 16 8 < q.base + q.len ∧ q.base < pkGet p 16 8 + pkGet p 24 8) →
           ∃ t, exec (.memAssign n) s = .next t ∧ RepliedBy t n p 0x15 0 0 0 ∧ t.gate.ranges = s.gate.ranges))

/-- O26. MODE_SET (14 R441, R445): from ASSEMBLY, with the hypervisor image copied, it starts SERVICE 5 µs on, every virtual core begins at H at the image's entry with its number in g1 and the load range's base in g2; while the copy runs it waits; after a copy that failed its check it is turned away (R440); in REST it wakes the device. -/
def Obligations.ModeSetStartsService : Prop :=
  ∀ (s : State) (n : LaneNo) (p : Packet), ByMailbox s n → Passes s n specModeSet p [(16, pkGet p 16 1 == 2), (17, pkZero p 17 15)] →
    (s.mode = .assembly → s.dev.hvDone = true → s.dev.hvBad = false → s.gate.slates = [] → ∀ h, s.dev.hdr = some h →
      ∃ t, exec (.modeSet n) s = .next t ∧ t.mode = .service ∧ t.qz.time = s.qz.time + 5000 ∧ t.arb.afailOut = false
        ∧ RepliedBy t n p 0 0 t.qz.time 0
        ∧ ∀ vc ∈ s.allCores, (t.core vc).started = true ∧ (t.core vc).spec = (t.core vc).arch
          ∧ (t.core vc).arch.level = .h ∧ (t.core vc).arch.pc = h.entry ∧ gRead (t.core vc).arch 1 = vc.setWidth 64
          ∧ gRead (t.core vc).arch 2 = BitVec.ofNat 64 (loadRange s).1)
    ∧ (s.mode = .assembly → s.dev.hvDone = false → s.dev.hvBad = false → s.gate.slates = [] →
      ∃ t, exec (.modeSet n) s = .next t ∧ t.mode = .assembly ∧ (t.lane n).begun = true ∧ (t.lane n).cur = some p
        ∧ t.gate.modeReq = some (n, BitVec.ofNat 16 (pkTag p)) ∧ OnlyGate s t)
    ∧ (s.mode = .assembly → s.dev.hvBad = true → ∃ t, exec (.modeSet n) s = .next t ∧ RepliedBy t n p 0x11 2 0 0 ∧ OnlyGate s t)
    ∧ (s.mode = .rest → s.dev.held = [] → (∀ v, s.gate.voltReq = some v → ByMailbox s v.1) →
      ∃ t, exec (.modeSet n) s = .next t ∧ t.mode = .service ∧ t.dram.selfRefresh = false ∧ t.dev.vidReq = s.dev.vidSet
        ∧ (∀ vc ∈ s.allCores, (t.core vc).wfe = false) ∧ RepliedBy t n p 0 0 t.qz.time 0
        ∧ (s.gate.voltReq = none → t.qz.time = s.qz.time))

/-- O27. REST (14 R442, R443, R445): REST_ENTER waits with its WAKE bits; at REST_ENTRY, with every core suspended at H and the fabric quiet, the caches are written back and empty, DRAM is in self-refresh and the reply is DONE; a core that does not come to rest in 1 ms gives BUSY_OBJECT; an enabled wake event ends REST, or the entry under way with DETAIL 1. -/
def Obligations.RestIsEnteredAndLeft : Prop :=
  (∀ (s : State) (n : LaneNo) (p : Packet),
      Heard s n specRestEnter p [(16, decide (1 ≤ pkGet p 16 8 ∧ pkGet p 16 8 < 128)), (24, pkZero p 24 8)] →
      restBarred s = false → s.gate.restReq = none →
      ∃ t, exec (.restEnter n) s = .next t ∧ (t.lane n).begun = true ∧ t.mode = s.mode ∧ OnlyGate s t
        ∧ t.gate.restReq = some (n, BitVec.ofNat 16 (pkTag p), BitVec.ofNat 7 (pkGet p 16 8), s.qz.time))
  ∧ (∀ (s : State) (n : LaneNo) (p : Packet) (tag : BitVec 16) (wake : BitVec 7) (at_ : Nat), ByMailbox s n →
      (s.lane n).cur = some p → s.gate.restReq = some (n, tag, wake, at_) → s.gate.restart = false →
      (s.mode = .service → (∀ v ∈ s.allCores, restIdle (s.core v) = true) → fabricQuiet s = true → armedAny s = false →
        ∃ t, exec .restEntry s = .next t ∧ t.mode = .rest ∧ t.dram.selfRefresh = true ∧ t.dev.wake = wake ∧ t.dev.vidReq = 0
          ∧ RepliedBy t n p 0 0 s.qz.time 0 ∧ (∀ k, k < 8 → (t.cluster k).l2 = [] ∧ (t.home k).sc = [] ∧ (t.home k).dir = [])
          ∧ ∀ vc, t.core vc = s.core vc)
      ∧ ((∃ v ∈ s.allCores, restIdle (s.core v) = false) →
        ∃ t, exec .restEntryWaitExpiry s = .next t ∧ at_ + 1000000 ≤ t.qz.time ∧ t.mode = s.mode ∧ t.gate.restReq = none
          ∧ RepliedBy t n p 0x15 0 0 0)
      ∧ (∀ ev : BitVec 3, ev ≠ 7 → s.mode ≠ .rest → wake.getLsbD ev.toNat = true → (∀ k, k < 8 → (s.home k).txns = []) →
        ∃ t, exec (.restWake ev) s = .next t ∧ t.gate.restReq = none ∧ t.mode = s.mode ∧ RepliedBy t n p 0 1 s.qz.time 0
          ∧ ∀ vc ∈ s.allCores, (t.core vc).wfe = false))
  ∧ (∀ (s : State) (ev : BitVec 3), ev ≠ 7 → s.mode = .rest →
      (s.dev.wake.getLsbD ev.toNat = true → s.dev.held = [] → (∀ v, s.gate.voltReq = some v → ByMailbox s v.1) →
        ∃ t, exec (.restWake ev) s = .next t ∧ t.mode = .service ∧ t.dram.selfRefresh = false ∧ t.dev.vidReq = s.dev.vidSet
          ∧ ∀ vc ∈ s.allCores, (t.core vc).wfe = false)
      ∧ (s.dev.wake.getLsbD ev.toNat = false → exec (.restWake ev) s = .next s))

/-- O28. The supply setpoint (13 R418; 19 R553): VOLTAGE_SET asks for its code and replies once the rail is there; a step moves CORE_VID by one toward the code asked for, at least 10 µs after the step before; a rail that reaches REST's code instead of the setpoint answers nothing (14 R433). The Gatehouse's firmware and its reset (13 R418, R430; 14 R434; 18 R533): DEVICE_RESET replies, stops commands and saves the log, and takes effect 10 µs on as a full reset; FW_UPDATE_STAGE writes the slot that ACTIVE does not name; FW_ACTIVATE selects a slot for the next full reset or restarts the Gatehouse; a lockstep mismatch begins a restart, and its end writes the replies owed and serves again; in COLD the first mismatch starts COLD over and the second holds the device there (14 R438, R439). -/
def Obligations.VoltageFirmwareAndReset : Prop :=
  ((∀ (s : State) (n : LaneNo) (p : Packet),
       Heard s n specVoltageSet p
         [(16, decide (650 ≤ pkGet p 16 2 ∧ pkGet p 16 2 ≤ 950 ∧ pkGet p 16 2 % 5 = 0)), (18, pkZero p 18 14)] →
       s.gate.voltReq = none → s.dev.vid.toNat ≠ (pkGet p 16 2 - 650) / 5 →
       ∃ t, exec (.voltageSet n) s = .next t ∧ (t.lane n).begun = true ∧ t.dev.vid = s.dev.vid
         ∧ t.dev.vidReq.toNat = (pkGet p 16 2 - 650) / 5 ∧ t.dev.vidSet = t.dev.vidReq
         ∧ t.gate.voltReq = some (n, BitVec.ofNat 16 (pkTag p)))
   ∧ (∀ s : State, s.dev.vid ≠ s.dev.vidReq → s.dev.rails.getLsbD 8 = true → s.dev.porst = false → s.therm.trip = false →
       ∃ t, exec .coreVidStep s = .next t ∧ (s.qz.locked = true → s.dev.vidAt + 10000 ≤ t.dev.vidAt) ∧ t.dev.vidReq = s.dev.vidReq
         ∧ t.dev.vid = (if s.dev.vid.toNat < s.dev.vidReq.toNat then s.dev.vid + 1 else s.dev.vid - 1)
         ∧ (s.gate.voltReq = none ∨ s.dev.vidSet ≠ s.dev.vidReq → t = { s with qz := t.qz, dev := t.dev })
         ∧ ∀ n p tag, s.gate.voltReq = some (n, tag) → t.dev.vid = s.dev.vidReq → s.dev.vidSet = s.dev.vidReq → s.gate.restart = false → ByMailbox s n → (s.lane n).cur = some p →
             RepliedBy t n p 0 0 t.qz.time 0 ∧ t.qz.time ≤ t.dev.vidAt + 50000 ∧ t.gate.voltReq = none))
  ∧ ((∀ (s : State) (n : LaneNo) (p : Packet), ByMailbox s n →
         Heard s n specDeviceReset p [(16, pkGet p 16 4 == 0xA5A55A5A), (20, pkZero p 20 12)] →
         ∃ t, exec (.deviceReset n) s = .next t ∧ RepliedBy t n p 0 0 s.qz.time 0 ∧ t.gate.resetAt = some s.qz.time
           ∧ (∀ m, laneServed t m = false) ∧ t.mode = s.mode ∧ (∀ vc, t.core vc = s.core vc))
     ∧ (∀ (s : State) (b : BootObs) (at_ : Nat), s.gate.resetAt = some at_ → supplied s.dev = false →
         ∃ t, exec (.deviceResetEffect b) s = .next t ∧ t.mode = .cold ∧ t.dev.porst = false ∧ t.cores = [] ∧ t.pavs = []
           ∧ t.gate = {} ∧ t.dram = {} ∧ t.flash = s.flash ∧ t.jtag = { s.jtag with want := none })
     ∧ (∀ (s : State) (n : LaneNo) (p : Packet), ByMailbox s n →
         Heard s n specFwUpdateStage p [(24, decide (fuLen p ≤ 0x100000)), (28, decide (fuOff p + fuLen p ≤ slotSize))] →
         (readWaits s (fuPa p) (fuLen p) = true → exec (.fwUpdateStage n) s = .next s)
         ∧ ((fuLen p = 0 ∨ dramHolds s (fuPa p) (fuLen p) = true) → readWaits s (fuPa p) (fuLen p) = false →
         ∃ t, exec (.fwUpdateStage n) s = .next t ∧ t.flash = stageChunk s.flash (fuOff p) (readBytes s (fuPa p) (fuLen p))
           ∧ (pkFlags p % 2 = 0 → RepliedBy t n p 0 0 s.qz.time 0)
           ∧ (pkFlags p % 2 = 1 → RepliedBy t n p 0x11 1 0 0
               ∨ (hdrOk (slotOfFlash t.flash (!t.flash.active)) = true ∧ RepliedBy t n p 0 0 s.qz.time 0))))
     ∧ (∀ (s : State) (n : LaneNo) (p : Packet), ByMailbox s n →
         Heard s n specFwActivate p [(16, decide (pkGet p 16 1 ≤ 1)), (17, pkZero p 17 15)] →
         (pkFlags p % 2 = 0 → ∃ t, exec (.fwActivate n) s = .next t ∧ t.flash = { s.flash with active := pkGet p 16 1 == 1 }
           ∧ RepliedBy t n p 0 0 s.qz.time 0)
         ∧ (pkFlags p % 2 = 1 → s.gate.slates = [] → ∃ t, exec (.fwActivate n) s = .next t ∧ t.gate.restart = true
           ∧ (t.lane n).begun = true ∧ t.flash = s.flash))
     ∧ (∀ s : State, s.dev.porst = false → s.therm.trip = false → s.gate.byBlv = false →
         (s.gate.restart = false → s.mode ≠ .cold → s.mode ≠ .rest → s.gate.restReq = none →
           mismatchOver s 5 (recentTimes s s.gate.mismatches (mismatchWindow s 5)) = false →
           ∃ t, exec .gatehouseRestart s = .next t ∧ t.gate.restart = true ∧ Logged t 0x10 5 9 0 ∧ t.mode = s.mode)
         ∧ (s.gate.restart = false → s.mode = .cold → s.dev.coldRun = true →
           ∃ t, exec .gatehouseRestart s = .next t ∧ t.mode = .cold ∧ t.dev.coldRetry = true ∧ t.flash = s.flash ∧ Logged t 0x10 5 9 0
             ∧ (if s.dev.coldRetry then t.dev.coldHeld = true ∧ t.dev.coldRun = false ∧ t.dev.idle = true ∧ laneServed t 0 = true
                else t.dev.coldRun = true ∧ t.dev.boot = s.dev.boot ∧ t.qz.locked = false))
         ∧ (s.gate.restart = true → (∀ m, (s.lane m).held = false ∧ (s.lane m).owed = none) → activating s = none →
           exec .gatehouseRestart s = .next { s with gate := { s.gate with restart := false } })
         ∧ (∀ n r k p, s.gate.restart = true → (∀ m, (s.lane m).held = false ∧ (m ≠ n → (s.lane m).owed = none)) → activating s = none →
           (s.lane n).owed = some (r, k) → (s.lane n).cur = some p → (s.lane n).begun = true → ByMailbox s n →
           ∃ t, exec .gatehouseRestart s = .next t ∧ t.gate.restart = false ∧ OnlyGate s t ∧ (t.lane n).mbRpl = r ∧ (t.lane n).cur = none
             ∧ (t.lane n).owed = none ∧ (t.lane n).ready = true ∧ (t.lane n).busy = false)
         ∧ (∀ n b p, s.gate.restart = true → (∀ m, (s.lane m).held = false ∧ (s.lane m).owed = none) → activating s = some (n, b) →
           ByMailbox s n → (s.lane n).cur = some p →
           ∃ t, exec .gatehouseRestart s = .next t ∧ t.gate.restart = false ∧ RepliedBy t n p 0 0 s.qz.time 0
             ∧ t.dev.fwVersion = BitVec.ofNat 32 (flashField (slotOfFlash s.flash b) 8 4))))

/-- O29. Reports (13, DEVICE_INFO; 15 R480, R481; 19 R563; 13 R410): each read command answers with what the device holds; LOG_READ gives the records from a number on, LOG_CLEAR removes those up to one, a read of TJ_PEAK takes the peak away. Lane pages (13 R402, R404, R405, R410, R412, R429): the doorbell of a served, idle mailbox presents its command, or answers it with the stored reply, is held while the Gatehouse restarts (R430), else it sets OVERRUN; RING_EN rising clears the indices; CR_TAIL is taken; the ring's command at CR_HEAD is presented once a reply slot is free. The board manager's transports (18 R536 to R538): a transfer of whole words reads or writes the lane 0 page at rising offsets, either transport alike; SETDASA and ENTDAA give the target its dynamic address, ENEC enables in-band interrupts. -/
def Obligations.LanesReportsAndTransports : Prop :=
  ((∀ (s : State) (n : LaneNo) (p : Packet), ByMailbox s n →
       (Heard s n { op := 0x0101, len := 1, modes := mAll, stage := false, right := rInfo } p [] →
         ∃ t, exec (.deviceInfo n) s = .next t ∧ RepliedBy t n p 0 0 s.qz.time (infoNat s) ∧ OnlyGate s t)
       ∧ (Heard s n { op := 0x0701, len := 2, modes := mAll, stage := false, right := rInfo } p
           [(24, decide (1 ≤ pkGet p 24 1 ∧ pkGet p 24 1 ≤ 5)), (25, pkZero p 25 7)] →
         let l := (s.gate.log.filter (fun r => decide (pkGet p 16 8 ≤ r.seq.toNat))).take (pkGet p 24 1)
         ∃ t, exec (.logRead n) s = .next t ∧ OnlyGate s t ∧ t.gate.log = s.gate.log
           ∧ RepliedBy t n p 0 l.length (match s.gate.log with | r :: _ => r.seq.toNat | [] => s.gate.nextSeq.toNat) (recsNat l))
       ∧ (Heard s n { op := 0x0702, len := 2, modes := mAS, stage := false, right := rFault } p [(24, pkZero p 24 8)] →
         ∃ t, exec (.logClear n) s = .next t ∧ OnlyGate s t ∧ RepliedBy t n p 0 0 s.qz.time 0
           ∧ t.gate.log = s.gate.log.filter (fun r => decide (pkGet p 16 8 < r.seq.toNat)))
       ∧ (Heard s n { op := 0x0704, len := 1, modes := mAll, stage := false, right := rInfo, target := 0xFFFFFF } p
           [(8, unitExists (pkTarget p % 256) (pkTarget p / 256))] →
         let all := pkTarget p % 256 == 3 && pkTarget p / 256 == 0xFF
         let u := if all then slicesNow s else unitNow s (pkTarget p % 256) (pkTarget p / 256)
         ∃ t, exec (.unitStatus n) s = .next t ∧ OnlyGate s t
           ∧ RepliedBy t n p 0 0 s.qz.time (u.state.toNat + 2 ^ 8 * u.lastClass.toNat + 2 ^ 32 * u.corrected.toNat
               + 2 ^ 64 * (u.lastTime % 2 ^ 64) + 2 ^ 128 * unitInfo s (pkTarget p % 256) (pkTarget p / 256) + (if all then 2 ^ 320 * htNat s 64 else 0))))
   ∧ (∀ (s : State) (n : LaneNo), laneReached s n = true →
       (∃ t, exec (.mbStatRead n) s = .next t ∧ t.out.getLsbD 0 = ((s.lane n).busy || (s.lane n).cur.isSome || s.gate.restart)
         ∧ t.out.getLsbD 1 = (s.lane n).ready ∧ t.out.getLsbD 2 = (s.lane n).overrun ∧ t.out.extractLsb' 3 61 = 0#61
         ∧ t.gate = s.gate ∧ t.mgmt.alert = (s.mgmt.alert && n != 0))
       ∧ (∃ t, exec (.tjPeakRead n) s = .next t ∧ t.therm = { s.therm with peak := none }
         ∧ t.out = (match s.therm.peak with | some v => 0x10000#64 ||| v.setWidth 64 | none => 0))))
  ∧ (∀ (s : State) (n : LaneNo), let l := s.lane n
       (laneReached s n = true → ∀ v : W32,
         (v.getLsbD 0 = true → l.busy = false → l.cur = none → l.ringEn = false → s.gate.restart = false → laneServed s n = true →
           let q := trimPacket l.mbCmd
           (l.recent.find? (fun r => r.1 == q) = none → assignedOp (pkOpcode q) = true →
             ∃ t, exec (.mbDoorbellWrite n v) s = .next t ∧ OnlyGate s t ∧ t.lane n = { l with busy := true, ready := false, mbRpl := mkReply 1 (pkTag l.mbCmd) 0 0 0, cur := some q, curRing := false, begun := false })
           ∧ (∀ r, l.recent.find? (fun r => r.1 == q) = some (q, r) → l.postEn = false →
             ∃ t, exec (.mbDoorbellWrite n v) s = .next t ∧ OnlyGate s t ∧ (t.lane n).mbRpl = r ∧ (t.lane n).ready = true
               ∧ (t.lane n).busy = false ∧ (t.lane n).recent = l.recent))
         ∧ (v.getLsbD 0 = true → l.busy = false → l.cur = none → l.ringEn = false → s.gate.restart = true →
           ∃ t, exec (.mbDoorbellWrite n v) s = .next t ∧ t.lane n = { l with held := true } ∧ OnlyGate s t)
         ∧ (v.getLsbD 0 = true → (l.busy = true ∨ l.cur ≠ none ∨ l.ringEn = true) →
           ∃ t, exec (.mbDoorbellWrite n v) s = .next t ∧ t.lane n = { l with overrun := true } ∧ OnlyGate s t)
         ∧ (n ≠ 0 → l.ringEn = false → v.getLsbD 0 = true → ringPlaceOk s l.crBase.toNat (ringBytes l) = true →
             ringPlaceOk s l.rrBase.toNat (ringBytes l) = true →
           ∃ t, exec (.ringEnWrite n v) s = .next t ∧ OnlyGate s t ∧ t.lane n = { l with ringEn := true, postEn := v.getLsbD 1, ringErr := false, crTail := 0, crHead := 0, rrTail := 0, rrHead := 0 })
         ∧ (l.ringEn = true → (v - l.crHead).toNat ≤ 2 ^ l.size.toNat → ringPlaceOk s l.crBase.toNat (ringBytes l) = true →
             ringPlaceOk s l.rrBase.toNat (ringBytes l) = true →
           ∃ t, exec (.crTailDoorbell n v) s = .next t ∧ t.lane n = { l with crTail := v } ∧ OnlyGate s t)
         ∧ (l.ringEn = true → 2 ^ l.size.toNat < (v - l.crHead).toNat →
           ∃ t, exec (.crTailDoorbell n v) s = .next t ∧ (t.lane n).ringEn = false ∧ (t.lane n).ringErr = true ∧ Logged t 0x30 0x10 9 n.toNat))
       ∧ (∀ s1, laneServed s n = true → lanesServed s = true → checkRing s n = s → l.ringEn = true → l.cur = none → l.crHead ≠ l.crTail →
           (l.rrTail - l.rrHead).toNat < 2 ^ l.size.toNat →
           rowFilled s.dram (lineOf (ringSlot l.rrBase l.size l.rrTail + 255)) = true →
           let pa := l.crBase.toNat + 256 * (l.crHead.toNat % 2 ^ l.size.toNat)
           let q := readSlotPacket s pa
           readPieces pa (slotPieces q) s = some s1 → s1.lane n = l →
           l.recent.find? (fun r => r.1 == trimPacket q) = none → assignedOp (pkOpcode (trimPacket q)) = true →
           ∃ t, exec (.ringCommandTake n) s = .next t
             ∧ t.lane n = { l with crHead := l.crHead + 1, cur := some (trimPacket q), curRing := true, begun := false }))
  ∧ ((∀ (s : State) (off : BitVec 16) (k : Nat) (ws : List W32), s.dev.porst = false → s.therm.trip = false →
         s.dev.rails.getLsbD 3 = true → s.dev.rails.getLsbD 8 = true →
         (∃ t, exec (.i3cPrivateTransfer true off k ws) s = .next t ∧ exec (.spiFrame true off k ws) s = .next t ∧ t.mgmt.out.length = k
           ∧ (k = 1 → laneRead s 0 off.toNat = (t.mgmt.out.headD 0, { t with mgmt := { t.mgmt with out := s.mgmt.out } })))
         ∧ (∃ t, exec (.i3cPrivateTransfer false off k ws) s = .next t ∧ exec (.spiFrame false off k ws) s = .next t
           ∧ ∀ w v, ws = [w, v] → t = laneWrite (laneWrite s 0 off.toNat w) 0 ((off.toNat + 4) % 65536) v))
     ∧ (∀ (s : State) (a : BitVec 7), s.dev.porst = false → s.therm.trip = false → s.dev.rails.getLsbD 3 = true →
         s.dev.rails.getLsbD 8 = true →
         (s.mgmt.dyn = none → ∀ c ∈ [Instr.i3cSetdasa a, .i3cEntdaa a], exec c s = .next { s with mgmt := { s.mgmt with dyn := some a } })
         ∧ exec .i3cEnec s = .next { s with mgmt := { s.mgmt with enec := true } }))

/-- O30. Reset and COLD (14 R434, R435, R437, R438; 18 R533, R534; 19 R550, R554): PORST_N low puts every block in its reset state and keeps boot flash; when it rises, after DEVICE_RESET, and with the last supply, COLD begins, with one more boot; once the PLL has locked, the slot that boots, its code of VDD_CORE and its lane table are in force, and lane 0 is served; with no slot that boots the device is held in COLD. ASSEMBLY_ENTRY and HYPERVISOR_COPY (14 R432, R437, R440): the end of COLD gives the load range to the hypervisor, or ends in BELVEDERE where a test failed, naming the channel where the memory did not fit; the copy, once the fill has passed the range, ends with its check. -/
def Obligations.ResetColdAndAssembly : Prop :=
  (let cold : State → BootObs → State → Prop := fun s b t =>
     t.mode = .cold ∧ t.flash = bootFlash s.flash b ∧ t.flash.bootCount = s.flash.bootCount + 1
     ∧ t.dev.coldRun = true ∧ t.dev.boot = some b
   (∀ s : State, ∃ t, exec .porstNAssert s = .next t ∧ t.dev.porst = true ∧ t.mode = .cold ∧ t.cores = [] ∧ t.fab = {} ∧ t.dram = {}
       ∧ t.pavs = [] ∧ t.qos = [] ∧ t.qz = {} ∧ t.gate = {} ∧ t.timers = [] ∧ t.uncore = [] ∧ t.funnel = {} ∧ t.ports = []
       ∧ t.mgmt = {} ∧ t.therm = {} ∧ t.flash = s.flash ∧ t.jtag = { s.jtag with want := none } ∧ t.dev.rails = s.dev.rails)
   ∧ (∀ (s : State) (b : BootObs), s.dev.porst = true → s.mode = .cold → s.dev.coldRun = false → s.dev.coldHeld = false →
       ∃ t, exec (.porstNRelease b) s = .next t ∧ t.dev.porst = false
         ∧ (if supplied s.dev then cold s b t else t.mode = .cold ∧ t.dev.coldRun = false ∧ t.flash = s.flash))
   ∧ (∀ (s : State) (b : BootObs) (at_ : Nat), s.gate.resetAt = some at_ → supplied s.dev = true →
       ∃ t, exec (.deviceResetEffect b) s = .next t ∧ t.dev.porst = false ∧ cold s b t)
   ∧ (∀ (s : State) (b : BootObs), s.mode = .cold → s.dev.porst = false → s.dev.coldRun = false → s.dev.coldHeld = false →
       supplied s.dev = false →
       (∀ r : BitVec 4, s.dev.rails ||| (1#9 <<< r.toNat) = 0x1FF → s.dev.refclk = true →
         ∃ t, exec (.supplyInRange (some r) b) s = .next t ∧ t.dev.rails = 0x1FF ∧ cold s b t)
       ∧ (s.dev.rails = 0x1FF → ∃ t, exec (.supplyInRange none b) s = .next t ∧ t.dev.refclk = true ∧ cold s b t))
   ∧ (∀ (s : State) (b : BootObs), s.mode = .cold → s.dev.porst = false → s.dev.refclk = true → s.qz.locked = false → s.dev.coldRun = true →
       s.dev.boot = some b → s.dev.hdr = none →
       (bootSlot s.flash b = none → ∃ t, exec .quartzPllLock s = .next t ∧ t.mode = .cold ∧ t.dev.coldHeld = true ∧ t.dev.coldRun = false
         ∧ t.dev.idle = true ∧ (t.lane 0).busy = false ∧ t.qz.locked = true)
       ∧ (∀ x, bootSlot s.flash b = some x → let h := hdrOf (slotOfFlash s.flash x)
         ∃ t, exec .quartzPllLock s = .next t ∧ t.mode = .cold ∧ t.dev.coldRun = true ∧ t.dev.slot = x ∧ t.dev.hdr = some h
           ∧ t.dev.fwVersion = h.fwVersion ∧ t.dev.vidSet = BitVec.ofNat 6 ((h.vddSet - 650) / 5) ∧ (t.lane 0).busy = false
           ∧ ∀ n : LaneNo, (t.lane n).rights = laneRights h n.toNat))
   ∧ (∀ (s : State) (b : BootObs) (r : BitVec 4), r.toNat < 8 → s.dev.rails ||| (1#9 <<< r.toNat) ≠ 0x1FF →
       exec (.supplyInRange (some r) b) s = .next { s with dev := { s.dev with rails := s.dev.rails ||| (1#9 <<< r.toNat) } })
   ∧ (∀ s : State, s.dev.rails.getLsbD 8 = false → s.mode ≠ .belvedere →
       exec .vddIo18Up s = .next { s with arb := { s.arb with ax := 0xAA, axTurn := [0xAA], roleSet := false }, dev := { s.dev with rails := s.dev.rails ||| 0x100, safeOut := some 0, vid := 30 } }))
  ∧ ((∀ (s : State) (h : SlotHdr), s.dev.hdr = some h → s.mode = .cold → s.dev.coldRun = true → s.qz.locked = true → s.dev.coldHeld = false →
         (s.dev.coldFault = none → ∃ t, exec .assemblyEntry s = .next t ∧ t.mode = .assembly ∧ t.dev.coldRun = false
           ∧ t.dev.boot = none ∧ t.gate.ranges = s.gate.ranges ++ [{ owner := hypClass, base := (loadRange s).1, len := (loadRange s).2 }])
         ∧ (∀ c, s.dev.coldFault = some c → s.dev.porst = false → s.therm.trip = false →
           ∃ t, exec .assemblyEntry s = .next t ∧ InBelvedere t
             ∧ ∀ ch off, s.dev.coldMem = some (ch, off) → Logged t c 9 6 ch.toNat))
     ∧ (∀ (s : State) (h : SlotHdr) (ok : Bool), s.dev.hdr = some h → s.mode = .assembly → s.dev.hvDone = false → filled s h.loadPa h.hvLen = true →
         s.gate.modeReq = none →
         ∃ t, exec (.hypervisorCopy ok) s = .next t ∧ t.dev.hvDone = true ∧ t.dev.hvBad = (s.dev.hvBad || !ok) ∧ t.mode = .assembly
           ∧ (ok = false → Logged t 0x32 0x10 9 0))
     ∧ (∀ (s : State) (h : SlotHdr) (ok : Bool), s.dev.hdr = some h → s.mode = .assembly → s.dev.hvDone = false →
         filled s h.loadPa h.hvLen = false → exec (.hypervisorCopy ok) s = .next s))

/-- O31. Faults of the islands (15 R456, R457, R459, R460, R569; 08 R265): a core's check rolls it back to its last commit point and counts; a translator's requests leave it; the spine goes on from its mirror; a core whose fault is permanent moves to the chosen spare with its registers, and with no spare, or none that passes its check, the device enters BELVEDERE; a stalled slice, controller or Arbor engine is met as its own failure, and a stalled cluster cannot be hidden. -/
def Obligations.CoresRollBackAndMigrate : Prop :=
  (∀ (s : State) (vc : Vc) (k : CoreCheck), recovers s = true → AtWork s → (s.core vc).started = true →
      ∃ t, exec (.handshakeWatchdogExpiry (.core vc k)) s = .next t ∧ Settled t vc (s.core vc).arch
        ∧ (t.core vc).sb = (s.core vc).sb.filter (·.committed) ∧ (t.core vc).tickets = []
        ∧ (t.core vc).rollbacks = (s.core vc).rollbacks ++ [(s.qz.time, checkKind k)]
        ∧ Logged t (if k = .parity then 0x14 else 1) 1 1 (s.pcOf vc) ∧ t.dram = s.dram ∧ ∀ v, v ≠ vc → t.core v = s.core v)
  ∧ (∀ (s : State) (k : Oct), recovers s = true → AtWork s → (s.cluster k.toNat).xlDead = false →
      ∃ t, exec (.handshakeWatchdogExpiry (.translator k)) s = .next t ∧ (t.cluster k.toNat).xlDead = true
        ∧ (t.cluster k.toNat).xlq = [] ∧ (t.cluster k.toNat).ready = [] ∧ Logged t 5 0x0D 2 k.toNat
        ∧ ∀ v, (t.core v).arch = (s.core v).arch ∧ (t.core v).spec = (s.core v).spec)
  ∧ (∀ (s : State) (k : Oct), recovers s = true → (∃ t, exec (.handshakeWatchdogExpiry (.cluster k)) s = .next t ∧ InBelvedere t)
      ∧ (s.gate.restart = false → exec (.handshakeWatchdogExpiry (.slice k)) s = exec (.homeSliceRebuild k) s
        ∧ exec (.handshakeWatchdogExpiry (.controller k)) s = exec (.channelSwitchover k) s)
      ∧ (s.arb.engine = 0 → exec (.handshakeWatchdogExpiry .arbor) s = exec .arborMismatchRecovery s))
  ∧ (∀ s : State, recovers s = true → AtWork s → s.fab.spine.mirror = false →
      ∃ t, exec (.handshakeWatchdogExpiry .spine) s = .next t ∧ Logged t 0x0B 0x0E 0x0C 0
        ∧ t.fab = { s.fab with spine := { s.fab.spine with mirror := true } })
  ∧ (∀ (s : State) (vc : Vc), s.mode = .service → recovers s = true → AtWork s → s.gate.restart = false → (s.core vc).started = true →
      permanent s vc = true → s.pcOf vc < 72 →
      (∀ p, chooseSpare s.cmap (s.pcOf vc / 9) = some p →
        ∃ t, exec (.coreMigration vc { readable := true }) s = .next t ∧ t.pcOf vc = p.toNat ∧ p ∉ t.cmap.spares
          ∧ t.cmap.retired.getLsbD (s.pcOf vc) = true ∧ t.flash.retired.getLsbD (s.pcOf vc) = true
          ∧ Settled t vc (s.core vc).arch ∧ (∀ v, v ≠ vc → t.pcOf v = s.pcOf v)
          ∧ Logged t (if p.toNat / 9 = s.pcOf vc / 9 then 2 else 3) 2 1 (s.pcOf vc))
      ∧ (chooseSpare s.cmap (s.pcOf vc / 9) = none → ∃ t, exec (.coreMigration vc { readable := true }) s = .next t ∧ InBelvedere t)
      ∧ (∀ (b : Bool) (n : Nat), s.cmap.spares.length ≤ n →
        ∃ t, exec (.coreMigration vc { readable := b, badSpares := n }) s = .next t ∧ InBelvedere t))

/-- O32. CACHE_SCRUB and CACHE_WAY_RETIRE (15 R456, R461, R462, R464, R567; 08 R257): a clean word changes nothing; a corrected one counts; an uncorrectable one is refetched where a good copy stands elsewhere, a dirty line of the system cache from the mirror of its write-back buffer; a retired way holds no line and takes none, and what it held dirty is on its way home. The controllers' own work (09 R273, R276, R280, R281, R291, R293): a write reaches DRAM at once in OPEN mode and through its row's group in PARITY mode, and leaves the write-back buffer; the fill, refresh, drift tracking and scrubbing move on; a scrub counts or rebuilds what it finds. -/
def Obligations.CachesAndControllers : Prop :=
  ((∀ (s : State) (a : ScrubArr), exec (.cacheScrub a .clean) s = .next s)
   ∧ (∀ (s : State) (a : ScrubArr), recovers s = true → arrayHere s a = true →
       ∃ t, exec (.cacheScrub a .corrected) s = .next t ∧ t.fab = s.fab ∧ t.dram = s.dram ∧ t.mode = s.mode
         ∧ ∀ k i, (scrubUnit s a).2 = some (k, i) → (t.unit k i).corrected = satAdd32 (s.unit k i).corrected 1
           ∧ ∀ c, (scrubUnit s a).1 = some c → Logged t c 0 k i)
   ∧ (∀ (s : State) (h : Oct) (l : LineNo) (x : ScLine), recovers s = true → AtWork s → mget? (s.home h.toNat).sc l.toNat = some x →
       (x.dirty = true → (s.mirrored h.toNat l).isSome) →
       ∃ t, exec (.cacheScrub (.sysCache h l) .uncorrectable) s = .next t ∧ Logged t 9 0x0C 3 h.toNat
         ∧ mget? (t.home h.toNat).sc l.toNat
           = (if x.dirty then (s.mirrored h.toNat l).map (fun v => { x with data := v }) else none))
   ∧ (∀ (s : State) (h : Oct) (l : LineNo), recovers s = true → AtWork s → s.txnOf h.toNat l = none → (s.dirOf h.toNat l).isSome →
       ∃ t, exec (.cacheScrub (.directory h l) .uncorrectable) s = .next t ∧ Logged t 8 0x0C 3 h.toNat
         ∧ t.dirOf h.toNat l = none ∧ (∀ k, k < 8 → t.l2 k l = none))
   ∧ (∀ (s : State) (k : Oct) (l : LineNo) (x : L2Line), recovers s = true → AtWork s → s.l2 k.toNat l = some x →
       (x.st = .e ∨ x.st = .s) → s.mshrOf k.toNat l = none →
       ∃ t, exec (.cacheScrub (.l2 k l) .uncorrectable) s = .next t ∧ t.l2 k.toNat l = none ∧ t.dram = s.dram)
   ∧ (∀ (s : State) (c : Oct) (l : LineNo), recovers s = true → AtWork s →
       ∃ t, exec (.cacheScrub (.tagCache c l) .uncorrectable) s = .next t ∧ Logged t 0x15 0x0C 6 c.toNat
         ∧ (∀ x ∈ mget t.dram.tagCache c.toNat [], x ∈ mget s.dram.tagCache c.toNat [] ∧ (x.2 = true ∨ x.1 ≠ l)) ∧ t.dram.cells = s.dram.cells)
   ∧ (∀ (s : State) (n : BitVec 4), recovers s = true → AtWork s →
       ∃ t, exec (.cacheScrub (.stopBuf n) .uncorrectable) s = .next t ∧ Logged t 0x14 0x10 5 n.toNat ∧ t.fab.net = s.fab.net
         ∧ mget t.fab.resends n.toNat 0 = mget s.fab.resends n.toNat 0 + 1)
   ∧ (∀ (s : State) (vc : Vc) (va : W64), recovers s = true → AtWork s → vc.toNat < vcCount s.cmap.part →
       ∃ t, exec (.cacheScrub (.course vc va) .uncorrectable) s = .next t ∧ Logged t 4 0x0C 1 (s.pcOf vc)
         ∧ (∀ r ∈ (t.core vc).micro.regions, ∀ x ∈ r.courses, x.pc ≠ va) ∧ (t.core vc).arch = (s.core vc).arch)
   ∧ (∀ (s : State) (k : Oct) (w : BitVec 4), recovers s = true → AtWork s →
       (∃ t, exec (.cacheWayRetire true k w) s = .next t ∧ Logged t 7 7 3 k.toNat ∧ (t.home k.toNat).badWays.getLsbD w.toNat = true
         ∧ (∀ p ∈ (t.home k.toNat).sc, p.2.way ≠ w) ∧ (t.home k.toNat).wbuf = (s.home k.toNat).wbuf)
       ∧ (∃ t, exec (.cacheWayRetire false k w) s = .next t ∧ (t.cluster k.toNat).badWays.getLsbD w.toNat = true
         ∧ ∀ l x, (t.l2 k.toNat l = some x → s.l2 k.toNat l = some x)
           ∧ (s.l2 k.toNat l = some x → t.l2 k.toNat l = none → (x.st = .m ∨ x.st = .o) →
             (mget? (t.cluster k.toNat).wb l.toNat).map (·.data) = some x.data))))
  ∧ ((∀ (s : State) (l : LineNo) (v : Line), let h := s.homeNo l
         mget? (s.home h).wbuf l.toNat = some v → s.dev.stopped = false → rowFilled s.dram l = true →
         rankDue s (readChannel s.dram (slotOf s.dram.mode l.toNat)) (memRank s (wbClass (s.home h) l)) = true →
         (s.dram.mode = .open_ → ∃ t, exec (.mwr l) s = .next t
           ∧ t.dram = { dramWrite s.dram l.toNat v with tagCache := t.dram.tagCache }
           ∧ mget? (t.home h).wbuf l.toNat = none ∧ t.cores = s.cores)
         ∧ (s.dram.mode = .parity → ∃ t, exec (.mwr l) s = .next t ∧ t.dram.cells = s.dram.cells
           ∧ dramPeek t.dram l = v ∧ t.fab = s.fab ∧ t.cores = s.cores))
     ∧ (∀ (s : State) (r : BitVec 32) (b : Burst) (ws : List (LineNo × Line)), mget? s.dram.groups r.toNat = some ws → s.dev.stopped = false →
         s.mode ≠ .belvedere → (let sl : Slot := { c := b.chan.toNat, r := r.toNat }; eccAt s.dram (burstSlot s.dram sl b) b = .clean) →
         ∃ t, exec (.parityWriteGroup { row := r, burst := b }) s = .next t ∧ mget? t.dram.groups r.toNat = none
           ∧ t.dram.cells = (writeGroup s.dram r.toNat (ws.map (fun w => (w.1.toNat, w.2)))).cells
           ∧ ∀ l v, (l, v) ∈ ws → mget? (t.home (s.homeNo l)).wbuf l.toNat ≠ some v)
     ∧ (∀ (s : State) (l : LineNo) (b : Burst) (as bs : List FabMsg) (p : FabMsg), s.fab.net = as ++ p :: bs → p.msg = .mrd l → (∀ m ∈ as, m.msg ≠ .mrd l) → s.dev.stopped = false →
         s.mode ≠ .belvedere → rowFilled s.dram l = true → mrdDue s l = true →
         (let sl := slotOf s.dram.mode l.toNat; eccAt s.dram (burstSlot s.dram sl b) b = .clean) →
         ∃ t, exec (.mrd l b) s = .next t ∧ t.net = (as ++ bs).map (·.msg) ++ [.mdata l (dramPeek s.dram l)] ∧ t.dram.cells = s.dram.cells)
     ∧ (∀ (s : State) (n : BitVec 32), (s.mode = .assembly ∨ s.mode = .service ∨ s.mode = .repair) → s.dev.stopped = false → s.fab.spine.open_ = [] → s.jtag.want = none →
         exec (.dramFill n) s = .next { s with dram := { s.dram with fill := min (s.dram.fill + n.toNat) (slotsPerChannel s.dram) } })
     ∧ (∀ (s : State) (c : Oct), s.dev.porst = false → s.dev.stopped = false → s.dram.selfRefresh = false → s.mode ≠ .cold →
         (∀ hot, ∃ t, exec (.dramRefresh c hot) s = .next t ∧ t.dram.refreshes = s.dram.refreshes + 1
           ∧ t.dram.hot.getLsbD c.toNat = hot ∧ t.dram.cells = s.dram.cells)
         ∧ (s.dram.lost ≠ some c → exec (.dqsDriftTrack c) s = .next { s with dram := { s.dram with drifts := s.dram.drifts + 1 } }))
     ∧ (∀ (s : State) (c : Oct) (b : Burst), let r := mget s.dram.scrub c.toNat 0
         let e := eccAt s.dram { c := c.toNat, r := r } b
         recovers s = true → AtWork s → slotLost s.dram { c := c.toNat, r := r } = false → r < s.dram.fill →
         (e = .clean → rowLost s.dram r = true ∨ s.dram.mode = .open_ ∨ parityOk s.dram r = true →
           exec (.dramScrub c b) s = .next { s with dram := { s.dram with
             scrub := mput s.dram.scrub c.toNat (if r + 1 = slotsPerChannel s.dram then 0 else r + 1) } })
         ∧ (∀ i, e = .corrected i → let dev := deviceIndex s.dram { c := c.toNat, r := r } i
           (s.unit 7 dev.toNat).corrected = 0 → ∃ t, exec (.dramScrub c b) s = .next t
           ∧ (t.unit 7 dev.toNat).corrected = 1 ∧ Logged t 0x0D 0 7 dev.toNat ∧ t.dram.cells = s.dram.cells)
         ∧ (e = .uncorrectable → s.dram.mode = .open_ →
           ∃ t, exec (.dramScrub c b) s = .next t ∧ InBelvedere t)
         ∧ (e = .uncorrectable → s.dram.mode = .parity → rowLost s.dram r = false → s.dram.bursts = [] → 0 < s.policy 2 / 65536 % 65536 →
           ∃ t, exec (.dramScrub c b) s = .next t ∧ Logged t 0x0E 3 6 c.toNat ∧ t.mode = s.mode
             ∧ t.dram.cells = (rebuildRow s.dram c.toNat r).cells)))

/-- O33. The channels (09 R294 to R298; 15 R470): in PARITY mode a channel that fails is lost, the cells stay but for the writes of the write-back buffers, which are replayed, and the device is in REPAIR; it is retrained under the policy, rebuilt row by row as long as the bursts of the row are clean (which burst a row sends is a free value), and taken back; in OPEN mode, or beside a lost channel, the device enters BELVEDERE. -/
def Obligations.ChannelsAreLostAndRebuilt : Prop :=
  (∀ (s : State) (c : Oct), recovers s = true → AtWork s → s.gate.restart = false →
      (s.dram.mode = .parity → s.dram.lost = none →
        ∃ t, exec (.channelSwitchover c) s = .next t ∧ t.dram.lost = some c ∧ t.dram.rebuild = none
          ∧ ((∀ h, h < 8 → (s.home h).wbuf = []) → t.dram.cells = s.dram.cells)
          ∧ (∀ l v, let h := s.homeNo l
            (s.home h).wbuf = [(l.toNat, v)] → (∀ k, k < 8 → k ≠ h → (s.home k).wbuf = []) → rowFilled s.dram l = true →
            (t.home h).wbuf = [] ∧ dramPeek t.dram l = v)
          ∧ t.dram.losses.head? = some (c, s.qz.time)
          ∧ t.mode = (if s.mode = .service then .repair else s.mode) ∧ Logged t 0x0F 4 6 c.toNat)
      ∧ ((s.dram.mode = .open_ ∧ s.dram.lost = none ∨ ∃ k, s.dram.lost = some k ∧ k ≠ c) →
        ∃ t, exec (.channelSwitchover c) s = .next t ∧ InBelvedere t))
  ∧ (∀ (s : State) (c : Oct) (ok : Bool), recovers s = true → AtWork s → s.gate.restart = false → s.dram.lost = some c →
      s.dram.rebuild = none → s.policy 3 % 2 = 1 →
      (s.dram.retrains.filter (fun r => r.1 == c && decide (s.qz.time < r.2 + 86400000000000))).length < s.policy 3 / 256 % 256 →
      s.dram.leftOut.getLsbD c.toNat = false →
      exec (.channelRetrain c ok) s = .next { s with dram := { s.dram with
        retrains := (c, s.qz.time) :: s.dram.retrains, rebuild := if ok then some 0 else none } })
  ∧ (∀ (s : State) (k : Oct) (b : Nat), recovers s = true → AtWork s → s.gate.restart = false → s.dram.lost = some k → s.dram.rebuild = some b →
      let u := Config.rebuildBurst s.fresh
      let e := eccAt s.dram (burstSlot s.dram { c := k.toNat, r := b } u) u
      (b < slotsPerChannel s.dram → ∃ t, exec .channelRebuildRow s = .next t
        ∧ (e = .clean → t.dram.rebuild = some (b + 1) ∧ t.dram.lost = some k ∧ t.dram.cells = (rebuildRow s.dram k.toNat b).cells)
        ∧ (e = .uncorrectable → InBelvedere t))
      ∧ (slotsPerChannel s.dram ≤ b →
        ∃ t, exec .channelRebuildEnd s = .next t ∧ t.dram = { s.dram with lost := none, rebuild := none } ∧ Logged t 0x0F 0x0A 6 k.toNat))

/-- O34. Slices and links (08 R234, R243; 15 R456, R465, R470): a failed slice is out and HT names none of its lines' homes; with fewer than two left the device enters BELVEDERE; a send that failed is repeated with its SEQ; the third failed send over a link fails it; a retest that passes takes it back. -/
def Obligations.SlicesAndLinksAreRemoved : Prop :=
  (∀ (s : State) (k : Oct), recovers s = true → s.mode ≠ .rest → s.gate.restart = false → (s.home k.toNat).dead = false →
      (3 ≤ s.aliveHomes.length → ∃ t, exec (.homeSliceRebuild k) s = .next t ∧ (t.home k.toNat).dead = true
        ∧ (∀ f, f < 64 → t.htOf f ≠ k) ∧ Logged t 0x0C 3 3 k.toNat)
      ∧ (s.aliveHomes.length < 3 → ∃ t, exec (.homeSliceRebuild k) s = .next t ∧ InBelvedere t))
  ∧ (∀ (s : State) (i : BitVec 5) (n : BitVec 4), let l := mget s.fab.links i.toNat {}
      recovers s = true → s.mode ≠ .rest → i.toNat < 24 → l.failed = false →
      (l.fails < 2 → ∃ t, exec (.fabricAckTimeout i n) s = .next t
        ∧ t.fab.resends = mput s.fab.resends n.toNat (mget s.fab.resends n.toNat 0 + 1)
        ∧ t.fab.links = mput s.fab.links i.toNat { l with fails := l.fails + 1 } ∧ t = { s with fab := t.fab, uncore := t.uncore }
        ∧ (∀ p, keptOver s n.toNat i.toNat = some p → p ∈ s.fab.net →
            t.fab.net = s.fab.net.erase p ++ [{ p with place := BitVec.ofNat 4 n.toNat, upper := false }])
        ∧ ((∀ p, keptOver s n.toNat i.toNat = some p → p ∉ s.fab.net) → t.fab.net = s.fab.net))
      ∧ (2 ≤ l.fails → (∀ j, j ≠ i.toNat → (mget s.fab.links j {}).failed = false) →
        ∃ t, exec (.fabricAckTimeout i n) s = .next t ∧ (mget t.fab.links i.toNat {}).failed = true ∧ t.mode = s.mode
          ∧ Logged t 0x0A 6 4 i.toNat))
  ∧ (∀ (s : State) (i : BitVec 5), let l := mget s.fab.links i.toNat {}
      recovers s = true → s.mode ≠ .rest → s.gate.restart = false → l.failed = true → l.out = false → s.policy 4 ≠ 0 →
      ∃ t, exec (.linkRetest i true) s = .next t ∧ Logged t 0x0A 0x0A 4 i.toNat
        ∧ t.fab = { s.fab with links := mput s.fab.links i.toNat { l with failed := false, fails := 0, readmitted := max s.qz.time 1 } })

/-- O35. Epochs and windows (10 R318, R322): at the next multiple of 8 µs the memory charges end, at the next multiple of 64 µs the tenure charges do, an excess carried over up to one budget; a pavilion that exceeded its budget counts it. TJ_SENSOR_SAMPLE and THERMAL_TRIP (19 R561 to R563): a reading reaches its register and the peak; the alert rises at the grade's limit and falls below its release; above the maximum the device enters BELVEDERE, and at 125 °C it stops. -/
def Obligations.EpochsAndTemperatures : Prop :=
  (∀ s : State, s.qz.locked = true → s.dev.porst = false → msorted s.qos = true → (∀ k ∈ mkeys s.qos, k < 65536) →
     (s.fab.heldReads = [] → (∀ p, (s.pav p).deferring = false) →
       ∃ t, exec .qosEpochStart s = .next t ∧ t.qz.time = (s.qz.time / 8000 + 1) * 8000 ∧ t.funnel.used = 0 ∧ t.cores = s.cores
         ∧ ∀ c q, mget? s.qos c = some q → mget? t.qos c = some { q with memUsed := 0, rateUsed := 0 }
           ∧ ((c < 256 ∧ (s.pav (BitVec.ofNat 8 c)).st ≠ .none ∧ q.mem < q.memUsed) →
             (t.pav (BitVec.ofNat 8 c)).memOver = satAdd32 (s.pav (BitVec.ofNat 8 c)).memOver 1))
     ∧ (∃ t, exec .arbTenureWindowStart s = .next t ∧ t.qz.time = (s.qz.time / 64000 + 1) * 64000 ∧ t.cores = s.cores
         ∧ ∀ c q, mget? s.qos c = some q → mget? t.qos c = some { q with arbUsed := min (q.arbUsed - q.arb) q.arb }
           ∧ ((c < 256 ∧ (s.pav (BitVec.ofNat 8 c)).st ≠ .none ∧ q.arb < q.arbUsed) →
             (t.pav (BitVec.ofNat 8 c)).arbOver = satAdd32 (s.pav (BitVec.ofNat 8 c)).arbOver 1)))
  ∧ (∀ (s : State) (i : BitVec 5) (x : BitVec 16), s.dev.porst = false → s.therm.trip = false → i.toNat < 20 →
       let hi : Int := if s.cmap.part = .t6472c then 720 else 800
       let lo : Int := if s.cmap.part = .t6472c then 680 else 760
       let top : Int := if s.cmap.part = .t6472c then 840 else 920
       (x.toInt ≤ top → ∃ t, exec (.tjSensorSample i x) s = .next t ∧ mget? t.therm.temp i.toNat = some x
         ∧ t = { s with therm := t.therm } ∧ t.therm.trip = false
         ∧ t.therm.peak = some (match s.therm.peak with | none => x | some p => if p.toInt < x.toInt then x else p)
         ∧ (hi ≤ x.toInt → t.therm.alert = true)
         ∧ ((∀ p ∈ t.therm.temp, p.2.toInt < lo) → t.therm.alert = false))
       ∧ (top < x.toInt → x.toInt < 1000 → mayFail s = true → ∃ t, exec (.tjSensorSample i x) s = .next t ∧ InBelvedere t)
       ∧ (1000 ≤ x.toInt → ∀ c ∈ [Instr.tjSensorSample i x, .thermalTrip i x],
         ∃ t, exec c s = .next t ∧ t.therm.trip = true ∧ t.dev.stopped = true ∧ t.dev.safeOut = none ∧ t.arb.drive = []))

/-- O36. Faults that cannot be hidden (14 R431; 15 R454, R456, R467, R469, R473, R477; 11 R371, R372; 19 R554): each named cause takes the device into BELVEDERE; a lockstep mismatch of Arbor or of a Belvedere pair restarts it within its limit. -/
def Obligations.UnhiddenFaultsEnterBelvedere : Prop :=
  (∀ s : State, mayFail s = true →
      (∀ c : BlvCause, ∃ t, exec (.belvedereEntry c) s = .next t ∧ InBelvedere t)
      ∧ (s.gate.restart = false → s.gate.byBlv = false → noImage s = false →
        ∃ t, exec .gatehouseHeartbeatTimeout s = .next t ∧ InBelvedere t)
      ∧ (∀ r : BitVec 4, r.toNat < 9 → r ≠ 2 → ∃ t, exec (.railOutOfRange r) s = .next t ∧ InBelvedere t)
      ∧ (∃ t, exec (.railOutOfRange 2) s = .next t ∧ t.mode = .belvedere ∧ t.dev.stopped = true
        ∧ (s.dev.rails &&& 0x33 = 0x33 → t.dram.selfRefresh = true) ∧ t.dev.safeOut = (if s.dev.rails.getLsbD 8 then some 0 else none))
      ∧ (∃ t, exec .refclkLoss s = .next t ∧ InBelvedere t))
  ∧ (∀ s : State, s.dev.porst = false →
      (∀ r : BitVec 4, r.toNat < 9 → s.mode = .cold →
        ∃ t, exec (.railOutOfRange r) s = .next t ∧ t.mode = .cold ∧ t.dev.porst = false ∧ t.cores = [] ∧ t.gate = {}
          ∧ t.dev.rails = s.dev.rails &&& ~~~ (1#9 <<< r.toNat) ∧ t.flash = s.flash)
      ∧ (s.mode = .cold → ∃ t, exec .refclkLoss s = .next t ∧ t.mode = .cold ∧ t.dev.refclk = false ∧ t.qz.locked = false ∧ t.cores = []))
  ∧ (∀ s : State, recovers s = true → AtWork s → s.arb.engine = 0 →
      let ts := recentTimes s s.arb.mismatches (mismatchWindow s 6)
      (mismatchOver s 6 ts = true → ∃ t, exec .arborMismatchRecovery s = .next t ∧ InBelvedere t)
      ∧ (mismatchOver s 6 ts = false → ∃ t, exec .arborMismatchRecovery s = .next t ∧ t.mode = s.mode ∧ t.arb.cycle = none
        ∧ t.arb.mismatch = satAdd32 s.arb.mismatch 1 ∧ t.arb.ses = s.arb.ses ∧ Logged t 0x11 5 8 0))
  ∧ (∀ (s : State) (b : Bool), (if b then s.dev.blv.deadB else s.dev.blv.deadA) = false → s.mode ≠ .cold → s.therm.trip = false →
      s.dev.porst = false → let ts := recentTimes s (pairTimes s.dev.blv b) (mismatchWindow s 7)
      (mismatchOver s 7 ts = false → ∃ t, exec (.belvederePairRestart b) s = .next t ∧ pairTimes t.dev.blv b = ts
        ∧ Logged t 0x12 5 10 b.toNat ∧ (if b then t.dev.blv.deadB else t.dev.blv.deadA) = false)
      ∧ (mismatchOver s 7 ts = true → ∃ t, exec (.belvederePairRestart b) s = .next t
        ∧ (if b then t.dev.blv.deadB else t.dev.blv.deadA) = true))

/-- O37. RD_S, RD_CODE, RD_X, UPG and WB (08 R246, R247, R254, R259, R260): a request to an idle home opens there and at its cluster, and the home does what the directory state asks: data from its caches or MRD, FWD_S to an owner, INV to the other sharers, CODE_MARK for a fetch; a fetch buffer takes a line that its cluster holds; a dirty line that is evicted stands in the cluster's write-back buffer and goes to its home, where it stands in the write-back buffer. -/
def Obligations.ClusterRequestsOpen : Prop :=
  ∀ (s : State) (k : Oct) (l : LineNo) (c : ClassId), let h := s.homeNo l; let tg := mget s.fab.tags (clusterAgent k.toNat).toNat 0
    HomeIdle s l →
    (canAsk s k.toNat l = true → s.l2 k.toNat l = none → dirWaysTaken (s.home h) l < 16 →
      (c ≠ devClass → ∃ t, exec (.rdS k l c) s = .next t
        ∧ t.mshrOf k.toNat l = some { kind := .rdS, core := none, need := none, got := 0, cls := c, tag := tg }
        ∧ mget t.fab.tags (clusterAgent k.toNat).toNat 0 ≠ tg
        ∧ (∃ x, t.txnOf h l = some x ∧ x.req = { kind := .rdS, src := clusterAgent k.toNat, line := l, cls := c, tag := tg })
        ∧ t = { s with fab := t.fab, uncore := t.uncore }
        ∧ (∀ e, s.dirOf h l = some e → e.st ≠ .ds → t.net = s.net ++ [Msg.fwdS e.owner l (clusterAgent k.toNat)])
        ∧ (∀ x, s.dirOf h l = none → mget? (s.home h).sc l.toNat = some x → filterOn (s.home h) (pageOfLine l) = false →
            t.net = s.net ++ [Msg.data k l x.data .e 0 false] ∧ t.dirOf h l = some { st := .dx, sharers := 0, owner := k, nru := true })
        ∧ (s.dirOf h l = none → mget? (s.home h).sc l.toNat = none → mget? (s.home h).wbuf l.toNat = none → cappedOver s c = false →
            (∀ q ∈ s.fab.heldReads, q.cls ≠ c) → t.net = s.net ++ [Msg.mrd l]))
      ∧ (∀ core : Option Vc, (∀ v, core = some v → s.clusterOf v = k.toNat ∧ c = classOf (s.core v).spec) → (core = none → c ≠ devClass) →
        ∃ t, exec (.rdCode k l core c) s = .next t ∧ t.net = s.net ++ [Msg.codeMark (pageOfLine l) l]
          ∧ t.mshrOf k.toNat l = some { kind := .rdCode, core := core, need := none, got := 0, cls := c, tag := tg }
          ∧ t = { s with fab := t.fab, uncore := t.uncore })
      ∧ (∀ (vc : Option Vc) (e : DirEntry) (x : ScLine), mayOwn s k.toNat l vc c = true →
        filterOn (s.home h) (pageOfLine l) = false → s.dirOf h l = some e → e.st = .ds → mget? (s.home h).sc l.toNat = some x →
        let others := clustersOf (e.sharers &&& ~~~ (bitOf k.toNat))
        ∃ t, exec (.rdX k l vc c) s = .next t
          ∧ t.net = s.net ++ others.map (fun i => Msg.inv (BitVec.ofNat 3 i) l (clusterAgent k.toNat) others.length) ++ [Msg.data k l x.data .e others.length false]
          ∧ t.dirOf h l = some { st := .dx, sharers := 0, owner := k, nru := true } ∧ t = { s with fab := t.fab, uncore := t.uncore }))
    ∧ (∀ (vc : Option Vc) (e : DirEntry) (x : L2Line), canAsk s k.toNat l = true → s.l2 k.toNat l = some x → (x.st = .s ∨ x.st = .o) →
      mayOwn s k.toNat l vc c = true → filterOn (s.home h) (pageOfLine l) = false → s.dirOf h l = some e → e.st = .ds →
      e.sharers.getLsbD k.toNat = true →
      let others := clustersOf (e.sharers &&& ~~~ (bitOf k.toNat))
      ∃ t, exec (.upg k l vc c) s = .next t
        ∧ t.net = s.net ++ others.map (fun i => Msg.inv (BitVec.ofNat 3 i) l (clusterAgent k.toNat) others.length) ++ [Msg.grant k l others.length]
        ∧ t.dirOf h l = some { st := .dx, sharers := 0, owner := k, nru := true } ∧ t = { s with fab := t.fab, uncore := t.uncore })
    ∧ (∀ v, fetchHeld s k.toNat l (some v) = true → exec (.rdCode k l (some v) c) s = .next (s.updCore v (fun d => fetchTake d l)))
    ∧ (∀ x : L2Line, fabricUp s = true → s.mshrOf k.toNat l = none → mget? (s.cluster k.toNat).wb l.toNat = none → s.l2 k.toNat l = some x →
      ((x.st = .m ∨ x.st = .o) →
        ∃ t, exec (.wb k l) s = .next t ∧ t.l2 k.toNat l = none ∧ mget? (t.cluster k.toNat).wb l.toNat = some { data := x.data, cls := x.cls, tag := tg }
          ∧ t.net = s.net ++ [Msg.wb k l x.data x.cls] ∧ t.dram = s.dram)
      ∧ ((x.st = .e ∨ x.st = .s) → ∃ t, exec (.wb k l) s = .next t ∧ t.l2 k.toNat l = none ∧ t.net = s.net
          ∧ (t.home h).wbuf = (s.home h).wbuf ∧ t.dram = s.dram))
    ∧ (∀ u d b, First s l (.wb k l d b) u → s.l2 k.toNat l = none → (∃ e, s.dirOf h l = some e ∧ e.st ≠ .ds ∧ e.owner = k) →
        ∃ t, exec (.wb k l) s = .next t ∧ mget? (t.home h).wbuf l.toNat = some d ∧ t.net = u.net ++ [Msg.wbAck k l]
          ∧ (∀ e, t.dirOf h l = some e → e.st = .ds ∧ e.sharers.getLsbD k.toNat = false) ∧ t.dram = s.dram)

/-- O38. NC_RD, NC_WR, ATOM (08 R247, R269) at an idle home whose system cache has the line and whose directory has no entry: the answer carries the old bytes; a write merges its bytes by the mask, an atomic the table's result. The keep region (08 R262 to R265; 09 R293): on a line that nothing waits for, the spine reads DRAM by MRD for a read or an atomic, and performs it when MDATA is in; it performs a write in DRAM once the fill has passed its row; a write or an atomic on a line that Belvedere holds first sends KINV, and goes on when the acknowledgement is in; an access behind another on its line waits. -/
def Obligations.UncachedAndKeepAccesses : Prop :=
  (∀ (s : State) (a : Agent) (c : ClassId) (pa : BitVec 48) (n : Nat) (x : ScLine), let l := lineOf pa.toNat; let h := s.homeNo l
     HomeIdle s l → canNc s pa.toNat n = true → sendsClass a c = true → s.dirOf h l = none → mget? (s.home h).sc l.toNat = some x →
     let old : W64 := BitVec.ofNat 64 (lineGet x.data (pa.toNat % 64) n)
     (∃ t, exec (.ncRd a c pa n) s = .next t ∧ t.net = s.net ++ [Msg.adata a l old] ∧ t.homeCopy l = s.homeCopy l
       ∧ t = { s with fab := t.fab, uncore := t.uncore })
     ∧ (filterOn (s.home h) (pageOfLine l) = false →
       (∀ (mask : BitVec 64) (d : Line), ∃ t, exec (.ncWr a c l mask d) s = .next t ∧ t.net = s.net ++ [Msg.done a l]
         ∧ t.homeCopy l = lineMerge x.data d mask ∧ mget? (t.home h).wbuf l.toNat = some (lineMerge x.data d mask)
         ∧ t = { s with fab := t.fab, uncore := t.uncore })
       ∧ (∀ (op : BitVec 4) (fn : AtomFn) (o v : W64), atomOf op = some fn →
         ∃ t, exec (.atom a c pa n op o v) s = .next t ∧ t.net = s.net ++ [Msg.adata a l old]
           ∧ t.homeCopy l = linePut x.data (pa.toNat % 64) n (atomVal fn n old o v).toNat ∧ t = { s with fab := t.fab, uncore := t.uncore })))
  ∧ ((∀ (s : State) (a : Agent) (pa : BitVec 48) (n : Nat), let l := lineOf pa.toNat; let sp := s.fab.spine
         keepLine s pa.toNat n = true → (∀ r ∈ sp.wait, r.line ≠ l) → mget? sp.open_ l.toNat = none →
         (∃ t r, exec (.keepRd a pa n) s = .next t ∧ t.net = s.net ++ [Msg.mrd l] ∧ t.dram = s.dram
           ∧ mget? t.fab.spine.open_ l.toNat = some (r, .mdata) ∧ r.kind = .ncRd ∧ r.src = a ∧ r.off = pa.toNat % 64 ∧ r.size = n)
         ∧ (∀ (op : BitVec 4) (fn : AtomFn) (o v : W64), atomOf op = some fn →
           ∃ t r, exec (.keepAtom a pa n op o v) s = .next t ∧ t.dram = s.dram ∧ r.kind = .atom ∧ r.src = a
             ∧ (mget? sp.blv l.toNat = none → t.net = s.net ++ [Msg.mrd l] ∧ mget? t.fab.spine.open_ l.toNat = some (r, .mdata))
             ∧ (mget? sp.blv l.toNat ≠ none → t.net = s.net ++ [Msg.kinv l] ∧ mget? t.fab.spine.open_ l.toNat = some (r, .kinv)))
         ∧ (keepLine s (l.toNat * 64) 64 = true → ∀ (mask : BitVec 64) (d : Line),
           ∃ t, exec (.keepWr a l mask d) s = .next t
             ∧ (mget? sp.blv l.toNat = none → rowFilled s.dram l = true → t.net = s.net ++ [Msg.done a l]
               ∧ t.dram = { dramWrite s.dram l.toNat (lineMerge (dramPeek s.dram l) d mask) with tagCache := t.dram.tagCache })
             ∧ (mget? sp.blv l.toNat = none → rowFilled s.dram l = false → t.net = s.net ∧ t.dram = s.dram
               ∧ ∃ r, mget? t.fab.spine.open_ l.toNat = some (r, .row) ∧ r.data = d ∧ r.mask = mask)
             ∧ (mget? sp.blv l.toNat ≠ none → t.net = s.net ++ [Msg.kinv l] ∧ t.dram = s.dram
               ∧ ∃ r, mget? t.fab.spine.open_ l.toNat = some (r, .kinv) ∧ r.data = d ∧ r.mask = mask)))
     ∧ (∀ (s u : State) (l : LineNo) (r : Req) (d : Line), First s l (.mdata l d) u → inKeep s (l.toNat * 64) = true →
         mget? s.fab.spine.open_ l.toNat = some (r, .mdata) → (∀ q ∈ s.fab.spine.wait, q.line ≠ l) →
         let old : W64 := BitVec.ofNat 64 (lineGet d r.off r.size)
         ∃ t, exec (.mdata l) s = .next t ∧ t.net = u.net ++ [Msg.adata r.src l old] ∧ mget? t.fab.spine.open_ l.toNat = none
           ∧ (r.kind = .ncRd → t.dram = s.dram ∧ (r.src = 25 → mget? t.fab.spine.blv l.toNat = some d))
           ∧ (∀ fn, r.kind = .atom → atomOf r.op = some fn → let new := atomVal fn r.size old r.opnd r.cmpv
             t.dram = { (if new = old then s.dram else dramWrite s.dram l.toNat (linePut d r.off r.size new.toNat)) with tagCache := t.dram.tagCache }))
     ∧ (∀ (s : State) (l : LineNo) (as bs : List FabMsg) (p : FabMsg), s.fab.net = as ++ p :: bs → p.msg = .kinv l → (∀ m ∈ as, m.msg ≠ .kinv l) →
         ∃ t, exec (.kinv l) s = .next t ∧ mget? t.fab.spine.blv l.toNat = none ∧ t.net = (as ++ bs).map (·.msg) ++ [Msg.ack 25 30 l] ∧ t.dram = s.dram)
     ∧ (∀ (s u : State) (l : LineNo) (r : Req), First s l (.ack 25 30 l) u → mget? s.fab.spine.open_ l.toNat = some (r, .kinv) → r.line = l →
         (∀ q ∈ s.fab.spine.wait, q.line ≠ l) → ∃ t, exec (.ack 30 l) s = .next t
           ∧ (r.kind = .atom → t.net = u.net ++ [Msg.mrd l] ∧ t.dram = s.dram ∧ mget? t.fab.spine.open_ l.toNat = some (r, .mdata))
           ∧ (r.kind = .ncWr → rowFilled s.dram l = true → t.net = u.net ++ [Msg.done r.src l] ∧ mget? t.fab.spine.open_ l.toNat = none
             ∧ t.dram = { dramWrite s.dram l.toNat (lineMerge (dramPeek s.dram l) r.data r.mask) with tagCache := t.dram.tagCache }))
     ∧ (∀ (s : State) (a : Agent) (pa : BitVec 48) (n : Nat), let l := lineOf pa.toNat
         keepLine s pa.toNat n = true → mget? s.fab.spine.open_ l.toNat ≠ none →
         ∃ t r, exec (.keepRd a pa n) s = .next t ∧ r.src = a ∧ r.line = l ∧ r.kind = .ncRd
           ∧ t.fab.spine = { s.fab.spine with wait := s.fab.spine.wait ++ [r] } ∧ t.net = s.net ∧ t.dram = s.dram))

/-- O39. FWD_S, FWD_X, FWD_RD, INV, BINV, DROP (08 R246, R253, R254, R257, R260; 05 R160): what a cluster answers and keeps. DATA, GRANT, ACK, WB_ACK, NACK, RETRY, DONE and ADATA at the agent they go to (08 R246, R248, R249, R254, R258, R269). Message headers (08 R232 to R234, R245): the sixteen bytes of the header of every message on its way, and a class in TYPE that is the class of the message; an agent that sends names itself in SRC, gives its stop's next SEQ, and stands at that stop; on arrival the message has left the net, its SEQ is noted at the destination's stop, and its stop keeps its copy. -/
def Obligations.MessagesReachTheirAgents : Prop :=
  (∀ (s u : State) (k : Oct) (l : LineNo) (a : Agent), let me := clusterAgent k.toNat
     (∀ x : L2Line, s.l2 k.toNat l = some x → x.st ≠ .s → mget? (s.cluster k.toNat).wb l.toNat = none →
       (First s l (.fwdS k l a) u → ∃ t, exec (.fwdS k l) s = .next t
         ∧ t.l2 k.toNat l = some { x with st := if x.st = .e then .s else .o, dirtyIn := none }
         ∧ t.net = u.net ++ (if a.toNat < 8 then [Msg.data (a.setWidth 3) l x.data .s 0 false] else []) ++ [.fwdAck k l (if x.st = .e then 1 else 0)]
         ∧ t = { s with fab := t.fab, uncore := t.uncore })
       ∧ (∀ n, First s l (.fwdX k l a n) u → ∃ t, exec (.fwdX k l) s = .next t ∧ t.l2 k.toNat l = none ∧ t.dram = s.dram
         ∧ t.net = u.net ++ [if a.toNat < 8 then .data (a.setWidth 3) l x.data .e n (x.st != .e)
             else .dataH k l x.data (x.st != .e)])
       ∧ (First s l (.fwdRd k l) u → ∃ t, exec (.fwdRd k l) s = .next t ∧ t.l2 k.toNat l = some { x with dirtyIn := none }
         ∧ t.net = u.net ++ [Msg.dataH k l x.data false] ∧ t = { s with fab := t.fab, uncore := t.uncore })
       ∧ (First s l (.binv k l) u → ∃ t, exec (.binv k l) s = .next t ∧ t.l2 k.toNat l = none ∧ t.dram = s.dram
         ∧ t.net = u.net ++ [if x.st = .e then .ack me (homeAgent (s.homeNo l)) l else .dataH k l x.data true]))
     ∧ (s.l2 k.toNat l = none → mget? (s.cluster k.toNat).wb l.toNat = none → (First s l (.fwdS k l a) u →
         ∃ t, exec (.fwdS k l) s = .next t ∧ t.net = u.net ++ [Msg.notHeld k l] ∧ t = { s with fab := t.fab, uncore := t.uncore }))
     ∧ (∀ e, mget? (s.cluster k.toNat).wb l.toNat = some e →
         let given : L2St → Nat → List Msg := fun st n =>
           (if a.toNat < 8 then [Msg.data (a.setWidth 3) l e.data st n (st == .e)] else []) ++ [.fwdAck k l 3]
         (First s l (.fwdS k l a) u → ∃ t, exec (.fwdS k l) s = .next t ∧ t.net = u.net ++ given .s 0
           ∧ t = { s with fab := t.fab, uncore := t.uncore })
         ∧ (∀ n, First s l (.fwdX k l a n) u → ∃ t, exec (.fwdX k l) s = .next t ∧ t.net = u.net ++ given .e n
           ∧ t = { s with fab := t.fab, uncore := t.uncore }))
     ∧ (∀ n, First s l (.inv k l a n) u → ∃ t, exec (.inv k l) s = .next t ∧ t.l2 k.toNat l = none ∧ t.net = u.net ++ [Msg.ack me a l]
         ∧ t.dram = s.dram ∧ ∀ v ∈ s.coresOf k.toNat, (s.core v).micro.readMarks.contains l = true → (t.core v).spec = (s.core v).arch)
     ∧ (∀ p, p = pageOfLine l → First s l (.drop k p) u → ∃ t, exec (.drop k p) s = .next t ∧ t.net = u.net ++ [Msg.dropAck k p]
         ∧ ∀ v ∈ s.coresOf k.toNat, (∀ r ∈ (t.core v).micro.regions, r.key.page ≠ p)
           ∧ (∀ f ∈ (t.core v).micro.fetchBuf, pageOfLine f ≠ p) ∧ (t.core v).arch = (s.core v).arch))
  ∧ (∀ (s u : State) (k : Oct) (l : LineNo) (a : Agent),
       (∀ (m : Mshr) (d : Line) (st : L2St) (n : Nat) (dirty : Bool), s.mshrOf k.toNat l = some m →
         First s l (.data k l d st n dirty) u → L2Fits s k.toNat l → let got : L2St := if dirty then .m else st
         ((m.kind = .rdS ∨ m.kind = .rdCode) → ∃ t, exec (.data k l) s = .next t ∧ t.mshrOf k.toNat l = none ∧ t.net = u.net ++ [Msg.cmp k l]
           ∧ (s.l2 k.toNat l = none → t.l2 k.toNat l = some { st := got, data := d, pres := [], cls := m.cls })
           ∧ (∀ x, s.l2 k.toNat l = some x → t.l2 k.toNat l = some { x with unperf := none })
           ∧ (∀ v, m.kind = .rdCode → m.core = some v → (t.core v).micro.fetchBuf.head? = some l))
         ∧ ((m.kind = .rdX ∨ m.kind = .upg) → ∃ t y, exec (.data k l) s = .next t ∧ t.l2 k.toNat l = some y ∧ y.data = d ∧ y.st = got
           ∧ (t.mshrOf k.toNat l = none ∨ t.mshrOf k.toNat l = some { m with need := some n })))
       ∧ (∀ (m : Mshr) (x : L2Line) (n : Nat), s.mshrOf k.toNat l = some m → s.l2 k.toNat l = some x → First s l (.grant k l n) u →
         ∃ t y, exec (.grant k l) s = .next t ∧ t.l2 k.toNat l = some y ∧ y.st = .m ∧ y.data = x.data
           ∧ (t.mshrOf k.toNat l = none ∨ t.mshrOf k.toNat l = some { m with need := some n }))
       ∧ (∀ m : Mshr, s.mshrOf k.toNat l = some m → First s l (.ack a (clusterAgent k.toNat) l) u →
         ∃ t, exec (.ack (clusterAgent k.toNat) l) s = .next t
           ∧ (t.mshrOf k.toNat l = none ∨ t.mshrOf k.toNat l = some { m with got := m.got + 1 }))
       ∧ (First s l (.wbAck k l) u → ∃ t, exec (.wbAck k l) s = .next t ∧ mget? (t.cluster k.toNat).wb l.toNat = none
         ∧ t = { s with fab := t.fab } ∧ t.net = u.net)
       ∧ (∀ b, First s l (.nack a l b) u → exec (.nack a l) s = .next u)
       ∧ (∀ r : Req, let h := s.homeNo l
         First s l (.retry a l) u → s.fab.retryq = [(r, true)] → r.src = a → r.line = l → needsEntry r.kind = true →
         (s.home h).txns = [] → (s.home h).confq = [] → (s.home h).tokens = [(a, setOf l)] → (s.home h).sets = [] → dirWaysTaken (s.home h) l < 16 →
         ∃ t x, exec (.retry a l) s = .next t ∧ t.fab.retryq = [] ∧ (t.home h).tokens = [] ∧ t.txnOf h l = some x ∧ x.req = r)
       ∧ ((a.toNat < 8 ∨ 16 ≤ a.toNat) → First s l (.done a l) u → exec (.done a l) s = .next u)
       ∧ (∀ v, First s l (.adata a l v) u → ∃ t, exec (.adata a l) s = .next t ∧ answerOf t a l = v
         ∧ t = { u with fab := { u.fab with answers := t.fab.answers } }))
  ∧ ((∀ (s : State) (p : FabMsg), let w := (msgHeader s p).word
       w.extractLsb' 0 8 = msgType p.msg ∧ w.extractLsb' 8 8 = p.src.setWidth 8 ∧ w.extractLsb' 16 8 = (msgDst s p.msg).setWidth 8
       ∧ w.getLsbD 24 = msgDirty p.msg ∧ w.getLsbD 25 = (msgPayload p.msg).isSome ∧ w.getLsbD 26 = decide (p.cls = hypClass)
       ∧ w.getLsbD 27 = decide (p.cls = devClass) ∧ w.extractLsb' 28 4 = 0 ∧ w.extractLsb' 32 16 = p.tag ∧ w.extractLsb' 48 8 = msgInfo p.msg
       ∧ w.extractLsb' 56 8 = (if p.cls = hypClass ∨ p.cls = devClass then 0 else p.cls.setWidth 8)
       ∧ w.extractLsb' 64 48 = msgAddr p.msg ∧ w.extractLsb' 112 8 = 0 ∧ w.extractLsb' 120 8 = p.seq
       ∧ (msgType p.msg).toNat / 64 + 1 = msgClass p.msg)
     ∧ (∀ (s : State) (a : Agent) (c : ClassId) (tag : BitVec 16) (m : Msg), let t := sendT s a c tag m; let n := s.stopOf a
         ∃ p, t.fab.net = s.fab.net ++ [p] ∧ p.msg = m ∧ p.src = a ∧ p.cls = c ∧ p.tag = tag ∧ p.seq = mget s.fab.seqs n 0
           ∧ p.place = BitVec.ofNat 4 n ∧ mget t.fab.seqs n 0 = p.seq + 1 ∧ t = { s with fab := t.fab, uncore := t.uncore })
     ∧ (∀ (s : State) (p : FabMsg) (rest : List FabMsg), let t := arrive s p rest; let a := s.stopOf p.src
         t.fab.net = rest ∧ mget? t.fab.kept a = some p ∧ (mget t.fab.heard (heardKey a (s.stopOf (msgDst s p.msg))) []).head? = some p.seq
           ∧ t = { s with fab := t.fab } ∧ (∀ l, (mget t.fab.links l {}).failed = (mget s.fab.links l {}).failed)))

/-- O40. FWD_ACK, NOT_HELD, DATA_H, ACK, MDATA and CMP at a home with nothing queued; a FWD_ACK of a transaction that has ended changes nothing; a CMP that comes before the answer to its forward ends the transaction with that answer (08 R235, R239, R246 to R248, R253, R254, R257). Code pages (08 R259, R260; 05 R165): CODE_MARK of a page not yet in its home's table enters it and sends CODE_SET to every slice; of one in the table it is answered; CODE_QUERY of a writer for a page in the table starts a drop; CODE_SET and CODE_CLR move a slice's counter, and CODE_SET is answered once the owners of the page's lines have been downgraded by FWD_S; the last DROP_ACK removes the page and sends CODE_CLR. -/
def Obligations.HomesAndCodePages : Prop :=
  (∀ (s u : State) (k : Oct) (l : LineNo) (x : Txn), let h := s.homeNo l
     s.txnOf h l = some x → HomeCalm s h →
     (FirstOf s l (.fwdAck k l 0) x.req.tag u → x.fwd = some k → x.down = false → x.pre = false → x.wb = none → ∃ t, exec (.fwdAck k l) s = .next t ∧ t.net = u.net
       ∧ t.txnOf h l = (if x.early then none else some { x with fwd := none, cmp := true })
       ∧ ∃ e, t.dirOf h l = some e ∧ e.st = .do_ ∧ e.owner = k ∧ (reqCluster x.req ≠ k.toNat → e.sharers.getLsbD (reqCluster x.req) = true))
     ∧ (FirstOf s l (.fwdAck k l 1) x.req.tag u → x.fwd = some k → x.down = false → x.pre = false → x.wb = none → ∃ t, exec (.fwdAck k l) s = .next t ∧ t.net = u.net
       ∧ t.txnOf h l = (if x.early then none else some { x with fwd := none, cmp := true })
       ∧ ∃ e, t.dirOf h l = some e ∧ e.st = .ds ∧ e.sharers.getLsbD k.toNat = true ∧ e.sharers.getLsbD (reqCluster x.req) = true)
     ∧ (First s l (.notHeld k l) u → x.down = false → x.pre = false → mget? (s.home h).sc l.toNat = none → mget? (s.home h).wbuf l.toNat = none → cappedOver s x.req.cls = false →
       (∀ q ∈ s.fab.heldReads, q.cls ≠ x.req.cls) → ∃ t, exec (.notHeld k l) s = .next t ∧ t.net = u.net ++ [Msg.mrd l]
         ∧ t.txnOf h l = some { x with fwd := none, cmp := false, fill := true })
     ∧ (∀ d dirty, First s l (.dataH k l d dirty) u → x.victim = true → x.acks = 1 → x.code = false → x.fill = false → x.fwd = none →
       x.cmp = false → x.wb = none → x.req.kind = .wb → ∃ t, exec (.dataH k l) s = .next t ∧ t.txnOf h l = none ∧ t.dirOf h l = none
         ∧ (dirty = true → mget? (t.home h).wbuf l.toNat = some d))
     ∧ (∀ i tag, FirstOf s l (.fwdAck k l i) tag u → tag ≠ x.req.tag → ∃ t, exec (.fwdAck k l) s = .next t ∧ t.txnOf h l = some x
       ∧ t.dirOf h l = s.dirOf h l ∧ t.net = u.net)
     ∧ (∀ a, First s l (.ack a (homeAgent h) l) u → 1 < x.acks → ∃ t, exec (.ack (homeAgent h) l) s = .next t
       ∧ t.txnOf h l = some { x with acks := x.acks - 1 } ∧ t.net = u.net)
     ∧ (∀ d, First s l (.mdata l d) u → inKeep s (l.toNat * 64) = false → x.req.kind = .rdS → x.victim = false → x.grant = false → x.code = false → x.fwd = none →
       x.acks = 0 → x.cmp = false → x.wb = none → ∃ t st, exec (.mdata l) s = .next t
         ∧ t.net = u.net ++ [Msg.data (BitVec.ofNat 3 (reqCluster x.req)) l d st 0 false]
         ∧ (allocWays s (s.home h) x.req.cls ≠ 0 → ∃ y, mget? (t.home h).sc l.toNat = some y ∧ y.data = d) ∧ t.dram = s.dram)
     ∧ (First s l (.cmp k l) u → x.fwd = none → x.wb = none → ∃ t, exec (.cmp k l) s = .next t ∧ t.txnOf h l = none
       ∧ t.net = u.net ∧ t = { s with fab := t.fab })
     ∧ (First s l (.cmp k l) u → x.req.kind = .rdS → x.fwd ≠ none → ∃ t, exec (.cmp k l) s = .next t
       ∧ t.txnOf h l = some { x with early := true } ∧ t.net = u.net ∧ t = { s with fab := t.fab }))
  ∧ ((∀ (s u : State) (l : LineNo), let p := pageOfLine l; let h := s.pageHome p
         mget? (s.home h).queries p.toNat = none → mget? (s.home h).drops p.toNat = none → mget? (s.home h).marks p.toNat = none →
         (First s l (.codeMark p l) u → waitsFetch s l = true →
           ((s.home h).pages.contains p = true → ∃ t, exec (.codeMark p) s = .next t
             ∧ t.net = u.net ++ [Msg.done (homeAgent (s.homeNo l)) l] ∧ (t.home h).pages = (s.home h).pages)
           ∧ ((s.home h).pages.contains p = false → (s.home h).pages.length < 4096 → ∃ t, exec (.codeMark p) s = .next t
             ∧ (t.home h).pages = (s.home h).pages ++ [p]
             ∧ t.net = u.net ++ s.aliveHomes.map (fun k => .codeSet (BitVec.ofNat 3 k) p)))
         ∧ (First s l (.codeQuery p l) u → waitsFetch s l = false →
           ((s.home h).pages.contains p = false → ∃ t, exec (.codeQuery p) s = .next t
             ∧ t.net = u.net ++ [Msg.done (homeAgent (s.homeNo l)) l])
           ∧ ((s.home h).pages.contains p = true → ∃ t, exec (.codeQuery p) s = .next t
             ∧ mget? (t.home h).drops p.toNat = some { waitAck := 0xFF, waitClr := 0 }
             ∧ t.net = u.net ++ (List.range 8).map (fun k => .drop (BitVec.ofNat 3 k) p))))
     ∧ (∀ (s u : State) (k : Oct) (p : PageNo), let l := firstLine p; let i := filterIndex p
         (First s l (.codeSet k p) u → HomeCalm s k.toNat → pageBusy (s.home k.toNat) p = false → ∃ t, exec (.codeSet k p) s = .next t
           ∧ t.net = u.net ++ (if ownedLines (s.home k.toNat) p = [] then [Msg.codeDone k (BitVec.ofNat 3 (s.pageHome p)) p]
               else (ownedLines (s.home k.toNat) p).map (fun q => .fwdS q.2 q.1 (homeAgent k.toNat)))
           ∧ (mget (t.home k.toNat).filter i 0).toNat = min 15 ((mget (s.home k.toNat).filter i 0).toNat + 1))
         ∧ (First s l (.codeClr k p) u → ∃ t, exec (.codeClr k p) s = .next t
           ∧ t.net = u.net ++ [Msg.codeDone k (BitVec.ofNat 3 (s.pageHome p)) p]
           ∧ ((mget (s.home k.toNat).filter i 0).toNat < 15 →
               (mget (t.home k.toNat).filter i 0).toNat = (mget (s.home k.toNat).filter i 0).toNat - 1))
         ∧ (∀ d : CodeDrop, let h := s.pageHome p
           First s l (.dropAck k p) u → mget? (s.home h).drops p.toNat = some d →
           (d.waitAck &&& ~~~ (bitOf k.toNat) = 0 → ∃ t, exec (.dropAck k p) s = .next t ∧ p ∉ (t.home h).pages
             ∧ t.net = u.net ++ s.aliveHomes.map (fun j => .codeClr (BitVec.ofNat 3 j) p))
           ∧ (d.waitAck &&& ~~~ (bitOf k.toNat) ≠ 0 → ∃ t, exec (.dropAck k p) s = .next t ∧ t.net = u.net
             ∧ mget? (t.home h).drops p.toNat = some { d with waitAck := d.waitAck &&& ~~~ (bitOf k.toNat) }))))

/-- O41. ARBOR_OUTBOUND_ACCESS (11 R335, R341 to R343, R356): an access without a window, or of a class that may not use the session, is counted and performs no cycle; the class that owns a CLOSED session may not use it; a session that is not OPEN (one that is RESETTING counts the access among those its reset squashes), a port without MASTER and an atomic that the window cannot carry end it at once with their codes; any other enters its session's queue, or waits where a limit is reached or an earlier access of its session waits. -/
def Obligations.OutboundAccesses : Prop :=
  ∀ (s : State) (kind : OutKind) (cls : ClassId) (pa : BitVec 48) (size : Nat) (data cmpv : W64),
    s.mode = .service → s.dev.porst = false → paKind s pa.toNat = .arborWin → size ∈ [1, 2, 4, 8] → pa.toNat % size = 0 →
    outMoves kind = false →
    let run := exec (.arborOutboundAccess kind cls pa size data cmpv) s
    let unmapped := Host.Outcome.next { s with arb := { s.arb with unmapped := satAdd32 s.arb.unmapped 1 } }
    (findWindow s pa.toNat = none → run = unmapped)
    ∧ ∀ n i w, findWindow s pa.toNat = some (n, i, w) →
      let e := s.ses n
      let addr := busAddrOf w (pa.toNat - w.base)
      let noAtom := match kind with | .atomic op => atomRefused s w op size | _ => false
      let a : OutAcc := { kind := kind, vc := none, cls := cls, off := pa.toNat - w.base, size := size, data := data, cmpv := cmpv, win := w }
      let squashed : Session := if e.st = .resetting then { e with wait := e.wait.map (fun w => { w with squashed := w.squashed + 1 }) } else e
      (cls ≠ hypClass → (cls ≠ e.owner.setWidth 16 ∨ e.st = .closed) → run = unmapped)
      ∧ ((cls = hypClass ∨ (cls = e.owner.setWidth 16 ∧ e.st ≠ .closed)) →
        (∀ code, (e.st, s.arb.roles.master, noAtom, code) ∈ [(SesSt.halted, s.arb.roles.master, noAtom, ArbErr.halted),
            (.wedged, s.arb.roles.master, noAtom, .wedged), (.resetting, s.arb.roles.master, noAtom, .squashed),
            (.open_, false, noAtom, .norole), (.open_, true, true, .noatom)] →
          (e.errPost = false ∨ e.errCode ≠ .none) →
          run = .next (s.setSes n (pageAfterError squashed code addr s.qz.time (decide (kind = .store)))))
        ∧ (e.st = .open_ → s.arb.roles.master = true → noAtom = false →
          ((∀ p ∈ s.arb.waiting, p.1 ≠ n) → e.queue.length < 32 → acceptedCount s < 4096 →
            ∃ t h, run = .next t ∧ (t.ses n).queue = e.queue ++ [{ a with seq := s.arb.accepted, headAt := h }]
              ∧ t = { s with arb := { s.arb with ses := t.arb.ses, accepted := s.arb.accepted + 1 } }
              ∧ ∀ m, m ≠ n → t.ses m = s.ses m)
          ∧ (((∃ p ∈ s.arb.waiting, p.1 = n) ∨ 32 ≤ e.queue.length ∨ 4096 ≤ acceptedCount s) →
            run = .next { s with arb := { s.arb with waiting := s.arb.waiting ++ [(n, { a with waited := true })] } })))

/-- O42. Outbound cycles (11 R339, R349, R352, R361 to R364; 12 R393, R394): the cycle of the session that is due goes onto the bus that Arbor owns, at its window's address; a read cycle's value returns in the order of the window; a bus error, a time limit and one retry too many end the access with their codes; a block transfer runs as a burst whose first beat is given with its length and whose further beats are NEXT; a beat that memory refuses is not moved; a head access that does not complete wedges its session, and a store whose cycle has begun is no discard. The time limits release MST's lines, and the bus timer asserts BERR* or XACK/. LOOPBACK_CYCLE (01 R27; 11 R360): a cycle whose bus address an inbound window holds never goes onto the bus: it reads the memory of that window's session at its IPA, and a window that refuses it ends the access with BERR and is counted. -/
def Obligations.OutboundCycles : Prop :=
  ((∀ (s : State) (n : Ses) (a : OutAcc) (rest : List OutAcc), arborServes s = true → s.arb.roles.master = true → s.arb.owned = true →
       s.arb.cycle = none → s.arb.ack = none → arstLow s = false → arbPick s = some n → (s.ses n).queue = a :: rest → (a.kind = .load ∨ a.kind = .store) →
       ∃ t c, exec (.outboundBusCycle n) s = .next t ∧ t.arb.cycle = some c ∧ c.ses = n ∧ c.dead = false
         ∧ c.addr = busAddrOf a.win (a.off + a.done) ∧ c.size = min (beatBytes s a.win) (a.size - a.done) ∧ c.am = a.win.am
         ∧ c.read = decide (a.kind = .load) ∧ c.write = decide (a.kind = .store) ∧ c.started = s.qz.time
         ∧ (a.kind = .store → c.data = BitVec.ofNat 64 (busOrder s a.win.addrOrder a.size a.data.toNat / 256 ^ a.done % 256 ^ c.size))
         ∧ t.arb.ses = s.arb.ses ∧ t.arb.lastSes = n ∧ t.arb.beats = 0 ∧ (s.arb.running = true → t.arb.events.getLsbD 0 = true))
   ∧ (∀ (s : State) (n : Ses) (a : OutAcc) (rest : List OutAcc) (ipa : BitVec 48) (am : BitVec 8) (pa : Nat) (u : State),
       arborServes s = true → s.arb.roles.master = true → s.arb.owned = true → s.arb.cycle = none → s.arb.ack = none → arstLow s = false → arbPick s = some n →
       (s.ses n).queue = a :: rest → a.kind = .mover true ipa true → usesBlock s a = some am →
       inbTarget s n (ipa.toNat + a.done) .write = (some pa, u) → u.arb = { s.arb with itlb := u.arb.itlb } →
       let next := s.arb.beats ≠ 0 ∧ s.arb.lastSes = n
       ∃ t c, exec (.outboundBusCycle n) s = .next t ∧ t.arb.cycle = some c ∧ c.ses = n ∧ c.am = am ∧ c.read = true ∧ c.write = false
         ∧ c.addr = busAddrOf a.win (a.off + a.done) ∧ c.size = min (2 ^ a.win.width.toNat) (a.size - a.done)
         ∧ (next → t.arb.beats = s.arb.beats ∧ (s.arb.running = true → t.arb.events.getLsbD 12 = true))
         ∧ (¬ next → t.arb.beats = burstBeats s a ∧ mget? t.arb.fields 6 = some (BitVec.ofNat 32 (burstBeats s a))
           ∧ (s.arb.running = true → t.arb.events.getLsbD 0 = true)))
   ∧ (∀ (s : State) (c : BusCycle) (a : OutAcc) (rest : List OutAcc) (ipa : BitVec 48) (blk : Bool) (data : W64) (v : State),
       s.arb.cycle = some c → c.dead = false → (s.ses c.ses).queue = a :: rest → SesQuiet s c.ses → a.kind = .mover true ipa blk →
       let u := { driveLock s false with arb := { (driveLock s false).arb with cycle := none, beats := s.arb.beats - 1 } }
       inbTarget u c.ses (ipa.toNat + a.done) .write = (none, v) → v.arb = { u.arb with itlb := v.arb.itlb } →
       ∃ x, exec (.outboundCycleEnd .ack data) s = .next (afterCycle (trySes (sesPost x c.ses 9) c.ses)) ∧ (x.ses c.ses).bmBusy = false
         ∧ (x.ses c.ses).bmDone = true ∧ (x.ses c.ses).bmErr = .memory ∧ (x.ses c.ses).bmMoved = BitVec.ofNat 24 a.done
         ∧ (x.ses c.ses).queue.length = rest.length)
   ∧ (∀ (s : State) (c : BusCycle) (a : OutAcc) (rest : List OutAcc) (data : W64), s.arb.cycle = some c → c.dead = false →
       (s.ses c.ses).queue = a :: rest → SesQuiet s c.ses → a.vc = none → (a.kind = .load ∨ a.kind = .store) →
       let e := s.ses c.ses
       let cnt := min (beatBytes s a.win) (a.size - a.done)
       let failed (t : State) (code : ArbErr) : Prop :=
         t.arb.cycle = none ∧ ∃ q, q.map (fun x => { x with headAt := none }) = rest.map (fun x => { x with headAt := none })
           ∧ t.ses c.ses = { pageAfterError e code c.addr t.qz.time false with queue := q }
       (a.kind = .load → a.done + cnt = a.size → ∃ t, exec (.outboundCycleEnd .ack data) s = .next t ∧ t.arb.cycle = none
         ∧ (t.ses c.ses).queue.length = rest.length
         ∧ t.out = BitVec.ofNat 64 (busOrder s a.win.addrOrder a.size (a.got ||| BitVec.ofNat 64 (data.toNat % 256 ^ cnt * 256 ^ a.done)).toNat))
       ∧ (a.kind = .store → a.done + cnt = a.size → ∃ t, exec (.outboundCycleEnd .ack data) s = .next t ∧ t.arb.cycle = none
         ∧ (t.ses c.ses).queue.length = rest.length ∧ t.arb.wrote = some (c.addr, cnt, BitVec.ofNat 64 c.data.toNat))
       ∧ ((e.errPost = false ∨ e.errCode ≠ .none) →
         let low (t : State) (i : Nat) : Prop := (mget t.arb.drive 4 {}).en.getLsbD i = true ∧ (mget t.arb.drive 4 {}).val.getLsbD i = false
         (∃ t, exec (.outboundCycleEnd .busError data) s = .next t ∧ failed t .berr)
         ∧ (c.read = true → s.caps.parity ≠ 0 → ∃ t, exec (.outboundCycleEnd .parityError data) s = .next t ∧ failed t .parity)
         ∧ (s.caps.retry = true → e.retryLim ≤ a.retries → ∃ t, exec (.outboundCycleEnd .retry data) s = .next t ∧ failed t .retry)
         ∧ (∃ t, exec .sessionCycleTimerExpiry s = .next t ∧ failed t .timeout ∧ c.started + 1000 * 2 ^ e.tsK ≤ t.qz.time
           ∧ ∀ g, g < 10 → (mget t.arb.drive g {}).en &&& mstLines s g = 0)
         ∧ (s.arb.roles.syscon = true → s.dev.porst = false → ∃ t, exec .busTimerExpiry s = .next t ∧ failed t .timeout
           ∧ t.arb.busTimeouts = satAdd32 s.arb.busTimeouts 1 ∧ c.started + 1000 * 2 ^ s.arb.roles.busTimer ≤ t.qz.time
           ∧ (s.vme = true → low t 6) ∧ (s.profCode = 3 → low t 0)))
       ∧ (s.caps.retry = true → a.retries < e.retryLim → ∃ t, exec (.outboundCycleEnd .retry data) s = .next t ∧ t.arb.cycle = none
         ∧ (t.ses c.ses).queue = { a with retries := a.retries + 1 } :: rest))
   ∧ (∀ s : State, s.arb.cycle = none → s.arb.roles.syscon = true → s.dev.porst = false →
       ∃ t, exec .busTimerExpiry s = .next t ∧ t.arb.busTimeouts = satAdd32 s.arb.busTimeouts 1 ∧ t.arb.ses = s.arb.ses ∧ t.arb.ack = none
         ∧ t.arb.phase = (if s.arb.ack = none then none else s.arb.phase)
         ∧ (s.vme = true → (mget t.arb.drive 4 {}).en.getLsbD 6 = true ∧ (mget t.arb.drive 4 {}).val.getLsbD 6 = false)
         ∧ (s.arb.ack = none → t = { s with arb := { s.arb with busTimeouts := t.arb.busTimeouts, phase := none, drive := t.arb.drive, expired := t.arb.expired } }))
   ∧ (∀ (s : State) (n : Ses) (a : OutAcc) (rest : List OutAcc), (s.ses n).queue = a :: rest → (s.ses n).st = .open_ → arborServes s = true →
       (∀ x ∈ a :: rest, x.vc = none ∧ outMoves x.kind = false) → s.arb.waiting = [] →
       ((s.ses n).errPost = false ∨ (s.ses n).errCode ≠ .none) →
       ∃ t, exec (.sessionWedge n) s = .next t ∧ (t.ses n).st = .wedged ∧ (t.ses n).queue = []
         ∧ a.headAt.getD s.qz.time + 1000000 * (s.ses n).wedgeMs ≤ t.qz.time
         ∧ (t.ses n).errCode = (if (s.ses n).errCode = .none then .wedged else (s.ses n).errCode)
         ∧ (rest = [] → a.kind = .store → (t.ses n).discards = if headBegun s n then (s.ses n).discards else satAdd32 (s.ses n).discards 1)
         ∧ (∀ c, s.arb.cycle = some c → c.ses = n → ∃ c', t.arb.cycle = some c' ∧ c'.dead = true)
         ∧ ∀ m, m ≠ n → t.ses m = s.ses m))
  ∧ (∀ (s : State) (m n : Ses) (a : OutAcc) (rest : List OutAcc) (i : Nat) (w : InWin), arborServes s = true → s.arb.roles.master = true →
       arstLow s = false → offBus s m = true → readyHead s m = some a → (s.ses m).queue = a :: rest → loopTarget s a = some (n, i, w) →
       SesQuiet s m → a.kind = .load → a.vc = none → a.done = 0 → a.got = 0 → a.size ≤ beatBytes s a.win →
       let u := uncoreEvent s 32 4 ((s.ses m).owner.setWidth 16)
       let tcls : ClassId := (s.ses n).owner.setWidth 16
       let addr := busAddrOf a.win a.off
       (∀ v v1 x, loopMemory u n w addr true false = (some v, v1) → v1.arb = { u.arb with itlb := v1.arb.itlb } → arborRead v1 tcls v a.size = some x → x.2.arb = v1.arb →
         ∃ t, exec (.loopbackCycle m) s = .next t ∧ (t.ses m).queue.length = rest.length ∧ t.arb.cycle = s.arb.cycle
           ∧ t.out = BitVec.ofNat 64 (busOrder s a.win.addrOrder a.size (BitVec.ofNat 64 (busOrder s w.addrOrder a.size x.1 % 256 ^ a.size)).toNat))
       ∧ (w.rd = false → ((s.ses n).st = .open_ ∨ w.respErr = true ∨ s.caps.retry = false) →
         ((s.ses m).errPost = false ∨ (s.ses m).errCode ≠ .none) →
         ∃ t, exec (.loopbackCycle m) s = .next t ∧ (t.ses m).queue.length = rest.length ∧ t.arb.inbRefused = satAdd32 s.arb.inbRefused 1
           ∧ (t.ses m).errCount = satAdd32 (s.ses m).errCount 1
           ∧ (t.ses m).errCode = if (s.ses m).errCode = .none then .berr else (s.ses m).errCode))

/-- O43. The bus and its lines (12 R389, R390, R395, R396): Arbor takes the bus at its grant and leaves it on YIELD once its beat is over; as system controller it grants the highest level under PRI, its grant standing at the balls, and lets the bus go for a higher one; a grant that nobody takes is withdrawn and the arbiter arbitrates again among the requests at the balls; a backplane reset takes the bus away, and other boards' assertions are counted; MON passes the acknowledge chain. -/
def Obligations.BusTenure : Prop :=
  (∀ s : State, arborServes s = true → s.arb.roles.master = true → s.arb.owned = false → arstLow s = false → ∀ n, arbPick s = some n →
    (s.arb.roles.syscon = true → s.arb.granting = some s.arb.roles.reqLevel) →
    exec .busGranted s = .next { s with arb := { s.arb with
      owned := true, ownedAt := s.qz.time, granting := none, yield_ := false, lastSes := n } })
  ∧ (∀ s : State, s.arb.owned = true →
      (∀ c, s.arb.cycle = some c → exec .busYield s = .next { s with arb := { s.arb with
        yield_ := true, events := if s.arb.running then s.arb.events ||| 0x10 else s.arb.events } })
      ∧ (s.arb.cycle = none → s.arb.ack = none → underWay s = none →
        ∃ t, exec .busYield s = .next t ∧ t.arb.owned = false ∧ t.arb.yield_ = false ∧ t.arb.ses = s.arb.ses))
  ∧ (∀ (s : State) (req : BitVec 4) (p : Profile), s.arb.roles.syscon = true → s.dev.porst = false → s.arb.prof = some p →
      p.code ≠ 3 → p.arbMode = 0 →
      (s.arb.owned = false → allRequests s req ≠ 0 →
        ∃ (t : State) (l : BitVec 2), exec (.busRequestArbitration req) s = .next t
          ∧ t = { s with arb := { s.arb with granting := some l, lastLevel := l, drive := t.arb.drive, bus := t.arb.bus } }
          ∧ (allRequests s req).getLsbD l.toNat = true ∧ (∀ k, k < 4 → (allRequests s req).getLsbD k = true → k ≤ l.toNat)
          ∧ (s.vme = true → (ownRequest s = false ∨ l ≠ s.arb.roles.reqLevel) →
            (mget t.arb.drive 6 {}).en.getLsbD (4 + l.toNat) = true ∧ (mget t.arb.drive 6 {}).val.getLsbD (4 + l.toNat) = false))
      ∧ (s.arb.owned = true → (∃ k, s.arb.roles.reqLevel.toNat < k ∧ k < 4 ∧ req.getLsbD k = true) → ∀ c, s.arb.cycle = some c →
        ∃ t, exec (.busRequestArbitration req) s = .next t ∧ t.arb.yield_ = true ∧ t.arb.owned = true ∧ t.arb.cycle = some c
          ∧ (s.arb.running = true → t.arb.events.getLsbD 4 = true))
      ∧ (∀ l, s.arb.granting = some l →
        let left := allRequests s (if s.vme then ~~~ ((mget s.arb.bus 6 0xFFFFFFFF).setWidth 4) else 0)
        ∃ t, exec .arbitrationGrantTimeout s = .next t
          ∧ t = { s with arb := { s.arb with granting := t.arb.granting, lastLevel := t.arb.lastLevel, drive := t.arb.drive } }
          ∧ (left = 0 → t.arb.granting = none ∧ (s.vme = true → ∀ k, k < 4 → (mget t.arb.drive 6 {}).val.getLsbD (4 + k) = true))
          ∧ (left ≠ 0 → ∃ k : BitVec 2, t.arb.granting = some k ∧ left.getLsbD k.toNat = true
            ∧ ∀ j, j < 4 → left.getLsbD j = true → j ≤ k.toNat)))
  ∧ (∀ s : State, s.arb.arstIn = false → s.dev.porst = false → s.arb.cycle = none →
      ∃ t, exec .arstInput s = .next t ∧ t.arb.arstIn = true ∧ t.arb.owned = false ∧ t.arb.granting = none
        ∧ t.arb.arstEvents = satAdd32 s.arb.arstEvents 1 ∧ t.arb.ses = s.arb.ses)
  ∧ (∀ s : State, s.arb.arstIn = true → exec .arstNRise s = .next { s with arb := { s.arb with arstIn := false } })
  ∧ (∀ (s : State) (at_ : Nat), s.arb.arstUntil = some at_ →
      ∃ t, exec .backplaneResetEnd s = .next t ∧ t.arb = { s.arb with arstUntil := none } ∧ t.qz.time = max s.qz.time at_)
  ∧ (∀ (s : State) (level : Bool), s.dev.porst = false →
      exec (.afailInput level) s = .next { s with arb := { s.arb with
        afailIn := level,
        afailEdges := if level = true ∧ s.arb.afailIn = false ∧ s.profCode ≠ 3 then satAdd32 s.arb.afailEdges 1 else s.arb.afailEdges } })
  ∧ (∀ (s : State) (i as : Bool), s.vme = true → s.arb.running = true → s.dev.porst = false →
      ∃ t d, exec (.iackChainPass i as) s = .next t ∧ t = { s with arb := { s.arb with drive := t.arb.drive } } ∧ mget? t.arb.drive 7 = some d
        ∧ (i = false ∧ as = false → d.en.getLsbD 1 = true ∧ d.val.getLsbD 1 = false) ∧ ((i = true ∨ as = true) → d.en.getLsbD 1 = false))

/-- O44. Sessions (11 R344, R359, R365 to R368; 12 R397, R398): the page's commands, and the reset and the close of a session whose accesses have all completed, or which waits for the reset of another session of its domain; a profile is loaded with every role off and the drivers disabled. -/
def Obligations.SessionsAndProfiles : Prop :=
  (∀ (s : State) (n : Ses), s.mode = .service →
    (∀ (v : W32) (w : OutWin), v.getLsbD 0 = true → (s.ses n).bmBusy = false → (s.ses n).bmLen ≠ 0 →
      mget? (s.ses n).outw (v.extractLsb' 2 2).toNat = some w → (s.ses n).st = .open_ → s.arb.roles.master = true →
      (∀ p ∈ s.arb.waiting, p.1 ≠ n) → (s.ses n).queue.length < 32 → acceptedCount s < 4096 →
      ∃ t a, exec (.bmGo n v) s = .next t ∧ (t.ses n).queue = (s.ses n).queue ++ [a] ∧ (t.ses n).bmBusy = true
        ∧ a.kind = .mover (v.getLsbD 1) ((s.ses n).bmIpa.setWidth 48) (v.getLsbD 4) ∧ a.win = w
        ∧ a.off = (s.ses n).bmOff.toNat ∧ a.size = (s.ses n).bmLen.toNat)
    ∧ (∀ v : W32, exec (.sesRunWrite n v) s = .next (s.setSes n { s.ses n with
        errPost := v.getLsbD 1, st := if v.getLsbD 0 = true ∧ (s.ses n).st = .halted then .open_ else (s.ses n).st }))
    ∧ ((s.ses n).vecs = [] → exec (.vecPop n) s = .next s)
    ∧ (∀ v rest, (s.ses n).st ≠ .closed → (s.ses n).vecs = v :: rest → (∀ k ∈ s.arb.kept, k.ses ≠ n) →
      ∃ t, exec (.vecPop n) s = .next t ∧ t.ses n = { s.ses n with vecs := rest }
        ∧ t.arb.heldLv = if v.rora then s.arb.heldLv.erase (v.level, n, v.entry) else s.arb.heldLv))
  ∧ (∀ (s : State) (n : Ses) (cls : ClassId), s.mode = .service →
      ((cls = hypClass ∨ (cls = (s.ses n).owner.setWidth 16 ∧ (s.ses n).st ≠ .closed)) → ∃ t, exec (.errCodeRead n cls) s = .next t
        ∧ t.out = BitVec.ofNat 64 (errCodeOf (s.ses n).errCode) ∧ t.ses n = { s.ses n with errCode := .none })
      ∧ (cls ≠ hypClass → (cls ≠ (s.ses n).owner.setWidth 16 ∨ (s.ses n).st = .closed) → exec (.errCodeRead n cls) s = .next { s with out := 0 }))
  ∧ (∀ (s : State) (lane : LaneNo) (p : Packet), ByMailbox s lane → noPavWait s → (s.ses (pkSes p)).queue = [] → s.arb.waiting = [] →
      s.arb.inbuf = [] → s.arb.cycle = none → (s.ses (pkSes p)).st ≠ .closed → (s.ses (pkSes p)).st ≠ .resetting →
      (s.ses (pkSes p)).wait = none → phaseFresh s (pkSes p) = false →
      ((s.ses (pkSes p)).domain = 0 ∨ ∀ m ∈ s.arb.resets, (s.ses m).domain ≠ (s.ses (pkSes p)).domain) →
      (Passes s lane specSessionClose p [] → ∃ t, exec (.sessionClose lane) s = .next t ∧ t.ses (pkSes p) = {}
        ∧ RepliedBy t lane p 0 0 s.qz.time 0 ∧ ∀ m, m ≠ pkSes p → t.ses m = s.ses m)
      ∧ (Passes s lane specSessionReset p [] → ∃ t, exec (.sessionReset lane) s = .next t ∧ RepliedBy t lane p 0 0 s.qz.time 0
        ∧ (t.ses (pkSes p)).st = (if pkFlags p % 2 = 1 then .halted else .open_)
        ∧ (t.ses (pkSes p)).errCode = .none ∧ (t.ses (pkSes p)).errCount = 0 ∧ (t.ses (pkSes p)).vecs = []
        ∧ (t.ses (pkSes p)).owner = (s.ses (pkSes p)).owner ∧ (t.ses (pkSes p)).outw = (s.ses (pkSes p)).outw
        ∧ (t.ses (pkSes p)).inw = (s.ses (pkSes p)).inw ∧ (t.ses (pkSes p)).imap = (s.ses (pkSes p)).imap
        ∧ (∀ h ∈ t.arb.heldLv, h.2.1 ≠ pkSes p)))
  ∧ (∀ (s : State) (lane : LaneNo) (p : Packet) (m : Ses), let n := pkSes p
      Passes s lane specSessionReset p [] → (s.ses n).st = .open_ → (s.ses n).wait = none → (s.ses n).domain ≠ 0 → m ≠ n → m ∈ s.arb.resets →
      (s.ses m).domain = (s.ses n).domain →
      ∃ t w, exec (.sessionReset lane) s = .next t ∧ t.ses n = { s.ses n with wait := some w } ∧ w.started = false
        ∧ t.arb.resets = s.arb.resets ++ [n] ∧ (t.lane lane).begun = true ∧ (t.lane lane).cur = some p)
  ∧ (∀ (s : State) (lane : LaneNo) (p : Packet), ByMailbox s lane → Passes s lane specArbProfileLoad p (apPacket p) →
      readWaits s (apImg p) (min (apLen p) 65536) = false → apCheck s p = none →
      ∃ t, exec (.arbProfileLoad lane) s = .next t ∧ t.arb.prof = some (apProfile s p) ∧ t.arb.roles = {} ∧ t.arb.ax = 0xAA
        ∧ t.arb.running = false ∧ t.arb.drive = [] ∧ RepliedBy t lane p 0 0 s.qz.time 0)

/-- O45. Inbound cycles (11 R345 to R352): an address phase without a window is not answered, one whose window serves it is accepted at the physical address of its IPA, one whose session is not OPEN, or that meets REST (14 R447), gets the window's response and is counted, and one refused otherwise a bus error, or no acknowledge under P-796 (12 R391); accepted data are posted or performed before the acknowledge, a read answers the bytes of memory in the order of the window and may hold the lines ahead of it; a parity error in write data refuses them, in a read-modify-write cycle too. -/
def Obligations.InboundCycles : Prop :=
  (∀ (s : State) (space : BitVec 3) (am : BitVec 8) (addr : W64) (write pok answered : Bool), answersPhases s = true → s.arb.path ≠ some 1 →
    (∀ ph, s.arb.phase = some ph → (s.ses ph.ses).wait = none) →
    let run := exec (.inboundAddressPhase space am addr write pok answered) s
    (phaseWindow s space am addr = none → run = .next { s with arb := { s.arb with
      phase := none, inbNomatch := if answered then s.arb.inbNomatch else satAdd32 s.arb.inbNomatch 1 } })
    ∧ ∀ n i w, phaseWindow s space am addr = some (n, i, w) →
      let e := s.ses n
      (e.st = .open_ → pavDraining s e.owner = false → s.mode ≠ .rest → (if write then w.wr else w.rd) = true →
        (s.caps.parity = 0 ∨ pok = true) →
        ∀ pa u, inbTarget s n (w.ipaBase + (addr.toNat - w.busBase.toNat)) (if write then .write else .read) = (some pa, u) →
        u.arb = { s.arb with itlb := u.arb.itlb } → ∃ t, run = .next t ∧ t.arb.phase = some { ses := n, win := BitVec.ofNat 2 i, w := w, answer := .accept, busAddr := addr, pa := BitVec.ofNat 48 pa, write := write, cls := e.owner.setWidth 16, ahead := [] }
          ∧ t.arb.inbRefused = s.arb.inbRefused)
      ∧ ((e.st ≠ .open_ ∨ s.mode = .rest) → ∃ t ph, run = .next t ∧ t.arb.phase = some ph ∧ t.arb.inbRefused = satAdd32 s.arb.inbRefused 1
        ∧ ph.answer = (if w.respErr = false ∧ s.caps.retry = true then .retry else if s.profCode = 3 then .none else .busError))
      ∧ (e.st = .open_ → s.mode ≠ .rest → (pavDraining s e.owner = true ∨ (if write then w.wr else w.rd) = false ∨ (s.caps.parity ≠ 0 ∧ pok = false)) →
        ∃ t ph, run = .next t ∧ t.arb.phase = some ph ∧ t.arb.inbRefused = satAdd32 s.arb.inbRefused 1
          ∧ ph.answer = if s.profCode = 3 then .none else .busError))
  ∧ (∀ (s : State) (ph : InPhase) (size : Nat) (data : W64), s.arb.phase = some ph → ph.answer = .accept → answersPhases s = true →
      size ∈ [1, 2, 4, 8] → ph.pa.toNat % size = 0 → s.arb.inbuf = [] → (s.ses ph.ses).wait = none → (ph.pa.toNat + size) % 4096 ≠ 0 →
      (ph.busAddr + BitVec.ofNat 64 size).toNat < ph.w.busBase.toNat + 2 ^ ph.w.logSize →
      let v := busOrder s ph.w.addrOrder size data.toNat
      let moved (t u : State) (ahead : List (BitVec 48 × Line)) : Prop := t = { u with arb := { u.arb with
        phase := some { ph with busAddr := ph.busAddr + BitVec.ofNat 64 size, pa := ph.pa + BitVec.ofNat 48 size, ahead := ahead, beats := ph.beats + 1 } } }
      let free (u : State) : Prop := (u.ses ph.ses).wait = none
      (ph.write = true →
        (ph.w.post = true → s.mode ≠ .belvedere →
          agentWrite { s with arb := { s.arb with inbuf := [{ ses := ph.ses, pa := ph.pa, size := size, data := BitVec.ofNat 64 v, cls := ph.cls }] } } arborAgent ph.cls ph.pa.toNat size (BitVec.ofNat 64 v).toNat = none →
          ∃ t, exec (.inboundWriteData size data true false) s = .next t ∧ moved t { s with arb := { s.arb with
            inbuf := [{ ses := ph.ses, pa := ph.pa, size := size, data := BitVec.ofNat 64 v, cls := ph.cls }] } } [])
        ∧ ((ph.w.post = false ∨ s.mode = .belvedere) → ∀ u, phaseWrite s ph size v = some u → free u →
          ∃ t, exec (.inboundWriteData size data true false) s = .next t ∧ moved t u [])
        ∧ (s.caps.parity ≠ 0 → ∃ t p', exec (.inboundWriteData size data false false) s = .next t ∧ t.arb.phase = some p'
          ∧ p'.answer ≠ .accept ∧ t.arb.inbRefused = satAdd32 s.arb.inbRefused 1))
      ∧ (ph.write = false → ph.ahead = [] → ∀ x u, phaseRead s ph size = some (x, u) → free u →
        ∃ t, exec (.inboundReadData size) s = .next t
          ∧ moved t (u.answer (BitVec.ofNat 64 (busOrder s ph.w.addrOrder size x))) (aheadLines s ph.pa.toNat size))
      ∧ ((ph.w.rd = false ∨ ph.w.wr = false) → ∀ d, ∃ t p', exec (.inboundRmwCycle size d) s = .next t ∧ t.arb.phase = some p'
        ∧ p'.answer ≠ .accept ∧ t.arb.inbRefused = satAdd32 s.arb.inbRefused 1 ∧ (s.profCode = 3 → t.out = 0))
      ∧ (ph.w.rd = true → ph.w.wr = true → ∀ y u, inbTarget s ph.ses (windowIpa ph.w ph.busAddr) .rmw = (some y, u) →
        ∀ x u1, phaseRead u ph size = some (x, u1) →
        let u2 := u1.answer (BitVec.ofNat 64 (busOrder s ph.w.addrOrder size x))
        (free u1 → ∃ t, exec (.inboundRmwCycle size ⟨none, true⟩) s = .next t ∧ moved t u2 [])
        ∧ (∀ u3, phaseWrite u2 ph size v = some u3 → free u3 → ∃ t, exec (.inboundRmwCycle size ⟨some data, true⟩) s = .next t ∧ moved t u3 [])
        ∧ (s.caps.parity ≠ 0 → ∃ t p', exec (.inboundRmwCycle size ⟨some data, false⟩) s = .next t ∧ t.arb.phase = some p'
          ∧ p'.answer ≠ .accept ∧ t.arb.inbRefused = satAdd32 u1.arb.inbRefused 1)))

/-- O46. Interrupts from the bus (11 R357, R359, R363): the highest level asserted, handled and not held is acknowledged, in a cycle of KIND 6 with its level on a bus that Arbor holds or wins, which a loaded image's MST runs step by step; its vector is pushed to the first matching entry's session and posted, kept where the FIFO is full, counted where nothing matches; an acknowledge cycle that times out is counted and leaves its level free. -/
def Obligations.BusInterrupts : Prop :=
  (∀ (s : State) (ai : BitVec 8) (vector : W32) (l : Nat), canAck s = true →
    l < 8 → ai.getLsbD l = true → s.arb.roles.handler.getLsbD l = true → levelHeld s l = false →
    (∀ k, l < k → k < 8 → ai.getLsbD k = false ∨ s.arb.roles.handler.getLsbD k = false ∨ levelHeld s k = true) →
    let v := (readVector s l vector).1
    let cyc := (readVector s l vector).2
    let given (t : State) : Prop :=
      mget? t.arb.fields 0 = some 6 ∧ mget? t.arb.fields 7 = some (BitVec.ofNat 32 l) ∧ (s.vme = true → mget? t.arb.fields 1 = some (BitVec.ofNat 32 (2 * l)))
      ∧ (s.profCode = 3 → mget? t.arb.fields 6 = some 2)
    let whole : Prop := cyc = false ∨ imageRuns s = false
    (cyc = true → imageRuns s = true → ∃ t, exec (.interruptAcknowledgeCycle ai vector) s = .next t ∧ t.arb.ack = some (BitVec.ofNat 3 l)
      ∧ t.arb.events.getLsbD 0 = true ∧ given t ∧ t.arb.ses = s.arb.ses ∧ t.arb.vecNomatch = s.arb.vecNomatch ∧ t.arb.owned = true)
    ∧ (whole → matchVector s l v = none → ∃ t, exec (.interruptAcknowledgeCycle ai vector) s = .next t ∧ t.arb.ses = s.arb.ses
      ∧ t.arb.vecNomatch = satAdd32 s.arb.vecNomatch 1 ∧ t.arb.heldLv = s.arb.heldLv ∧ t.arb.kept = s.arb.kept ∧ t.arb.ai = ai
      ∧ (cyc = true → given t))
    ∧ (whole → ∀ n i m, matchVector s l v = some (n, i, m) →
      let ent : VecEntry := { vec := truncVec m.width.toNat v, level := BitVec.ofNat 3 l, entry := BitVec.ofNat 3 i, rora := m.rora }
      ((s.ses n).vecs.length < 16 → ∃ t u, exec (.interruptAcknowledgeCycle ai vector) s = .next t ∧ t = (if cyc then endAck (sesPost u n (i % 8)) else sesPost u n (i % 8))
        ∧ (u.ses n).vecs = (s.ses n).vecs ++ [ent]
        ∧ u.arb.heldLv = s.arb.heldLv ++ (if m.rora then [(BitVec.ofNat 3 l, n, BitVec.ofNat 3 i)] else []))
      ∧ (16 ≤ (s.ses n).vecs.length → ∃ t, exec (.interruptAcknowledgeCycle ai vector) s = .next t
        ∧ t.arb.kept = s.arb.kept ++ [{ ses := n, vec := ent }] ∧ t.arb.ses = s.arb.ses))
    ∧ (∃ t, exec (.ackCycleTimeout ai) s = .next t ∧ t.arb.vecNomatch = satAdd32 s.arb.vecNomatch 1 ∧ t.arb.heldLv = s.arb.heldLv
      ∧ t.arb.ses = s.arb.ses ∧ (t.thread 0).pc = idlePc s 0 ∧ (t.thread 0).wait = .ready ∧ given t ∧ t.arb.ack = none))
  ∧ (∀ (s : State) (ai : BitVec 8), s.arb.ack ≠ none → ∃ t, exec (.ackCycleTimeout ai) s = .next t ∧ t.arb.ack = none ∧ t.arb.ses = s.arb.ses
      ∧ t.arb.vecNomatch = satAdd32 s.arb.vecNomatch 1 ∧ t.arb.heldLv = s.arb.heldLv ∧ (t.thread 0).pc = idlePc s 0)

/-- O47. Outputs of the step sequencer (11 R355; 12 R376, R380, R382): OUT, DRV and REL drive and release exactly the lines they name, an open-drain line low or not at all; an output on the data path by a thread that does not hold it is counted and not performed; the byte lanes take their parity lines with them where the profile enables parity; AXS sets AX[5:0], each turn of a DIR bit break-before-make (12 R377); SMP reads the levels at the balls, where a line that the port block holds low reads low, and P tells whether a lane with parity enabled fails its check; an output that makes ARST_N fall acts as ARST_N does (12 R395). Waits, arithmetic, branches, events and the end of a routine (12 R380 to R383). -/
def Obligations.SequencerInstructions : Prop :=
  (∀ (s : State) (th : Thread) (w : W32),
     let g := (w.extractLsb' 16 4).toNat
     let u := seqNext s th
     let x (i : BitVec 3) : W32 := mget (s.thread th).x i.toNat 0
     let xa := w.extractLsb' 23 3
     let od := (drainLines s g).1
     let can := (drainLines s g).2
     let denied : Out := .next { u with arb := { u.arb with pathDenied := satAdd32 s.arb.pathDenied 1 } }
     let old := mget s.arb.drive g {}
     let drives (t : State) (mask val : W32) : Prop := ∃ d, mget? t.arb.drive g = some d ∧ t = { u with arb := { u.arb with drive := t.arb.drive } }
       ∧ ∀ i, i < 32 → if mask.getLsbD i && can.getLsbD i then
           (if od.getLsbD i && val.getLsbD i then d.en.getLsbD i = false else d.en.getLsbD i = true ∧ d.val.getLsbD i = val.getLsbD i)
         else d.en.getLsbD i = old.en.getLsbD i ∧ d.val.getLsbD i = old.val.getLsbD i
     let others (t : State) : Prop := ∀ k, k ≠ g → (k = 3 → parityLines s g = 0) → mget t.arb.drive k {} = mget s.arb.drive k {}
     let made (c : Instr) (v : State) : Prop := exec c s = .next (if arstLow v && !arstLow s then arstFell v else v)
     let lane (b : Nat) : Prop := b < 4 ∧ g < 2 ∧ s.caps.parity.getLsbD (4 * g + b) = true
     (SeqAt s th w 1 → (mayDrive s th g → ∃ t, made (.seqOut th w) t ∧ drives t ((w.extractLsb' 8 8).setWidth 32) ((w.extractLsb' 0 8).setWidth 32) ∧ others t)
       ∧ (¬ mayDrive s th g → exec (.seqOut th w) s = denied))
     ∧ (SeqAt s th w 2 → (mayDrive s th g → ∃ t, made (.seqDrv th w) t ∧ drives t (groupMask g) (x xa) ∧ others t
         ∧ ∀ b, lane b → (mget t.arb.drive 3 {}).en.getLsbD (4 * g + b) = true
           ∧ (mget t.arb.drive 3 {}).val.getLsbD (4 * g + b) = laneParity s (x xa >>> (8 * b)))
       ∧ (¬ mayDrive s th g → exec (.seqDrv th w) s = denied))
     ∧ (SeqAt s th w 3 → (mayDrive s th g → ∃ t d, exec (.seqRel th w) s = .next t ∧ mget? t.arb.drive g = some d ∧ d.val = old.val
         ∧ t = { u with arb := { u.arb with drive := t.arb.drive } }
         ∧ (∀ i, i < 32 → d.en.getLsbD i = (old.en.getLsbD i && !(decide (g < 2) || (decide (i < 8) && w.getLsbD (8 + i)))))
         ∧ others t ∧ ∀ b, lane b → (mget t.arb.drive 3 {}).en.getLsbD (4 * g + b) = false)
       ∧ (¬ mayDrive s th g → exec (.seqRel th w) s = denied))
     ∧ (∀ lines, SeqAt s th w 4 → ∃ t, exec (.seqSmp th w lines) s = .next t ∧ (t.thread th).pc = (s.thread th).pc + 1
         ∧ (∀ i, i < 32 → (mget (t.thread th).x xa.toNat 0).getLsbD i
           = ((groupMask g).getLsbD i && (if old.en.getLsbD i then old.val.getLsbD i else lines.getLsbD i) && !(ownLow s g).getLsbD i))
         ∧ (∀ k, k ≠ xa.toNat → mget (t.thread th).x k 0 = mget (s.thread th).x k 0)
         ∧ ((t.thread th).p = true ↔ ∃ b, lane b ∧ laneParity s (mget (t.thread th).x xa.toNat 0 >>> (8 * b))
             ≠ (sampleLines s 3 (mget s.arb.bus 3 0xFFFFFFFF)).getLsbD (4 * g + b))
         ∧ (s.arb.expired = false → t.arb.drive = s.arb.drive))
     ∧ (SeqAt s th w 5 → (s.arb.path = some th → ∃ t, exec (.seqAxs th w) s = .next t ∧ t = { u with arb := { u.arb with ax := t.arb.ax, axTurn := t.arb.axTurn } }
         ∧ (∀ i, i < 8 → t.arb.ax.getLsbD i = if i < 6 ∧ w.getLsbD (8 + i) = true then w.getLsbD i else s.arb.ax.getLsbD i)
         ∧ t.arb.axTurn.getLast? = some t.arb.ax
         ∧ ∀ d ∈ [0, 2, 4], s.arb.ax.getLsbD d ≠ t.arb.ax.getLsbD d → ∃ a b, t.arb.axTurn = [a, b, t.arb.ax] ∧ a.getLsbD d = s.arb.ax.getLsbD d
           ∧ a.getLsbD (d + 1) = true ∧ b.getLsbD d = t.arb.ax.getLsbD d ∧ b.getLsbD (d + 1) = true)
       ∧ (s.arb.path ≠ some th → exec (.seqAxs th w) s = denied)))
  ∧ (∀ (s : State) (th : Thread) (w : W32),
       let u := seqNext s th
       let q := u.thread th
       let x (i : BitVec 3) : W32 := mget (s.thread th).x i.toNat 0
       let xa := w.extractLsb' 23 3
       let g := w.extractLsb' 16 4
       let hi := w.extractLsb' 8 8
       let lo := w.extractLsb' 0 8
       let imm := w.extractLsb' 0 16
       let i := (w.extractLsb' 0 4).toNat
       let put (v : W32) : Out := .next (u.setThread th { q with x := mput q.x xa.toNat v })
       let wait (k : SeqWait) : Out := .next (u.setThread th { q with wait := k })
       (SeqAt s th w 6 → exec (.seqDly th w) s = wait (.delay imm.toNat))
       ∧ (SeqAt s th w 7 → exec (.seqWt th w) s = wait (.line g hi lo false))
       ∧ (SeqAt s th w 8 → exec (.seqWtn th w) s = wait (.line g hi lo true))
       ∧ (SeqAt s th w 9 → exec (.seqWte th w) s = wait (.event imm))
       ∧ (∀ n, (s.thread th).wait = .delay n → exec (.seqDlyExpiry th) s = .next (s.setThread th { s.thread th with wait := .ready }))
       ∧ (∀ k mask val ne lines, (s.thread th).wait = .line k mask val ne →
           let v := (sampleLines s k.toNat lines).setWidth 8 &&& mask
           (ne = decide (v ≠ val) → ∃ t, exec (.seqWaitComplete th lines) s = .next t
             ∧ t.thread th = { s.thread th with wait := .ready, t := false })
           ∧ (ne ≠ decide (v ≠ val) → exec (.seqWaitComplete th lines) s = .next s))
       ∧ (∀ (mask : BitVec 16) (lines : W32), (s.thread th).wait = .event mask → s.arb.events &&& mask ≠ 0 →
           ∃ t e, exec (.seqWaitComplete th lines) s = .next t ∧ e < 16 ∧ (s.arb.events &&& mask).getLsbD e = true
             ∧ t.arb.events = s.arb.events &&& ~~~ (1#16 <<< e) ∧ (t.thread th).wait = .ready ∧ (t.thread th).t = false
             ∧ mget (t.thread th).x 6 0 = BitVec.ofNat 32 e)
       ∧ (∀ k, (s.thread th).wait = k → k ≠ .ready → (∀ n, k ≠ .delay n) → mget (s.thread th).x 7 0 ≠ 0 →
           exec (.seqWaitTimeout th) s = .next (s.setThread th { s.thread th with wait := .ready, t := true }))
       ∧ (SeqAt s th w 10 → (i, th.toNat) ∉ [(2, 2), (3, 0), (4, 2), (5, 1), (9, 1), (12, 0), (12, 1), (13, 0)] →
           exec (.seqSig th w) s = .next { u with arb := { u.arb with events := u.arb.events ||| (1#16 <<< i) } })
       ∧ (SeqAt s th w 10 → th = 2 → i = 2 → exec (.seqSig th w) s = .next { u with arb := { u.arb with path := some 0, events := u.arb.events ||| 4 } })
       ∧ (SeqAt s th w 10 → th = 0 → i = 3 → exec (.seqSig th w) s = .next { u with arb := { u.arb with
           path := if s.arb.path = some 0 then none else s.arb.path, events := u.arb.events ||| 8 } })
       ∧ (SeqAt s th w 10 → th = 2 → i = 4 → (s.arb.owned = false ∨ s.arb.cycle ≠ none) →
           exec (.seqSig th w) s = .next { u with arb := { u.arb with yield_ := true, events := u.arb.events ||| 16 } })
       ∧ (SeqAt s th w 10 → th = 0 → i = 12 → s.arb.cycle = none → exec (.seqSig th w) s = .next u)
       ∧ (SeqAt s th w 10 → th = 1 → i = 12 → ∀ ph, s.arb.phase = some ph → ph.write = true → exec (.seqSig th w) s = .next u)
       ∧ (SeqAt s th w 10 → th = 0 → i = 13 → (s.arb.ack = none → exec (.seqSig th w) s = .next u)
           ∧ ∀ l, s.arb.ack = some l → matchVector s l.toNat (mget s.arb.fields 4 0) = none →
             exec (.seqSig th w) s = .next { u with arb := { u.arb with vecNomatch := satAdd32 s.arb.vecNomatch 1 } })
       ∧ (SeqAt s th w 11 → i < 11 → i ≠ 8 → i ≠ 9 → exec (.seqLde th w) s = put (mget s.arb.fields i 0))
       ∧ (SeqAt s th w 11 → (i = 8 ∨ i = 9) → ∀ v, mget? s.arb.fields i = some v → exec (.seqLde th w) s = put v)
       ∧ (SeqAt s th w 11 → i = 8 → mget? s.arb.fields 8 = none → ∀ p, s.arb.prof = some p → exec (.seqLde th w) s = put (p.options ++ p.arbMode ++ p.skew ++ p.txd))
       ∧ (SeqAt s th w 11 → i = 9 → mget? s.arb.fields 9 = none → exec (.seqLde th w) s
           = put ((s.arb.roles.handler ++ (0 : BitVec 5) ++ BitVec.ofBool s.arb.roles.syscon ++ s.arb.roles.reqLevel).setWidth 32))
       ∧ (SeqAt s th w 11 → 11 ≤ i → ∃ (v : W32) (t : State), exec (.seqLde th w) s = .next t ∧ t.thread th = { q with x := mput q.x xa.toNat v }
           ∧ t.arb = { u.arb with threads := t.arb.threads })
       ∧ (SeqAt s th w 12 → exec (.seqSte th w) s = .next { u with arb := { u.arb with fields := mput u.arb.fields i (x xa) } })
       ∧ (SeqAt s th w 13 →
           let a := x xa
           let b := x (w.extractLsb' 20 3)
           exec (.seqOpr th w) s = put (match g.toNat with
             | 0 => b | 1 => a &&& b | 2 => a ||| b | 3 => a ^^^ b | 4 => a + b | 5 => a - b | 6 => a <<< (b.toNat % 32) | 7 => a >>> (b.toNat % 32)
             | _ => b.extractLsb' 0 8 ++ b.extractLsb' 8 8 ++ b.extractLsb' 16 8 ++ b.extractLsb' 24 8))
       ∧ (SeqAt s th w 14 →
           let a := x xa
           let b := imm.setWidth 32
           exec (.seqOpi th w) s = put (match g.toNat with
             | 0 => b | 1 => a &&& b | 2 => a ||| b | 3 => a ^^^ b | 4 => a + b | 5 => a - b | 6 => a <<< (b.toNat % 32) | _ => a >>> (b.toNat % 32)))
       ∧ (SeqAt s th w 15 →
           let go := match g.toNat with
             | 0 => true | 1 => decide (x xa = 0) | 2 => decide (x xa ≠ 0) | 3 => (s.thread th).t | 4 => !(s.thread th).t | _ => (s.thread th).p
           exec (.seqBr th w) s = .next (if go then u.setThread th { q with pc := w.extractLsb' 0 12 } else u))
       ∧ (SeqAt s th w 16 → s.arb.cycle = none → s.arb.ack = none → (∀ ph, s.arb.phase = some ph → (s.ses ph.ses).wait = none) →
           ∃ t, exec (.seqEnd th w) s = .next t
             ∧ t.thread th = { s.thread th with pc := idlePc s th, wait := .ready, endCode := w.extractLsb' 0 4, idle := true }
             ∧ t.arb.path = (if th = 1 ∧ s.arb.path = some 1 then none else s.arb.path) ∧ t.arb.cycle = none
             ∧ (th = 1 → t.arb.phase = none) ∧ (∀ p, s.arb.prof = some p → th.toNat < 2 → p.insn = [] → t.arb.ax &&& 0x3F = 0)))

/-- O48. Requests at the PCI Express ports (05 R164; 10 R310, R330, R331; 18 R526, R529 to R531): an inbound request is performed at its target under the class of its function, or refused; a request may span two lines, posted ones keep their order and wait where memory cannot take them yet; a message posts a route whose source still belongs to its target, or is counted; completions and their time limit end the oldest request; in REST what arrives is held until the wake (14 R445). Links and functions of the PCI Express ports (10 R331; 15 R456, R470; 18 R527, R531, R532). -/
def Obligations.PcieRequestsAndLinks : Prop :=
  ((∀ (s : State) (port : Bool) (link : BitVec 2) (fn : BitVec 16) (addr : W64) (size : Nat),
     let l := link.toNat
     let f := fn.toNat
     let c := fnClass s port l f
     let s0 := pcieCount s port 1 c
     let ps := lineParts addr.toNat size
     linkRuns s port l = true → fnExists s port l f = true → fnMuted s port l f = false → (s.link port l).rx = [] → 1 ≤ size → size ≤ 64 →
     (∀ data : Line, ∃ t, exec (.pcieInboundWrite port link fn addr size data true) s = .next t ∧ t.fab = s.fab ∧ t.dram = s.dram)
     ∧ (∀ data : Line, ((s.link port l).endpoint = true ∨ addr ≠ (s.link port l).msiAddr) →
       (∀ s1, partTargets s0 port l f addr .write ps = (none, s1) → exec (.pcieInboundWrite port link fn addr size data false) s = .next s1)
       ∧ (∀ parts s1, partTargets s0 port l f addr .write ps = (some parts, s1) →
         let r : PcieRx := { cls := c, data := data, parts := parts, msi := none }
         ∀ wait u, writeParts port c data parts (setRx s1 port l [r]) = (wait, u) →
         exec (.pcieInboundWrite port link fn addr size data false) s
           = .next (setRx u port l (if wait = [] then [] else [{ r with parts := wait }]))))
     ∧ ((s.link port l).endpoint = true → (s.pfn port l f).flr.isSome = true →
       ∃ t, exec (.pcieInboundRead port link fn addr size) s = .next t ∧ (t.link port l).cpls.head? = some (f, 0, .ur))
     ∧ (((s.link port l).endpoint = false ∨ (s.pfn port l f).flr = none) →
       (∀ s1, partTargets s0 port l f addr .read ps = (none, s1) →
         ∃ t, exec (.pcieInboundRead port link fn addr size) s = .next t ∧ (t.link port l).cpls.head? = some (f, 0, .ur))
       ∧ (∀ parts s1 d u, partTargets s0 port l f addr .read ps = (some parts, s1) → readParts port c parts 0 s1 = some (d, u) →
         ∃ t, exec (.pcieInboundRead port link fn addr size) s = .next t ∧ (t.link port l).cpls.head? = some (f, d, .sc)
           ∧ t.out = d.setWidth 64)
       ∧ (∀ (op : BitVec 4) (opnd cmpv : W64) pa mt s1, (size = 4 ∨ size = 8) → addr.toNat % size = 0 → (op = 0 ∨ op = 1 ∨ op = 9) →
         pcieTarget s0 port l f addr size .rmw = (some (pa, mt), s1) →
         (mt ≠ .normal → ∃ t, exec (.pcieInboundAtomicop port link fn addr size op opnd cmpv) s = .next t
           ∧ (t.link port l).cpls.head? = some (f, 0, .ca))
         ∧ (mt = .normal → ∀ v u, agentAtom s1 (pcieAgent port) c pa size op opnd cmpv = some (v, u) →
           ∃ t, exec (.pcieInboundAtomicop port link fn addr size op opnd cmpv) s = .next t ∧ t.out = v
             ∧ (t.link port l).cpls.head? = some (f, v.setWidth 512, .sc)))))
   ∧ (∀ (s : State) (port : Bool) (link : BitVec 2) (fn data : BitVec 16),
     let l := link.toNat
     let s0 := pcieCount s port 1 (fnClass s port l fn.toNat)
     let src := pcieSource port l fn.toNat data.toNat
     linkRuns s port l = true → (s.link port l).endpoint = false → (s.pfn port l fn.toNat).flr = none → (s.link port l).rx = [] →
     let x : PcieRx := { cls := fnClass s port l fn.toNat, data := 0, parts := [], msi := some (fn.toNat, data) }
     let s1 := setRx (setRx s0 port l [x]) port l []
     ((∃ r ∈ s.gate.routes, r.src = src ∧ routeFits s r = true) → exec (.pcieMsiMessage port link fn data) s = .next (postSource s1 src))
     ∧ ((∀ r ∈ s.gate.routes, r.src = src → routeFits s r = false) → exec (.pcieMsiMessage port link fn data) s
       = .next (s1.setLink port l { s.link port l with rx := [], msiDrop := satInc8 (s.link port l).msiDrop })))
   ∧ (∀ (s : State) (port : Bool) (link : BitVec 2) (ok : Bool) (data : W64) (r : PcieReq) (rest : List PcieReq),
     let l := link.toNat
     (s.link port l).reqs = r :: rest → r.vc = none → r.reads = true →
     (linkRuns s port l = true → r.dead = false → ∃ t, exec (.pcieCompletion port link ok data) s = .next t
       ∧ t.link port l = { s.link port l with reqs := rest }
       ∧ t.out = if ok then data else if r.config then BitVec.allOnes 64 else 0)
     ∧ ∃ t, exec (.pcieCompletionTimeout port link) s = .next t ∧ t.link port l = { s.link port l with reqs := rest }
       ∧ r.at_ + 50000000 ≤ t.qz.time ∧ t.out = if r.config then BitVec.allOnes 64 else 0)
   ∧ (∀ (s : State) (port : Bool) (link : BitVec 2) (fn : BitVec 16) (addr : W64) (size : Nat), let k := s.link port link.toNat
     let held (x : PcieHeld) : Out := .next (s.setLink port link.toNat { k with heldIn := k.heldIn ++ [x] })
     s.mode = .rest → k.present = true → k.up = true →
     (∀ data bad, exec (.pcieInboundWrite port link fn addr size data bad) s = held (.write fn addr size data bad))
     ∧ exec (.pcieInboundRead port link fn addr size) s = held (.read fn addr size)
     ∧ (∀ op opnd cmpv, exec (.pcieInboundAtomicop port link fn addr size op opnd cmpv) s = held (.atomic fn addr size op opnd cmpv))
     ∧ (∀ data, exec (.pcieMsiMessage port link fn data) s = held (.msi fn data))
     ∧ (∀ ok data, exec (.pcieCompletion port link ok data) s = held (.completion ok data)))
   ∧ (∀ (s : State) (port : Bool) (link : BitVec 2) (cls : ClassId) (fn : BitVec 16) (v : W32),
     let l := link.toNat
     let f := s.pfn port l fn.toNat
     let i := (v.extractLsb' 0 5).toNat
     linkRuns s port l = true → (s.link port l).endpoint = true → fn.toNat ≤ (s.link port l).numVf → f.msixEn = true →
     (f.fmask = false → f.masks.getLsbD i = false → f.bme = true →
       ∃ t, exec (.msixSend port link cls fn v) s = .next t
         ∧ (t.link port l).sent.head? = some ((mget f.table i (0, 0)).1, (mget f.table i (0, 0)).2.setWidth 512, 4))
     ∧ ((f.fmask = true ∨ f.masks.getLsbD i = true) →
       exec (.msixSend port link cls fn v) s = .next (s.setPfn port l fn.toNat { f with pend := f.pend ||| (1#32 <<< i) }))))
  ∧ ((∀ (s : State) (port : Bool) (link : BitVec 2),
       let l := link.toNat
       let k := s.link port l
       (k.present = true → k.endpoint = true →
         exec (.pciePerstInput port link false false) s = .next (s.setLink port l { k with perstIn := false })
         ∧ (∃ t, exec (.pciePerstInput port link true false) s = .next t ∧ (t.link port l).up = false ∧ (t.link port l).perstIn = true
           ∧ ∀ f, f ≤ k.numVf → (t.pfn port l f).flr.isSome = true ∧ (t.pfn port l f).bme = false
             ∧ (t.pfn port l f).owner = (s.pfn port l f).owner)
         ∧ (k.up = true → ∃ t, exec (.pciePerstInput port link false true) s = .next t ∧ (t.link port l).up = false
           ∧ ∀ f, f ≤ k.numVf → (t.pfn port l f).flr.isSome = true))
       ∧ (∀ speed width, k.present = true → k.up = false → (if k.endpoint then k.perstIn else k.perstOut) = false →
           1 ≤ speed.toNat → speed.toNat ≤ 5 →
           exec (.pcieLinkUp port link speed width) s = .next (s.setLink port l { k with up := true, speed := speed, width := width, full := width, reduced := false }))
       ∧ (∀ width : BitVec 5, linkRuns s port l = true → s.gate.restReq = none → 1 ≤ width.toNat → width.toNat < k.width.toNat →
           ∃ t, exec (.pcieLaneRetrain port link width) s = .next t ∧ (t.link port l).width = width ∧ (t.link port l).reduced = true
             ∧ Logged t 0x13 0x0F 0x0B (port.toNat + 2 * l))
       ∧ (∀ up : UpTry, up.capable = false ∨ up.width ≠ k.full ∨ s.policy 9 = 0 ∨ s.gate.restart = true →
           exec (.pcieUpconfig port link up) s = .next s)
       ∧ (linkRuns s port l = true → k.reduced = true → s.policy 9 ≠ 0 → s.gate.restart = false →
           ∃ t, exec (.pcieUpconfig port link { width := k.full, capable := true }) s = .next t ∧ (t.link port l).width = k.full ∧ (t.link port l).reduced = false
             ∧ Logged t 0x13 0x0A 0x0B (port.toNat + 2 * l)))
     ∧ (∀ (s : State) (port : Bool), (∃ p ∈ (s.port port).links, p.2.present = true ∧ p.2.endpoint = false ∧ p.2.perstOut = true) →
         ∃ t, exec (.rootPerstRelease port) s = .next t
           ∧ (∀ p ∈ (t.port port).links, p.2.present = true → p.2.endpoint = false → p.2.perstOut = false)
           ∧ ∃ p ∈ (s.port port).links, p.2.roleAt + 100000000 ≤ t.qz.time)
     ∧ (∀ (s : State) (port : Bool) (link : BitVec 2) (fn tag : BitVec 16),
         let f := s.pfn port link.toNat fn.toNat
         noPavWait s →
         (f.flr = some (none, tag) → exec (.flrComplete port link fn) s = .next (s.setPfn port link.toNat fn.toNat { f with flr := none }))
         ∧ ∀ n p, f.flr = some (some n, tag) → ByMailbox s n → (s.lane n).cur = some p →
           ∃ t, exec (.flrComplete port link fn) s = .next t ∧ t.pfn port link.toNat fn.toNat = { f with flr := none, owner := noClass }
             ∧ RepliedBy t n p 0 0 s.qz.time 0)
     ∧ (∀ (s : State) (port : Bool) (link : BitVec 2) (fn : BitVec 16) (reg : BitVec 10),
         let l := link.toNat
         let f := s.pfn port l fn.toNat
         linkRuns s port l = true → (s.link port l).endpoint = true →
         ((s.link port l).numVf < fn.toNat → ∀ w, ∃ t, exec (.pcieInboundConfigRequest port link fn reg w) s = .next t
           ∧ (t.link port l).cpls.head? = some (fn.toNat, 0, .ur))
         ∧ (fn.toNat ≤ (s.link port l).numVf → f.flr = none →
           (∀ v : W32, reg ∉ [0, 1, 18, 32, 384] → ¬ (256 ≤ reg.toNat ∧ reg.toNat < 384) →
             ∃ t, exec (.pcieInboundConfigRequest port link fn reg (some v)) s = .next t
               ∧ t.pfn port l fn.toNat = { f with cfg := mput f.cfg reg.toNat v } ∧ (t.link port l).cpls.head? = some (fn.toNat, 0, .sc))
           ∧ (∀ v : W32, v.getLsbD 15 = true → ∃ t, exec (.pcieInboundConfigRequest port link fn 18 (some v)) s = .next t
               ∧ t.pfn port l fn.toNat = { owner := f.owner, flr := some (none, 0) })
           ∧ (∀ h, s.dev.hdr = some h → ∃ t, exec (.pcieInboundConfigRequest port link fn 0 none) s = .next t
               ∧ t.out = h.pciId.setWidth 64))))

/-- O49. Timer channels (16 R495 to R501): a tick counts by one, or wraps to 0 at all ones and, in period mode, at the compare value in force; a wrap takes a pending preload; entering the value in force is a compare event, which posts the channel's source with EVT_EN; writes by the owner set the value in force, the preload, the count and the control. -/
def Obligations.TimerChannels : Prop :=
  (∀ (s : State) (n : TmrNo), (s.timer n).linked = false → (∀ m, tmEvents (s.timer m).ctl = false) → quartzTicks s n = true →
    s.mode ≠ .belvedere →
    let a := s.timer n
    let w : Bool := a.cnt = BitVec.allOnes 32 ∨ (a.ctl.getLsbD 2 = true ∧ a.cnt = a.cmp)
    let cmp := if w && a.ctl.getLsbD 1 && a.prePend then a.pre else a.cmp
    let cnt := if w then 0 else a.cnt + 1
    let ticked : Timer := { a with
      cnt := cnt, cmp := cmp, wrap := a.wrap || w, hit := a.hit || decide (cnt = cmp),
      prePend := if w && a.ctl.getLsbD 1 then false else a.prePend }
    let runs (o : Out) : Prop := ∃ t u, o = .next t ∧ u.timer n = ticked ∧ (∀ m, m ≠ n → u.timer m = s.timer m)
      ∧ t = if a.ctl.getLsbD 17 = true ∧ cnt = cmp then postSource u (3#64 ||| (n.setWidth 64 <<< 4)) else u
    runs (exec (.timerTick n) s) ∧ (w = true → runs (exec (.timerWrap n) s)) ∧ (cnt = cmp → runs (exec (.timerCompareEvent n) s)))
  ∧ (∀ (s : State) (src : BitVec 7) (level : Bool) (n : TmrNo), s.dev.porst = false → 1 ≤ src.toNat → src.toNat ≤ 8 →
      s.dev.tg.getLsbD (src.toNat - 1) ≠ level → (∀ m, m ≠ n → tmEvents (s.timer m).ctl = false) → (s.timer n).linked = false →
      timersRun s n = true → s.mode ≠ .belvedere → (s.timer n).ctl.getLsbD 17 = false →
      ∃ t, exec (.tgGateChange src level) s = .next t ∧ t.dev.tg.getLsbD (src.toNat - 1) = level
        ∧ (t.timer n).cnt.toNat = if tmEn (s.timer n).ctl && tmEvents (s.timer n).ctl && decide (tmSrc (s.timer n).ctl = src.toNat)
            && tmPol (s.timer n).ctl != level then cntNext s n else (s.timer n).cnt.toNat)
  ∧ (∀ (s : State) (cls : ClassId) (n : TmrNo) (v : W32), s.mode = .service → (s.timer n).linked = false →
      let a := s.timer n
      ((cls = hypClass ∨ (cls = a.owner ∧ cls ≠ noClass)) →
        (∃ t, exec (.tmrCmpWrite cls n v) s = .next t ∧ t.timer n
          = if a.ctl.getLsbD 1 then { a with pre := v, prePend := true } else { a with cmp := v })
        ∧ exec (.tmrCntWrite cls n v) s = .next (s.setTimer n { a with cnt := v })
        ∧ ∃ t, exec (.tmrCtlWrite cls n v) s = .next t
          ∧ (∀ i, i < 18 → (t.timer n).ctl.getLsbD i
            = if 4 ≤ i ∧ i < 9 ∧ 24 < (v.extractLsb' 4 5).toNat then a.ctl.getLsbD i else v.getLsbD i)
          ∧ (t.timer n).pre = (if v.getLsbD 1 = true ∧ a.ctl.getLsbD 1 = false then a.cmp else a.pre)
          ∧ (v.getLsbD 1 = false → (t.timer n).prePend = false) ∧ (t.timer n).cmp = a.cmp ∧ (t.timer n).cnt = a.cnt)
      ∧ (cls ≠ hypClass → cls ≠ a.owner → exec (.tmrCmpWrite cls n v) s = .next s ∧ exec (.tmrCntWrite cls n v) s = .next s
        ∧ exec (.tmrCtlWrite cls n v) s = .next s))

/-- O50. Quartz (16 R482, R487 to R492): the lock starts QZ_TIME from zero; the first edge accepted steps it forward to the offset, later edges correct the rate alone, by at most 200 ppm; an edge off every expected instant is ignored and counted; 3 s without one is holdover; QZ_PPS_OUT rises at whole seconds for 1 ms. -/
def Obligations.QuartzDiscipline : Prop :=
  (∀ s : State, s.dev.porst = false → s.dev.refclk = true → s.qz.locked = false → s.dev.coldRun = false →
    (s.mode ≠ .cold ∨ s.dev.coldHeld = true → exec .quartzPllLock s = .next { s with qz := { s.qz with locked := true, time := 0, osc := 0 } })
    ∧ (s.mode = .cold → s.dev.coldHeld = false → exec .quartzPllLock s = .next s))
  ∧ (∀ s : State, (∀ m, tmEvents (s.timer m).ctl = false) → s.qz.locked = true → s.dev.porst = false →
    (∀ (rising : Bool) (at_ : BitVec 64), s.qz.time ≤ at_.toNat →
      let run := exec (.qzPpsInEdge rising at_) s
      ((s.qz.mode = false ∨ rising = s.qz.edge) → ∃ t, run = .next t ∧ t.qz = { s.qz with time := at_.toNat, osc := s.qz.osc + (at_.toNat - s.qz.time) })
      ∧ (s.qz.mode = true → rising ≠ s.qz.edge →
        (s.qz.accepted = false → ∃ t, run = .next t ∧ at_.toNat ≤ t.qz.time ∧ t.qz.time < at_.toNat + 1000000000
          ∧ ((t.qz.time : Int) - s.qz.offset.toInt) % 1000000000 = 0 ∧ t.qz.step.toNat = t.qz.time - at_.toNat
          ∧ t.qz.stepped = true ∧ t.qz.disc = true ∧ t.qz.ppsLast = BitVec.ofNat 64 t.qz.time)
        ∧ (s.qz.accepted = true →
          let r := (at_.toNat - s.qz.lastEdge) % 1000000000
          ((r ≤ 1000000 ∨ 999000000 ≤ r) → ∃ t, run = .next t ∧ t.qz.time = at_.toNat ∧ t.qz.ppsLast = at_ ∧ t.qz.disc = true
            ∧ t.qz.holdover = false ∧ t.qz.ppsErr = BitVec.ofInt 32 (phaseErr at_.toNat s.qz.offset)
            ∧ (t.qz.rate = s.qz.rate ∨ (-200000000 ≤ t.qz.rate.toInt ∧ t.qz.rate.toInt ≤ 200000000)))
          ∧ (1000000 < r → r < 999000000 → s.qz.cand = none → ∃ t, run = .next t ∧ t.qz.time = at_.toNat
            ∧ t.qz.ignored = satAdd32 s.qz.ignored 1 ∧ t.qz.lastEdge = s.qz.lastEdge ∧ t.qz.rate = s.qz.rate))))
    ∧ (s.qz.mode = true → s.qz.holdover = false → ∃ t, exec .ppsHoldover s = .next t ∧ t.qz.holdover = true ∧ t.qz.disc = false
      ∧ t.qz.rate = s.qz.rate ∧ s.qz.lastEdge + 3000000000 ≤ t.qz.time)
    ∧ (s.qz.ppsOut = true → s.qz.ppsHigh = none → ∃ t, exec .qzPpsOutPulse s = .next t ∧ t.qz.ppsHigh = some t.qz.time
      ∧ t.qz.time % 1000000000 = 0 ∧ s.qz.time ≤ t.qz.time ∧ t.qz.time < s.qz.time + 1000000000)
    ∧ (∀ h, s.qz.ppsHigh = some h → ∃ t, exec .qzPpsOutFall s = .next t ∧ t.qz.ppsHigh = none ∧ h + 1000000 ≤ t.qz.time))

/-- O51. The trace funnel (17 R522 to R525): the oldest packet is taken whole or dropped whole by its class and the occupancy; a line within RATE goes to the sink and the pointer moves on, and a ring that may not pass TF_RPTR stops; TF_RPTR lets it go on; a stop has drained once nothing is left. -/
def Obligations.TraceFunnel : Prop :=
  (∀ (s : State) (src : BitVec 7) (bs : List Byte) (rest : List (BitVec 7 × List Byte)), s.funnel.out = (src, bs) :: rest →
    let vc : Vc := src.setWidth 6
    let occ := s.funnel.buf.length
    let takes : Prop := match (traceClass s vc).toNat with
      | 3 => occ < 131072
      | 2 => occ < 196608
      | 1 => 10 * occ < 9 * 262144
      | _ => occ + bs.length ≤ 262144 - 4096
    (takes → (s.core vc).trc.gap = 0 →
      exec .tracePacketArrival s = .next { s with funnel := { s.funnel with buf := s.funnel.buf ++ bs, out := rest } })
    ∧ (¬ takes → ∃ t, exec .tracePacketArrival s = .next t ∧ t.funnel.buf = s.funnel.buf ∧ t.funnel.out.length ≤ rest.length
      ∧ 0 < (t.core vc).trc.gap))
  ∧ (∀ s : State, (s.funnel.on = true ∨ s.funnel.draining = true) → s.funnel.used < (if s.funnel.rate = 0 then 4000 else s.funnel.rate) →
      (64 ≤ s.funnel.buf.length → ringFull s.funnel = false → ∃ t, exec .traceSinkWrite s = .next t
        ∧ t.funnel.buf = s.funnel.buf.drop 64 ∧ t.funnel.used = s.funnel.used + 1
        ∧ t.funnel.wptr.toNat = (s.funnel.wptr.toNat + 64) % 2 ^ s.funnel.ringK % 2 ^ 64)
      ∧ (64 ≤ s.funnel.buf.length → ringFull s.funnel = true →
        exec .traceSinkWrite s = .next { s with funnel := { s.funnel with stopped := true } })
      ∧ (s.funnel.draining = true → s.funnel.buf = [] → s.funnel.out = [] → ∃ t, exec .traceSinkWrite s = .next t
        ∧ t.funnel.draining = false ∧ t.funnel.drained = true))
  ∧ (∀ (s : State) (high : Bool) (v : W32), ∃ t, exec (.tfRptrWrite high v) s = .next t
      ∧ t.funnel.rptr = (if high then v ++ s.funnel.rptr.extractLsb' 0 32 else s.funnel.rptr.extractLsb' 32 32 ++ v) &&& ~~~ 0x3F#64
      ∧ (ringFull t.funnel = false → t.funnel.stopped = false) ∧ t = { s with funnel := t.funnel })
  ∧ (∀ (s : State) (v : W32),
      (v.getLsbD 0 = true → s.funnel.on = true → ∃ t, exec (.tfFlush v) s = .next t ∧ t.funnel.buf = s.funnel.buf
        ∧ (t.funnel.flush = true ∨ (t.funnel.buf = [] ∧ t.funnel.out = [])))
      ∧ ((v.getLsbD 0 = false ∨ s.funnel.on = false) → exec (.tfFlush v) s = .next s))

/-- O52. The test port (18 R539; 09 R289): IDCODE and the reset of the test logic load the part's code, SAMPLE_PRELOAD the levels and the cells; the instructions that hold the balls act while PORST_N is low and pass otherwise; DBG_MEM reads a raw slot where the debug image was booted, and waits where the fill has not reached its row, until a DRAM_FILL does (09 R293); any other code is BYPASS. -/
def Obligations.TestPort : Prop :=
  ∀ s : State, s.dev.rails.getLsbD 8 = true →
    let id : BitVec 640 := match s.cmap.part with | .t6440i => 0x16440A67 | _ => 0x16472A67
    let load (code act : BitVec 8) (dr : BitVec 640) (drives highz : Bool) : Out :=
      .next { s with jtag := { s.jtag with ir := code, act := act, dr := dr, want := none, drives := drives, highz := highz } }
    exec .jtagIdcode s = load 1 1 id false false ∧ exec .testLogicReset s = load 1 1 id false false
    ∧ (∀ sample, exec (.jtagSamplePreload sample []) s = load 2 2 sample false false)
    ∧ (∀ sample i b, ∃ t, exec (.jtagSamplePreload sample [(i, b)]) s = .next t ∧ t.jtag.dr = sample ∧ mget? t.jtag.chain i = some b)
    ∧ (∀ p ∈ [(Instr.jtagExtest, 3#8, true), (.jtagClamp, 4#8, true), (.jtagHighz, 5#8, false), (.jtagExtestPulse, 6#8, true), (.jtagExtestTrain, 7#8, true)],
        exec p.1 s = if s.dev.porst then load p.2.1 p.2.1 0 p.2.2 (!p.2.2) else load p.2.1 0xFF 0 false false)
    ∧ (∀ code : BitVec 8, code ∉ [1, 2, 3, 4, 5, 6, 7, 0x40] → exec (.jtagBypass code) s = load code 0xFF 0 false false)
    ∧ (∀ (c : Oct) (r : BitVec 34),
        (dbgAccepted s = false → exec (.jtagDbgMem c r) s = load 0x40 0xFF 0 false false)
        ∧ (dbgAccepted s = true → r.toNat < slotsPerChannel s.dram → s.dram.fill ≤ r.toNat →
          exec (.jtagDbgMem c r) s = .next { s with jtag := { s.jtag with ir := 0x40, act := 0x40, want := some (c, r.toNat), drives := false, highz := false } })
        ∧ (dbgAccepted s = true → slotsPerChannel s.dram ≤ r.toNat → ∃ t, exec (.jtagDbgMem c r) s = .next t ∧ t.jtag.act = 0x40 ∧ t.dram = s.dram)
        ∧ (∀ rows : BitVec 32, (s.mode = .assembly ∨ s.mode = .service) → s.dev.stopped = false → s.jtag.want = some (c, r.toNat) →
          r.toNat < min (s.dram.fill + rows.toNat) (slotsPerChannel s.dram) →
          ∃ t, exec (.dramFill rows) s = .next t ∧ t.jtag.want = none ∧ t.jtag.act = 0x40)
        ∧ (dbgAccepted s = true → r.toNat < slotsPerChannel s.dram → r.toNat < s.dram.fill → ∃ t, exec (.jtagDbgMem c r) s = .next t ∧ t.jtag.act = 0x40
          ∧ t.jtag.dr.extractLsb' 0 512 = rawSlot s.dram.cells { c := c.toNat, r := r.toNat }
          ∧ t.jtag.dr.getLsbD 512 = slotTag s.dram { c := c.toNat, r := r.toNat }))

/-- O53. Registers that cores reach by address (00 R8, R11; 16 R502) and posts (10 R310, R314, R317, R320; 13 R420): a read of one half of a pair latches the other, whose read returns it; a read-to-clear register is read and cleared at once; a write of a read-only field changes nothing; a post follows the writes before it, goes along a route whose source still belongs to its target, and reaches the latch of the core that runs its vCPU. -/
def Obligations.RegistersAndPosts : Prop :=
  (∀ (s : State) (vc : Vc) (cls : ClassId) (high : Bool), s.mode = .service → vc.toNat < vcCount s.cmap.part →
    (∀ pa, 0xE00000100000 ≤ pa → pa < 0xE00000200000 → paKind s pa = .quartz) →
    let time : W64 := BitVec.ofNat 64 s.qz.time
    let half (h : Bool) : W32 := if h then time.extractLsb' 32 32 else time.extractLsb' 0 32
    let pa : BitVec 48 := if high then 0xE00000100004 else 0xE00000100000
    (∀ h v, mget? (s.core vc).holds 0 = some (h, v) → h = high → ∃ t, exec (.holdRegisterRead vc cls pa) s = .next t
      ∧ t.out = v.setWidth 64 ∧ mget? (t.core vc).holds 0 = none)
    ∧ ((∀ h v, mget? (s.core vc).holds 0 = some (h, v) → h ≠ high) → ∃ t, exec (.holdRegisterRead vc cls pa) s = .next t
      ∧ t.out = (half high).setWidth 64 ∧ mget? (t.core vc).holds 0 = some (!high, half (!high)))
    ∧ (∃ t, exec (.rcRegisterRead vc cls 0xE00000100020) s = .next t ∧ t.out = s.qz.ignored.setWidth 64 ∧ t.qz = { s.qz with ignored := 0 })
    ∧ (∀ v, exec (.registerWrite vc cls 0xE00000100008 v) s = .next s)
    ∧ (∀ v, (s.timer 3).linked = false → (s.timer 3).ctl.getLsbD 1 = false →
      exec (.registerWrite vc hypClass 0xE00000104004 v) s = .next (s.setTimer 3 { s.timer 3 with cmp := v })))
  ∧ (∀ (s : State) (vc : Vc) (pn : Pav) (v : W32), s.mode = .service → vc.toNat < vcCount s.cmap.part → storesDone s vc = true →
      let i := (v.extractLsb' 0 11).toNat
      let p := s.pav pn
      ((s.core vc).arch.tr.vmid = pn → p.st ≠ .none → i < p.nirq → (pitEntry s p i).getLsbD 1 = true →
        exec (.virqSendWrite vc pn v) s = .next (postVirq s pn i))
      ∧ (((s.core vc).arch.tr.vmid ≠ pn ∨ p.nirq ≤ i ∨ (pitEntry s p i).getLsbD 1 = false) → exec (.virqSendWrite vc pn v) s = .next s))
  ∧ (∀ (s : State) (src : BitVec 64), s.dev.porst = false → (src.toNat % 16 = 1 → s.arb.inbuf = []) →
      (src.toNat % 16 = 2 → (s.link ((src.toNat / 16) % 2 == 1) (src.toNat / 32 % 4)).rx = []) →
      (s.mode = .rest → exec (.virqPost src) s = .next { s with dev := { s.dev with held := s.dev.held ++ [src] } })
      ∧ ((∀ r ∈ s.gate.routes, r.src = src → routeFits s r = false) → s.mode = .service → exec (.virqPost src) s = .next s)
      ∧ (∀ r c, s.mode = .service → s.gate.routes.filter (fun q => q.src == src && routeFits s q) = [r] → r.hyp = false →
        let p := s.pav r.pav
        let i := r.id.toNat
        p.st = .running → i < p.nirq → (pitEntry s p i).getLsbD 0 = true → postDeferred s r.pav = false →
        runningOn s r.pav ((pitEntry s p i).extractLsb' 8 6).toNat = some c →
        ∃ t, exec (.virqPost src) s = .next t ∧ i ∈ (t.core c).latch ∧ (∀ j, j ∈ (s.core c).latch → j ∈ (t.core c).latch)
          ∧ (∀ v, v ≠ c → t.core v = s.core v) ∧ t.fab = s.fab ∧ t.dram = s.dram))

/-- O54. Words written out from the encodings of the spec decode to the instructions they stand for, and the words that it calls illegal to none (03 R74, R78 to R98). -/
def Obligations.CoreWordsDecode : Prop :=
  decodeCore false (0b000001#6 ++ 0b00000#5 ++ 0b00000#5 ++ 0b00000#5 ++ 0b0#1 ++ 0x0#4 ++ 0b000000#6) = some (.alu false .add 0 0 0)
  ∧ decodeCore true (0b000001#6 ++ 3#5 ++ 1#5 ++ 2#5 ++ 0b1#1 ++ 0x1#4 ++ 0b000000#6) = some (.alu true .sub 3 1 2)
  ∧ decodeCore false (0b000001#6 ++ 3#5 ++ 1#5 ++ 2#5 ++ 0b1#1 ++ 0x1#4 ++ 0b000000#6) = none
  ∧ decodeCore true (0b000011#6 ++ 3#5 ++ 1#5 ++ 2#5 ++ 0b0#1 ++ 0x0#4 ++ 0b000000#6) = some (.alu2 false .adc 3 1 2)
  ∧ decodeCore false (0b000011#6 ++ 3#5 ++ 1#5 ++ 2#5 ++ 0b0#1 ++ 0x0#4 ++ 0b000000#6) = none
  ∧ decodeCore false (0b000010#6 ++ 4#5 ++ 5#5 ++ 6#5 ++ 0b0#1 ++ 0x4#4 ++ 0b000000#6) = some (.muldiv false .div 4 5 6)
  ∧ decodeCore false (0b001000#6 ++ 7#5 ++ 8#5 ++ 0x8000#16) = some (.ri .addi 7 8 0x8000)
  ∧ decodeCore false (0b010011#6 ++ 9#5 ++ 31#5 ++ 0xFFFF#16) = some (.ld .ldhu 9 31 0xFFFF)
  ∧ decodeCore false (0b000100#6 ++ 1#5 ++ 2#5 ++ 3#5 ++ 0b0#1 ++ 0x9#4 ++ 0b11#2 ++ 0b1#1 ++ 0b000#3) = some (.atom .cas 3 true 1 2 3)
  ∧ decodeCore false (0b110000#6 ++ 1#5 ++ 2#5 ++ 0b100#3 ++ 0x1FFF#13) = some (.br 4 1 2 0x1FFF)
  ∧ decodeCore true (0b110000#6 ++ 0b0110#4 ++ 0x3FFFFF#22) = some (.fb 6 0x3FFFFF)
  ∧ decodeCore true (0b110000#6 ++ 0b1111#4 ++ 0x3FFFFF#22) = none
  ∧ decodeCore false (0b100001#6 ++ 0xA5#8 ++ 0x20001#18) = some (.call 0xA5 0x20001)
  ∧ decodeCore false (0b101000#6 ++ 1#5 ++ 2#5 ++ 3#5 ++ 0b0#1 ++ 0b1#1 ++ 0x03#6 ++ 0b111#3) = some (.fp false true .fdiv 7 1 2 3)
  ∧ decodeCore false (0b101000#6 ++ 1#5 ++ 2#5 ++ 3#5 ++ 0b0#1 ++ 0b1#1 ++ 0x04#6 ++ 0b000#3) = none
  ∧ decodeCore false (0b101001#6 ++ 1#5 ++ 2#5 ++ 3#5 ++ 0b0#1 ++ 4#5 ++ 0b1#1 ++ 0b10#2 ++ 0b00#2) = some (.fma true 2 1 2 3 4)
  ∧ decodeCore false (0b111110#6 ++ 5#4 ++ 1#5 ++ 2#5 ++ 3#5 ++ 0x7F#7) = some (.folly 5 1 2 3 0x7F)
  ∧ decodeCore false (0b111111#6 ++ 0x09#5 ++ 0#5 ++ 0x1234#16) = some (.trapH 0x1234)
  ∧ decodeCore false (0b111111#6 ++ 0x10#5 ++ 6#5 ++ 0x0042#16) = some (.mfs 6 0x042)
  ∧ decodeCore false 0x00000000#32 = none ∧ decodeCore false 0xFFFFFFFF#32 = none

/-- O55. No bit of an encoding is dropped, and no word but the one of its encoding decodes to an instruction: decoding the word of an instruction that the style admits gives it back, and the word of a decoded instruction is the word decoded (03 R74, R98). -/
def Obligations.CoreRoundTrip : Prop :=
  ∀ fs : Bool,
    (∀ op : CoreOp, op.wf fs = true → decodeCore fs (encodeCore op) = some op)
    ∧ (∀ (w : W32) (op : CoreOp), decodeCore fs w = some op → encodeCore op = w ∧ op.wf fs = true)

/-- O56. What reset leaves, as the reset columns give it (00 R9; 11 R334): no command waits; COLD; every register of a core is zero and no vCPU is loaded; every pavilion is NONE and every session CLOSED; every role of Arbor is off and AX holds the disabled values; QZ_TIME is 0 and unlocked; memory reads zero. -/
def Obligations.ResetState : Prop :=
  let s := State.reset
  s.pending = [] ∧ s.mode = .cold ∧ Sound s
  ∧ (∀ vc, (s.core vc).arch = {} ∧ (s.core vc).spec = {} ∧ (s.core vc).sb = [] ∧ ∀ r, gRead (s.core vc).arch r = 0)
  ∧ (∀ p, (s.pav p).st = .none) ∧ (∀ n, (s.ses n).st = .closed)
  ∧ s.arb.roles = {} ∧ s.arb.ax = 0xAA ∧ s.arb.prof = none ∧ s.qz.time = 0 ∧ s.qz.locked = false
  ∧ (∀ n, (s.timer n).cnt = 0 ∧ (s.timer n).ctl = 0) ∧ (∀ c i, slotBytes s.dram.cells c i 64 = 0)

/-- O57. Every step keeps the map of the cores usable and the memory canonical (00 R5; 15 R459, R569). -/
def Obligations.EveryStepKeepsSound : Prop :=
  ∀ s t : State, Sound s → step s = .next t → Sound t

/-- O58. A line written to DRAM is read back, and every other line reads as before, in either memory mode, under Mica or not, while no channel is lost; two lines of a channel never share a DRAM address, whose burst stands in one subchannel, bank group, bank, rank and row (09 R277, R278, R281, R283, R285). -/
def Obligations.DramReadsBack : Prop :=
  (∀ (d : Dram) (l : Nat) (v : Line), d.lost = none → isTagLine d l = false →
    dramRead (dramWrite d l v) l = v
    ∧ ∀ k, k ≠ l → isTagLine d k = false → dramRead (dramWrite d l v) k = dramRead d k)
  ∧ (∀ (org : BitVec 8) (r k : Nat),
    let a := dramAddr org r
    r = a.sub.toNat + 2 * a.bankGroup.toNat + 16 * a.bank.toNat + 64 * (a.column.toNat / 16)
        + (if twoRanks org then 2 ^ 13 * a.rank.toNat + 2 ^ 14 * a.row else 2 ^ 13 * a.row)
      ∧ a.column.toNat % 16 = 0 ∧ (dramAddr org k = a → k = r))

/-- O59. A Mica block is at most 32 bytes and decodes to the line that it was made from (09 R283, R284). -/
def Obligations.MicaBlocks : Prop :=
  ∀ (v : Line) (b : Nat), micaEncode v = some b → b < 2 ^ 256 ∧ micaDecode b = v

/-- O60. Checks on translation entries (07 R201, R207, R208, R210): what makes a valid entry fault as reserved, the order of the stage-1 checks and their kinds, the stage-2 checks, and the more restrictive memory type. -/
def Obligations.EntryChecks : Prop :=
  (∀ (e : W64) (stage2 : Bool),
    (∀ lvl, lvl < 3 → (entryReserved e stage2 lvl = true ↔
      e.getLsbD 1 = false ∨ e.extractLsb' 2 10 ≠ 0 ∨ e.extractLsb' 48 7 ≠ 0 ∨ e.extractLsb' 59 5 ≠ 0))
    ∧ (entryReserved e stage2 3 = true ↔
      e.getLsbD 1 = true ∨ e.getLsbD 11 = true ∨ (stage2 = true ∧ e.extractLsb' 5 4 ≠ 0) ∨ e.extractLsb' 48 7 ≠ 0 ∨ e.extractLsb' 59 5 ≠ 0
        ∨ e.extractLsb' 9 2 = 3 ∨ (e.getLsbD 3 = true ∧ e.getLsbD 2 = false)))
  ∧ (∀ (e : TlbEntry) (l : Level) (sgu : Bool) (acc : Acc), e.s1on = true →
    let fault (t : FType) (k : BitVec 2) : Option WFault := some { stage2 := false, level := 3, type := t, pkind := k }
    let denied : Prop := match acc with
      | .read => e.r1 = false | .write => e.w1 = false | .exec => e.x1 = false | .rmw => e.r1 = false ∨ e.w1 = false
    let level : Prop := (l = .u ∧ e.u = false) ∨ (l ≠ .u ∧ e.u = true ∧ (acc = .exec ∨ sgu = true))
    let device : Prop := acc = .exec ∧ e.mt1 = .device
    let dirty : Prop := (acc = .write ∨ acc = .rmw) ∧ e.d = false
    (level → checkS1 e l sgu acc = fault .permission 1)
    ∧ (¬ level → denied → checkS1 e l sgu acc = fault .permission 0)
    ∧ (¬ level → ¬ denied → device → checkS1 e l sgu acc = fault .permission 3)
    ∧ (¬ level → ¬ denied → ¬ device → e.a = false → checkS1 e l sgu acc = fault .access 0)
    ∧ (¬ level → ¬ denied → ¬ device → e.a = true → dirty → checkS1 e l sgu acc = fault .permission 2)
    ∧ (¬ level → ¬ denied → ¬ device → e.a = true → ¬ dirty → checkS1 e l sgu acc = none))
  ∧ (∀ (e : TlbEntry) (acc : Acc) (ipa : Nat),
    let denied : Prop := match acc with
      | .read => e.r2 = false | .write => e.w2 = false | .exec => e.x2 = false | .rmw => e.r2 = false ∨ e.w2 = false
    (checkS2 e acc ipa = none ↔ ¬ denied ∧ ¬ (acc = .exec ∧ e.mt = .device)))
  ∧ (∀ a b : MemType, combineMt a b = combineMt b a ∧ combineMt .device b = .device ∧ combineMt .normal b = b ∧ combineMt a a = a)
end

