-- ==== Sys2Proof/Laws/Maps.lean ====
section
/-! SUPPORT. Sparse maps: what a write writes, what it leaves, and that the keys stay strictly rising. -/

namespace Sys2Proof.Machine

variable {α : Type}

/-- Insertion of a key that is not listed: it is read back. -/
theorem mget?_minsert_self (i : Nat) (v : α) (m : SMap α) (h : ∀ p ∈ m, p.1 ≠ i) : mget? (minsert i v m) i = some v := by
  induction m with
  | nil => simp [minsert, mget?]
  | cons p m ih =>
    obtain ⟨k, w⟩ := p
    have hk : k ≠ i := h (k, w) (by simp)
    unfold minsert
    split
    · simp [mget?]
    · simp [mget?, hk, ih (fun p hp => h p (by simp [hp]))]

/-- Insertion leaves every other key as it was. -/
theorem mget?_minsert_ne (i j : Nat) (v : α) (m : SMap α) (h : j ≠ i) : mget? (minsert i v m) j = mget? m j := by
  induction m with
  | nil => simp [minsert, mget?, h.symm]
  | cons p m ih =>
    obtain ⟨k, w⟩ := p
    unfold minsert
    split <;> simp [mget?, h.symm, ih]

/-- A removed key is not listed. -/
@[simp] theorem mget?_mdel_self (m : SMap α) (i : Nat) : mget? (mdel m i) i = none := by
  induction m with
  | nil => rfl
  | cons p m ih =>
    obtain ⟨k, w⟩ := p
    by_cases hk : k = i <;> simp_all [mdel, mget?]

/-- Removal leaves every other key as it was. -/
@[simp] theorem mget?_mdel_ne (m : SMap α) (i j : Nat) (h : j ≠ i) : mget? (mdel m i) j = mget? m j := by
  induction m with
  | nil => rfl
  | cons p m ih =>
    obtain ⟨k, w⟩ := p
    by_cases hk : k = i
    · subst hk; simp_all [mdel, mget?, Ne.symm h]
    · simp_all [mdel, mget?]

/-- No pair of a map without a key has it. -/
theorem not_mem_mdel (m : SMap α) (i : Nat) : ∀ p ∈ mdel m i, p.1 ≠ i := by
  intro p hp; simp [mdel] at hp; exact hp.2

/-- A written key is read back. -/
@[simp] theorem mget?_mput_self (m : SMap α) (i : Nat) (v : α) : mget? (mput m i v) i = some v :=
  mget?_minsert_self i v _ (not_mem_mdel m i)

/-- A write leaves every other key as it was. -/
@[simp] theorem mget?_mput_ne (m : SMap α) (i j : Nat) (v : α) (h : j ≠ i) : mget? (mput m i v) j = mget? m j := by
  rw [mput, mget?_minsert_ne _ _ _ _ h, mget?_mdel_ne _ _ _ h]

/-- A written key is read back. -/
@[simp] theorem mget_mput_self (m : SMap α) (i : Nat) (v d : α) : mget (mput m i v) i d = v := by simp [mget]

/-- A write leaves every other key as it was. -/
@[simp] theorem mget_mput_ne (m : SMap α) (i j : Nat) (v d : α) (h : j ≠ i) : mget (mput m i v) j d = mget m j d := by
  simp [mget, h]

/-- What is set or removed at a key is read back. -/
@[simp] theorem mget?_mset?_self (m : SMap α) (i : Nat) (v : Option α) : mget? (mset? m i v) i = v := by
  cases v <;> simp [mset?]

/-- Setting or removing at a key leaves every other one as it was. -/
@[simp] theorem mget?_mset?_ne (m : SMap α) (i j : Nat) (v : Option α) (h : j ≠ i) : mget? (mset? m i v) j = mget? m j := by
  cases v <;> simp [mset?, h]

/-- A removed key reads as its default. -/
@[simp] theorem mget_mdel_self (m : SMap α) (i : Nat) (d : α) : mget (mdel m i) i d = d := by simp [mget]

/-- Removal leaves every other key as it was. -/
@[simp] theorem mget_mdel_ne (m : SMap α) (i j : Nat) (d : α) (h : j ≠ i) : mget (mdel m i) j d = mget m j d := by simp [mget, h]

/-- Strictly rising keys, as a relation of pairs. -/
theorem msorted_iff (m : SMap α) : msorted m = true ↔ m.Pairwise (fun p q => p.1 < q.1) := by
  induction m with
  | nil => simp [msorted]
  | cons p m ih =>
    obtain ⟨k, w⟩ := p
    cases m with
    | nil => simp [msorted]
    | cons q m =>
      obtain ⟨k', w'⟩ := q
      simp only [msorted, Bool.and_eq_true, decide_eq_true_eq, ih, List.pairwise_cons]
      constructor
      · rintro ⟨h, h1, h2⟩
        refine ⟨?_, h1, h2⟩
        intro a ha
        rcases List.mem_cons.1 ha with rfl | ha
        · exact h
        · exact Nat.lt_trans h (h1 a ha)
      · rintro ⟨h, h1, h2⟩
        exact ⟨h _ (List.mem_cons_self ..), h1, h2⟩

/-- Removal keeps the keys rising. -/
theorem msorted_mdel (m : SMap α) (i : Nat) (h : msorted m = true) : msorted (mdel m i) = true := by
  rw [msorted_iff] at *; exact h.filter _

/-- The keys of an insertion. -/
theorem mem_minsert (i : Nat) (v : α) (m : SMap α) (p : Nat × α) : p ∈ minsert i v m ↔ p = (i, v) ∨ p ∈ m := by
  induction m with
  | nil => simp [minsert]
  | cons q m ih =>
    obtain ⟨k, w⟩ := q
    unfold minsert
    split
    · simp
    · simp only [List.mem_cons, ih]; tauto

/-- A write keeps the keys rising. -/
theorem msorted_mput (m : SMap α) (i : Nat) (v : α) (h : msorted m = true) : msorted (mput m i v) = true := by
  have h1 := msorted_mdel m i h
  have h2 := not_mem_mdel m i
  rw [mput, msorted_iff]
  rw [msorted_iff] at h1
  generalize mdel m i = l at h1 h2
  induction l with
  | nil => simp [minsert]
  | cons q l ih =>
    obtain ⟨k, w⟩ := q
    have hk : k ≠ i := h2 (k, w) (by simp)
    rw [List.pairwise_cons] at h1
    unfold minsert
    split
    · rename_i hlt
      rw [List.pairwise_cons]
      refine ⟨?_, List.pairwise_cons.2 h1⟩
      intro a ha
      rcases List.mem_cons.1 ha with rfl | ha
      · exact hlt
      · exact Nat.lt_trans hlt (h1.1 a ha)
    · rename_i hge
      rw [List.pairwise_cons]
      refine ⟨?_, ih h1.2 (fun p hp => h2 p (by simp [hp]))⟩
      intro a ha
      rcases (mem_minsert i v l a).1 ha with rfl | ha
      · have : k ≤ i := Nat.le_of_not_lt hge
        exact Nat.lt_of_le_of_ne this hk
      · exact h1.1 a ha

/-- A key removed after its insertion leaves what stood before. -/
theorem mdel_minsert (i : Nat) (v : α) (m : SMap α) (h : ∀ p ∈ m, p.1 ≠ i) : mdel (minsert i v m) i = m := by
  have hm : mdel m i = m := List.filter_eq_self.2 fun p hp => by simpa using h p hp
  induction m with
  | nil => simp [minsert, mdel]
  | cons p m ih =>
    obtain ⟨k, w⟩ := p
    have hk : k ≠ i := h (k, w) (by simp)
    have hr : mdel m i = m := List.filter_eq_self.2 fun p hp => by simpa using h p (by simp [hp])
    have := ih (fun p hp => h p (by simp [hp])) hr
    unfold minsert
    split
    · simp [mdel, hk] at hm ⊢; exact hm
    · simp [mdel, hk] at this ⊢; exact this

/-- The second of two writes to a key is all that is left. -/
theorem mput_mput (m : SMap α) (i : Nat) (v w : α) : mput (mput m i v) i w = mput m i w := by
  rw [mput, mput, mdel_minsert _ _ _ (not_mem_mdel m i), ← mput]

end Sys2Proof.Machine
end

