-- ==== Sys2Proof/Laws/State.lean ====
section
/-! SUPPORT. What each update of the state leaves as it was, field by field, and what it writes. -/

namespace Sys2Proof.Machine

@[simp] theorem State.setCore_cmap (s : State) (vc : Vc) (c : Core) : (s.setCore vc c).cmap = s.cmap := rfl
@[simp] theorem State.setCore_qz (s : State) (vc : Vc) (c : Core) : (s.setCore vc c).qz = s.qz := rfl
@[simp] theorem State.setCore_fab (s : State) (vc : Vc) (c : Core) : (s.setCore vc c).fab = s.fab := rfl
@[simp] theorem State.setCore_dram (s : State) (vc : Vc) (c : Core) : (s.setCore vc c).dram = s.dram := rfl
@[simp] theorem State.setCore_pavs (s : State) (vc : Vc) (c : Core) : (s.setCore vc c).pavs = s.pavs := rfl
@[simp] theorem State.setCore_qos (s : State) (vc : Vc) (c : Core) : (s.setCore vc c).qos = s.qos := rfl
@[simp] theorem State.setCore_arb (s : State) (vc : Vc) (c : Core) : (s.setCore vc c).arb = s.arb := rfl
@[simp] theorem State.setCore_gate (s : State) (vc : Vc) (c : Core) : (s.setCore vc c).gate = s.gate := rfl
@[simp] theorem State.setCore_flash (s : State) (vc : Vc) (c : Core) : (s.setCore vc c).flash = s.flash := rfl
@[simp] theorem State.setCore_timers (s : State) (vc : Vc) (c : Core) : (s.setCore vc c).timers = s.timers := rfl
@[simp] theorem State.setCore_uncore (s : State) (vc : Vc) (c : Core) : (s.setCore vc c).uncore = s.uncore := rfl
@[simp] theorem State.setCore_funnel (s : State) (vc : Vc) (c : Core) : (s.setCore vc c).funnel = s.funnel := rfl
@[simp] theorem State.setCore_ports (s : State) (vc : Vc) (c : Core) : (s.setCore vc c).ports = s.ports := rfl
@[simp] theorem State.setCore_mgmt (s : State) (vc : Vc) (c : Core) : (s.setCore vc c).mgmt = s.mgmt := rfl
@[simp] theorem State.setCore_jtag (s : State) (vc : Vc) (c : Core) : (s.setCore vc c).jtag = s.jtag := rfl
@[simp] theorem State.setCore_therm (s : State) (vc : Vc) (c : Core) : (s.setCore vc c).therm = s.therm := rfl
@[simp] theorem State.setCore_dev (s : State) (vc : Vc) (c : Core) : (s.setCore vc c).dev = s.dev := rfl
@[simp] theorem State.setCore_out (s : State) (vc : Vc) (c : Core) : (s.setCore vc c).out = s.out := rfl
@[simp] theorem State.setCore_fresh (s : State) (vc : Vc) (c : Core) : (s.setCore vc c).fresh = s.fresh := rfl
@[simp] theorem State.setCore_pending (s : State) (vc : Vc) (c : Core) : (s.setCore vc c).pending = s.pending := rfl

@[simp] theorem State.updCore_cmap (s : State) (vc : Vc) (f : Core → Core) : (s.updCore vc f).cmap = s.cmap := rfl
@[simp] theorem State.updCore_qz (s : State) (vc : Vc) (f : Core → Core) : (s.updCore vc f).qz = s.qz := rfl
@[simp] theorem State.updCore_fab (s : State) (vc : Vc) (f : Core → Core) : (s.updCore vc f).fab = s.fab := rfl
@[simp] theorem State.updCore_dram (s : State) (vc : Vc) (f : Core → Core) : (s.updCore vc f).dram = s.dram := rfl
@[simp] theorem State.updCore_pavs (s : State) (vc : Vc) (f : Core → Core) : (s.updCore vc f).pavs = s.pavs := rfl
@[simp] theorem State.updCore_qos (s : State) (vc : Vc) (f : Core → Core) : (s.updCore vc f).qos = s.qos := rfl
@[simp] theorem State.updCore_arb (s : State) (vc : Vc) (f : Core → Core) : (s.updCore vc f).arb = s.arb := rfl
@[simp] theorem State.updCore_gate (s : State) (vc : Vc) (f : Core → Core) : (s.updCore vc f).gate = s.gate := rfl
@[simp] theorem State.updCore_flash (s : State) (vc : Vc) (f : Core → Core) : (s.updCore vc f).flash = s.flash := rfl
@[simp] theorem State.updCore_timers (s : State) (vc : Vc) (f : Core → Core) : (s.updCore vc f).timers = s.timers := rfl
@[simp] theorem State.updCore_uncore (s : State) (vc : Vc) (f : Core → Core) : (s.updCore vc f).uncore = s.uncore := rfl
@[simp] theorem State.updCore_funnel (s : State) (vc : Vc) (f : Core → Core) : (s.updCore vc f).funnel = s.funnel := rfl
@[simp] theorem State.updCore_ports (s : State) (vc : Vc) (f : Core → Core) : (s.updCore vc f).ports = s.ports := rfl
@[simp] theorem State.updCore_mgmt (s : State) (vc : Vc) (f : Core → Core) : (s.updCore vc f).mgmt = s.mgmt := rfl
@[simp] theorem State.updCore_jtag (s : State) (vc : Vc) (f : Core → Core) : (s.updCore vc f).jtag = s.jtag := rfl
@[simp] theorem State.updCore_therm (s : State) (vc : Vc) (f : Core → Core) : (s.updCore vc f).therm = s.therm := rfl
@[simp] theorem State.updCore_dev (s : State) (vc : Vc) (f : Core → Core) : (s.updCore vc f).dev = s.dev := rfl
@[simp] theorem State.updCore_out (s : State) (vc : Vc) (f : Core → Core) : (s.updCore vc f).out = s.out := rfl
@[simp] theorem State.updCore_fresh (s : State) (vc : Vc) (f : Core → Core) : (s.updCore vc f).fresh = s.fresh := rfl
@[simp] theorem State.updCore_pending (s : State) (vc : Vc) (f : Core → Core) : (s.updCore vc f).pending = s.pending := rfl

@[simp] theorem State.setPav_cmap (s : State) (p : Pav) (v : Pavilion) : (s.setPav p v).cmap = s.cmap := rfl
@[simp] theorem State.setPav_qz (s : State) (p : Pav) (v : Pavilion) : (s.setPav p v).qz = s.qz := rfl
@[simp] theorem State.setPav_cores (s : State) (p : Pav) (v : Pavilion) : (s.setPav p v).cores = s.cores := rfl
@[simp] theorem State.setPav_fab (s : State) (p : Pav) (v : Pavilion) : (s.setPav p v).fab = s.fab := rfl
@[simp] theorem State.setPav_dram (s : State) (p : Pav) (v : Pavilion) : (s.setPav p v).dram = s.dram := rfl
@[simp] theorem State.setPav_qos (s : State) (p : Pav) (v : Pavilion) : (s.setPav p v).qos = s.qos := rfl
@[simp] theorem State.setPav_arb (s : State) (p : Pav) (v : Pavilion) : (s.setPav p v).arb = s.arb := rfl
@[simp] theorem State.setPav_gate (s : State) (p : Pav) (v : Pavilion) : (s.setPav p v).gate = s.gate := rfl
@[simp] theorem State.setPav_flash (s : State) (p : Pav) (v : Pavilion) : (s.setPav p v).flash = s.flash := rfl
@[simp] theorem State.setPav_timers (s : State) (p : Pav) (v : Pavilion) : (s.setPav p v).timers = s.timers := rfl
@[simp] theorem State.setPav_uncore (s : State) (p : Pav) (v : Pavilion) : (s.setPav p v).uncore = s.uncore := rfl
@[simp] theorem State.setPav_funnel (s : State) (p : Pav) (v : Pavilion) : (s.setPav p v).funnel = s.funnel := rfl
@[simp] theorem State.setPav_ports (s : State) (p : Pav) (v : Pavilion) : (s.setPav p v).ports = s.ports := rfl
@[simp] theorem State.setPav_mgmt (s : State) (p : Pav) (v : Pavilion) : (s.setPav p v).mgmt = s.mgmt := rfl
@[simp] theorem State.setPav_jtag (s : State) (p : Pav) (v : Pavilion) : (s.setPav p v).jtag = s.jtag := rfl
@[simp] theorem State.setPav_therm (s : State) (p : Pav) (v : Pavilion) : (s.setPav p v).therm = s.therm := rfl
@[simp] theorem State.setPav_dev (s : State) (p : Pav) (v : Pavilion) : (s.setPav p v).dev = s.dev := rfl
@[simp] theorem State.setPav_out (s : State) (p : Pav) (v : Pavilion) : (s.setPav p v).out = s.out := rfl
@[simp] theorem State.setPav_fresh (s : State) (p : Pav) (v : Pavilion) : (s.setPav p v).fresh = s.fresh := rfl
@[simp] theorem State.setPav_pending (s : State) (p : Pav) (v : Pavilion) : (s.setPav p v).pending = s.pending := rfl

@[simp] theorem State.setQos_cmap (s : State) (c : ClassId) (q : Qos) : (s.setQos c q).cmap = s.cmap := rfl
@[simp] theorem State.setQos_qz (s : State) (c : ClassId) (q : Qos) : (s.setQos c q).qz = s.qz := rfl
@[simp] theorem State.setQos_cores (s : State) (c : ClassId) (q : Qos) : (s.setQos c q).cores = s.cores := rfl
@[simp] theorem State.setQos_fab (s : State) (c : ClassId) (q : Qos) : (s.setQos c q).fab = s.fab := rfl
@[simp] theorem State.setQos_dram (s : State) (c : ClassId) (q : Qos) : (s.setQos c q).dram = s.dram := rfl
@[simp] theorem State.setQos_pavs (s : State) (c : ClassId) (q : Qos) : (s.setQos c q).pavs = s.pavs := rfl
@[simp] theorem State.setQos_arb (s : State) (c : ClassId) (q : Qos) : (s.setQos c q).arb = s.arb := rfl
@[simp] theorem State.setQos_gate (s : State) (c : ClassId) (q : Qos) : (s.setQos c q).gate = s.gate := rfl
@[simp] theorem State.setQos_flash (s : State) (c : ClassId) (q : Qos) : (s.setQos c q).flash = s.flash := rfl
@[simp] theorem State.setQos_timers (s : State) (c : ClassId) (q : Qos) : (s.setQos c q).timers = s.timers := rfl
@[simp] theorem State.setQos_uncore (s : State) (c : ClassId) (q : Qos) : (s.setQos c q).uncore = s.uncore := rfl
@[simp] theorem State.setQos_funnel (s : State) (c : ClassId) (q : Qos) : (s.setQos c q).funnel = s.funnel := rfl
@[simp] theorem State.setQos_ports (s : State) (c : ClassId) (q : Qos) : (s.setQos c q).ports = s.ports := rfl
@[simp] theorem State.setQos_mgmt (s : State) (c : ClassId) (q : Qos) : (s.setQos c q).mgmt = s.mgmt := rfl
@[simp] theorem State.setQos_jtag (s : State) (c : ClassId) (q : Qos) : (s.setQos c q).jtag = s.jtag := rfl
@[simp] theorem State.setQos_therm (s : State) (c : ClassId) (q : Qos) : (s.setQos c q).therm = s.therm := rfl
@[simp] theorem State.setQos_dev (s : State) (c : ClassId) (q : Qos) : (s.setQos c q).dev = s.dev := rfl
@[simp] theorem State.setQos_out (s : State) (c : ClassId) (q : Qos) : (s.setQos c q).out = s.out := rfl
@[simp] theorem State.setQos_fresh (s : State) (c : ClassId) (q : Qos) : (s.setQos c q).fresh = s.fresh := rfl
@[simp] theorem State.setQos_pending (s : State) (c : ClassId) (q : Qos) : (s.setQos c q).pending = s.pending := rfl

@[simp] theorem State.setSes_cmap (s : State) (n : Ses) (v : Session) : (s.setSes n v).cmap = s.cmap := rfl
@[simp] theorem State.setSes_qz (s : State) (n : Ses) (v : Session) : (s.setSes n v).qz = s.qz := rfl
@[simp] theorem State.setSes_cores (s : State) (n : Ses) (v : Session) : (s.setSes n v).cores = s.cores := rfl
@[simp] theorem State.setSes_fab (s : State) (n : Ses) (v : Session) : (s.setSes n v).fab = s.fab := rfl
@[simp] theorem State.setSes_dram (s : State) (n : Ses) (v : Session) : (s.setSes n v).dram = s.dram := rfl
@[simp] theorem State.setSes_pavs (s : State) (n : Ses) (v : Session) : (s.setSes n v).pavs = s.pavs := rfl
@[simp] theorem State.setSes_qos (s : State) (n : Ses) (v : Session) : (s.setSes n v).qos = s.qos := rfl
@[simp] theorem State.setSes_gate (s : State) (n : Ses) (v : Session) : (s.setSes n v).gate = s.gate := rfl
@[simp] theorem State.setSes_flash (s : State) (n : Ses) (v : Session) : (s.setSes n v).flash = s.flash := rfl
@[simp] theorem State.setSes_timers (s : State) (n : Ses) (v : Session) : (s.setSes n v).timers = s.timers := rfl
@[simp] theorem State.setSes_uncore (s : State) (n : Ses) (v : Session) : (s.setSes n v).uncore = s.uncore := rfl
@[simp] theorem State.setSes_funnel (s : State) (n : Ses) (v : Session) : (s.setSes n v).funnel = s.funnel := rfl
@[simp] theorem State.setSes_ports (s : State) (n : Ses) (v : Session) : (s.setSes n v).ports = s.ports := rfl
@[simp] theorem State.setSes_mgmt (s : State) (n : Ses) (v : Session) : (s.setSes n v).mgmt = s.mgmt := rfl
@[simp] theorem State.setSes_jtag (s : State) (n : Ses) (v : Session) : (s.setSes n v).jtag = s.jtag := rfl
@[simp] theorem State.setSes_therm (s : State) (n : Ses) (v : Session) : (s.setSes n v).therm = s.therm := rfl
@[simp] theorem State.setSes_dev (s : State) (n : Ses) (v : Session) : (s.setSes n v).dev = s.dev := rfl
@[simp] theorem State.setSes_out (s : State) (n : Ses) (v : Session) : (s.setSes n v).out = s.out := rfl
@[simp] theorem State.setSes_fresh (s : State) (n : Ses) (v : Session) : (s.setSes n v).fresh = s.fresh := rfl
@[simp] theorem State.setSes_pending (s : State) (n : Ses) (v : Session) : (s.setSes n v).pending = s.pending := rfl

@[simp] theorem State.setLane_cmap (s : State) (n : LaneNo) (v : Lane) : (s.setLane n v).cmap = s.cmap := rfl
@[simp] theorem State.setLane_qz (s : State) (n : LaneNo) (v : Lane) : (s.setLane n v).qz = s.qz := rfl
@[simp] theorem State.setLane_cores (s : State) (n : LaneNo) (v : Lane) : (s.setLane n v).cores = s.cores := rfl
@[simp] theorem State.setLane_fab (s : State) (n : LaneNo) (v : Lane) : (s.setLane n v).fab = s.fab := rfl
@[simp] theorem State.setLane_dram (s : State) (n : LaneNo) (v : Lane) : (s.setLane n v).dram = s.dram := rfl
@[simp] theorem State.setLane_pavs (s : State) (n : LaneNo) (v : Lane) : (s.setLane n v).pavs = s.pavs := rfl
@[simp] theorem State.setLane_qos (s : State) (n : LaneNo) (v : Lane) : (s.setLane n v).qos = s.qos := rfl
@[simp] theorem State.setLane_arb (s : State) (n : LaneNo) (v : Lane) : (s.setLane n v).arb = s.arb := rfl
@[simp] theorem State.setLane_flash (s : State) (n : LaneNo) (v : Lane) : (s.setLane n v).flash = s.flash := rfl
@[simp] theorem State.setLane_timers (s : State) (n : LaneNo) (v : Lane) : (s.setLane n v).timers = s.timers := rfl
@[simp] theorem State.setLane_uncore (s : State) (n : LaneNo) (v : Lane) : (s.setLane n v).uncore = s.uncore := rfl
@[simp] theorem State.setLane_funnel (s : State) (n : LaneNo) (v : Lane) : (s.setLane n v).funnel = s.funnel := rfl
@[simp] theorem State.setLane_ports (s : State) (n : LaneNo) (v : Lane) : (s.setLane n v).ports = s.ports := rfl
@[simp] theorem State.setLane_mgmt (s : State) (n : LaneNo) (v : Lane) : (s.setLane n v).mgmt = s.mgmt := rfl
@[simp] theorem State.setLane_jtag (s : State) (n : LaneNo) (v : Lane) : (s.setLane n v).jtag = s.jtag := rfl
@[simp] theorem State.setLane_therm (s : State) (n : LaneNo) (v : Lane) : (s.setLane n v).therm = s.therm := rfl
@[simp] theorem State.setLane_dev (s : State) (n : LaneNo) (v : Lane) : (s.setLane n v).dev = s.dev := rfl
@[simp] theorem State.setLane_out (s : State) (n : LaneNo) (v : Lane) : (s.setLane n v).out = s.out := rfl
@[simp] theorem State.setLane_fresh (s : State) (n : LaneNo) (v : Lane) : (s.setLane n v).fresh = s.fresh := rfl
@[simp] theorem State.setLane_pending (s : State) (n : LaneNo) (v : Lane) : (s.setLane n v).pending = s.pending := rfl

@[simp] theorem State.setTimer_cmap (s : State) (n : TmrNo) (v : Timer) : (s.setTimer n v).cmap = s.cmap := rfl
@[simp] theorem State.setTimer_qz (s : State) (n : TmrNo) (v : Timer) : (s.setTimer n v).qz = s.qz := rfl
@[simp] theorem State.setTimer_cores (s : State) (n : TmrNo) (v : Timer) : (s.setTimer n v).cores = s.cores := rfl
@[simp] theorem State.setTimer_fab (s : State) (n : TmrNo) (v : Timer) : (s.setTimer n v).fab = s.fab := rfl
@[simp] theorem State.setTimer_dram (s : State) (n : TmrNo) (v : Timer) : (s.setTimer n v).dram = s.dram := rfl
@[simp] theorem State.setTimer_pavs (s : State) (n : TmrNo) (v : Timer) : (s.setTimer n v).pavs = s.pavs := rfl
@[simp] theorem State.setTimer_qos (s : State) (n : TmrNo) (v : Timer) : (s.setTimer n v).qos = s.qos := rfl
@[simp] theorem State.setTimer_arb (s : State) (n : TmrNo) (v : Timer) : (s.setTimer n v).arb = s.arb := rfl
@[simp] theorem State.setTimer_gate (s : State) (n : TmrNo) (v : Timer) : (s.setTimer n v).gate = s.gate := rfl
@[simp] theorem State.setTimer_flash (s : State) (n : TmrNo) (v : Timer) : (s.setTimer n v).flash = s.flash := rfl
@[simp] theorem State.setTimer_uncore (s : State) (n : TmrNo) (v : Timer) : (s.setTimer n v).uncore = s.uncore := rfl
@[simp] theorem State.setTimer_funnel (s : State) (n : TmrNo) (v : Timer) : (s.setTimer n v).funnel = s.funnel := rfl
@[simp] theorem State.setTimer_ports (s : State) (n : TmrNo) (v : Timer) : (s.setTimer n v).ports = s.ports := rfl
@[simp] theorem State.setTimer_mgmt (s : State) (n : TmrNo) (v : Timer) : (s.setTimer n v).mgmt = s.mgmt := rfl
@[simp] theorem State.setTimer_jtag (s : State) (n : TmrNo) (v : Timer) : (s.setTimer n v).jtag = s.jtag := rfl
@[simp] theorem State.setTimer_therm (s : State) (n : TmrNo) (v : Timer) : (s.setTimer n v).therm = s.therm := rfl
@[simp] theorem State.setTimer_dev (s : State) (n : TmrNo) (v : Timer) : (s.setTimer n v).dev = s.dev := rfl
@[simp] theorem State.setTimer_out (s : State) (n : TmrNo) (v : Timer) : (s.setTimer n v).out = s.out := rfl
@[simp] theorem State.setTimer_fresh (s : State) (n : TmrNo) (v : Timer) : (s.setTimer n v).fresh = s.fresh := rfl
@[simp] theorem State.setTimer_pending (s : State) (n : TmrNo) (v : Timer) : (s.setTimer n v).pending = s.pending := rfl

@[simp] theorem State.setPort_cmap (s : State) (p : Bool) (v : PciePort) : (s.setPort p v).cmap = s.cmap := rfl
@[simp] theorem State.setPort_qz (s : State) (p : Bool) (v : PciePort) : (s.setPort p v).qz = s.qz := rfl
@[simp] theorem State.setPort_cores (s : State) (p : Bool) (v : PciePort) : (s.setPort p v).cores = s.cores := rfl
@[simp] theorem State.setPort_fab (s : State) (p : Bool) (v : PciePort) : (s.setPort p v).fab = s.fab := rfl
@[simp] theorem State.setPort_dram (s : State) (p : Bool) (v : PciePort) : (s.setPort p v).dram = s.dram := rfl
@[simp] theorem State.setPort_pavs (s : State) (p : Bool) (v : PciePort) : (s.setPort p v).pavs = s.pavs := rfl
@[simp] theorem State.setPort_qos (s : State) (p : Bool) (v : PciePort) : (s.setPort p v).qos = s.qos := rfl
@[simp] theorem State.setPort_arb (s : State) (p : Bool) (v : PciePort) : (s.setPort p v).arb = s.arb := rfl
@[simp] theorem State.setPort_gate (s : State) (p : Bool) (v : PciePort) : (s.setPort p v).gate = s.gate := rfl
@[simp] theorem State.setPort_flash (s : State) (p : Bool) (v : PciePort) : (s.setPort p v).flash = s.flash := rfl
@[simp] theorem State.setPort_timers (s : State) (p : Bool) (v : PciePort) : (s.setPort p v).timers = s.timers := rfl
@[simp] theorem State.setPort_uncore (s : State) (p : Bool) (v : PciePort) : (s.setPort p v).uncore = s.uncore := rfl
@[simp] theorem State.setPort_funnel (s : State) (p : Bool) (v : PciePort) : (s.setPort p v).funnel = s.funnel := rfl
@[simp] theorem State.setPort_mgmt (s : State) (p : Bool) (v : PciePort) : (s.setPort p v).mgmt = s.mgmt := rfl
@[simp] theorem State.setPort_jtag (s : State) (p : Bool) (v : PciePort) : (s.setPort p v).jtag = s.jtag := rfl
@[simp] theorem State.setPort_therm (s : State) (p : Bool) (v : PciePort) : (s.setPort p v).therm = s.therm := rfl
@[simp] theorem State.setPort_dev (s : State) (p : Bool) (v : PciePort) : (s.setPort p v).dev = s.dev := rfl
@[simp] theorem State.setPort_out (s : State) (p : Bool) (v : PciePort) : (s.setPort p v).out = s.out := rfl
@[simp] theorem State.setPort_fresh (s : State) (p : Bool) (v : PciePort) : (s.setPort p v).fresh = s.fresh := rfl
@[simp] theorem State.setPort_pending (s : State) (p : Bool) (v : PciePort) : (s.setPort p v).pending = s.pending := rfl

@[simp] theorem State.setCluster_cmap (s : State) (k : Nat) (v : Cluster) : (s.setCluster k v).cmap = s.cmap := rfl
@[simp] theorem State.setCluster_qz (s : State) (k : Nat) (v : Cluster) : (s.setCluster k v).qz = s.qz := rfl
@[simp] theorem State.setCluster_cores (s : State) (k : Nat) (v : Cluster) : (s.setCluster k v).cores = s.cores := rfl
@[simp] theorem State.setCluster_dram (s : State) (k : Nat) (v : Cluster) : (s.setCluster k v).dram = s.dram := rfl
@[simp] theorem State.setCluster_pavs (s : State) (k : Nat) (v : Cluster) : (s.setCluster k v).pavs = s.pavs := rfl
@[simp] theorem State.setCluster_qos (s : State) (k : Nat) (v : Cluster) : (s.setCluster k v).qos = s.qos := rfl
@[simp] theorem State.setCluster_arb (s : State) (k : Nat) (v : Cluster) : (s.setCluster k v).arb = s.arb := rfl
@[simp] theorem State.setCluster_gate (s : State) (k : Nat) (v : Cluster) : (s.setCluster k v).gate = s.gate := rfl
@[simp] theorem State.setCluster_flash (s : State) (k : Nat) (v : Cluster) : (s.setCluster k v).flash = s.flash := rfl
@[simp] theorem State.setCluster_timers (s : State) (k : Nat) (v : Cluster) : (s.setCluster k v).timers = s.timers := rfl
@[simp] theorem State.setCluster_uncore (s : State) (k : Nat) (v : Cluster) : (s.setCluster k v).uncore = s.uncore := rfl
@[simp] theorem State.setCluster_funnel (s : State) (k : Nat) (v : Cluster) : (s.setCluster k v).funnel = s.funnel := rfl
@[simp] theorem State.setCluster_ports (s : State) (k : Nat) (v : Cluster) : (s.setCluster k v).ports = s.ports := rfl
@[simp] theorem State.setCluster_mgmt (s : State) (k : Nat) (v : Cluster) : (s.setCluster k v).mgmt = s.mgmt := rfl
@[simp] theorem State.setCluster_jtag (s : State) (k : Nat) (v : Cluster) : (s.setCluster k v).jtag = s.jtag := rfl
@[simp] theorem State.setCluster_therm (s : State) (k : Nat) (v : Cluster) : (s.setCluster k v).therm = s.therm := rfl
@[simp] theorem State.setCluster_dev (s : State) (k : Nat) (v : Cluster) : (s.setCluster k v).dev = s.dev := rfl
@[simp] theorem State.setCluster_out (s : State) (k : Nat) (v : Cluster) : (s.setCluster k v).out = s.out := rfl
@[simp] theorem State.setCluster_fresh (s : State) (k : Nat) (v : Cluster) : (s.setCluster k v).fresh = s.fresh := rfl
@[simp] theorem State.setCluster_pending (s : State) (k : Nat) (v : Cluster) : (s.setCluster k v).pending = s.pending := rfl

@[simp] theorem State.setHome_cmap (s : State) (k : Nat) (v : Home) : (s.setHome k v).cmap = s.cmap := rfl
@[simp] theorem State.setHome_qz (s : State) (k : Nat) (v : Home) : (s.setHome k v).qz = s.qz := rfl
@[simp] theorem State.setHome_cores (s : State) (k : Nat) (v : Home) : (s.setHome k v).cores = s.cores := rfl
@[simp] theorem State.setHome_dram (s : State) (k : Nat) (v : Home) : (s.setHome k v).dram = s.dram := rfl
@[simp] theorem State.setHome_pavs (s : State) (k : Nat) (v : Home) : (s.setHome k v).pavs = s.pavs := rfl
@[simp] theorem State.setHome_qos (s : State) (k : Nat) (v : Home) : (s.setHome k v).qos = s.qos := rfl
@[simp] theorem State.setHome_arb (s : State) (k : Nat) (v : Home) : (s.setHome k v).arb = s.arb := rfl
@[simp] theorem State.setHome_gate (s : State) (k : Nat) (v : Home) : (s.setHome k v).gate = s.gate := rfl
@[simp] theorem State.setHome_flash (s : State) (k : Nat) (v : Home) : (s.setHome k v).flash = s.flash := rfl
@[simp] theorem State.setHome_timers (s : State) (k : Nat) (v : Home) : (s.setHome k v).timers = s.timers := rfl
@[simp] theorem State.setHome_uncore (s : State) (k : Nat) (v : Home) : (s.setHome k v).uncore = s.uncore := rfl
@[simp] theorem State.setHome_funnel (s : State) (k : Nat) (v : Home) : (s.setHome k v).funnel = s.funnel := rfl
@[simp] theorem State.setHome_ports (s : State) (k : Nat) (v : Home) : (s.setHome k v).ports = s.ports := rfl
@[simp] theorem State.setHome_mgmt (s : State) (k : Nat) (v : Home) : (s.setHome k v).mgmt = s.mgmt := rfl
@[simp] theorem State.setHome_jtag (s : State) (k : Nat) (v : Home) : (s.setHome k v).jtag = s.jtag := rfl
@[simp] theorem State.setHome_therm (s : State) (k : Nat) (v : Home) : (s.setHome k v).therm = s.therm := rfl
@[simp] theorem State.setHome_dev (s : State) (k : Nat) (v : Home) : (s.setHome k v).dev = s.dev := rfl
@[simp] theorem State.setHome_out (s : State) (k : Nat) (v : Home) : (s.setHome k v).out = s.out := rfl
@[simp] theorem State.setHome_fresh (s : State) (k : Nat) (v : Home) : (s.setHome k v).fresh = s.fresh := rfl
@[simp] theorem State.setHome_pending (s : State) (k : Nat) (v : Home) : (s.setHome k v).pending = s.pending := rfl

@[simp] theorem State.reach_cmap (s : State) (t : Nat) : (s.reach t).cmap = s.cmap := rfl
@[simp] theorem State.reach_cores (s : State) (t : Nat) : (s.reach t).cores = s.cores := rfl
@[simp] theorem State.reach_fab (s : State) (t : Nat) : (s.reach t).fab = s.fab := rfl
@[simp] theorem State.reach_dram (s : State) (t : Nat) : (s.reach t).dram = s.dram := rfl
@[simp] theorem State.reach_pavs (s : State) (t : Nat) : (s.reach t).pavs = s.pavs := rfl
@[simp] theorem State.reach_qos (s : State) (t : Nat) : (s.reach t).qos = s.qos := rfl
@[simp] theorem State.reach_arb (s : State) (t : Nat) : (s.reach t).arb = s.arb := rfl
@[simp] theorem State.reach_gate (s : State) (t : Nat) : (s.reach t).gate = s.gate := rfl
@[simp] theorem State.reach_flash (s : State) (t : Nat) : (s.reach t).flash = s.flash := rfl
@[simp] theorem State.reach_timers (s : State) (t : Nat) : (s.reach t).timers = s.timers := rfl
@[simp] theorem State.reach_uncore (s : State) (t : Nat) : (s.reach t).uncore = s.uncore := rfl
@[simp] theorem State.reach_funnel (s : State) (t : Nat) : (s.reach t).funnel = s.funnel := rfl
@[simp] theorem State.reach_ports (s : State) (t : Nat) : (s.reach t).ports = s.ports := rfl
@[simp] theorem State.reach_mgmt (s : State) (t : Nat) : (s.reach t).mgmt = s.mgmt := rfl
@[simp] theorem State.reach_jtag (s : State) (t : Nat) : (s.reach t).jtag = s.jtag := rfl
@[simp] theorem State.reach_therm (s : State) (t : Nat) : (s.reach t).therm = s.therm := rfl
@[simp] theorem State.reach_dev (s : State) (t : Nat) : (s.reach t).dev = s.dev := rfl
@[simp] theorem State.reach_out (s : State) (t : Nat) : (s.reach t).out = s.out := rfl
@[simp] theorem State.reach_fresh (s : State) (t : Nat) : (s.reach t).fresh = s.fresh := rfl
@[simp] theorem State.reach_pending (s : State) (t : Nat) : (s.reach t).pending = s.pending := rfl

@[simp] theorem State.answer_cmap (s : State) (v : W64) : (s.answer v).cmap = s.cmap := rfl
@[simp] theorem State.answer_qz (s : State) (v : W64) : (s.answer v).qz = s.qz := rfl
@[simp] theorem State.answer_cores (s : State) (v : W64) : (s.answer v).cores = s.cores := rfl
@[simp] theorem State.answer_fab (s : State) (v : W64) : (s.answer v).fab = s.fab := rfl
@[simp] theorem State.answer_dram (s : State) (v : W64) : (s.answer v).dram = s.dram := rfl
@[simp] theorem State.answer_pavs (s : State) (v : W64) : (s.answer v).pavs = s.pavs := rfl
@[simp] theorem State.answer_qos (s : State) (v : W64) : (s.answer v).qos = s.qos := rfl
@[simp] theorem State.answer_arb (s : State) (v : W64) : (s.answer v).arb = s.arb := rfl
@[simp] theorem State.answer_gate (s : State) (v : W64) : (s.answer v).gate = s.gate := rfl
@[simp] theorem State.answer_flash (s : State) (v : W64) : (s.answer v).flash = s.flash := rfl
@[simp] theorem State.answer_timers (s : State) (v : W64) : (s.answer v).timers = s.timers := rfl
@[simp] theorem State.answer_uncore (s : State) (v : W64) : (s.answer v).uncore = s.uncore := rfl
@[simp] theorem State.answer_funnel (s : State) (v : W64) : (s.answer v).funnel = s.funnel := rfl
@[simp] theorem State.answer_ports (s : State) (v : W64) : (s.answer v).ports = s.ports := rfl
@[simp] theorem State.answer_mgmt (s : State) (v : W64) : (s.answer v).mgmt = s.mgmt := rfl
@[simp] theorem State.answer_jtag (s : State) (v : W64) : (s.answer v).jtag = s.jtag := rfl
@[simp] theorem State.answer_therm (s : State) (v : W64) : (s.answer v).therm = s.therm := rfl
@[simp] theorem State.answer_dev (s : State) (v : W64) : (s.answer v).dev = s.dev := rfl
@[simp] theorem State.answer_fresh (s : State) (v : W64) : (s.answer v).fresh = s.fresh := rfl
@[simp] theorem State.answer_pending (s : State) (v : W64) : (s.answer v).pending = s.pending := rfl

@[simp] theorem State.setMode_cmap (s : State) (m : Mode) : (s.setMode m).cmap = s.cmap := rfl
@[simp] theorem State.setMode_qz (s : State) (m : Mode) : (s.setMode m).qz = s.qz := rfl
@[simp] theorem State.setMode_cores (s : State) (m : Mode) : (s.setMode m).cores = s.cores := rfl
@[simp] theorem State.setMode_fab (s : State) (m : Mode) : (s.setMode m).fab = s.fab := rfl
@[simp] theorem State.setMode_dram (s : State) (m : Mode) : (s.setMode m).dram = s.dram := rfl
@[simp] theorem State.setMode_pavs (s : State) (m : Mode) : (s.setMode m).pavs = s.pavs := rfl
@[simp] theorem State.setMode_qos (s : State) (m : Mode) : (s.setMode m).qos = s.qos := rfl
@[simp] theorem State.setMode_arb (s : State) (m : Mode) : (s.setMode m).arb = s.arb := rfl
@[simp] theorem State.setMode_gate (s : State) (m : Mode) : (s.setMode m).gate = s.gate := rfl
@[simp] theorem State.setMode_flash (s : State) (m : Mode) : (s.setMode m).flash = s.flash := rfl
@[simp] theorem State.setMode_timers (s : State) (m : Mode) : (s.setMode m).timers = s.timers := rfl
@[simp] theorem State.setMode_uncore (s : State) (m : Mode) : (s.setMode m).uncore = s.uncore := rfl
@[simp] theorem State.setMode_funnel (s : State) (m : Mode) : (s.setMode m).funnel = s.funnel := rfl
@[simp] theorem State.setMode_ports (s : State) (m : Mode) : (s.setMode m).ports = s.ports := rfl
@[simp] theorem State.setMode_mgmt (s : State) (m : Mode) : (s.setMode m).mgmt = s.mgmt := rfl
@[simp] theorem State.setMode_jtag (s : State) (m : Mode) : (s.setMode m).jtag = s.jtag := rfl
@[simp] theorem State.setMode_therm (s : State) (m : Mode) : (s.setMode m).therm = s.therm := rfl
@[simp] theorem State.setMode_out (s : State) (m : Mode) : (s.setMode m).out = s.out := rfl
@[simp] theorem State.setMode_fresh (s : State) (m : Mode) : (s.setMode m).fresh = s.fresh := rfl
@[simp] theorem State.setMode_pending (s : State) (m : Mode) : (s.setMode m).pending = s.pending := rfl

@[simp] theorem State.setL2_cmap (s : State) (k : Nat) (l : LineNo) (v : Option L2Line) : (s.setL2 k l v).cmap = s.cmap := rfl
@[simp] theorem State.setL2_qz (s : State) (k : Nat) (l : LineNo) (v : Option L2Line) : (s.setL2 k l v).qz = s.qz := rfl
@[simp] theorem State.setL2_cores (s : State) (k : Nat) (l : LineNo) (v : Option L2Line) : (s.setL2 k l v).cores = s.cores := rfl
@[simp] theorem State.setL2_dram (s : State) (k : Nat) (l : LineNo) (v : Option L2Line) : (s.setL2 k l v).dram = s.dram := rfl
@[simp] theorem State.setL2_pavs (s : State) (k : Nat) (l : LineNo) (v : Option L2Line) : (s.setL2 k l v).pavs = s.pavs := rfl
@[simp] theorem State.setL2_qos (s : State) (k : Nat) (l : LineNo) (v : Option L2Line) : (s.setL2 k l v).qos = s.qos := rfl
@[simp] theorem State.setL2_arb (s : State) (k : Nat) (l : LineNo) (v : Option L2Line) : (s.setL2 k l v).arb = s.arb := rfl
@[simp] theorem State.setL2_gate (s : State) (k : Nat) (l : LineNo) (v : Option L2Line) : (s.setL2 k l v).gate = s.gate := rfl
@[simp] theorem State.setL2_flash (s : State) (k : Nat) (l : LineNo) (v : Option L2Line) : (s.setL2 k l v).flash = s.flash := rfl
@[simp] theorem State.setL2_timers (s : State) (k : Nat) (l : LineNo) (v : Option L2Line) : (s.setL2 k l v).timers = s.timers := rfl
@[simp] theorem State.setL2_uncore (s : State) (k : Nat) (l : LineNo) (v : Option L2Line) : (s.setL2 k l v).uncore = s.uncore := rfl
@[simp] theorem State.setL2_funnel (s : State) (k : Nat) (l : LineNo) (v : Option L2Line) : (s.setL2 k l v).funnel = s.funnel := rfl
@[simp] theorem State.setL2_ports (s : State) (k : Nat) (l : LineNo) (v : Option L2Line) : (s.setL2 k l v).ports = s.ports := rfl
@[simp] theorem State.setL2_mgmt (s : State) (k : Nat) (l : LineNo) (v : Option L2Line) : (s.setL2 k l v).mgmt = s.mgmt := rfl
@[simp] theorem State.setL2_jtag (s : State) (k : Nat) (l : LineNo) (v : Option L2Line) : (s.setL2 k l v).jtag = s.jtag := rfl
@[simp] theorem State.setL2_therm (s : State) (k : Nat) (l : LineNo) (v : Option L2Line) : (s.setL2 k l v).therm = s.therm := rfl
@[simp] theorem State.setL2_dev (s : State) (k : Nat) (l : LineNo) (v : Option L2Line) : (s.setL2 k l v).dev = s.dev := rfl
@[simp] theorem State.setL2_out (s : State) (k : Nat) (l : LineNo) (v : Option L2Line) : (s.setL2 k l v).out = s.out := rfl
@[simp] theorem State.setL2_fresh (s : State) (k : Nat) (l : LineNo) (v : Option L2Line) : (s.setL2 k l v).fresh = s.fresh := rfl
@[simp] theorem State.setL2_pending (s : State) (k : Nat) (l : LineNo) (v : Option L2Line) : (s.setL2 k l v).pending = s.pending := rfl

@[simp] theorem State.setMshr_cmap (s : State) (k : Nat) (l : LineNo) (v : Option Mshr) : (s.setMshr k l v).cmap = s.cmap := rfl
@[simp] theorem State.setMshr_qz (s : State) (k : Nat) (l : LineNo) (v : Option Mshr) : (s.setMshr k l v).qz = s.qz := rfl
@[simp] theorem State.setMshr_cores (s : State) (k : Nat) (l : LineNo) (v : Option Mshr) : (s.setMshr k l v).cores = s.cores := rfl
@[simp] theorem State.setMshr_dram (s : State) (k : Nat) (l : LineNo) (v : Option Mshr) : (s.setMshr k l v).dram = s.dram := rfl
@[simp] theorem State.setMshr_pavs (s : State) (k : Nat) (l : LineNo) (v : Option Mshr) : (s.setMshr k l v).pavs = s.pavs := rfl
@[simp] theorem State.setMshr_qos (s : State) (k : Nat) (l : LineNo) (v : Option Mshr) : (s.setMshr k l v).qos = s.qos := rfl
@[simp] theorem State.setMshr_arb (s : State) (k : Nat) (l : LineNo) (v : Option Mshr) : (s.setMshr k l v).arb = s.arb := rfl
@[simp] theorem State.setMshr_gate (s : State) (k : Nat) (l : LineNo) (v : Option Mshr) : (s.setMshr k l v).gate = s.gate := rfl
@[simp] theorem State.setMshr_flash (s : State) (k : Nat) (l : LineNo) (v : Option Mshr) : (s.setMshr k l v).flash = s.flash := rfl
@[simp] theorem State.setMshr_timers (s : State) (k : Nat) (l : LineNo) (v : Option Mshr) : (s.setMshr k l v).timers = s.timers := rfl
@[simp] theorem State.setMshr_uncore (s : State) (k : Nat) (l : LineNo) (v : Option Mshr) : (s.setMshr k l v).uncore = s.uncore := rfl
@[simp] theorem State.setMshr_funnel (s : State) (k : Nat) (l : LineNo) (v : Option Mshr) : (s.setMshr k l v).funnel = s.funnel := rfl
@[simp] theorem State.setMshr_ports (s : State) (k : Nat) (l : LineNo) (v : Option Mshr) : (s.setMshr k l v).ports = s.ports := rfl
@[simp] theorem State.setMshr_mgmt (s : State) (k : Nat) (l : LineNo) (v : Option Mshr) : (s.setMshr k l v).mgmt = s.mgmt := rfl
@[simp] theorem State.setMshr_jtag (s : State) (k : Nat) (l : LineNo) (v : Option Mshr) : (s.setMshr k l v).jtag = s.jtag := rfl
@[simp] theorem State.setMshr_therm (s : State) (k : Nat) (l : LineNo) (v : Option Mshr) : (s.setMshr k l v).therm = s.therm := rfl
@[simp] theorem State.setMshr_dev (s : State) (k : Nat) (l : LineNo) (v : Option Mshr) : (s.setMshr k l v).dev = s.dev := rfl
@[simp] theorem State.setMshr_out (s : State) (k : Nat) (l : LineNo) (v : Option Mshr) : (s.setMshr k l v).out = s.out := rfl
@[simp] theorem State.setMshr_fresh (s : State) (k : Nat) (l : LineNo) (v : Option Mshr) : (s.setMshr k l v).fresh = s.fresh := rfl
@[simp] theorem State.setMshr_pending (s : State) (k : Nat) (l : LineNo) (v : Option Mshr) : (s.setMshr k l v).pending = s.pending := rfl

@[simp] theorem State.setTxn_cmap (s : State) (k : Nat) (l : LineNo) (v : Option Txn) : (s.setTxn k l v).cmap = s.cmap := rfl
@[simp] theorem State.setTxn_qz (s : State) (k : Nat) (l : LineNo) (v : Option Txn) : (s.setTxn k l v).qz = s.qz := rfl
@[simp] theorem State.setTxn_cores (s : State) (k : Nat) (l : LineNo) (v : Option Txn) : (s.setTxn k l v).cores = s.cores := rfl
@[simp] theorem State.setTxn_dram (s : State) (k : Nat) (l : LineNo) (v : Option Txn) : (s.setTxn k l v).dram = s.dram := rfl
@[simp] theorem State.setTxn_pavs (s : State) (k : Nat) (l : LineNo) (v : Option Txn) : (s.setTxn k l v).pavs = s.pavs := rfl
@[simp] theorem State.setTxn_qos (s : State) (k : Nat) (l : LineNo) (v : Option Txn) : (s.setTxn k l v).qos = s.qos := rfl
@[simp] theorem State.setTxn_arb (s : State) (k : Nat) (l : LineNo) (v : Option Txn) : (s.setTxn k l v).arb = s.arb := rfl
@[simp] theorem State.setTxn_gate (s : State) (k : Nat) (l : LineNo) (v : Option Txn) : (s.setTxn k l v).gate = s.gate := rfl
@[simp] theorem State.setTxn_flash (s : State) (k : Nat) (l : LineNo) (v : Option Txn) : (s.setTxn k l v).flash = s.flash := rfl
@[simp] theorem State.setTxn_timers (s : State) (k : Nat) (l : LineNo) (v : Option Txn) : (s.setTxn k l v).timers = s.timers := rfl
@[simp] theorem State.setTxn_uncore (s : State) (k : Nat) (l : LineNo) (v : Option Txn) : (s.setTxn k l v).uncore = s.uncore := rfl
@[simp] theorem State.setTxn_funnel (s : State) (k : Nat) (l : LineNo) (v : Option Txn) : (s.setTxn k l v).funnel = s.funnel := rfl
@[simp] theorem State.setTxn_ports (s : State) (k : Nat) (l : LineNo) (v : Option Txn) : (s.setTxn k l v).ports = s.ports := rfl
@[simp] theorem State.setTxn_mgmt (s : State) (k : Nat) (l : LineNo) (v : Option Txn) : (s.setTxn k l v).mgmt = s.mgmt := rfl
@[simp] theorem State.setTxn_jtag (s : State) (k : Nat) (l : LineNo) (v : Option Txn) : (s.setTxn k l v).jtag = s.jtag := rfl
@[simp] theorem State.setTxn_therm (s : State) (k : Nat) (l : LineNo) (v : Option Txn) : (s.setTxn k l v).therm = s.therm := rfl
@[simp] theorem State.setTxn_dev (s : State) (k : Nat) (l : LineNo) (v : Option Txn) : (s.setTxn k l v).dev = s.dev := rfl
@[simp] theorem State.setTxn_out (s : State) (k : Nat) (l : LineNo) (v : Option Txn) : (s.setTxn k l v).out = s.out := rfl
@[simp] theorem State.setTxn_fresh (s : State) (k : Nat) (l : LineNo) (v : Option Txn) : (s.setTxn k l v).fresh = s.fresh := rfl
@[simp] theorem State.setTxn_pending (s : State) (k : Nat) (l : LineNo) (v : Option Txn) : (s.setTxn k l v).pending = s.pending := rfl

@[simp] theorem State.setDir_cmap (s : State) (k : Nat) (l : LineNo) (v : Option DirEntry) : (s.setDir k l v).cmap = s.cmap := rfl
@[simp] theorem State.setDir_qz (s : State) (k : Nat) (l : LineNo) (v : Option DirEntry) : (s.setDir k l v).qz = s.qz := rfl
@[simp] theorem State.setDir_cores (s : State) (k : Nat) (l : LineNo) (v : Option DirEntry) : (s.setDir k l v).cores = s.cores := rfl
@[simp] theorem State.setDir_dram (s : State) (k : Nat) (l : LineNo) (v : Option DirEntry) : (s.setDir k l v).dram = s.dram := rfl
@[simp] theorem State.setDir_pavs (s : State) (k : Nat) (l : LineNo) (v : Option DirEntry) : (s.setDir k l v).pavs = s.pavs := rfl
@[simp] theorem State.setDir_qos (s : State) (k : Nat) (l : LineNo) (v : Option DirEntry) : (s.setDir k l v).qos = s.qos := rfl
@[simp] theorem State.setDir_arb (s : State) (k : Nat) (l : LineNo) (v : Option DirEntry) : (s.setDir k l v).arb = s.arb := rfl
@[simp] theorem State.setDir_gate (s : State) (k : Nat) (l : LineNo) (v : Option DirEntry) : (s.setDir k l v).gate = s.gate := rfl
@[simp] theorem State.setDir_flash (s : State) (k : Nat) (l : LineNo) (v : Option DirEntry) : (s.setDir k l v).flash = s.flash := rfl
@[simp] theorem State.setDir_timers (s : State) (k : Nat) (l : LineNo) (v : Option DirEntry) : (s.setDir k l v).timers = s.timers := rfl
@[simp] theorem State.setDir_uncore (s : State) (k : Nat) (l : LineNo) (v : Option DirEntry) : (s.setDir k l v).uncore = s.uncore := rfl
@[simp] theorem State.setDir_funnel (s : State) (k : Nat) (l : LineNo) (v : Option DirEntry) : (s.setDir k l v).funnel = s.funnel := rfl
@[simp] theorem State.setDir_ports (s : State) (k : Nat) (l : LineNo) (v : Option DirEntry) : (s.setDir k l v).ports = s.ports := rfl
@[simp] theorem State.setDir_mgmt (s : State) (k : Nat) (l : LineNo) (v : Option DirEntry) : (s.setDir k l v).mgmt = s.mgmt := rfl
@[simp] theorem State.setDir_jtag (s : State) (k : Nat) (l : LineNo) (v : Option DirEntry) : (s.setDir k l v).jtag = s.jtag := rfl
@[simp] theorem State.setDir_therm (s : State) (k : Nat) (l : LineNo) (v : Option DirEntry) : (s.setDir k l v).therm = s.therm := rfl
@[simp] theorem State.setDir_dev (s : State) (k : Nat) (l : LineNo) (v : Option DirEntry) : (s.setDir k l v).dev = s.dev := rfl
@[simp] theorem State.setDir_out (s : State) (k : Nat) (l : LineNo) (v : Option DirEntry) : (s.setDir k l v).out = s.out := rfl
@[simp] theorem State.setDir_fresh (s : State) (k : Nat) (l : LineNo) (v : Option DirEntry) : (s.setDir k l v).fresh = s.fresh := rfl
@[simp] theorem State.setDir_pending (s : State) (k : Nat) (l : LineNo) (v : Option DirEntry) : (s.setDir k l v).pending = s.pending := rfl

@[simp] theorem State.setLink_cmap (s : State) (p : Bool) (l : Nat) (v : PcieLink) : (s.setLink p l v).cmap = s.cmap := rfl
@[simp] theorem State.setLink_qz (s : State) (p : Bool) (l : Nat) (v : PcieLink) : (s.setLink p l v).qz = s.qz := rfl
@[simp] theorem State.setLink_cores (s : State) (p : Bool) (l : Nat) (v : PcieLink) : (s.setLink p l v).cores = s.cores := rfl
@[simp] theorem State.setLink_fab (s : State) (p : Bool) (l : Nat) (v : PcieLink) : (s.setLink p l v).fab = s.fab := rfl
@[simp] theorem State.setLink_dram (s : State) (p : Bool) (l : Nat) (v : PcieLink) : (s.setLink p l v).dram = s.dram := rfl
@[simp] theorem State.setLink_pavs (s : State) (p : Bool) (l : Nat) (v : PcieLink) : (s.setLink p l v).pavs = s.pavs := rfl
@[simp] theorem State.setLink_qos (s : State) (p : Bool) (l : Nat) (v : PcieLink) : (s.setLink p l v).qos = s.qos := rfl
@[simp] theorem State.setLink_arb (s : State) (p : Bool) (l : Nat) (v : PcieLink) : (s.setLink p l v).arb = s.arb := rfl
@[simp] theorem State.setLink_gate (s : State) (p : Bool) (l : Nat) (v : PcieLink) : (s.setLink p l v).gate = s.gate := rfl
@[simp] theorem State.setLink_flash (s : State) (p : Bool) (l : Nat) (v : PcieLink) : (s.setLink p l v).flash = s.flash := rfl
@[simp] theorem State.setLink_timers (s : State) (p : Bool) (l : Nat) (v : PcieLink) : (s.setLink p l v).timers = s.timers := rfl
@[simp] theorem State.setLink_uncore (s : State) (p : Bool) (l : Nat) (v : PcieLink) : (s.setLink p l v).uncore = s.uncore := rfl
@[simp] theorem State.setLink_funnel (s : State) (p : Bool) (l : Nat) (v : PcieLink) : (s.setLink p l v).funnel = s.funnel := rfl
@[simp] theorem State.setLink_mgmt (s : State) (p : Bool) (l : Nat) (v : PcieLink) : (s.setLink p l v).mgmt = s.mgmt := rfl
@[simp] theorem State.setLink_jtag (s : State) (p : Bool) (l : Nat) (v : PcieLink) : (s.setLink p l v).jtag = s.jtag := rfl
@[simp] theorem State.setLink_therm (s : State) (p : Bool) (l : Nat) (v : PcieLink) : (s.setLink p l v).therm = s.therm := rfl
@[simp] theorem State.setLink_dev (s : State) (p : Bool) (l : Nat) (v : PcieLink) : (s.setLink p l v).dev = s.dev := rfl
@[simp] theorem State.setLink_out (s : State) (p : Bool) (l : Nat) (v : PcieLink) : (s.setLink p l v).out = s.out := rfl
@[simp] theorem State.setLink_fresh (s : State) (p : Bool) (l : Nat) (v : PcieLink) : (s.setLink p l v).fresh = s.fresh := rfl
@[simp] theorem State.setLink_pending (s : State) (p : Bool) (l : Nat) (v : PcieLink) : (s.setLink p l v).pending = s.pending := rfl

@[simp] theorem State.setPfn_cmap (s : State) (p : Bool) (l fn : Nat) (v : PcieFn) : (s.setPfn p l fn v).cmap = s.cmap := rfl
@[simp] theorem State.setPfn_qz (s : State) (p : Bool) (l fn : Nat) (v : PcieFn) : (s.setPfn p l fn v).qz = s.qz := rfl
@[simp] theorem State.setPfn_cores (s : State) (p : Bool) (l fn : Nat) (v : PcieFn) : (s.setPfn p l fn v).cores = s.cores := rfl
@[simp] theorem State.setPfn_fab (s : State) (p : Bool) (l fn : Nat) (v : PcieFn) : (s.setPfn p l fn v).fab = s.fab := rfl
@[simp] theorem State.setPfn_dram (s : State) (p : Bool) (l fn : Nat) (v : PcieFn) : (s.setPfn p l fn v).dram = s.dram := rfl
@[simp] theorem State.setPfn_pavs (s : State) (p : Bool) (l fn : Nat) (v : PcieFn) : (s.setPfn p l fn v).pavs = s.pavs := rfl
@[simp] theorem State.setPfn_qos (s : State) (p : Bool) (l fn : Nat) (v : PcieFn) : (s.setPfn p l fn v).qos = s.qos := rfl
@[simp] theorem State.setPfn_arb (s : State) (p : Bool) (l fn : Nat) (v : PcieFn) : (s.setPfn p l fn v).arb = s.arb := rfl
@[simp] theorem State.setPfn_gate (s : State) (p : Bool) (l fn : Nat) (v : PcieFn) : (s.setPfn p l fn v).gate = s.gate := rfl
@[simp] theorem State.setPfn_flash (s : State) (p : Bool) (l fn : Nat) (v : PcieFn) : (s.setPfn p l fn v).flash = s.flash := rfl
@[simp] theorem State.setPfn_timers (s : State) (p : Bool) (l fn : Nat) (v : PcieFn) : (s.setPfn p l fn v).timers = s.timers := rfl
@[simp] theorem State.setPfn_uncore (s : State) (p : Bool) (l fn : Nat) (v : PcieFn) : (s.setPfn p l fn v).uncore = s.uncore := rfl
@[simp] theorem State.setPfn_funnel (s : State) (p : Bool) (l fn : Nat) (v : PcieFn) : (s.setPfn p l fn v).funnel = s.funnel := rfl
@[simp] theorem State.setPfn_mgmt (s : State) (p : Bool) (l fn : Nat) (v : PcieFn) : (s.setPfn p l fn v).mgmt = s.mgmt := rfl
@[simp] theorem State.setPfn_jtag (s : State) (p : Bool) (l fn : Nat) (v : PcieFn) : (s.setPfn p l fn v).jtag = s.jtag := rfl
@[simp] theorem State.setPfn_therm (s : State) (p : Bool) (l fn : Nat) (v : PcieFn) : (s.setPfn p l fn v).therm = s.therm := rfl
@[simp] theorem State.setPfn_dev (s : State) (p : Bool) (l fn : Nat) (v : PcieFn) : (s.setPfn p l fn v).dev = s.dev := rfl
@[simp] theorem State.setPfn_out (s : State) (p : Bool) (l fn : Nat) (v : PcieFn) : (s.setPfn p l fn v).out = s.out := rfl
@[simp] theorem State.setPfn_fresh (s : State) (p : Bool) (l fn : Nat) (v : PcieFn) : (s.setPfn p l fn v).fresh = s.fresh := rfl
@[simp] theorem State.setPfn_pending (s : State) (p : Bool) (l fn : Nat) (v : PcieFn) : (s.setPfn p l fn v).pending = s.pending := rfl

@[simp] theorem State.free_cmap (s : State) : s.free.2.cmap = s.cmap := rfl
@[simp] theorem State.free_qz (s : State) : s.free.2.qz = s.qz := rfl
@[simp] theorem State.free_cores (s : State) : s.free.2.cores = s.cores := rfl
@[simp] theorem State.free_fab (s : State) : s.free.2.fab = s.fab := rfl
@[simp] theorem State.free_dram (s : State) : s.free.2.dram = s.dram := rfl
@[simp] theorem State.free_pavs (s : State) : s.free.2.pavs = s.pavs := rfl
@[simp] theorem State.free_qos (s : State) : s.free.2.qos = s.qos := rfl
@[simp] theorem State.free_arb (s : State) : s.free.2.arb = s.arb := rfl
@[simp] theorem State.free_gate (s : State) : s.free.2.gate = s.gate := rfl
@[simp] theorem State.free_flash (s : State) : s.free.2.flash = s.flash := rfl
@[simp] theorem State.free_timers (s : State) : s.free.2.timers = s.timers := rfl
@[simp] theorem State.free_uncore (s : State) : s.free.2.uncore = s.uncore := rfl
@[simp] theorem State.free_funnel (s : State) : s.free.2.funnel = s.funnel := rfl
@[simp] theorem State.free_ports (s : State) : s.free.2.ports = s.ports := rfl
@[simp] theorem State.free_mgmt (s : State) : s.free.2.mgmt = s.mgmt := rfl
@[simp] theorem State.free_jtag (s : State) : s.free.2.jtag = s.jtag := rfl
@[simp] theorem State.free_therm (s : State) : s.free.2.therm = s.therm := rfl
@[simp] theorem State.free_dev (s : State) : s.free.2.dev = s.dev := rfl
@[simp] theorem State.free_out (s : State) : s.free.2.out = s.out := rfl
@[simp] theorem State.free_pending (s : State) : s.free.2.pending = s.pending := rfl
@[simp] theorem State.free_fresh (s : State) : s.free.2.fresh = s.fresh + 1 := rfl

@[simp] theorem State.newTag_cmap (s : State) (a : Agent) : (s.newTag a).2.cmap = s.cmap := rfl
@[simp] theorem State.newTag_qz (s : State) (a : Agent) : (s.newTag a).2.qz = s.qz := rfl
@[simp] theorem State.newTag_cores (s : State) (a : Agent) : (s.newTag a).2.cores = s.cores := rfl
@[simp] theorem State.newTag_dram (s : State) (a : Agent) : (s.newTag a).2.dram = s.dram := rfl
@[simp] theorem State.newTag_pavs (s : State) (a : Agent) : (s.newTag a).2.pavs = s.pavs := rfl
@[simp] theorem State.newTag_qos (s : State) (a : Agent) : (s.newTag a).2.qos = s.qos := rfl
@[simp] theorem State.newTag_arb (s : State) (a : Agent) : (s.newTag a).2.arb = s.arb := rfl
@[simp] theorem State.newTag_gate (s : State) (a : Agent) : (s.newTag a).2.gate = s.gate := rfl
@[simp] theorem State.newTag_flash (s : State) (a : Agent) : (s.newTag a).2.flash = s.flash := rfl
@[simp] theorem State.newTag_timers (s : State) (a : Agent) : (s.newTag a).2.timers = s.timers := rfl
@[simp] theorem State.newTag_uncore (s : State) (a : Agent) : (s.newTag a).2.uncore = s.uncore := rfl
@[simp] theorem State.newTag_funnel (s : State) (a : Agent) : (s.newTag a).2.funnel = s.funnel := rfl
@[simp] theorem State.newTag_ports (s : State) (a : Agent) : (s.newTag a).2.ports = s.ports := rfl
@[simp] theorem State.newTag_mgmt (s : State) (a : Agent) : (s.newTag a).2.mgmt = s.mgmt := rfl
@[simp] theorem State.newTag_jtag (s : State) (a : Agent) : (s.newTag a).2.jtag = s.jtag := rfl
@[simp] theorem State.newTag_therm (s : State) (a : Agent) : (s.newTag a).2.therm = s.therm := rfl
@[simp] theorem State.newTag_dev (s : State) (a : Agent) : (s.newTag a).2.dev = s.dev := rfl
@[simp] theorem State.newTag_out (s : State) (a : Agent) : (s.newTag a).2.out = s.out := rfl
@[simp] theorem State.newTag_fresh (s : State) (a : Agent) : (s.newTag a).2.fresh = s.fresh := rfl
@[simp] theorem State.newTag_pending (s : State) (a : Agent) : (s.newTag a).2.pending = s.pending := rfl
@[simp] theorem State.newTag_net (s : State) (a : Agent) : (s.newTag a).2.fab.net = s.fab.net := rfl

@[simp] theorem arrive_cmap (s : State) (p : FabMsg) (rest : List FabMsg) : (arrive s p rest).cmap = s.cmap := rfl
@[simp] theorem arrive_qz (s : State) (p : FabMsg) (rest : List FabMsg) : (arrive s p rest).qz = s.qz := rfl
@[simp] theorem arrive_cores (s : State) (p : FabMsg) (rest : List FabMsg) : (arrive s p rest).cores = s.cores := rfl
@[simp] theorem arrive_dram (s : State) (p : FabMsg) (rest : List FabMsg) : (arrive s p rest).dram = s.dram := rfl
@[simp] theorem arrive_pavs (s : State) (p : FabMsg) (rest : List FabMsg) : (arrive s p rest).pavs = s.pavs := rfl
@[simp] theorem arrive_qos (s : State) (p : FabMsg) (rest : List FabMsg) : (arrive s p rest).qos = s.qos := rfl
@[simp] theorem arrive_arb (s : State) (p : FabMsg) (rest : List FabMsg) : (arrive s p rest).arb = s.arb := rfl
@[simp] theorem arrive_gate (s : State) (p : FabMsg) (rest : List FabMsg) : (arrive s p rest).gate = s.gate := rfl
@[simp] theorem arrive_flash (s : State) (p : FabMsg) (rest : List FabMsg) : (arrive s p rest).flash = s.flash := rfl
@[simp] theorem arrive_timers (s : State) (p : FabMsg) (rest : List FabMsg) : (arrive s p rest).timers = s.timers := rfl
@[simp] theorem arrive_uncore (s : State) (p : FabMsg) (rest : List FabMsg) : (arrive s p rest).uncore = s.uncore := rfl
@[simp] theorem arrive_funnel (s : State) (p : FabMsg) (rest : List FabMsg) : (arrive s p rest).funnel = s.funnel := rfl
@[simp] theorem arrive_ports (s : State) (p : FabMsg) (rest : List FabMsg) : (arrive s p rest).ports = s.ports := rfl
@[simp] theorem arrive_mgmt (s : State) (p : FabMsg) (rest : List FabMsg) : (arrive s p rest).mgmt = s.mgmt := rfl
@[simp] theorem arrive_jtag (s : State) (p : FabMsg) (rest : List FabMsg) : (arrive s p rest).jtag = s.jtag := rfl
@[simp] theorem arrive_therm (s : State) (p : FabMsg) (rest : List FabMsg) : (arrive s p rest).therm = s.therm := rfl
@[simp] theorem arrive_dev (s : State) (p : FabMsg) (rest : List FabMsg) : (arrive s p rest).dev = s.dev := rfl
@[simp] theorem arrive_out (s : State) (p : FabMsg) (rest : List FabMsg) : (arrive s p rest).out = s.out := rfl
@[simp] theorem arrive_fresh (s : State) (p : FabMsg) (rest : List FabMsg) : (arrive s p rest).fresh = s.fresh := rfl
@[simp] theorem arrive_pending (s : State) (p : FabMsg) (rest : List FabMsg) : (arrive s p rest).pending = s.pending := rfl
@[simp] theorem arrive_fab_clusters (s : State) (p : FabMsg) (rest : List FabMsg) : (arrive s p rest).fab.clusters = s.fab.clusters := rfl
@[simp] theorem arrive_fab_homes (s : State) (p : FabMsg) (rest : List FabMsg) : (arrive s p rest).fab.homes = s.fab.homes := rfl
@[simp] theorem arrive_fab_ht (s : State) (p : FabMsg) (rest : List FabMsg) : (arrive s p rest).fab.ht = s.fab.ht := rfl
@[simp] theorem arrive_fab_heldReads (s : State) (p : FabMsg) (rest : List FabMsg) : (arrive s p rest).fab.heldReads = s.fab.heldReads := rfl
@[simp] theorem arrive_fab_seqs (s : State) (p : FabMsg) (rest : List FabMsg) : (arrive s p rest).fab.seqs = s.fab.seqs := rfl
@[simp] theorem arrive_fab_tags (s : State) (p : FabMsg) (rest : List FabMsg) : (arrive s p rest).fab.tags = s.fab.tags := rfl
@[simp] theorem arrive_fab_retryq (s : State) (p : FabMsg) (rest : List FabMsg) : (arrive s p rest).fab.retryq = s.fab.retryq := rfl
@[simp] theorem arrive_fab_resends (s : State) (p : FabMsg) (rest : List FabMsg) : (arrive s p rest).fab.resends = s.fab.resends := rfl
@[simp] theorem arrive_fab_spine (s : State) (p : FabMsg) (rest : List FabMsg) : (arrive s p rest).fab.spine = s.fab.spine := rfl
@[simp] theorem arrive_fab_answers (s : State) (p : FabMsg) (rest : List FabMsg) : (arrive s p rest).fab.answers = s.fab.answers := rfl
@[simp] theorem arrive_fab_net (s : State) (p : FabMsg) (rest : List FabMsg) : (arrive s p rest).fab.net = rest := rfl

/-- What a setCore writes is read back. -/
@[simp] theorem State.core_setCore_self (s : State) (n : Vc) (v : Core) : (s.setCore n v).core n = v := by
  simp [State.core, State.setCore]

/-- A setCore leaves every other one as it was. -/
theorem State.core_setCore_ne (s : State) (n m : Vc) (v : Core) (hn : m ≠ n) : (s.setCore n v).core m = s.core m := by
  have h : m.toNat ≠ n.toNat := fun h => hn (BitVec.eq_of_toNat_eq h)
  simp [State.core, State.setCore, h]

/-- What a setPav writes is read back. -/
@[simp] theorem State.pav_setPav_self (s : State) (n : Pav) (v : Pavilion) : (s.setPav n v).pav n = v := by
  simp [State.pav, State.setPav]

/-- A setPav leaves every other one as it was. -/
theorem State.pav_setPav_ne (s : State) (n m : Pav) (v : Pavilion) (hn : m ≠ n) : (s.setPav n v).pav m = s.pav m := by
  have h : m.toNat ≠ n.toNat := fun h => hn (BitVec.eq_of_toNat_eq h)
  simp [State.pav, State.setPav, h]

/-- What a setSes writes is read back. -/
@[simp] theorem State.ses_setSes_self (s : State) (n : Ses) (v : Session) : (s.setSes n v).ses n = v := by
  simp [State.ses, State.setSes]

/-- A setSes leaves every other one as it was. -/
theorem State.ses_setSes_ne (s : State) (n m : Ses) (v : Session) (hn : m ≠ n) : (s.setSes n v).ses m = s.ses m := by
  have h : m.toNat ≠ n.toNat := fun h => hn (BitVec.eq_of_toNat_eq h)
  simp [State.ses, State.setSes, h]

/-- What a setLane writes is read back. -/
@[simp] theorem State.lane_setLane_self (s : State) (n : LaneNo) (v : Lane) : (s.setLane n v).lane n = v := by
  simp [State.lane, State.setLane]

/-- A setLane leaves every other one as it was. -/
theorem State.lane_setLane_ne (s : State) (n m : LaneNo) (v : Lane) (hn : m ≠ n) : (s.setLane n v).lane m = s.lane m := by
  have h : m.toNat ≠ n.toNat := fun h => hn (BitVec.eq_of_toNat_eq h)
  simp [State.lane, State.setLane, h]

/-- What a setTimer writes is read back. -/
@[simp] theorem State.timer_setTimer_self (s : State) (n : TmrNo) (v : Timer) : (s.setTimer n v).timer n = v := by
  simp [State.timer, State.setTimer]

/-- A setTimer leaves every other one as it was. -/
theorem State.timer_setTimer_ne (s : State) (n m : TmrNo) (v : Timer) (hn : m ≠ n) : (s.setTimer n v).timer m = s.timer m := by
  have h : m.toNat ≠ n.toNat := fun h => hn (BitVec.eq_of_toNat_eq h)
  simp [State.timer, State.setTimer, h]

/-- What a setQos writes is read back. -/
@[simp] theorem State.qosOf_setQos_self (s : State) (n : ClassId) (v : Qos) : (s.setQos n v).qosOf n = v := by
  simp [State.qosOf, State.setQos]

/-- A setQos leaves every other one as it was. -/
theorem State.qosOf_setQos_ne (s : State) (n m : ClassId) (v : Qos) (hn : m ≠ n) : (s.setQos n v).qosOf m = s.qosOf m := by
  have h : m.toNat ≠ n.toNat := fun h => hn (BitVec.eq_of_toNat_eq h)
  simp [State.qosOf, State.setQos, h]

/-- What a setPort writes is read back. -/
@[simp] theorem State.port_setPort_self (s : State) (n : Bool) (v : PciePort) : (s.setPort n v).port n = v := by
  simp [State.port, State.setPort]

/-- A setPort leaves every other one as it was. -/
theorem State.port_setPort_ne (s : State) (n m : Bool) (v : PciePort) (hn : m ≠ n) : (s.setPort n v).port m = s.port m := by
  have h : m.toNat ≠ n.toNat := fun h => hn (by cases n <;> cases m <;> simp_all)
  simp [State.port, State.setPort, h]

/-- What a setCluster writes is read back. -/
@[simp] theorem State.cluster_setCluster_self (s : State) (n : Nat) (v : Cluster) : (s.setCluster n v).cluster n = v := by
  simp [State.cluster, State.setCluster]

/-- A setCluster leaves every other one as it was. -/
theorem State.cluster_setCluster_ne (s : State) (n m : Nat) (v : Cluster) (hn : m ≠ n) : (s.setCluster n v).cluster m = s.cluster m := by
  have h : m ≠ n := fun h => hn h
  simp [State.cluster, State.setCluster, h]

/-- What a setHome writes is read back. -/
@[simp] theorem State.home_setHome_self (s : State) (n : Nat) (v : Home) : (s.setHome n v).home n = v := by
  simp [State.home, State.setHome]

/-- A setHome leaves every other one as it was. -/
theorem State.home_setHome_ne (s : State) (n m : Nat) (v : Home) (hn : m ≠ n) : (s.setHome n v).home m = s.home m := by
  have h : m ≠ n := fun h => hn h
  simp [State.home, State.setHome, h]

/-- What a change of a core writes is read back. -/
@[simp] theorem State.core_updCore_self (s : State) (n : Vc) (f : Core → Core) : (s.updCore n f).core n = f (s.core n) := by
  simp [State.updCore]

/-- A change of a core leaves every other core as it was. -/
theorem State.core_updCore_ne (s : State) (n m : Vc) (f : Core → Core) (hn : m ≠ n) : (s.updCore n f).core m = s.core m := by
  simp [State.updCore, State.core_setCore_ne, hn]

/-- What is written to a line of a cluster, or of a home, is read back. -/
@[simp] theorem State.l2_setL2_self (s : State) (k : Nat) (l : LineNo) (v : Option L2Line) : (s.setL2 k l v).l2 k l = v := by
  simp [State.l2, State.setL2]
@[simp] theorem State.mshrOf_setMshr_self (s : State) (k : Nat) (l : LineNo) (v : Option Mshr) : (s.setMshr k l v).mshrOf k l = v := by
  simp [State.mshrOf, State.setMshr]
@[simp] theorem State.txnOf_setTxn_self (s : State) (k : Nat) (l : LineNo) (v : Option Txn) : (s.setTxn k l v).txnOf k l = v := by
  simp [State.txnOf, State.setTxn]
@[simp] theorem State.dirOf_setDir_self (s : State) (k : Nat) (l : LineNo) (v : Option DirEntry) : (s.setDir k l v).dirOf k l = v := by
  simp [State.dirOf, State.setDir]
/-- What is written to a link, or to a function, is read back. -/
@[simp] theorem State.link_setLink_self (s : State) (p : Bool) (l : Nat) (v : PcieLink) : (s.setLink p l v).link p l = v := by
  simp [State.link, State.setLink]
@[simp] theorem State.pfn_setPfn_self (s : State) (p : Bool) (l fn : Nat) (v : PcieFn) : (s.setPfn p l fn v).pfn p l fn = v := by
  simp [State.pfn, State.setPfn]

end Sys2Proof.Machine
end

