-- ==== Sys2Proof/Laws/Core.lean ====
section
/-! SUPPORT. What a core row does with a word that may execute, and what an executed instruction leaves alone. -/

namespace Sys2Proof.Machine

/-- A core that is not suspended is not woken. -/
theorem wakeDue_awake {s : State} {vc : Vc} (h : (s.core vc).wfe = false) : wakeDue s vc = s := by simp [wakeDue, h]

/-- A word that may execute and belongs to the row runs, and the row ends in its result. -/
theorem instrRow_ready {s : State} {vc : Vc} {w : W32} {op : CoreOp} {s1 s2 : State} {en : Bool}
    {mine : CoreOp → Bool} {run : CoreOp → State → Option State}
    (h : Ready s vc w op s1 en) (hm : mine op = true) (hr : run op s1 = some s2) :
    instrRow s vc w mine run = if en then noteEntry s2 vc (s1.core vc).retire.length else s2 := by
  simp [instrRow, wakeDue_awake h.awake, h.runs, h.window, h.open_, h.fetched, h.decoded, h.operands, hm, hr]

/-- A word that is illegal by its encoding raises class 0x01. -/
theorem instrRow_illegal {s : State} {vc : Vc} {w : W32} {s1 : State} {en : Bool}
    {mine : CoreOp → Bool} {run : CoreOp → State → Option State} (h : ReadyIllegal s vc w s1 en) :
    instrRow s vc w mine run = (raise s1 vc (excIllegal (s1.core vc).spec w)).getD s := by
  simp [instrRow, wakeDue_awake h.awake, h.runs, h.window, h.open_, h.fetched, h.undecoded]

/-- A change of one core changes nothing else. -/
theorem onlyCore_setCore (s : State) (vc : Vc) (c : Core) : OnlyCore vc s (s.setCore vc c) :=
  ⟨fun _ hv => s.core_setCore_ne vc _ c hv, rfl⟩

theorem OnlyCore.refl (vc : Vc) (s : State) : OnlyCore vc s s := ⟨fun _ _ => rfl, rfl⟩

theorem OnlyCore.trans {vc : Vc} {s t u : State} (h : OnlyCore vc s t) (k : OnlyCore vc t u) : OnlyCore vc s u :=
  ⟨fun v hv => (k.others v hv).trans (h.others v hv), by rw [k.device, h.device]⟩

/-- What the mark of a region's entry leaves alone. -/
theorem noteEntry_frame (s : State) (vc : Vc) (n : Nat) :
    OnlyCore vc s (noteEntry s vc n) ∧ aside ((noteEntry s vc n).core vc) = aside (s.core vc)
      ∧ ((noteEntry s vc n).core vc).spec = (s.core vc).spec := by
  dsimp only [noteEntry]
  split
  · split
    · exact ⟨onlyCore_setCore .., by simp [aside], by simp⟩
    · exact ⟨.refl .., rfl, rfl⟩
  · split
    · exact ⟨onlyCore_setCore .., by simp [queueEvent, aside], by simp [queueEvent]⟩
    · exact ⟨.refl .., rfl, rfl⟩

/-- The mark of a region's entry does not disturb what an instruction did. -/
theorem Executes.noted {vc : Vc} {s t : State} {a : Arch} (h : Executes vc s t a) (en : Bool) (n : Nat) :
    Executes vc s (if en then noteEntry t vc n else t) a := by
  cases en
  · exact h
  · have f := noteEntry_frame t vc n
    exact ⟨f.2.2.trans h.regs, f.2.1.trans h.rest, h.outside.trans f.1⟩

/-- What `executed` does: the next instruction's registers are `a`. -/
theorem executed_executes (s : State) (vc : Vc) (a : Arch) (evs : List (BitVec 8)) (ends taken : Bool)
    (cond : Option (BitVec 15 × Bool)) (ind : Option W64) : Executes vc s (executed s vc a evs ends taken cond ind) a :=
  ⟨by simp [executed, coreAfter], by simp [executed, coreAfter, aside], onlyCore_setCore ..⟩

/-- What a short operation does. -/
theorem shortOp_executes (s : State) (vc : Vc) (rd : Reg) (v : W64) (cf : Option (BitVec 4)) :
    Executes vc s (shortOp s vc rd v cf) (nextPc { gWrite (s.regs vc) rd v with cf := cf.getD (gWrite (s.regs vc) rd v).cf }) :=
  executed_executes ..

/-- A write of a g register leaves PC, CF and the level. -/
@[simp] theorem gWrite_pc (a : Arch) (r : Reg) (v : W64) : (gWrite a r v).pc = a.pc := by
  unfold gWrite spWrite; repeat' split
  all_goals rfl
@[simp] theorem gWrite_cf (a : Arch) (r : Reg) (v : W64) : (gWrite a r v).cf = a.cf := by
  unfold gWrite spWrite; repeat' split
  all_goals rfl
@[simp] theorem gWrite_level (a : Arch) (r : Reg) (v : W64) : (gWrite a r v).level = a.level := by
  unfold gWrite spWrite; repeat' split
  all_goals rfl

/-- A row whose word is a short operation writes one register, and CF where it names one, and moves on. -/
theorem instrRow_short {s : State} {vc : Vc} {w : W32} {op : CoreOp} {s1 : State} {en : Bool}
    {mine : CoreOp → Bool} {run : CoreOp → State → Option State} {rd : Reg} {v : W64} {cf : Option (BitVec 4)}
    (h : Ready s vc w op s1 en) (hm : mine op = true) (hr : run op s1 = some (shortOp s1 vc rd v cf)) :
    Executes vc s1 (instrRow s vc w mine run)
      { gWrite (s1.core vc).spec rd v with
        pc := (s1.core vc).spec.pc + 4, cf := cf.getD (s1.core vc).spec.cf } := by
  rw [instrRow_ready h hm hr]
  have k := (shortOp_executes s1 vc rd v cf).noted en (s1.core vc).retire.length
  simpa only [nextPc, State.regs, gWrite_pc, gWrite_cf] using k

/-- The lowest number below 16 at which a test holds. -/
theorem find_lowest {p : Nat → Bool} (h : ∃ k, k < 16 ∧ p k = true) :
    ∃ k, k < 16 ∧ p k = true ∧ (∀ j, j < k → p j = false) ∧ (List.range 16).find? p = some k := by
  obtain ⟨k0, hk0, hp0⟩ := h
  cases hf : (List.range 16).find? p with
  | none =>
    rw [List.find?_eq_none] at hf
    exact absurd hp0 (hf k0 (by simpa using hk0))
  | some k =>
    obtain ⟨hp, as, bs, hl, hlt⟩ := List.find?_eq_some_iff_append.1 hf
    have hmem : k ∈ List.range 16 := List.mem_of_find?_eq_some hf
    refine ⟨k, by simpa using hmem, hp, ?_, rfl⟩
    intro j hj
    have hlen : as.length = k := by
      have h1 : (List.range 16)[as.length]? = some k := by rw [hl]; simp
      rw [List.getElem?_range (by have := congrArg List.length hl; simp at this; omega)] at h1
      simpa using h1
    have hja : j ∈ as := by
      have h2 : (List.range 16)[j]? = as[j]? := by rw [hl, List.getElem?_append_left (by omega)]
      rw [List.getElem?_range (by have := List.mem_range.1 hmem; omega)] at h2
      exact List.mem_of_getElem? h2.symm
    simpa using hlt j hja

/-- Outside a region no course comes next. -/
theorem courseNow_none {c : Core} (h : c.region = none) : courseNow c = none := by simp [courseNow, regionOf, h]

/-- A free ticket is issued, the lowest one in step mode. -/
theorem issueTicket_free {c : Core} (h : ticketFree c) (x : Ticket) :
    ∃ k, k < 16 ∧ mget? c.tickets k = none ∧ (c.region = none → ∀ j, j < k → (mget? c.tickets j).isSome)
      ∧ issueTicket c x = some { c with tickets := mput c.tickets k x } := by
  dsimp only [ticketFree] at h
  split at h
  · rename_i k hk
    exact ⟨k.toNat, k.isLt, h, fun hr => by simp [courseNow_none hr] at hk, by simp [issueTicket, nextTicket, hk, h]⟩
  · rename_i hk
    obtain ⟨k, h1, h2, h3, h4⟩ := find_lowest (p := fun i => (mget? c.tickets i).isNone) (by simpa using h)
    exact ⟨k, h1, by simpa using h2, fun _ j hj => by simpa [Option.isSome_iff_ne_none] using h3 j hj,
      by simp [issueTicket, nextTicket, hk, h4]⟩

/-- What a long operation does. -/
theorem longOp_takes {s : State} {vc : Vc} (h : ticketFree (s.core vc)) (x : Ticket) (evs : List (BitVec 8)) :
    ∃ t, longOp s vc x evs = some t ∧ TakesTicket vc s t x := by
  obtain ⟨k, hk, hn, hl, hi⟩ := issueTicket_free h x
  refine ⟨_, by simp [longOp, hi]; rfl, ⟨by simp [executed, coreAfter, nextPc], ⟨k, hk, hn, hl, by simp [executed, coreAfter]⟩, ?_, ?_⟩⟩
  · simp [executed, coreAfter, aside]
  · exact (onlyCore_setCore ..).trans (onlyCore_setCore ..)

/-- The mark of a region's entry does not disturb a long operation. -/
theorem TakesTicket.noted {vc : Vc} {s t : State} {x : Ticket} (h : TakesTicket vc s t x) (en : Bool) (n : Nat) :
    TakesTicket vc s (if en then noteEntry t vc n else t) x := by
  cases en
  · exact h
  · have f := noteEntry_frame t vc n
    obtain ⟨k, h1, h2, h3, h4⟩ := h.ticket
    have ht : ((noteEntry t vc n).core vc).tickets = (t.core vc).tickets := (congrArg Core.tickets f.2.1 : (aside _).tickets = (aside _).tickets)
    have hr : aside { (noteEntry t vc n).core vc with tickets := [] } = aside { t.core vc with tickets := [] } := by
      have := f.2.1
      simp only [aside, Core.mk.injEq] at this ⊢
      simp_all
    exact ⟨f.2.2.trans h.regs, ⟨k, h1, h2, h3, ht.trans h4⟩, hr.trans h.rest, h.outside.trans f.1⟩

/-- A row whose word is a long operation takes a ticket. -/
theorem instrRow_long {s : State} {vc : Vc} {w : W32} {op : CoreOp} {s1 : State} {en : Bool}
    {mine : CoreOp → Bool} {run : CoreOp → State → Option State} {x : Ticket} {evs : List (BitVec 8)}
    (h : Ready s vc w op s1 en) (hm : mine op = true) (hr : run op s1 = longOp s1 vc x evs) (hf : ticketFree (s1.core vc)) :
    TakesTicket vc s1 (instrRow s vc w mine run) x := by
  obtain ⟨t, ht, hk⟩ := longOp_takes hf x evs
  rw [instrRow_ready h hm (hr.trans ht)]
  exact hk.noted en _

end Sys2Proof.Machine
end

