-- ==== Sys2Proof/Laws/Dram.lean ====
section
/-! SUPPORT. The memory keeps its canonical form under every operation, and a byte written is read back. -/

namespace Sys2Proof.Machine

/-- The canonical form, as a statement about pairs of entries. -/
theorem cellsWf_iff (m : List Host.Cell) :
    cellsWf m = true ↔ m.Pairwise (fun p q => p.1 < q.1) ∧ ∀ p ∈ m, p.2 ≠ 0 := by
  induction m with
  | nil => simp [cellsWf]
  | cons p m ih =>
    obtain ⟨k, v⟩ := p
    cases m with
    | nil => simp [cellsWf]
    | cons q m =>
      obtain ⟨j, w⟩ := q
      simp only [cellsWf, Bool.and_eq_true, bne_iff_ne, decide_eq_true_eq, ih, List.pairwise_cons, List.forall_mem_cons]
      constructor
      · rintro ⟨⟨hv, hk⟩, ⟨hj, hm⟩, hw, hz⟩
        exact ⟨⟨⟨hk, fun a ha => hk.trans (hj a ha)⟩, hj, hm⟩, hv, hw, hz⟩
      · rintro ⟨⟨⟨hk, -⟩, hj, hm⟩, hv, hw, hz⟩
        exact ⟨⟨hv, hk⟩, ⟨hj, hm⟩, hw, hz⟩

/-- The entries after an insertion. -/
theorem mem_cellInsert (k : Nat) (v : Byte) (m : List Host.Cell) (p : Host.Cell) :
    p ∈ cellInsert k v m ↔ p = (k, v) ∨ p ∈ m := by
  induction m with
  | nil => simp [cellInsert]
  | cons q m ih =>
    simp only [cellInsert]
    split <;> simp [ih]
    tauto

/-- An insertion of a new address keeps the order. -/
theorem pairwise_cellInsert (k : Nat) (v : Byte) (m : List Host.Cell) (h : m.Pairwise (fun p q => p.1 < q.1))
    (hn : ∀ p ∈ m, p.1 ≠ k) : (cellInsert k v m).Pairwise (fun p q => p.1 < q.1) := by
  induction m with
  | nil => simp [cellInsert]
  | cons q m ih =>
    obtain ⟨j, w⟩ := q
    rw [List.pairwise_cons] at h
    simp only [cellInsert]
    split
    · next hk =>
      refine List.pairwise_cons.2 ⟨fun a ha => ?_, List.pairwise_cons.2 h⟩
      rcases List.mem_cons.1 ha with rfl | ha
      · exact hk
      · exact hk.trans (h.1 a ha)
    · next hk =>
      refine List.pairwise_cons.2 ⟨fun a ha => ?_, ih h.2 fun p hp => hn p (List.mem_cons_of_mem _ hp)⟩
      rcases (mem_cellInsert k v m a).1 ha with rfl | ha
      · have := hn (j, w) (List.mem_cons_self ..); simp at this ⊢; omega
      · exact h.1 a ha

/-- A write of one byte keeps the canonical form. -/
theorem cellPut_wf (m : List Host.Cell) (k : Nat) (v : Byte) (h : cellsWf m = true) : cellsWf (cellPut m k v) = true := by
  rw [cellsWf_iff] at h ⊢
  have hf : (m.filter (fun p => p.1 != k)).Pairwise (fun p q => p.1 < q.1) := h.1.filter _
  have hz : ∀ p ∈ m.filter (fun p => p.1 != k), p.2 ≠ 0 := fun p hp => h.2 p (List.mem_filter.1 hp).1
  simp only [cellPut]
  split
  · exact ⟨hf, hz⟩
  · next hv =>
    refine ⟨pairwise_cellInsert k v _ hf fun p hp => by simpa using (List.mem_filter.1 hp).2, fun p hp => ?_⟩
    rcases (mem_cellInsert k v _ p).1 hp with rfl | hp
    · exact hv
    · exact hz p hp

/-- An address that is not listed reads 0. -/
theorem cellGet_not_mem (m : List Host.Cell) (k : Nat) (h : ∀ p ∈ m, p.1 ≠ k) : cellGet m k = 0 := by
  induction m with
  | nil => rfl
  | cons q m ih =>
    simp only [cellGet]
    rw [if_neg (h q (List.mem_cons_self ..)), ih fun p hp => h p (List.mem_cons_of_mem _ hp)]

/-- Removing an address leaves every other. -/
theorem cellGet_filter_ne (m : List Host.Cell) (k j : Nat) (h : j ≠ k) :
    cellGet (m.filter (fun p => p.1 != k)) j = cellGet m j := by
  induction m with
  | nil => rfl
  | cons q m ih =>
    by_cases hq : q.1 = k
    · have : q.1 ≠ j := fun e => h (e ▸ hq)
      simp [hq, cellGet, ih, h.symm]
    · simp [hq, cellGet, ih]

/-- An inserted byte is read back. -/
theorem cellGet_cellInsert (m : List Host.Cell) (k j : Nat) (v : Byte) (hn : ∀ p ∈ m, p.1 ≠ k) :
    cellGet (cellInsert k v m) j = if j = k then v else cellGet m j := by
  induction m with
  | nil =>
    simp only [cellInsert, cellGet]
    by_cases e : j = k
    · simp [e]
    · simp [e, Ne.symm e]
  | cons q m ih =>
    have hq := hn q (List.mem_cons_self ..)
    have hm := ih fun p hp => hn p (List.mem_cons_of_mem _ hp)
    simp only [cellInsert]
    split
    · simp only [cellGet]
      by_cases e : j = k
      · simp [e]
      · simp [e, Ne.symm e]
    · simp only [cellGet, hm]
      by_cases e : j = k
      · subst e; simp [hq]
      · simp [e]

/-- A byte written is read back, and every other byte reads as before. -/
theorem cellGet_cellPut (m : List Host.Cell) (k j : Nat) (v : Byte) :
    cellGet (cellPut m k v) j = if j = k then v else cellGet m j := by
  have hn : ∀ p ∈ m.filter (fun p => p.1 != k), p.1 ≠ k := fun p hp => by simpa using (List.mem_filter.1 hp).2
  simp only [cellPut]
  split
  · next hv =>
    by_cases e : j = k
    · subst e; simp [cellGet_not_mem _ _ hn, hv]
    · simp [e, cellGet_filter_ne m k j e]
  · rw [cellGet_cellInsert _ _ _ _ hn]
    split
    · rfl
    · next e => exact cellGet_filter_ne m k j e

/-- A write of several bytes keeps the canonical form. -/
theorem putBytes_wf (m : List Host.Cell) (s : Slot) (v i n : Nat) (h : cellsWf m = true) : cellsWf (putBytes m s v i n) = true := by
  induction n generalizing m v i with
  | zero => exact h
  | succ n ih => exact ih _ _ _ (cellPut_wf _ _ _ h)

theorem putSlot_wf (d : Dram) (s : Slot) (v : Line) (h : d.wf) : (putSlot d s v).wf := by
  unfold putSlot; split
  · exact h
  · exact putBytes_wf d.cells s v.toNat 0 64 h

theorem putHalf_wf (d : Dram) (s : Slot) (b : Nat) (h : d.wf) : (putHalf d s b).wf := by
  unfold putHalf; split
  · exact h
  · exact putBytes_wf d.cells s b 0 32 h

theorem putTagLine_wf (d : Dram) (l : Nat) (v : Line) (h : d.wf) : (putTagLine d l v).wf := by
  unfold putTagLine; split
  · exact putSlot_wf _ _ _ h
  · exact putSlot_wf _ _ _ (putSlot_wf _ _ _ h)

theorem putTag_wf (d : Dram) (s : Slot) (t : Bool) (h : d.wf) : (putTag d s t).wf := by
  dsimp only [putTag]; split
  · exact h
  · exact putTagLine_wf _ _ _ h

theorem putData_wf (d : Dram) (l : Nat) (v : Line) (h : d.wf) : (putData d l v).wf := by
  dsimp only [putData]; split
  · exact putSlot_wf _ _ _ h
  · split
    · exact putTag_wf _ _ _ (putHalf_wf _ _ _ h)
    · exact putTag_wf _ _ _ (putSlot_wf _ _ _ h)

theorem foldl_putData_wf (ws : List (Nat × Line)) (d : Dram) (h : d.wf) : (ws.foldl (fun a w => putData a w.1 w.2) d).wf := by
  induction ws generalizing d with
  | nil => exact h
  | cons w ws ih => rw [List.foldl_cons]; exact ih _ (putData_wf _ _ _ h)

theorem writeGroup_eq (d : Dram) (r : Nat) (ws : List (Nat × Line)) : writeGroup d r ws
    = putSlot (ws.foldl (fun a w => putData a w.1 w.2) d) { c := parityChannel r, r := r } (newParity d r ws) := rfl

theorem writeGroup_wf (d : Dram) (r : Nat) (ws : List (Nat × Line)) (h : d.wf) : (writeGroup d r ws).wf := by
  rw [writeGroup_eq]
  exact putSlot_wf _ _ _ (foldl_putData_wf ws d h)

/-- A write of a line keeps the canonical form (09 R277, R283, R285). -/
theorem dramWrite_wf (d : Dram) (l : Nat) (v : Line) (h : d.wf) : (dramWrite d l v).wf := by
  unfold dramWrite; split
  · exact putData_wf _ _ _ h
  · exact writeGroup_wf _ _ _ h

/-- The memory after reset is in canonical form. -/
theorem reset_dram_wf : State.reset.dram.wf := rfl

end Sys2Proof.Machine
end

