-- ==== Sys2Proof/Laws/Fabric.lean ====
section
/-! SUPPORT. What sending a message does: it stands last in flight with its header's fields, its stop's SEQ rises, an uncore event may be counted, and nothing else changes. -/

namespace Sys2Proof.Machine

/-- Counting an event changes the uncore counters alone. -/
theorem uncoreEvent_frame (s : State) (u : Nat) (code : BitVec 8) (c : ClassId) :
    uncoreEvent s u code c = { s with uncore := (uncoreEvent s u code c).uncore } := by
  unfold uncoreEvent
  dsimp only
  split <;> rfl

/-- A message that is sent stands last in flight, with its source, class, TAG and SEQ, at its source's stop. -/
@[simp] theorem sendT_net (s : State) (src : Agent) (cls : ClassId) (tag : BitVec 16) (m : Msg) :
    (sendT s src cls tag m).fab.net = s.fab.net ++
      [{ msg := m, src := src, cls := cls, tag := tag, seq := mget s.fab.seqs (s.stopOf src) 0, place := BitVec.ofNat 4 (s.stopOf src) }] := by
  simp only [sendT]
  rw [uncoreEvent_frame]

/-- Sending changes the messages in flight, the SEQ of the stop and the uncore counters alone. -/
theorem sendT_frame (s : State) (src : Agent) (cls : ClassId) (tag : BitVec 16) (m : Msg) :
    ∃ f u, sendT s src cls tag m = { s with fab := f, uncore := u } := by
  unfold sendT
  rw [uncoreEvent_frame]
  exact ⟨_, _, rfl⟩

end Sys2Proof.Machine
end

