-- ==== Sys2Proof/Tests/Slice0.lean ====
section
/-! SUPPORT. Named tests on small states: for each statement of the obligations a state and operands that meet its hypotheses, the smoke test of WellFormed, and a few words written out from the spec's encodings. Every expected value comes from the chapters, none from the model. -/

open Sys2Proof Sys2Proof.Machine

namespace Sys2Proof.Tests

set_option Elab.async false

/-- SERVICE: the cores run, nothing waits. -/
def served (s : State) : State := { s with dev := { s.dev with porst := false, mode := .service, rails := 0x1FF } }
/-- The fill of DRAM has passed every row (09 R293). -/
def rowsFull (s : State) : State := { s with dram := { s.dram with fill := 2 ^ 30 } }
/-- A core with the registers `a`, nothing in flight, and the line of PC 0x1000 in its fetch buffer. -/
def coreAt (a : Arch) : Core := { started := true, arch := a, spec := a, micro := { fetchBuf := [0x40] } }
/-- In SERVICE, core 0 runs with the registers `a`. -/
def running (a : Arch) : State := served { State.reset with cores := [(0, coreAt a)] }
/-- The registers at H with PC 0x1000, g1 = 7, g2 = 3, g31 = 0x9000. -/
def hyp : Arch := gWrite (gWrite { level := .h, pc := 0x1000, spH := 0x9000 } 1 7) 2 3
/-- The state that the fetch of core 0 leaves. -/
def fetched (s : State) : State := match fetchAt s 0 with | .ok t _ => t | _ => s
/-- The registers at S in pavilion 1, whose page 1 the fetch TLB holds. -/
def sup : Arch := { hyp with level := .s, tr := { vmid := 1 } }
/-- Pavilion 1 runs F-style code on core 0. -/
def guest (a : Arch) : State :=
  let e : TlbEntry := plainEntry 1 0 1
  { running a with
    pavs := [(1, { st := .running, ctl := 1, nvcpu := 1, nirq := 4, pit := 0x100000 })]
    cores := [(0, { coreAt a with micro := { ftlb := [e], l2tlb := [e], fetchBuf := [0x40] } })] }

/-- At H the word of `op` is ready to execute. -/
def ReadyH (op : CoreOp) : Prop := Ready (running hyp) 0 (encodeCore op) op (fetched (running hyp)) false
theorem ready_hyp (op : CoreOp) (h : decodeCore false (encodeCore op) = some op) (k : awaits (coreAt hyp) op = false) : ReadyH op :=
  ⟨by decide, by decide, by decide, by decide, by rfl, by exact h, by exact k⟩
/-- At S in an F-style pavilion the word of `op` is ready to execute. -/
def ReadyS (op : CoreOp) : Prop := Ready (guest sup) 0 (encodeCore op) op (fetched (guest sup)) false
theorem ready_sup (op : CoreOp) (h : decodeCore true (encodeCore op) = some op)
    (k : awaits ((fetched (guest sup)).core 0) op = false) : ReadyS op :=
  ⟨by decide, by decide, by decide, by decide, by rfl, by exact h, by exact k⟩

/-! Ill-formed commands are refused, and their neighbours are not. -/
theorem test_wf_outbound : (Instr.arborOutboundAccess .load 0x100 0 3 0 0).wf = false ∧ (Instr.arborOutboundAccess .load 0x100 0 8 0 0).wf = true := by decide
theorem test_wf_inbound : (Instr.inboundWriteData 16 0 true false).wf = false ∧ (Instr.inboundReadData 0).wf = false ∧ (Instr.inboundRmwCycle 5 ⟨none, true⟩).wf = false
    ∧ (Instr.inboundReadData 1).wf = true := by decide
theorem test_wf_uncached : (Instr.ncRd 0 0 0 7).wf = false ∧ (Instr.atom 0 0 0 64 0 0 0).wf = false ∧ (Instr.keepRd 0 0 0).wf = false
    ∧ (Instr.keepAtom 0 0 9 0 0 0).wf = false ∧ (Instr.atom 0 0 0 8 0 0 0).wf = true := by decide
theorem test_wf_pcie_atomic : (Instr.pcieInboundAtomicop false 0 0 0 2 0 0 0).wf = false ∧ (Instr.pcieInboundAtomicop false 0 0 0 4 0 0 0).wf = true := by decide
theorem test_wf_transfers : (Instr.i3cPrivateTransfer false 0 2 [1]).wf = false ∧ (Instr.spiFrame false 0 0 [1]).wf = false
    ∧ (Instr.spiFrame true 0 2 []).wf = true := by decide
theorem test_wf_rail : (Instr.railOutOfRange 9).wf = false ∧ (Instr.railOutOfRange 8).wf = true := by decide

/-! Words written field by field from the encodings of chapter 03. -/
theorem test_decode_alu : decodeCore false (0b000001#6 ++ 3#5 ++ 1#5 ++ 2#5 ++ 0b0#1 ++ 0xB#4 ++ 0#6) = some (.alu false .ror 3 1 2) := by decide
theorem test_decode_slli : decodeCore false (0b000001#6 ++ 3#5 ++ 1#5 ++ 0#5 ++ 0b0#1 ++ 0xC#4 ++ 63#6) = some (.shi false .slli 3 1 63) := by decide
theorem test_decode_clz : decodeCore false (0b000011#6 ++ 3#5 ++ 1#5 ++ 0#5 ++ 0b0#1 ++ 0x6#4 ++ 0#6) = some (.un false .clz 3 1) := by decide
theorem test_decode_insh : decodeCore false (0b001111#6 ++ 3#5 ++ 0#3 ++ 2#2 ++ 0xABCD#16) = some (.insh 3 2 0xABCD) := by decide
theorem test_decode_load : decodeCore false (0b010110#6 ++ 3#5 ++ 1#5 ++ 0xFFF8#16) = some (.ld .ldd 3 1 0xFFF8) := by decide
theorem test_decode_store : decodeCore false (0b011000#6 ++ 3#5 ++ 1#5 ++ 1#16) = some (.st .stb 3 1 1) := by decide
theorem test_decode_atomic : decodeCore false (0b000100#6 ++ 3#5 ++ 1#5 ++ 2#5 ++ 0b0#1 ++ 0x1#4 ++ 0b10#2 ++ 0b0#1 ++ 0#3) = some (.atom .add 2 false 3 1 2) := by decide
theorem test_decode_bri : decodeCore false (0b110001#6 ++ 3#5 ++ 31#5 ++ 0b001#3 ++ 0x1000#13) = some (.bri 1 3 31 0x1000) := by decide
theorem test_decode_jumps : decodeCore false (0b100000#6 ++ 0x2000001#26) = some (.j 0x2000001)
    ∧ decodeCore false (0b100010#6 ++ 4#5 ++ 0x81#8 ++ 0#13) = some (.callr 4 0x81)
    ∧ decodeCore false (0b100011#6 ++ 0#5 ++ 4#5 ++ 0#5 ++ 0#11) = some (.jr 4)
    ∧ decodeCore false (0b100011#6 ++ 0#5 ++ 0#5 ++ 0#5 ++ 1#11) = some .ret := by decide
theorem test_decode_sys : decodeCore false (0b111111#6 ++ 0x11#5 ++ 1#5 ++ 0x0421#16) = some (.mts 1 0x421)
    ∧ decodeCore false (0b111111#6 ++ 0x18#5 ++ 1#5 ++ 0#16) = some (.tlbiVa 1)
    ∧ decodeCore false (0b111111#6 ++ 0x04#5 ++ 0#5 ++ 0#16) = some .wfe
    ∧ decodeCore false (0b111111#6 ++ 0x05#5 ++ 1#5 ++ 0#16) = none := by decide

/-! The hypotheses of the statements on the core rows are met. -/
theorem test_ready_integer : ReadyH (.alu false .sub 3 1 2) ∧ ReadyH (.shi false .srai 0 1 63) ∧ ReadyH (.un false .clz 3 1)
    ∧ ReadyH (.alu2 false .min 3 1 2) ∧ ReadyH (.ri .addi 3 1 0x8000) ∧ ReadyH (.addpc 3 1) ∧ ReadyH (.insh 3 3 0xFFFF) :=
  ⟨ready_hyp _ (by decide) (by decide), ready_hyp _ (by decide) (by decide), ready_hyp _ (by decide) (by decide),
   ready_hyp _ (by decide) (by decide), ready_hyp _ (by decide) (by decide), ready_hyp _ (by decide) (by decide), ready_hyp _ (by decide) (by decide)⟩
theorem test_ready_set_flags : ReadyS (.alu true .sub 3 1 2) ∧ ReadyS (.alu2 true .adc 3 1 2) ∧ ReadyS (.fb 1 0x3FFFFF) :=
  ⟨ready_sup _ (by decide) (by decide), ready_sup _ (by decide) (by decide), ready_sup _ (by decide) (by decide)⟩
theorem test_ready_tickets : ReadyH (.muldiv false .div 3 1 2) ∧ ReadyH (.fp false true .fdiv 7 1 2 3) ∧ ReadyH (.fma true 2 1 2 3 4)
    ∧ ticketFree ((fetched (running hyp)).core 0) :=
  ⟨ready_hyp _ (by decide) (by decide), ready_hyp _ (by decide) (by decide), ready_hyp _ (by decide) (by decide), 0, by decide, by rfl⟩
/-- One ticket is outstanding. -/
def ticketed : State := (running hyp).updCore 0 (fun c => { c with tickets := [(5, { dest := .g 3, val := 9, flags := 0, cf := none })] })
theorem test_ticket_outstanding : coreOn ticketed 0 = true ∧ mget? (ticketed.core 0).tickets (5#4).toNat = some { dest := .g 3, val := 9, flags := 0, cf := none } :=
  ⟨by decide, by rfl⟩
theorem test_ready_branches : ReadyH (.br 0 1 2 1) ∧ ReadyH (.bri 6 1 2 0x1FFF) ∧ ReadyH (.j 0x3FFFFFF) ∧ ReadyH (.jr 0)
    ∧ canonical (hyp.pc + ((0x1FFF#13).signExtend 64 <<< 2)) = true ∧ canonical (hyp.pc + ((0x3FFFFFF#26).signExtend 64 <<< 2)) = true
    ∧ (gRead hyp 0).extractLsb' 0 2 = 0#2 ∧ canonical (gRead hyp 0) = true :=
  ⟨ready_hyp _ (by decide) (by decide), ready_hyp _ (by decide) (by decide), ready_hyp _ (by decide) (by decide),
   ready_hyp _ (by decide) (by decide), by decide, by decide, by decide, by decide⟩
/-- A branch that was predicted wrongly waits to be undone. -/
def mispredicted : State :=
  { running hyp with cores := [(0, { coreAt hyp with ckpts := [{ actual := { hyp with pc := 0x2000 }, sbLen := 0, retLen := 0, ghist := 0, ras := [], block := none, blockPa := 0, entry := true, region := none, rix := 0, tick := [], fillLen := 0, markLen := 0, entLen := 0, syncs := [], fetch := [], spec := 32 }] })] }
theorem test_mispredicted : coreOn mispredicted 0 = true ∧ ∃ k rest, (mispredicted.core 0).ckpts = k :: rest := ⟨by decide, _, _, rfl⟩

/-! Frames, loads, stores, atomics. -/
/-- A line that cluster 0 holds in E: 0x2000, 1, 11 and 22 in its first doublewords. -/
def heldLine : L2Line := { st := .e, data := BitVec.ofNat 512 (0x2000 + 2 ^ 64 + 11 * 2 ^ 128 + 22 * 2 ^ 192), pres := [], cls := hypClass }
/-- Core 0 runs at H, and cluster 0 holds the lines of its stack and of 0x40. -/
def holding : State := { running hyp with fab := { clusters := [(0, { l2 := [(1, heldLine), (0x240, heldLine)] })] } }
def held1 : State := fetched holding
/-- The value of a result. -/
def okOf {α ε : Type} (d : α) (r : Except ε α × State) : α := match r.1 with | .ok a => a | .error _ => d

theorem ready_held (op : CoreOp) (h : decodeCore false (encodeCore op) = some op) (k : awaits (coreAt hyp) op = false) :
    Ready holding 0 (encodeCore op) op held1 false := ⟨by decide, by decide, by decide, by decide, by rfl, by exact h, by exact k⟩

/-- The addresses of the frame of CALL with PMASK 0b1. -/
def callWords : List W64 := (List.range 4).map (fun i => spRead hyp - 32 + BitVec.ofNat 64 (8 * i))
def callParts : List APart := okOf [] (frameParts 0 .write callWords held1)
def callState : State := (frameParts 0 .write callWords held1).2
theorem test_call_hypotheses : Ready holding 0 (encodeCore (.call 1 1)) (.call 1 1) held1 false
    ∧ Ready holding 0 (encodeCore (.callr 0 1)) (.callr 0 1) held1 false
    ∧ (spRead hyp).extractLsb' 0 4 = 0#4 ∧ FrameTranslates held1 0 (spRead hyp - 32) 0 4 .write callParts callState
    ∧ codeParts callState callParts = false ∧ (callState.core 0).sb.length + (frameEntries callState 0 callParts [0, 0, 0, 0]).length ≤ 48 :=
  ⟨ready_held _ (by decide) (by decide), ready_held _ (by decide) (by decide), by decide,
   ⟨by rfl, by decide, by decide, by decide⟩, by decide, by decide⟩

def retS2 : State := (frameParts 0 .read (wordAddrs (spRead hyp) 0 2) held1).2
def retHead : List APart := okOf [] (frameParts 0 .read (wordAddrs (spRead hyp) 0 2) held1)
def retP : APart := retHead.headD { va := 0, n := 0, pa := 0, mt := .device, miss := false, walked := false }
def retQ : APart := (retHead.drop 1).headD retP
/-- What an access that succeeds answers and leaves. -/
def memOk {α : Type} (r : Mem α) (f : α → State → Bool) : Bool := match r with | .ok (a, s) => f a s | .error _ => false
theorem memOk_spec {α : Type} (r : Mem α) (f : α → State → Bool) (h : memOk r f = true) : ∃ a s, r = .ok (a, s) ∧ f a s = true := by
  cases r with
  | ok p => exact ⟨p.1, p.2, rfl, h⟩
  | error o => simp [memOk] at h
def partsOk {α ε : Type} (r : Except ε α × State) (f : α → State → Bool) : Bool := match r with | (.ok a, s) => f a s | _ => false
theorem partsOk_spec {α ε : Type} (r : Except ε α × State) (f : α → State → Bool) (h : partsOk r f = true) :
    ∃ a s, r = (.ok a, s) ∧ f a s = true := by
  obtain ⟨x, s⟩ := r
  cases x with
  | ok a => exact ⟨a, s, rfl, h⟩
  | error o => simp [partsOk] at h
def retS3 : State := match frameRead retS2 0 1 retQ with | .ok (_, s) => s | _ => retS2
def retTail : List APart := okOf [] (frameParts 0 .read (wordAddrs (spRead hyp) 2 2) retS3)
def retS4 : State := (frameParts 0 .read (wordAddrs (spRead hyp) 2 2) retS3).2
def retS5 : State := match frameReads 0 ((0 :: (List.range 2).map (· + 2)).zip (retP :: retTail)) retS4 with | .ok (_, s) => s | _ => retS4
theorem test_ret_reads : (∃ m s3, frameRead retS2 0 1 retQ = .ok (m, s3) ∧ (m.1 == 1 && (s3.core 0).spec == hyp && s3 == retS3) = true)
    ∧ (∃ v s5, frameReads 0 ((0 :: (List.range 2).map (· + 2)).zip (retP :: retTail)) retS4 = .ok (v, s5)
        ∧ (v.1 == [0x2000, 11, 22] && (s5.core 0).spec == hyp && !(s5.core 0).owait && s5 == retS5) = true) :=
  ⟨memOk_spec _ _ (by decide +kernel), memOk_spec _ _ (by decide +kernel)⟩
theorem test_ret_hypotheses : Ready holding 0 (encodeCore .ret) .ret held1 false ∧ (spRead hyp).extractLsb' 0 4 = 0#4
    ∧ FrameTranslates held1 0 (spRead hyp) 0 2 .read [retP, retQ] retS2 ∧ FrameTranslates retS3 0 (spRead hyp) 2 2 .read retTail retS4 :=
  ⟨ready_held _ (by decide) (by decide), by decide, ⟨by rfl, by decide +kernel, by decide +kernel, by decide⟩,
   ⟨by rfl, by decide +kernel, by decide +kernel, by decide +kernel⟩⟩
theorem test_ret_registers : ([11, 22] : List W64).length = 2 * ((List.range 8).filter (fun i => (1#8).getLsbD i)).length
    ∧ ([11, 22, 5, 6] : List W64).length = 2 * ((List.range 8).filter (fun i => (0x81#8).getLsbD i)).length := by decide

/-- A load of the doubleword at 0x40, in the held line 1: g1 + 0x39. -/
def ldParts : List APart := okOf [] (accessParts held1 0 0x40 8 .read)
def ldState : State := (accessParts held1 0 0x40 8 .read).2
theorem test_load_hypotheses : Ready holding 0 (encodeCore (.ld .ldd 3 1 0x39)) (.ld .ldd 3 1 0x39) held1 false
    ∧ gRead hyp 1 + (0x39#16).signExtend 64 = 0x40#64 ∧ Translates held1 0 0x40 8 .read ldParts ldState ∧ ldState.mode = .service
    ∧ ∃ v s3, loadParts 0 ldParts ldState = .ok (v, s3) ∧ (v.1 == 0x2000 && (s3.core 0).tickets == [] && !(s3.core 0).owait) = true :=
  ⟨ready_held _ (by decide) (by decide), by decide, ⟨by rfl, by decide, by decide, by decide, by decide⟩, by decide,
   memOk_spec _ _ (by decide +kernel)⟩
/-- One byte of a doubleword, and the whole of another, stand in the store buffer. -/
def buffered : State := held1.updCore 0 (fun c => { c with sb := [
  { pa := 0x48, size := 1, data := 0xAA, nc := false, committed := false }, { pa := 0x50, size := 8, data := 0xBB, nc := false, committed := true }] })
def partAt (pa : Nat) : APart := { va := 0, n := 8, pa := pa, mt := .normal, miss := false, walked := false }
theorem test_load_part_hypotheses :
    (sbOverlaps (buffered.core 0).sb 0x50 8 ≠ [] ∧ sbCovered (buffered.core 0).sb 0x50 8 = true)
    ∧ (sbOverlaps (buffered.core 0).sb 0x48 8 ≠ [] ∧ sbCovered (buffered.core 0).sb 0x48 8 = false ∧ (buffered.core 0).region = none)
    ∧ (sbOverlaps (buffered.core 0).sb 0x40 8 = [] ∧ (partAt 0x40).mt = .normal ∧ inKeep buffered 0x40 = false
      ∧ settle (lineOf 0x40) settleFuel buffered = buffered ∧ L1dFits buffered 0 (lineOf 0x40)
      ∧ buffered.l2 (buffered.clusterOf 0) (lineOf 0x40) = some heldLine) :=
  ⟨⟨by decide, by decide⟩, ⟨by decide, by decide, by rfl⟩, ⟨by decide, by decide, by decide, by rfl, .inr (by decide +kernel), by rfl⟩⟩
def stParts : List APart := okOf [] (accessParts held1 0 0x40 8 .write)
def stState : State := (accessParts held1 0 0x40 8 .write).2
theorem test_store_hypotheses : Ready holding 0 (encodeCore (.st .std 2 1 0x39)) (.st .std 2 1 0x39) held1 false
    ∧ Translates held1 0 0x40 8 .write stParts stState ∧ codeParts stState stParts = false
    ∧ (stState.core 0).sb.length + (sbEntries stState 0 stParts 3).length ≤ 48 :=
  ⟨ready_held _ (by decide) (by decide), ⟨by rfl, by decide, by decide, by decide, by decide⟩, by decide, by decide⟩
/-- The oldest store is committed, and the cluster holds its line in E. -/
def draining : State := held1.updCore 0 (fun c => { c with sb := [{ pa := 0x50, size := 8, data := 0xBB, nc := false, committed := true }] })
theorem test_drain_hypotheses : drainsNow draining 0 = true ∧ (∃ e rest, (draining.core 0).sb = e :: rest ∧ e.committed = true ∧ e.nc = false)
    ∧ draining.l2 (draining.clusterOf 0) (lineOf 0x50) = some heldLine ∧ heldLine.st = .e
    ∧ (draining.cluster 0).l2.any (fun p => p.2.unperf == some 0) = false ∧ heldLine.unperf = none ∧ (draining.cluster 0).mshr = []
    ∧ L1dFits draining 0 (lineOf 0x50) ∧ noPavWait draining ∧ ∀ v, v ≠ 0 → (draining.core v).micro.readMarks.contains (lineOf 0x50) = false :=
  ⟨by decide, ⟨_, _, rfl, by decide, by decide⟩, by rfl, by decide, by decide, by decide, by rfl, .inr (by decide +kernel), (fun p h => by cases h), by decide⟩
def atParts : List APart := okOf [] (accessParts (fetched (running hyp)) 0 (gRead hyp 0) 8 .rmw)
theorem test_atomic_hypotheses : ReadyH (.atom .add 3 true 3 0 2) ∧ (gRead hyp 0).toNat % 2 ^ (3#2).toNat = 0
    ∧ Translates (fetched (running hyp)) 0 (gRead hyp 0) 8 .rmw atParts (fetched (running hyp))
    ∧ (∃ p, atParts = [p] ∧ p.mt = .normal ∧ paKind (fetched (running hyp)) p.pa = .dram)
    ∧ canCommit ((fetched (running hyp)).core 0) = true ∧ syncReady (commitCore (fetched (running hyp)) 0) 0 = true
    ∧ storesDone (commitCore (fetched (running hyp)) 0) 0 = true :=
  ⟨ready_hyp _ (by decide) (by decide), by decide, ⟨by rfl, by decide, by decide, by decide, by decide⟩, ⟨_, rfl, by decide, by decide⟩,
   by decide, by decide, by decide⟩
/-- An atomic on the held line at address 0. -/
def holding0 : State := { running hyp with fab := { clusters := [(0, { l2 := [(0, heldLine)] })] } }
def at4 : State := commitCore (fetched holding0) 0
def atDone : State := match atomCached at4 0 .add 8 0 3 0 with | some (_, t) => t | none => at4
theorem test_atomic_reads : atomCached at4 0 .add 8 0 3 0 = some (0x2000, atDone) ∧ (atDone.core 0).spec = hyp ∧ InstrumentsOff atDone 0
    ∧ (atDone.core 0).retire = [] ∧ (atDone.core 0).region = none :=
  ⟨by decide +kernel, by decide +kernel, ⟨by decide +kernel, by decide +kernel⟩, by decide +kernel, by decide +kernel⟩
theorem test_atomic_line : held1.l2 (held1.clusterOf 0) (lineOf 0x40) = some heldLine ∧ (held1.cluster 0).mshr = []
    ∧ settle (lineOf 0x40) settleFuel held1 = held1 ∧ L1dFits held1 0 (lineOf 0x40) ∧ (∀ v, v ≠ 0 → (held1.core v).micro.readMarks.contains (lineOf 0x40) = false)
    ∧ lineGet heldLine.data (0x40 % 64) 8 ≠ (5 : W64).toNat % 2 ^ (8 * 8) ∧ lineGet heldLine.data (0x40 % 64) 8 = (0x2000 : W64).toNat % 2 ^ (8 * 8) :=
  ⟨by rfl, by rfl, by rfl, .inr (by decide +kernel), by decide, by decide +kernel, by decide +kernel⟩

/-! Exceptions, barriers, system registers, TLBIs, regions, folly. -/
theorem test_sys_ready : SysReady (fetched (running hyp)) 0 ∧ noPavWait (fetched (running hyp)) ∧ InstrumentsOff (fetched (running hyp)) 0
    ∧ canCommit ((fetched (running hyp)).core 0) = true ∧ ((fetched (running hyp)).core 0).region = none ∧ irqFirst (fetched (running hyp)) 0 = false :=
  ⟨⟨by decide, by rfl, ⟨by decide, by decide⟩, by rfl⟩, (fun p h => by cases h), ⟨by decide, by decide⟩, by decide, by rfl, by decide⟩
theorem test_illegal_word : ReadyIllegal (running hyp) 0 0 (fetched (running hyp)) false := ⟨by decide, by decide, by decide, by decide, by rfl, by decide⟩
theorem test_guest_sys_ready : SysReady (fetched (guest sup)) 0 ∧ noPavWait (fetched (guest sup)) ∧ irqFirst (fetched (guest sup)) 0 = false
    ∧ ReadyS (.trapS 0xFFFF) ∧ ReadyH (.trapH 0) ∧ ReadyH (.trapB 1) ∧ sup.level ≠ .h ∧ hyp.level ≠ .u :=
  ⟨⟨by decide, by rfl, ⟨by decide, by decide⟩, by rfl⟩, (by unfold noPavWait; decide), by decide, ready_sup _ (by decide) (by decide), ready_hyp _ (by decide) (by decide),
   ready_hyp _ (by decide) (by decide), by decide, by decide⟩
/-- A return from H to S, to H with a bad target, and with PPL 0b11. -/
def back (ppl : W64) (epc : W64) : Arch := { hyp with excH := { estat := ppl, epc := epc } }
theorem test_eret : Ready (running (back 1 0x2000)) 0 (encodeCore .eret) .eret (fetched (running (back 1 0x2000))) false
    ∧ levelOf ((bankAt (back 1 0x2000) .h).estat.extractLsb' 0 2) = some .s ∧ canonical (bankAt (back 1 0x2000) .h).epc = true :=
  ⟨⟨by decide, by decide, by decide, by decide, by rfl, by decide, by decide⟩, by decide, by decide⟩
theorem test_eret_denied : Ready (running (back 3 0)) 0 (encodeCore .eret) .eret (fetched (running (back 3 0))) false
    ∧ SysReady (fetched (running (back 3 0))) 0 ∧ (bankAt (back 3 0) .h).estat.extractLsb' 0 2 = 3#2
    ∧ Ready (running (back 2 0x800000000000)) 0 (encodeCore .eret) .eret (fetched (running (back 2 0x800000000000))) false
    ∧ SysReady (fetched (running (back 2 0x800000000000))) 0 ∧ canonical (bankAt (back 2 0x800000000000) .h).epc = false :=
  ⟨⟨by decide, by decide, by decide, by decide, by rfl, by decide, by decide⟩, ⟨by decide, by rfl, ⟨by decide, by decide⟩, by rfl⟩, by decide,
   ⟨by decide, by decide, by decide, by decide, by rfl, by decide, by decide⟩, ⟨by decide, by rfl, ⟨by decide, by decide⟩, by rfl⟩, by decide⟩
theorem test_barriers : ReadyH .sync ∧ ReadyH .syncD ∧ ReadyH .syncT ∧ ReadyH .syncI ∧ syncReady (fetched (running hyp)) 0 = true :=
  ⟨ready_hyp _ (by decide) (by decide), ready_hyp _ (by decide) (by decide), ready_hyp _ (by decide) (by decide), ready_hyp _ (by decide) (by decide), by decide⟩
/-- Core 0 suspended in WFE. -/
def asleep : State := (running hyp).updCore 0 (fun c => { c with wfe := true })
theorem test_wfe : ReadyH .wfe ∧ ((fetched (running hyp)).core 0).spec.tr = ((fetched (running hyp)).core 0).arch.tr
    ∧ coreOn asleep 0 = true ∧ (asleep.core 0).wfe = true ∧ InstrumentsOff asleep 0 :=
  ⟨ready_hyp _ (by decide) (by decide), by rfl, by decide, by rfl, ⟨by decide, by decide⟩⟩
theorem test_system_register_reach : ReadyS (.mfs 1 0x400) ∧ ReadyS (.mts 1 0x7FF) ∧ ReadyH (.mfs 1 0x800) ∧ sysAssigned 0x0FF = false ∧ ReadyH (.mts 1 0x0FF) :=
  ⟨ready_sup _ (by decide) (by decide), ready_sup _ (by decide) (by decide), ready_hyp _ (by decide) (by decide), by decide, ready_hyp _ (by decide) (by decide)⟩
theorem test_system_register_moves : ReadyH (.mfs 1 0x401) ∧ ReadyH (.mts 2 0x406) ∧ sysDenied hyp (encodeCore (.mfs 1 0x401)) 0x401 = none
    ∧ sysDenied hyp (encodeCore (.mts 2 0x406)) 0x406 = none
    ∧ InstrumentsOff ((commitCore (fetched (running hyp)) 0).updCore 0 (fun c => unitWrite c 0x406 (gRead hyp 2))) 0 :=
  ⟨ready_hyp _ (by decide) (by decide), ready_hyp _ (by decide) (by decide), by rfl, by rfl, ⟨by decide, by decide⟩⟩
/-- g2 loads vCPU 0 of a pavilion that does not run. -/
def loading : Arch := gWrite hyp 2 0x10000
theorem test_context_writes : ReadyH (.mts 1 0x421) ∧ ReadyH (.mts 1 0x426) ∧ (gRead hyp 1).getLsbD 16 = false ∧ hyp.run = false
    ∧ Ready (running loading) 0 (encodeCore (.mts 2 0x426)) (.mts 2 0x426) (fetched (running loading)) false
    ∧ (gRead loading 2).getLsbD 16 = true ∧ ((fetched (running loading)).pav loading.tr.vmid).st ≠ .running :=
  ⟨ready_hyp _ (by decide) (by decide), ready_hyp _ (by decide) (by decide), by decide, by decide,
   ⟨by decide, by decide, by decide, by decide, by rfl, by decide, by decide⟩, by decide, by decide⟩
theorem test_tlbi : ReadyH (.tlbiVa 1) ∧ ReadyS (.tlbiVaa 1) ∧ ReadyH (.tlbiAsid 1) ∧ ReadyH (.tlbiIpa 1) ∧ ReadyH (.tlbiVmid 1) ∧ ReadyH .tlbiAll
    ∧ ((fetched (running hyp)).core 0).tlbis.length < 8 ∧ uncommitted ((fetched (running hyp)).core 0) = false :=
  ⟨ready_hyp _ (by decide) (by decide), ready_sup _ (by decide) (by decide), ready_hyp _ (by decide) (by decide),
   ready_hyp _ (by decide) (by decide), ready_hyp _ (by decide) (by decide), ready_hyp _ (by decide) (by decide), by decide, by decide⟩
/-- A TLBI is outstanding. -/
def invalidating : State := (running hyp).updCore 0 (fun c => { c with tlbis := [{ op := .ipa, ctx := 1, asid := 0, page := 1 }] })
theorem test_tlbi_completion : coreOn invalidating 0 = true ∧ storesOut invalidating = true ∧ ∃ x rest, (invalidating.core 0).tlbis = x :: rest ∧ x.op = .ipa :=
  ⟨by decide, by decide +kernel, _, _, rfl, by decide⟩
/-- Interrupts and notices wait for core 0, at H with IE set and at S in a pavilion. -/
def posted (s : State) (f : Core → Core) : State := s.updCore 0 f
def hypIe : Arch := { hyp with ieH := true }
def supIe : Arch := { sup with ieS := true }
/-- The whole hypothesis of the completion of INTERRUPT_ENTRY: a physical interrupt at H, one for a vCPU that WFE suspends, and a virtual one at S. -/
def physWaits : State := posted (running hypIe) (fun c => { c with phys := [0x2001] })
def physWakes : State := posted (guest sup) (fun c => { c with phys := [0x2001], wfe := true })
def virtWaits : State := posted (guest supIe) (fun c => { c with latch := [2, 3] })
theorem test_interrupt_entry_completes :
    (atBoundary physWaits 0 = true ∧ noPavWait physWaits ∧ physPending physWaits (physWaits.core 0) ≠ [] ∧ (physWaits.core 0).spec.ieH = true ∧ InstrumentsOff physWaits 0)
    ∧ (atBoundary physWakes 0 = true ∧ noPavWait physWakes ∧ physPending physWakes (physWakes.core 0) ≠ [] ∧ (physWakes.core 0).spec.level ≠ .h)
    ∧ (atBoundary virtWaits 0 = true ∧ noPavWait virtWaits ∧ physPending virtWaits (virtWaits.core 0) = [] ∧ (virtWaits.core 0).latch = 2 :: [3]
      ∧ (virtWaits.core 0).spec.level = .s ∧ (virtWaits.core 0).spec.ieS = true ∧ InstrumentsOff virtWaits 0)
    ∧ physTakes (running hyp) ((running hyp).core 0) = false ∧ virtTakes ((running hyp).core 0) = false ∧ atBoundary (running hyp) 0 = true ∧ noPavWait (running hyp) :=
  ⟨⟨by decide, (fun p h => by cases h), by decide, by decide, ⟨by decide, by decide⟩⟩, ⟨by decide, (by unfold noPavWait; decide), by decide, by decide⟩,
   ⟨by decide, (by unfold noPavWait; decide), by decide, by decide, by decide, by decide, ⟨by decide, by decide⟩⟩, by decide, by decide, by decide, (fun p h => by cases h)⟩
/-- The whole hypothesis of the completion of NOTICE_ENTRY: a notice to H, one to S, both while the vCPU is suspended, and none. -/
def oneNotice : Notice := { cls := 1, seq := 0 }
def noticeAtH : State := posted (running hypIe) (fun c => { c with noticeH := some oneNotice })
def noticeAtS : State := posted (guest supIe) (fun c => { c with noticeS := some oneNotice })
def noticeBoth : State := posted (guest supIe) (fun c => { c with noticeS := some oneNotice, noticeH := some { oneNotice with cls := 2 }, wfe := true })
theorem test_notice_entry_completes :
    (atBoundary noticeAtH 0 = true ∧ noPavWait noticeAtH ∧ physTakes noticeAtH (noticeAtH.core 0) = false ∧ virtTakes (noticeAtH.core 0) = false
      ∧ (noticeAtH.core 0).noticeH = some oneNotice ∧ (noticeAtH.core 0).noticeS = none ∧ (noticeAtH.core 0).spec.ieH = true)
    ∧ (atBoundary noticeAtS 0 = true ∧ noPavWait noticeAtS ∧ physTakes noticeAtS (noticeAtS.core 0) = false ∧ virtTakes (noticeAtS.core 0) = false
      ∧ (noticeAtS.core 0).noticeS = some oneNotice ∧ (noticeAtS.core 0).noticeH = none ∧ (noticeAtS.core 0).spec.level = .s ∧ (noticeAtS.core 0).spec.ieS = true)
    ∧ (atBoundary noticeBoth 0 = true ∧ noPavWait noticeBoth ∧ physTakes noticeBoth (noticeBoth.core 0) = false ∧ virtTakes (noticeBoth.core 0) = false
      ∧ (noticeBoth.core 0).noticeS = some oneNotice ∧ (noticeBoth.core 0).noticeH = some { oneNotice with cls := 2 } ∧ (noticeBoth.core 0).spec.level = .s)
    ∧ noticeHTakes ((running hyp).core 0) = false ∧ noticeSTakes ((running hyp).core 0) = false :=
  ⟨⟨by decide, (fun p h => by cases h), by decide, by decide, by decide, by decide, by decide⟩,
   ⟨by decide, (by unfold noPavWait; decide), by decide, by decide, by decide, by decide, by decide, by decide⟩,
   ⟨by decide, (by unfold noPavWait; decide), by decide, by decide, by decide, by decide, by decide⟩, by decide, by decide⟩
/-- The commit point behind one instruction. -/
def pointAt : Ckpt :=
  { actual := gWrite hyp 3 10, sbLen := 1, retLen := 1, ghist := 0, ras := [], block := none, blockPa := 0, entry := true, region := none, rix := 0, tick := [], fillLen := 0, markLen := 0, entLen := 0, syncs := [], fetch := [], spec := 32 }
/-- An instruction and a store of core 0 have executed, with a commit point behind them. -/
def uncommittedState : State := (running hyp).updCore 0 (fun c => { c with
  spec := gWrite c.spec 3 10, sb := [{ pa := 0x40, size := 8, data := 1, nc := false, committed := false }],
  retire := [{ pc := 0x0FFC, level := .h, events := [], cond := none, ind := none, blockEnd := none, pt := some pointAt }] })
theorem test_commit : coreOn uncommittedState 0 = true ∧ (uncommittedState.core 0).tickets = [] ∧ (uncommittedState.core 0).ckpts = []
    ∧ InstrumentsOff uncommittedState 0 ∧ atPoint (uncommittedState.core 0) = true := ⟨by decide, by rfl, by rfl, ⟨by decide, by decide⟩, by decide⟩
/-- A ticket of a later operation is outstanding. -/
def partState : State := uncommittedState.updCore 0 (fun c => { c with tickets := [(5, { dest := .g 4, val := 9, flags := 0, cf := none })] })
theorem test_commit_part : coreOn partState 0 = true ∧ InstrumentsOff partState 0 ∧ canCommit (partState.core 0) = false
    ∧ openPoint (partState.core 0) = some pointAt := ⟨by decide, ⟨by decide, by decide⟩, by decide, by rfl⟩
/-- The block at 0x1000 is hot. -/
def hotBlock : HotEntry := { pa := 0x1000, ctx := hypClass, fstyle := false, va := 0x1000, count := 8, due := true, sent := false }
def hot : State := (running hyp).updCore 0 (fun c => { c with micro := { hot := [hotBlock] } })
def hotRequest : Option (XlateReq × State) := requestFor hot 0 hotBlock
/-- The region is finished; its page, which is code-seen, holds an ADDI. -/
def finished : State :=
  let r : XlateReq := { vc := 0, key := { ctx := hypClass, asid := some 0, va := 0x1000, page := 1, fstyle := false }, pa := 0x1000, ipaPage := 1, u := false, pred := [], ghist := 0 }
  let x : L2Line := { st := .e, data := (encodeCore (.ri .addi 1 1 1)).setWidth 512, pres := [], cls := hypClass }
  { running hyp with fab := { clusters := [(0, { ready := [r], l2 := [(0x40, x)] })], homes := [((running hyp).pageHome 1, { pages := [1] })] } }
theorem test_regions : coreOn hot 0 = true ∧ uncommitted (hot.core 0) = false ∧ hotRequest.isSome = true
    ∧ (hot.core 0).micro.hot.find? (fun h => h.due && !h.sent && h.ctx == ctxOf (hot.core 0).spec && h.fstyle == hot.fStyleOf (hot.core 0).spec) = some hotBlock
    ∧ translatorOf hot (hot.clusterOf 0) = some 0 ∧ (hot.cluster 0).xlq.length < 16
    ∧ coreOn finished 0 = true ∧ translatorOf finished (finished.clusterOf 0) = some 0 ∧ (finished.core 0).entry = true
    ∧ ∃ r, (finished.cluster 0).ready.find? (fun r => r.vc == 0) = some r ∧ (regionFor finished 0 r).any (fun p => !p.1.courses.isEmpty) = true :=
  ⟨by decide, by decide, by decide, by rfl, by rfl, by decide, by decide, by rfl, by decide, ⟨_, rfl, by decide +kernel⟩⟩
/-- PMU_PACE holds all ones and counts at H. -/
def pacing : State := (running hyp).updCore 0 (fun c => { c with pmu := { ctl := 0b110001, cnt := [(6, BitVec.allOnes 64)] } })
theorem test_pace_overflow : coreOn pacing 0 = true ∧ (pacing.core 0).wfe = false ∧ pmuRuns (pacing.core 0).pmu = true ∧ countsPaces (pacing.core 0).pmu 6 = true
    ∧ pmuAdmits (pacing.core 0).pmu 6 (pacing.core 0).spec.level = true ∧ pmuCnt (pacing.core 0).pmu 6 = BitVec.allOnes 64
    ∧ pmuChained (pacing.core 0).pmu 7 = false ∧ pmuGranted (pacing.core 0).pmu 6 = false := by decide
/-- Folly index 5 holds one course of NOPs that the hypervisor may execute; index 6 is not granted. -/
def loaded : State :=
  let e : FollyEntry := { image := [0, 0, 0, 0, 0, 0, 1], hyp := true, grant := 0, bank := false }
  { running hyp with gate := { folly := [(5, e), (6, { e with hyp := false })] } }
def loaded1 : State := fetched loaded
def loaded3 : State := (commitCore loaded1 0).free.2
def nopWord : FWord := { base := loaded3, vc := 0, rd := 1, ra := 2, rb := 3, imm7 := 0, fs := false, arch := hyp, fills := (commitCore loaded1 0).free.1.getLsbD 0 }
def nopRun : FStep FRun := flyCourses nopWord (coursesOf [0, 0, 0, 0, 0, 0, 1]) 0 { s := flyMark loaded3 0, a := hyp }
theorem test_folly : Ready loaded 0 (encodeCore (.folly 5 1 2 3 0)) (.folly 5 1 2 3 0) loaded1 false ∧ follyAllowed loaded1 hyp 5 = true
    ∧ (commitCore loaded1 0).mode = .service ∧ loaded3.fStyleOf hyp = false
    ∧ (match nopRun with | .ok r => ((flyDrain nopWord 192 r).s.core 0).owait == false && ((flyDrain nopWord 192 r).s.core 0).pmu.ctl == 0
        && ((flyDrain nopWord 192 r).s.core 0).trc.ctl == 0 | .error _ => false) = true :=
  ⟨⟨by decide, by decide, by decide, by decide, by rfl, by decide, by decide⟩, by decide, by decide, by decide, by decide +kernel⟩
theorem test_folly_denied : Ready loaded 0 (encodeCore (.folly 6 1 2 3 0)) (.folly 6 1 2 3 0) loaded1 false ∧ SysReady loaded1 0
    ∧ (∃ e, mget? loaded1.gate.folly 6 = some e ∧ e.hyp = false) ∧ mget? loaded1.gate.folly 7 = none :=
  ⟨⟨by decide, by decide, by decide, by decide, by rfl, by decide, by decide⟩, ⟨by decide, by rfl, ⟨by decide, by decide⟩, by rfl⟩, ⟨_, rfl, by decide⟩, by rfl⟩

/-! Commands of the Gatehouse. -/
/-- A command with tag 7: opcode, length, flags, target and the bytes from offset 16 on. -/
def pk (op len flags target body : Nat) : Packet := BitVec.ofNat 2048 (op + 2 ^ 16 * 7 + 2 ^ 48 * len + 2 ^ 56 * flags + 2 ^ 64 * target + 2 ^ 128 * body)
/-- The same, named to a slate. -/
def pkIn (id : Nat) (p : Packet) : Packet := p ||| BitVec.ofNat 2048 (2 ^ 32 * id)
/-- Lane 0, with every right, presents a command. -/
def asked (s : State) (p : Packet) : State := s.setLane 0 { rights := 0x1FFF, cur := some p }
/-- SERVICE, with pavilion 1 as given. -/
def withPav (v : Pavilion) : State := served { State.reset with pavs := [(1, v)] }
def idleService : State := served State.reset
theorem test_by_mailbox (s : State) (p : Packet) : ByMailbox (asked s p) 0 := ⟨by simp [asked, State.lane, State.setLane], by simp [asked, State.lane, State.setLane]⟩

def pQos : Packet := pk 0x0501 2 0 0x100 (100 + 2 ^ 16)
theorem test_qos_mem_accepts : Accepts (asked idleService pQos) 0 cfgQosMemSet pQos :=
  ⟨⟨by decide +kernel, by decide +kernel, by decide +kernel⟩, by decide +kernel, by decide +kernel, by rfl, by decide +kernel⟩
def pWays : Packet := pk 0x0502 2 0 0x100 0x00FF
theorem test_qos_cache_accepts : Accepts (asked idleService pWays) 0 cfgQosCacheSet pWays :=
  ⟨⟨by decide +kernel, by decide +kernel, by decide +kernel⟩, by decide +kernel, by decide +kernel, by rfl, by decide +kernel⟩
def pTenure : Packet := pk 0x0503 2 0 1 (512 + 2 ^ 16 * 3)
theorem test_qos_arb_accepts : Accepts (asked (withPav { st := .defined }) pTenure) 0 cfgQosArbSet pTenure :=
  ⟨⟨by decide +kernel, by decide +kernel, by decide +kernel⟩, by decide +kernel, by decide +kernel, by rfl, by decide +kernel⟩
def pRate : Packet := pk 0x0504 2 0 1 5
theorem test_qos_rate_accepts : Accepts (asked (withPav { st := .defined }) pRate) 0 cfgQosIrqRateSet pRate :=
  ⟨⟨by decide +kernel, by decide +kernel, by decide +kernel⟩, by decide +kernel, by decide +kernel, by rfl, by decide +kernel⟩
/-- Slate 3 of lane 0 is open, as given. -/
def slated (k : Slate) (p : Packet) : State := asked { idleService with gate := { slates := [(3, k)] } } p
def openSlate : Slate := { lane := 0, cmds := [], idle := 60, begun := 0, last := 0, armed := none, tag := 0 }
theorem test_staging : Passes (slated openSlate (pkIn 3 pQos)) 0 cfgQosMemSet.spec (pkIn 3 pQos) (cfgQosMemSet.packet (slated openSlate (pkIn 3 pQos)) (pkIn 3 pQos))
    ∧ pkSlate (pkIn 3 pQos) ≠ 0 ∧ mget? (slated openSlate (pkIn 3 pQos)).gate.slates (pkSlate (pkIn 3 pQos)) = some openSlate :=
  ⟨⟨by decide +kernel, by decide +kernel, by decide +kernel⟩, by decide +kernel, by decide +kernel⟩
theorem test_staging_reads_nothing_filled : readWaits (slated openSlate (pkIn 3 pQos)) (cfgQosMemSet.reads (pkIn 3 pQos)).1 (cfgQosMemSet.reads (pkIn 3 pQos)).2 = false := by decide +kernel
theorem test_no_right : presented ((asked idleService pQos).setLane 0 { cur := some pQos }) 0 cfgQosMemSet.spec.op = some pQos
    ∧ (((asked idleService pQos).setLane 0 { cur := some pQos }).lane 0).rights.getLsbD cfgQosMemSet.spec.right = false := by decide +kernel
theorem test_wrong_mode : presented ((asked idleService pQos).setMode .rest) 0 cfgQosMemSet.spec.op = some pQos
    ∧ (((asked idleService pQos).setMode .rest).lane 0).rights.getLsbD cfgQosMemSet.spec.right = true
    ∧ cfgQosMemSet.spec.modes.getLsbD (modeCode ((asked idleService pQos).setMode .rest).mode) = false := by decide +kernel

/-- A length that no row has; a command whose reply is owed while the Gatehouse restarts. -/
def pLong : Packet := pk 0x0501 3 0 0x100 0
theorem test_wrong_length : presented (asked idleService pLong) 0 cfgQosMemSet.spec.op = some pLong ∧ ((asked idleService pLong).lane 0).rights.getLsbD cfgQosMemSet.spec.right = true
    ∧ pkSlate pLong = 0 ∧ cfgQosMemSet.spec.modes.getLsbD (modeCode (asked idleService pLong).mode) = true ∧ pkLength pLong ≠ cfgQosMemSet.spec.len := by decide +kernel
def restartedAsked : State := let s := asked idleService pQos; { s with gate := { s.gate with restart := true } }
theorem test_replies : (restartedAsked.lane 0).cur = some pQos ∧ restartedAsked.gate.restart = true ∧ ((asked idleService pQos).lane 0).cur = some pQos
    ∧ (asked idleService pQos).gate.restart = false := by decide +kernel
def pStart : Packet := pk 0x0203 1 0 1 0
def pDestroy : Packet := pk 0x0202 1 0 1 0
def pStop : Packet := pk 0x0204 1 0 1 0
def pReset : Packet := pk 0x0205 1 0 1 0
theorem test_pav_start_accepts : Accepts (asked (withPav { st := .defined }) pStart) 0 cfgPavStart pStart :=
  ⟨⟨by decide +kernel, by decide +kernel, by decide +kernel⟩, by decide +kernel, by decide +kernel, by rfl, by decide +kernel⟩
theorem test_pav_destroy_accepts : Accepts (asked (withPav { st := .stopped }) pDestroy) 0 cfgPavDestroy pDestroy :=
  ⟨⟨by decide +kernel, by decide +kernel, by decide +kernel⟩, by decide +kernel, by decide +kernel, by rfl, by decide +kernel⟩
theorem test_pav_stop_passes : Passes (asked (withPav { st := .running }) pStop) 0 specPavStop pStop []
    ∧ ((asked (withPav { st := .running }) pStop).pav (pkPav pStop)).st = .running
    ∧ ((asked (withPav { st := .running }) pStop).pav (pkPav pStop)).wait = none ∧ pavExited (asked (withPav { st := .running }) pStop) 1 = true :=
  ⟨⟨by decide +kernel, by decide +kernel, by decide +kernel⟩, by decide +kernel, by decide +kernel, by decide +kernel⟩
/-- Core 0 runs vCPU 0 of pavilion 1. -/
def inPav : State := { withPav { st := .running, nvcpu := 1 } with cores := [(0, coreAt { sup with run := true })] }
theorem test_pav_reset_passes : Passes (asked inPav pReset) 0 specPavReset pReset [] ∧ ((asked inPav pReset).pav (pkPav pReset)).st = .running
    ∧ ((asked inPav pReset).pav (pkPav pReset)).wait = none ∧ pavExited (asked inPav pReset) 1 = false :=
  ⟨⟨by decide +kernel, by decide +kernel, by decide +kernel⟩, by decide +kernel, by decide +kernel, by decide +kernel⟩

/-- 2 MiB at 4 MiB for the hypervisor class. -/
def pAssign : Packet := pk 0x0301 2 0 0x100 (0x400000 + 2 ^ 64 * 0x200000)
def pRelease : Packet := pk 0x0302 2 0 0x100 (0x400000 + 2 ^ 64 * 0x200000)
def ranged : State := { idleService with gate := { ranges := [{ owner := 0x100, base := 0x400000, len := 0x200000 }] } }
theorem test_mem_assign_accepts : Accepts (asked idleService pAssign) 0 cfgMemAssign pAssign :=
  ⟨⟨by decide +kernel, by decide +kernel, by decide +kernel⟩, by decide +kernel, by decide +kernel, by rfl, by decide +kernel⟩
theorem test_mem_release_accepts : Accepts (asked ranged pRelease) 0 cfgMemRelease pRelease :=
  ⟨⟨by decide +kernel, by decide +kernel, by decide +kernel⟩, by decide +kernel, by decide +kernel, by rfl, by decide +kernel⟩
theorem test_mem_assign_overlap : Passes (asked ranged pAssign) 0 cfgMemAssign.spec pAssign (cfgMemAssign.packet (asked ranged pAssign) pAssign)
    ∧ pkSlate pAssign = 0 ∧ ownerExists (asked ranged pAssign) (pkTarget pAssign) = true
    ∧ dramHolds (asked ranged pAssign) (pkGet pAssign 16 8) (pkGet pAssign 24 8) = true
    ∧ ∃ q ∈ (asked ranged pAssign).gate.ranges, pkGet pAssign 16 8 < q.base + q.len ∧ q.base < pkGet pAssign 16 8 + pkGet pAssign 24 8 :=
  ⟨⟨by decide +kernel, by decide +kernel, by decide +kernel⟩, by decide +kernel, by decide +kernel, by decide +kernel, by decide +kernel⟩

def pBegin : Packet := pk 0x0901 2 0 0 3600
def pStatus : Packet := pk 0x0904 1 0 3 0
theorem test_slate_begin : Passes (asked idleService pBegin) 0 specSlateBegin pBegin [(16, decide (pkGet pBegin 16 2 ≤ 3600)), (18, pkZero pBegin 18 14)]
    ∧ (asked idleService pBegin).gate.slates.length < 16 :=
  ⟨⟨by decide +kernel, by decide +kernel, by decide +kernel⟩, by decide +kernel⟩
theorem test_slate_rollback : presented (slated openSlate (pkIn 3 (pk 0x0903 1 0 0 0))) 0 0x0903 = some (pkIn 3 (pk 0x0903 1 0 0 0))
    ∧ earlyChecks (slated openSlate (pkIn 3 (pk 0x0903 1 0 0 0))) 0 specSlateRollback (pkIn 3 (pk 0x0903 1 0 0 0)) true [] = none := by decide +kernel
theorem test_slate_status : Passes (slated openSlate pStatus) 0 specSlateStatus pStatus [] ∧ mget? (slated openSlate pStatus).gate.slates (pkTarget pStatus) = some openSlate :=
  ⟨⟨by decide +kernel, by decide +kernel, by decide +kernel⟩, by decide +kernel⟩
def pCommit : Packet := pkIn 3 (pk 0x0902 1 0 0 0)
/-- A slate with one budget; one whose second command starts a pavilion that does not exist; one that is armed. -/
def staged1 : Slate := { openSlate with cmds := [{ pkt := pkIn 3 pQos, seq := 0, image := [] }] }
def staged2 : Slate := { openSlate with cmds := [{ pkt := pkIn 3 pQos, seq := 0, image := [] }, { pkt := pkIn 3 pStart, seq := 0, image := [] }] }
theorem test_slate_commit : presented (slated staged1 pCommit) 0 0x0902 = some pCommit
    ∧ earlyChecks (slated staged1 pCommit) 0 specSlateCommit pCommit true [] = none ∧ ownSlate (slated staged1 pCommit) 0 (pkSlate pCommit) = some staged1
    ∧ armedAny (slated staged1 pCommit) = false
    ∧ (runSlate (slated staged1 pCommit) staged1.cmds 0 (slated staged1 pCommit) []).isRight = true
    ∧ (runSlate (slated staged2 pCommit) staged2.cmds 0 (slated staged2 pCommit) []).isLeft = true := by decide +kernel
theorem test_slate_instant : mget? (slated { staged1 with armed := some 5000 } pCommit).gate.slates (3#16).toNat = some { staged1 with armed := some 5000 }
    ∧ (slated { staged1 with armed := some 5000 } pCommit).qz.time ≤ 5000 := by decide +kernel

/-! Modes, reports, lanes, transports. -/
/-- The header of an image: the hypervisor at 64 MiB, 2 MiB long, entry 0x4001000. -/
def hdr0 : SlotHdr := { debug := false, fwVersion := 1, hvOff := 0x1000, hvLen := 0x1000, safeLen := 0, rate := 6400, org := 0, vddSet := 800, lanes := 0, loadPa := 0x4000000, entry := 0x4001000, range := 0x200000, safeStatic := 0, pfBarK := 20, vfBarK := 12, pciId := 0x12345678 }
def pService : Packet := pk 0x0102 2 0 0 2
/-- ASSEMBLY, with the copy over or under way. -/
def assembled (done : Bool) : State :=
  let s := served State.reset
  { s with dev := { s.dev with mode := .assembly, hdr := some hdr0, hvDone := done } }
def own102 (p : Packet) : List (Nat × Bool) := [(16, pkGet p 16 1 == 2), (17, pkZero p 17 15)]
theorem test_mode_set_ready : Passes (asked (assembled true) pService) 0 specModeSet pService (own102 pService)
    ∧ (asked (assembled true) pService).dev.hdr = some hdr0 ∧ (asked (assembled true) pService).dev.hvDone = true :=
  ⟨⟨by decide +kernel, by decide +kernel, by decide +kernel⟩, by decide +kernel, by decide +kernel⟩
theorem test_mode_set_waits : Passes (asked (assembled false) pService) 0 specModeSet pService (own102 pService)
    ∧ (asked (assembled false) pService).dev.hvDone = false ∧ (asked (assembled false) pService).gate.slates = [] :=
  ⟨⟨by decide +kernel, by decide +kernel, by decide +kernel⟩, by decide +kernel, by decide +kernel⟩
/-- The copy has failed its check (14 R440). -/
def assembledBad : State := { assembled true with dev := { (assembled true).dev with hvBad := true } }
theorem test_mode_set_refused : Passes (asked assembledBad pService) 0 specModeSet pService (own102 pService)
    ∧ (asked assembledBad pService).mode = .assembly ∧ (asked assembledBad pService).dev.hvBad = true
    ∧ (asked (assembled true) pService).dev.hvBad = false ∧ (asked (assembled false) pService).dev.hvBad = false :=
  ⟨⟨by decide +kernel, by decide +kernel, by decide +kernel⟩, by decide +kernel, by decide +kernel, by decide +kernel, by decide +kernel⟩
/-- REST, with the wake events of the mask. -/
def resting (wake : BitVec 7) : State :=
  let s := served State.reset
  { s with dev := { s.dev with mode := .rest, wake := wake }, dram := { s.dram with selfRefresh := true } }
theorem test_mode_set_wakes : Passes (asked (resting 1) pService) 0 specModeSet pService (own102 pService)
    ∧ (asked (resting 1) pService).mode = .rest ∧ (asked (resting 1) pService).dev.held = [] ∧ (asked (resting 1) pService).gate.voltReq = none :=
  ⟨⟨by decide +kernel, by decide +kernel, by decide +kernel⟩, by decide +kernel, by decide +kernel, by decide +kernel⟩
def pRest : Packet := pk 0x0105 2 0 0 127
theorem test_rest_enter : Heard (asked idleService pRest) 0 specRestEnter pRest
    [(16, decide (1 ≤ pkGet pRest 16 8 ∧ pkGet pRest 16 8 < 128)), (24, pkZero pRest 24 8)]
    ∧ restBarred (asked idleService pRest) = false ∧ (asked idleService pRest).gate.restReq = none :=
  ⟨⟨by decide +kernel, by decide +kernel⟩, by decide +kernel, by decide +kernel⟩
/-- REST_ENTER waits; every core is suspended at H, or core 0 is not. -/
def restWaits (idle : Bool) : State :=
  let s := asked idleService pRest
  { s with gate := { s.gate with restReq := some (0, 7, 127, 0) },
           cores := (List.range 64).map (fun i => (i, { coreAt hyp with wfe := idle || i != 0 })) }
theorem test_rest_entry : ((restWaits true).lane 0).cur = some pRest ∧ (restWaits true).gate.restReq = some (0, 7, 127, 0) ∧ (restWaits true).mode = .service
    ∧ (∀ v ∈ (restWaits true).allCores, restIdle ((restWaits true).core v) = true) ∧ fabricQuiet (restWaits true) = true ∧ armedAny (restWaits true) = false
    ∧ (127#7).getLsbD (0#3).toNat = true ∧ (restWaits true).gate.restart = false ∧ ((restWaits true).lane 0).curRing = false
    ∧ ((restWaits true).lane 0).postEn = false ∧ (∀ k, k < 8 → ((restWaits true).home k).txns = []) := by decide +kernel
theorem test_rest_expiry : (restWaits false).gate.restReq = some (0, 7, 127, 0) ∧ ∃ v ∈ (restWaits false).allCores, restIdle ((restWaits false).core v) = false := by decide +kernel
theorem test_rest_wake : (resting 1).mode = .rest ∧ (resting 1).dev.wake.getLsbD (0#3).toNat = true ∧ (resting 1).dev.held = []
    ∧ (resting 1).dev.wake.getLsbD (6#3).toNat = false := by decide +kernel
/-- 650 mV and 950 mV. -/
def pVolt (mv : Nat) : Packet := pk 0x0104 2 0 0 mv
def ownVolt (p : Packet) : List (Nat × Bool) := [(16, decide (650 ≤ pkGet p 16 2 ∧ pkGet p 16 2 ≤ 950 ∧ pkGet p 16 2 % 5 = 0)), (18, pkZero p 18 14)]
theorem test_voltage_set : Heard (asked idleService (pVolt 650)) 0 specVoltageSet (pVolt 650) (ownVolt (pVolt 650))
    ∧ Heard (asked idleService (pVolt 950)) 0 specVoltageSet (pVolt 950) (ownVolt (pVolt 950)) ∧ (asked idleService (pVolt 650)).gate.voltReq = none
    ∧ (asked idleService (pVolt 650)).dev.vid.toNat ≠ (pkGet (pVolt 650) 16 2 - 650) / 5 ∧ idleService.dev.vid.toNat ≠ (pkGet (pVolt 950) 16 2 - 650) / 5 :=
  ⟨⟨by decide +kernel, by decide +kernel⟩, ⟨by decide +kernel, by decide +kernel⟩, by decide +kernel, by decide +kernel, by decide +kernel⟩
/-- CORE_VID is one step from the code asked for, and VOLTAGE_SET waits. -/
def stepping : State :=
  let s := asked idleService (pVolt 805)
  { s with gate := { s.gate with voltReq := some (0, 7) }, dev := { s.dev with vidReq := 31, vidSet := 31 } }
/-- The device rests at the lowest code and its setpoint waits; a first step before the PLL has locked. -/
def restingVid : State := { stepping with dev := { stepping.dev with vidReq := 0 } }
theorem test_vid_step : stepping.dev.vid ≠ stepping.dev.vidReq ∧ stepping.dev.rails.getLsbD 8 = true ∧ stepping.dev.porst = false ∧ stepping.therm.trip = false
    ∧ stepping.gate.voltReq = some (0, 7) ∧ (stepping.lane 0).cur = some (pVolt 805) ∧ stepping.dev.vidSet = stepping.dev.vidReq ∧ stepping.gate.restart = false
    ∧ stepping.dev.vid + 1 = stepping.dev.vidReq ∧ stepping.dev.vid.toNat < stepping.dev.vidReq.toNat
    ∧ restingVid.dev.vid ≠ restingVid.dev.vidReq ∧ restingVid.dev.vidSet ≠ restingVid.dev.vidReq ∧ restingVid.gate.voltReq = some (0, 7) := by decide +kernel

def pDevReset : Packet := pk 0x0103 2 0 0 0xA5A55A5A
theorem test_device_reset : Heard (asked idleService pDevReset) 0 specDeviceReset pDevReset [(16, pkGet pDevReset 16 4 == 0xA5A55A5A), (20, pkZero pDevReset 20 12)] :=
  ⟨by decide +kernel, by decide +kernel⟩
/-- DEVICE_RESET has been accepted; a supply is out of range. -/
def resetting (rails : BitVec 9) : State :=
  { idleService with gate := { resetAt := some 0 }, dev := { idleService.dev with rails := rails } }
theorem test_device_reset_effect : (resetting 0x1FE).gate.resetAt = some 0 ∧ supplied (resetting 0x1FE).dev = false ∧ supplied (resetting 0x1FF).dev = true := by decide +kernel
def pStage (last : Bool) : Packet := pk 0x0802 2 (if last then 1 else 0) 0 (0x1000 + 2 ^ 64 * 0x100000 + 2 ^ 96 * 64)
theorem test_fw_stage : ∀ last, Heard (asked (rowsFull idleService) (pStage last)) 0 specFwUpdateStage (pStage last)
    [(24, decide (fuLen (pStage last) ≤ 0x100000)), (28, decide (fuOff (pStage last) + fuLen (pStage last) ≤ slotSize))]
    ∧ dramHolds (asked (rowsFull idleService) (pStage last)) (fuPa (pStage last)) (fuLen (pStage last)) = true
    ∧ readWaits (asked (rowsFull idleService) (pStage last)) (fuPa (pStage last)) (fuLen (pStage last)) = false := by
  intro last; cases last <;> exact ⟨⟨by decide +kernel, by decide +kernel⟩, by decide +kernel, by decide +kernel⟩
/-- The fill stands before the image's rows. -/
def stageWaits : State := let s := asked idleService (pStage true); { s with dram := { s.dram with fill := 1 } }
theorem test_fw_stage_waits : Heard stageWaits 0 specFwUpdateStage (pStage true)
    [(24, decide (fuLen (pStage true) ≤ 0x100000)), (28, decide (fuOff (pStage true) + fuLen (pStage true) ≤ slotSize))]
    ∧ readWaits stageWaits (fuPa (pStage true)) (fuLen (pStage true)) = true := ⟨⟨by decide +kernel, by decide +kernel⟩, by decide +kernel⟩
def pActivate (live : Nat) : Packet := pk 0x0803 2 live 0 1
theorem test_fw_activate : Heard (asked idleService (pActivate 0)) 0 specFwActivate (pActivate 0) [(16, decide (pkGet (pActivate 0) 16 1 ≤ 1)), (17, pkZero (pActivate 0) 17 15)]
    ∧ Heard (asked idleService (pActivate 1)) 0 specFwActivate (pActivate 1) [(16, decide (pkGet (pActivate 1) 16 1 ≤ 1)), (17, pkZero (pActivate 1) 17 15)]
    ∧ (asked idleService (pActivate 1)).gate.slates = [] :=
  ⟨⟨by decide +kernel, by decide +kernel⟩, ⟨by decide +kernel, by decide +kernel⟩, by decide +kernel⟩
/-- The Gatehouse restarts for a live activation. -/
def restarting : State :=
  let s := idleService.setLane 0 { rights := 0x1FFF, cur := some (pActivate 1), begun := true }
  { s with gate := { s.gate with restart := true } }
theorem test_gatehouse_restart : idleService.gate.restart = false ∧ mismatchOver idleService 5 (recentTimes idleService idleService.gate.mismatches (mismatchWindow idleService 5)) = false
    ∧ activating restarting = some (0, true) ∧ (∀ m, (restarting.lane m).held = false) ∧ restarting.gate.byBlv = false
    ∧ activating { idleService with gate := { restart := true } } = none
    ∧ idleService.mode ≠ .cold ∧ idleService.mode ≠ .rest ∧ idleService.gate.restReq = none ∧ (∀ m, (restarting.lane m).owed = none) := by decide +kernel
/-- COLD runs, at its first start or after a mismatch. -/
def coldRuns (again : Bool) : State :=
  { served State.reset with dev := { (served State.reset).dev with mode := .cold, coldRun := true, coldRetry := again, idle := false } }
theorem test_cold_restart : ∀ b, (coldRuns b).dev.porst = false ∧ (coldRuns b).therm.trip = false ∧ (coldRuns b).gate.byBlv = false
    ∧ (coldRuns b).gate.restart = false ∧ (coldRuns b).mode = .cold ∧ (coldRuns b).dev.coldRun = true ∧ (coldRuns b).dev.coldRetry = b := by decide +kernel
/-- A reply of lane 0 is owed while the Gatehouse restarts; a command of lane 0 has none yet. -/
def owing : State :=
  let s := idleService.setLane 0 { rights := 0x1FFF, cur := some pDevReset, begun := true, owed := some (9, true) }
  { s with gate := { s.gate with restart := true } }
theorem test_owed_reply : owing.gate.restart = true ∧ (∀ m, (owing.lane m).held = false ∧ (m ≠ 0 → (owing.lane m).owed = none)) ∧ activating owing = none
    ∧ (owing.lane 0).owed = some (9, true) ∧ (owing.lane 0).cur = some pDevReset ∧ (owing.lane 0).begun = true
    ∧ (restarting.lane 0).cur = some (pActivate 1) ∧ (restarting.lane 0).curRing = false ∧ (restarting.lane 0).postEn = false := by decide +kernel

def pInfo : Packet := pk 0x0101 1 0 0 0
def pLog : Packet := pk 0x0701 2 0 0 (2 ^ 64 * 5)
def pClear : Packet := pk 0x0702 2 0 0 3
def pUnit : Packet := pk 0x0704 1 0 0xFF03 0
theorem test_reports : Heard (asked idleService pInfo) 0 { op := 0x0101, len := 1, modes := mAll, stage := false, right := rInfo } pInfo []
    ∧ Heard (asked idleService pLog) 0 { op := 0x0701, len := 2, modes := mAll, stage := false, right := rInfo } pLog
        [(24, decide (1 ≤ pkGet pLog 24 1 ∧ pkGet pLog 24 1 ≤ 5)), (25, pkZero pLog 25 7)]
    ∧ Heard (asked idleService pClear) 0 { op := 0x0702, len := 2, modes := mAS, stage := false, right := rFault } pClear [(24, pkZero pClear 24 8)]
    ∧ Heard (asked idleService pUnit) 0 { op := 0x0704, len := 1, modes := mAll, stage := false, right := rInfo, target := 0xFFFFFF } pUnit
        [(8, unitExists (pkTarget pUnit % 256) (pkTarget pUnit / 256))] ∧ laneReached idleService 1 = true :=
  ⟨⟨by decide +kernel, by decide +kernel⟩, ⟨by decide +kernel, by decide +kernel⟩, ⟨by decide +kernel, by decide +kernel⟩,
   ⟨by decide +kernel, by decide +kernel⟩, by decide +kernel⟩

/-- Lane 1 is idle with DEVICE_INFO in its mailbox, or has answered it before, or its ring runs. -/
def laned (l : Lane) : State := (rowsFull idleService).setLane 1 l
def mailLane : Lane := { rights := 0x1FFF, busy := false, mbCmd := pInfo }
/-- The Gatehouse restarts while lane 1 is idle. -/
def mailHeld : State := let s := laned mailLane; { s with gate := { s.gate with restart := true } }
theorem test_doorbell_held : laneReached mailHeld 1 = true ∧ (mailHeld.lane 1).busy = false ∧ (mailHeld.lane 1).cur = none ∧ (mailHeld.lane 1).ringEn = false
    ∧ mailHeld.gate.restart = true ∧ ((laned mailLane).lane 1).cur = none ∧ (laned mailLane).gate.restart = false
    ∧ laneReached (laned { mailLane with cur := some pInfo }) 1 = true := by decide +kernel
def ringLane : Lane := { mailLane with ringEn := true, crBase := 0x10000, rrBase := 0x20000, crTail := 1 }
theorem test_doorbell : laneReached (laned mailLane) 1 = true ∧ laneServed (laned mailLane) 1 = true ∧ ((laned mailLane).lane 1).busy = false
    ∧ mailLane.recent.find? (fun r => r.1 == trimPacket pInfo) = none ∧ assignedOp (pkOpcode (trimPacket pInfo)) = true
    ∧ [(trimPacket pInfo, (5 : Packet))].find? (fun r => r.1 == trimPacket pInfo) = some (trimPacket pInfo, 5) := by decide +kernel
theorem test_ring_registers : ringPlaceOk (laned ringLane) ringLane.crBase.toNat (ringBytes ringLane) = true
    ∧ ringPlaceOk (laned ringLane) ringLane.rrBase.toNat (ringBytes ringLane) = true ∧ (4#32 - ringLane.crHead).toNat ≤ 2 ^ ringLane.size.toNat
    ∧ 2 ^ ringLane.size.toNat < (5#32 - ringLane.crHead).toNat := by decide +kernel
/-- The slot at the head of lane 1's ring holds DEVICE_INFO, in a line that the home has. -/
def ringed : State :=
  let x : ScLine := { data := BitVec.ofNat 512 (0x0101 + 2 ^ 16 * 7 + 2 ^ 48), dirty := false, way := 0, nru := false, cls := devClass }
  let s := laned ringLane
  { s with fab := { homes := [(s.homeNo (lineOf 0x10000), { sc := [(0x400, x)] })] } }
theorem test_ring_take : checkRing ringed 1 = ringed ∧ ringLane.cur = none ∧ ringLane.crHead ≠ ringLane.crTail
    ∧ (∃ s1, readPieces 0x10000 (slotPieces (readSlotPacket ringed 0x10000)) ringed = some s1 ∧ s1.lane 1 = ringLane)
    ∧ assignedOp (pkOpcode (trimPacket (readSlotPacket ringed 0x10000))) = true
    ∧ laneServed ringed 1 = true ∧ lanesServed ringed = true ∧ rowFilled ringed.dram (lineOf (ringSlot ringLane.rrBase ringLane.size ringLane.rrTail + 255)) = true := by
  have h : ((readPieces 0x10000 (slotPieces (readSlotPacket ringed 0x10000)) ringed).map (fun s => s.lane 1)) = some ringLane := by decide +kernel
  obtain ⟨s1, hs, hl⟩ := Option.map_eq_some_iff.mp h
  exact ⟨by decide +kernel, by decide +kernel, by decide +kernel, ⟨s1, hs, hl⟩, by decide +kernel, by decide +kernel, by decide +kernel, by decide +kernel⟩
theorem test_transports : idleService.dev.porst = false ∧ idleService.therm.trip = false ∧ idleService.dev.rails.getLsbD 3 = true
    ∧ idleService.dev.rails.getLsbD 8 = true ∧ idleService.mgmt.dyn = none := by decide +kernel

/-! Reset, faults, memory. -/
theorem test_porst_release : State.reset.dev.porst = true ∧ State.reset.mode = .cold ∧ State.reset.dev.coldRun = false ∧ State.reset.dev.coldHeld = false := by decide
/-- COLD with PORST_N high; one rail, or REFCLK, is missing. -/
def waiting (rails : BitVec 9) (ref : Bool) : State := { State.reset with dev := { State.reset.dev with porst := false, rails := rails, refclk := ref } }
theorem test_supply : (waiting 0x1FE true).mode = .cold ∧ supplied (waiting 0x1FE true).dev = false ∧ (waiting 0x1FE true).dev.rails ||| (1#9 <<< (0#4).toNat) = 0x1FF
    ∧ supplied (waiting 0x1FF false).dev = false ∧ (waiting 0x1F0 true).dev.rails ||| (1#9 <<< (0#4).toNat) ≠ 0x1FF
    ∧ (waiting 0x0FF true).dev.rails.getLsbD 8 = false ∧ (waiting 0x0FF true).mode ≠ .belvedere := by decide +kernel
/-- COLD waits for the PLL; slot A boots (its header is written out, 800 mV and BAR sizes 20 and 12), or neither slot does. -/
def bootable : SMap Byte := [(0, 0x42), (1, 0x4F), (2, 0x4F), (3, 0x54), (4, 1), (68, 0x20), (69, 3), (274, 20), (275, 12)]
def bootSeen : BootObs :=
  { authA := true, authB := true, flashA := none, flashB := none, misfit := none, trainFail := 0, sliceFail := 0, linkFail := 0, blvFail := 0, coreFail := 0, fused := 0, strap := 0 }
def coldLocking (f : Flash) : State :=
  { State.reset with flash := f, dev := { State.reset.dev with porst := false, refclk := true, coldRun := true, boot := some bootSeen } }
theorem test_pll_in_cold : (∀ f, (coldLocking f).mode = .cold ∧ (coldLocking f).dev.porst = false ∧ (coldLocking f).dev.refclk = true
      ∧ (coldLocking f).qz.locked = false ∧ (coldLocking f).dev.coldRun = true ∧ (coldLocking f).dev.boot = some bootSeen ∧ (coldLocking f).dev.hdr = none)
    ∧ bootSlot (coldLocking {}).flash bootSeen = none ∧ bootSlot (coldLocking { slotA := bootable }).flash bootSeen = some false :=
  ⟨fun _ => ⟨rfl, rfl, rfl, rfl, rfl, rfl, rfl⟩, by decide +kernel, by decide +kernel⟩
/-- The last step of COLD, with or without a failed test. -/
def coldEnd (f : Option (BitVec 8)) : State :=
  { State.reset with qz := { locked := true }, dev := { State.reset.dev with porst := false, coldRun := true, coldFault := f, hdr := some hdr0 } }
theorem test_assembly_entry : (coldEnd none).dev.hdr = some hdr0 ∧ (coldEnd none).mode = .cold ∧ (coldEnd none).dev.coldRun = true ∧ (coldEnd none).qz.locked = true
    ∧ (coldEnd none).dev.coldHeld = false ∧ (coldEnd (some 0x0D)).therm.trip = false := by decide +kernel
theorem test_copy : filled { assembled false with dram := { fill := 2 ^ 30 } } hdr0.loadPa hdr0.hvLen = true ∧ filled (assembled false) hdr0.loadPa hdr0.hvLen = false
    ∧ (assembled false).gate.modeReq = none := by decide +kernel
/-- Core 0, mapped to physical core 0, has rolled back as often as the policy allows; spares are as given. -/
def failing (spares : List (BitVec 7)) : State :=
  { running hyp with
    cmap := { map := [(0, 0)], spares := spares }
    cores := [(0, { coreAt hyp with rollbacks := List.replicate 255 (0, 1) })] }
theorem test_core_faults : recovers (running hyp) = true ∧ (running hyp).mode ≠ .rest ∧ ((running hyp).core 0).started = true ∧ ((running hyp).cluster 0).xlDead = false
    ∧ (running hyp).fab.spine.mirror = false := by decide +kernel
theorem test_migration : permanent (failing [8]) 0 = true ∧ (failing [8]).pcOf 0 < 72 ∧ chooseSpare (failing [8]).cmap ((failing [8]).pcOf 0 / 9) = some 8
    ∧ permanent (failing []) 0 = true ∧ chooseSpare (failing []).cmap ((failing []).pcOf 0 / 9) = none ∧ recovers (failing []) = true := by decide +kernel
theorem at_work (s : State) (h : s.mode ≠ .rest) (r : s.gate.restReq = none) (k : s.gate.slates = []) (c : ∀ n, mayCommit s n = false) : AtWork s :=
  ⟨h, r, by simp [armedAny, k], c⟩
theorem test_at_work : AtWork idleService ∧ AtWork (running hyp) ∧ AtWork (failing [8]) ∧ AtWork (failing []) ∧ (failing [8]).mode = .service
    ∧ (failing [8]).gate.restart = false ∧ ((failing [8]).core 0).started = true ∧ (failing [8]).cmap.spares.length ≤ 1 :=
  ⟨at_work _ (by decide) rfl rfl (by decide +kernel), at_work _ (by decide) rfl rfl (by decide +kernel), at_work _ (by decide) rfl rfl (by decide +kernel),
   at_work _ (by decide) rfl rfl (by decide +kernel), by decide +kernel, by decide +kernel, by decide +kernel, by decide +kernel⟩
def heldLine0 : L2Line := { st := .e, data := 5, pres := [], cls := hypClass }
/-- Home 0 and cluster 0 hold the line 8, clean, dirty with its mirror, in the directory and in the L2. -/
def caching (dirty : Bool) (mirror : SMap Line) : State :=
  let x : ScLine := { data := 5, dirty := dirty, way := 2, nru := false, cls := hypClass }
  { idleService with fab := { homes := [(0, { sc := [(8, x)], wbuf := mirror, dir := [(8, { st := .dx, sharers := 0, owner := 0, nru := true })] }),
                                        (4, { mir := mirror })],
                              clusters := [(0, { l2 := [(8, heldLine0)] })] } }
theorem test_scrub : mget? ((caching false []).home (0#3).toNat).sc (8#42).toNat ≠ none ∧ ((caching true [(8, 5)]).mirrored 0 8).isSome = true
    ∧ (caching false []).txnOf 0 8 = none ∧ ((caching false []).dirOf 0 8).isSome = true ∧ (caching false []).l2 0 8 = some heldLine0 ∧ heldLine0.st = .e
    ∧ (caching false []).mshrOf 0 8 = none ∧ scrubUnit idleService (.sysCache 0 8) = (some 9, some (3, 0))
    ∧ arrayHere idleService (.l1d 63 0) = true ∧ arrayHere idleService .arbor = true ∧ recovers (caching true [(8, 5)]) = true
    ∧ mget? ((caching true [(8, 5)]).home 0).sc 8 ≠ none := by decide +kernel
theorem test_scrub_at_work : AtWork (caching true [(8, 5)]) ∧ AtWork (caching false []) :=
  ⟨at_work _ (by decide) rfl rfl (by decide +kernel), at_work _ (by decide) rfl rfl (by decide +kernel)⟩
/-- Memory in OPEN mode, or with channel 2 lost and its rebuild as given. -/
def memory (d : Dram) : State := { idleService with dram := d }
theorem test_channels : (memory {}).dram.mode = .parity ∧ (memory {}).dram.lost = none ∧ (memory { mode := .open_ }).dram.lost = none
    ∧ (∃ k, (memory { lost := some 2 }).dram.lost = some k ∧ k ≠ (3 : Oct)) ∧ (memory { lost := some 2 }).policy 3 % 2 = 1
    ∧ ((memory { lost := some 2 }).dram.retrains.filter (fun r => r.1 == 2 && decide (0 < r.2 + 86400000000000))).length < (memory { lost := some 2 }).policy 3 / 256 % 256
    ∧ (memory { lost := some 2 }).dram.leftOut.getLsbD 2 = false := by decide +kernel
/-- The home of line 8 alone has a write to replay, in a filled row. -/
def replaying : State := let s := memory { fill := 2 }; { s with fab := { homes := [(s.homeNo 8, { wbuf := [(8, 7)] })] } }
theorem test_switchover_replays : (replaying.home (replaying.homeNo 8)).wbuf = [((8#42).toNat, 7)] ∧ (∀ k, k < 8 → k ≠ replaying.homeNo 8 → (replaying.home k).wbuf = [])
    ∧ rowFilled replaying.dram 8 = true ∧ (∀ k, k < 8 → ((memory {}).home k).wbuf = []) ∧ recovers replaying = true ∧ replaying.gate.restart = false := by decide +kernel
theorem test_channels_at_work : AtWork replaying ∧ AtWork (memory { lost := some 2 }) ∧ AtWork (memory { lost := some 2, rebuild := some 0 }) :=
  ⟨at_work _ (by decide) rfl rfl (by decide +kernel), at_work _ (by decide) rfl rfl (by decide +kernel), at_work _ (by decide) rfl rfl (by decide +kernel)⟩
theorem test_rebuild : 0 < slotsPerChannel (memory { lost := some 2, rebuild := some 0 }).dram
    ∧ slotsPerChannel (memory { lost := some 2, rebuild := some (64 * 2 ^ 24) }).dram ≤ 64 * 2 ^ 24 := by decide +kernel
/-- The home of line 8 has it to write; a read of it is under way. -/
def writing (m : MemMode) : State :=
  let s := memory { mode := m, fill := 2 }
  { s with fab := { homes := [(s.homeNo 8, { wbuf := [(8, 7)] })], net := [{ msg := .mrd 8, src := 8 }] } }
/-- The same with no read under way. -/
def writeOnly (m : MemMode) : State := { writing m with fab := { (writing m).fab with net := [] } }
theorem test_controllers : mget? ((writing .open_).home ((writing .open_).homeNo 8)).wbuf (8#42).toNat = some 7 ∧ rowFilled (writing .open_).dram 8 = true
    ∧ mget? ((writing .parity).home ((writing .parity).homeNo 8)).wbuf (8#42).toNat = some 7 ∧ rowFilled (writing .parity).dram 8 = true
    ∧ (writing .parity).fab.net = [] ++ ({ msg := .mrd 8, src := 8 } : FabMsg) :: [] ∧ mget? (memory { groups := [(1, [(8, 7)])] }).dram.groups (1#32).toNat = some [(8, 7)]
    ∧ (writing .parity).dev.stopped = false ∧ (writing .parity).dram.selfRefresh = false ∧ (writing .parity).dram.lost ≠ some 0
    ∧ mrdDue (writing .open_) 8 = true ∧ mrdDue (writing .parity) 8 = true
    ∧ rankDue (writeOnly .parity) (readChannel (writeOnly .parity).dram (slotOf .parity 8)) (memRank (writeOnly .parity) (wbClass ((writeOnly .parity).home ((writeOnly .parity).homeNo 8)) 8)) = true
    ∧ eccAt (writing .parity).dram (burstSlot (writing .parity).dram (slotOf .parity 8) {}) {} = .clean := by decide +kernel
theorem test_dram_scrub : slotLost (memory { fill := 1 }).dram { c := 0, r := 0 } = false ∧ parityOk (memory { fill := 1 }).dram 0 = true
    ∧ (idleService.unit 7 3).corrected = 0 ∧ rowLost (memory { fill := 1 }).dram 0 = false ∧ 0 < (memory { fill := 1 }).policy 2 / 65536 % 65536 := by decide +kernel
theorem test_fill_row : idleService.mode = .service ∧ idleService.dev.stopped = false ∧ idleService.fab.spine.open_ = [] ∧ idleService.jtag.want = none := by decide +kernel
/-- Only home slices 0 and 1 serve. -/
def fewHomes : State := { idleService with fab := { homes := (List.range 6).map (fun i => (i + 2, { dead := true })) } }
/-- Link 3 has failed twice to send; link 4 is out. -/
def badLinks : State := { idleService with fab := { links := [(3, { fails := 2 }), (4, { failed := true })] } }
theorem test_slices_links : 3 ≤ idleService.aliveHomes.length ∧ fewHomes.aliveHomes.length < 3 ∧ (fewHomes.home 0).dead = false
    ∧ (mget idleService.fab.links 23 {}).fails < 2 ∧ badLinks.policy 4 ≠ 0 ∧ (mget badLinks.fab.links 4 {}).failed = true ∧ (mget badLinks.fab.links 4 {}).out = false
    ∧ (mget { idleService.fab with links := [(3, { fails := 2 })] }.links 3 {}).fails = 2
    ∧ ∀ j, j ≠ 3 → (mget { idleService.fab with links := [(3, { fails := 2 })] }.links j {}).failed = false :=
  ⟨by decide +kernel, by decide +kernel, by decide +kernel, by decide +kernel, by decide +kernel, by decide +kernel, by decide +kernel, by decide +kernel,
   fun j h => by simp [mget, mget?, Ne.symm h]⟩
/-- Core 0's cluster has a message to home slice 4 in flight, and its stop keeps the copy; or the message has arrived. -/
def sent (flying : Bool) : State :=
  let p : FabMsg := { msg := Msg.wbAck 3 8, src := 0, tag := 1, seq := 2 }
  { idleService with fab := { net := if flying then [p] else [], kept := if flying then [] else [(0, p)] } }
theorem test_link_copies : keptOver (sent true) 0 14 ≠ none ∧ (keptOver (sent true) 0 14).any (sent true).fab.net.contains = true ∧ keptOver (sent false) 0 14 ≠ none ∧ (sent false).fab.net = [] ∧ recovers (sent true) = true ∧ (sent true).mode ≠ .rest := by decide +kernel
/-- Two classes have charges. -/
def charged : State := { idleService with qz := { locked := true }, qos := [(1, { mem := 5, memUsed := 9, arb := 4, arbUsed := 11 }), (256, { memUsed := 2 })] }
theorem test_epochs : charged.qz.locked = true ∧ charged.dev.porst = false ∧ msorted charged.qos = true ∧ (∀ k ∈ mkeys charged.qos, k < 65536)
    ∧ charged.fab.heldReads = [] ∧ ∀ p, (charged.pav p).deferring = false := by decide +kernel
theorem test_belvedere : mayFail idleService = true ∧ noImage idleService = false ∧ idleService.gate.byBlv = false ∧ idleService.arb.engine = 0
    ∧ armedAny idleService = false ∧ mismatchOver idleService 6 (recentTimes idleService idleService.arb.mismatches (mismatchWindow idleService 6)) = false
    ∧ mismatchOver idleService 6 (recentTimes idleService (List.replicate 300 0) (mismatchWindow idleService 6)) = true
    ∧ mismatchOver idleService 7 (recentTimes idleService (pairTimes idleService.dev.blv true) (mismatchWindow idleService 7)) = false := by decide +kernel
theorem test_sensors : idleService.dev.porst = false ∧ (720#16).toInt ≤ 920 ∧ (920#16).toInt ≤ 920 ∧ (920 : Int) < (921#16).toInt ∧ (921#16).toInt < 1000 ∧ (1000 : Int) ≤ (1000#16).toInt
    ∧ (800 : Int) ≤ (800#16).toInt ∧ (∀ p ∈ idleService.therm.temp, p.2.toInt < 760) := by decide +kernel

/-! The fabric. -/
/-- One message is in flight in a fabric. -/
def carrying (f : Fabric) (m : Msg) : State := { idleService with fab := { f with net := [{ msg := m, src := 8, tag := 3 }] } }
theorem test_first (f : Fabric) (m : Msg) (l : LineNo) : FirstOf (carrying f m) l m 3 (arrive (carrying f m) { msg := m, src := 8, tag := 3 } [])
    ∧ First (carrying f m) l m (arrive (carrying f m) { msg := m, src := 8, tag := 3 } []) :=
  ⟨⟨[], [], _, rfl, fun _ h => (List.not_mem_nil h).elim, rfl, rfl, rfl⟩, _, [], [], _, rfl, fun _ h => (List.not_mem_nil h).elim, rfl, rfl, rfl⟩
/-- Cluster 1 and the home of line 8 as given. -/
def fabricOf (c : Cluster) (h : Home) : Fabric := { clusters := [(1, c)], homes := [(idleService.homeNo 8, h)] }
def cleanSc : ScLine := { data := 5, dirty := false, way := 2, nru := false, cls := hypClass }
def l2In (st : L2St) : L2Line := { st := st, data := 6, pres := [], cls := hypClass }
def quiet (c : Cluster) (h : Home) : State := { idleService with fab := fabricOf c h }
theorem test_home_idle (c : Cluster) : HomeIdle (quiet c { sc := [(8, cleanSc)] }) 8 ∧ HomeIdle (quiet c { dir := [(8, { st := .ds, sharers := 3, owner := 0, nru := true })] }) 8 :=
  ⟨⟨by rfl, ⟨by rfl, by rfl, by rfl, (fun q h => by cases h), (fun q h => by cases h)⟩⟩, ⟨by rfl, ⟨by rfl, by rfl, by rfl, (fun q h => by cases h), (fun q h => by cases h)⟩⟩⟩
def sharedBy : DirEntry := { st := .ds, sharers := 3, owner := 0, nru := true }
def ownedBy (k : Oct) : DirEntry := { st := .dx, sharers := 0, owner := k, nru := true }
theorem test_requests : canAsk (quiet {} {}) 1 8 = true ∧ (quiet {} {}).l2 1 8 = none ∧ dirWaysTaken {} 8 < 16 ∧ filterOn {} (pageOfLine 8) = false
    ∧ (quiet {} { dir := [(8, ownedBy 0)] }).dirOf (idleService.homeNo 8) 8 = some (ownedBy 0) ∧ (ownedBy 0).st ≠ .ds
    ∧ mget? (quiet {} { dir := [(8, sharedBy)], sc := [(8, cleanSc)] }).fab.homes (idleService.homeNo 8) = some { dir := [(8, sharedBy)], sc := [(8, cleanSc)] }
    ∧ canAsk (quiet { l2 := [(8, l2In .s)] } { dir := [(8, sharedBy)] }) 1 8 = true ∧ sharedBy.sharers.getLsbD 1 = true ∧ idleService.clusterOf 8 = 1
    ∧ fabricUp (quiet { l2 := [(8, l2In .m)] } { dir := [(8, ownedBy 1)] }) = true ∧ (quiet { l2 := [(8, l2In .m)] } {}).mshrOf 1 8 = none
    ∧ cappedOver (quiet {} {}) hypClass = false ∧ hypClass ≠ devClass ∧ (quiet {} {}).fab.heldReads = []
    ∧ classOf ((quiet {} {}).core 8).spec ≠ devClass := by decide +kernel
theorem test_uncached : canNc (quiet {} { sc := [(8, cleanSc)] }) 0x200 8 = true ∧ canNc (quiet {} { sc := [(8, cleanSc)] }) 0x23F 1 = true
    ∧ sendsClass 2 hypClass = true ∧ sendsClass 24 devClass = true
    ∧ (quiet {} { sc := [(8, cleanSc)] }).dirOf (idleService.homeNo 8) 8 = none ∧ atomOf 9 = some .cas := by decide +kernel
/-- The keep region is the first 64 KiB; Belvedere may hold line 8; an access waits for it. -/
def keeping (blv : SMap Line) (serves : SMap (Req × SpineWait)) : Fabric := { spine := { keep := some (0, 0x10000), blv := blv, open_ := serves } }
def keepReq : Req := { kind := .ncWr, src := 24, line := 8, size := 64, data := 9, mask := 1 }
theorem test_keep : keepLine { idleService with fab := keeping [] [] } 0xFFFF 1 = true ∧ keepLine { idleService with fab := keeping [] [] } ((8#42).toNat * 64) 64 = true
    ∧ (∀ r ∈ (keeping [] []).spine.wait, r.line ≠ 8) ∧ (mget? (keeping [(8, 1)] []).spine.blv 8).isSome = true ∧ mget? (keeping [] []).spine.blv 8 = none
    ∧ (carrying (keeping [(8, 1)] []) (.kinv 8)).fab.net = [] ++ ({ msg := .kinv 8, src := 8, tag := 3 } : FabMsg) :: []
    ∧ mget? (carrying (keeping [] [(8, (keepReq, .kinv))]) (.ack 25 30 8)).fab.spine.open_ 8 = some (keepReq, .kinv)
    ∧ (carrying (keeping [] [(8, (keepReq, .kinv))]) (.ack 25 30 8)).fab.spine.wait = []
    ∧ mget? (carrying (keeping [] [(8, ({ keepReq with kind := .ncRd }, .mdata))]) (.mdata 8 5)).fab.spine.open_ 8 = some ({ keepReq with kind := .ncRd }, .mdata)
    ∧ inKeep (carrying (keeping [] [(8, (keepReq, .mdata))]) (.mdata 8 5)) ((8#42).toNat * 64) = true ∧ mget? (keeping [] []).spine.open_ 8 = none
    ∧ keepReq.line = 8 ∧ keepReq.kind = .ncWr := by decide +kernel
theorem test_forwards : (carrying (fabricOf { l2 := [(8, l2In .m)] } {}) (.fwdS 1 8 2)).l2 1 8 = some (l2In .m) ∧ (l2In .m).st ≠ .s ∧ (l2In .e).st ≠ .s
    ∧ mget? (carrying (fabricOf {} {}) (.fwdS 1 8 2)).fab.clusters 1 = some {} ∧ (carrying (fabricOf {} {}) (.fwdS 1 8 2)).l2 1 8 = none
    ∧ (mget? ((carrying (fabricOf { wb := [(8, { data := 6, cls := hypClass })] } {}) (.fwdX 1 8 2 0)).cluster 1).wb 8).isSome = true
    ∧ pageOfLine 8 = 0 := by decide +kernel
def waitsFor (k : ReqKind) : Mshr := { kind := k, core := none, need := none, got := 0, cls := hypClass }
def retryReq : Req := { kind := .rdS, src := 1, line := 8 }
theorem test_answers : (carrying (fabricOf { mshr := [(8, waitsFor .rdS)] } {}) (.data 1 8 5 .e 0 false)).mshrOf 1 8 = some (waitsFor .rdS)
    ∧ (carrying (fabricOf { mshr := [(8, waitsFor .rdX)] } {}) (.data 1 8 5 .e 1 true)).mshrOf 1 8 = some (waitsFor .rdX)
    ∧ (carrying (fabricOf { mshr := [(8, waitsFor .upg)], l2 := [(8, l2In .s)] } {}) (.grant 1 8 1)).l2 1 8 = some (l2In .s)
    ∧ (carrying { fabricOf {} { tokens := [(1, Machine.setOf 8)] } with retryq := [(retryReq, true)] } (.retry 1 8)).fab.retryq = [(retryReq, true)]
    ∧ needsEntry .rdS = true ∧ ((carrying { fabricOf {} { tokens := [(1, Machine.setOf 8)] } with retryq := [(retryReq, true)] } (.retry 1 8)).home (idleService.homeNo 8)).tokens = [(1, Machine.setOf 8)]
    ∧ (24 : Agent).toNat ≥ 16 := by decide +kernel
def txnOf (f : Option Oct) (acks : Nat) (v : Bool) : Txn := { req := { kind := .rdS, src := 2, line := 8, tag := 3 }, fwd := f, acks := acks, victim := v }
theorem test_homes : (carrying (fabricOf {} { txns := [(8, txnOf (some 1) 0 false)], dir := [(8, ownedBy 1)] }) (.fwdAck 1 8 0)).txnOf (idleService.homeNo 8) 8 = some (txnOf (some 1) 0 false)
    ∧ (txnOf (some 1) 0 false).fwd = some 1 ∧ (carrying (fabricOf {} { txns := [(8, txnOf (some 1) 0 false)] }) (.notHeld 1 8)).txnOf (idleService.homeNo 8) 8 = some (txnOf (some 1) 0 false)
    ∧ (txnOf none 1 true).victim = true ∧ (txnOf none 1 true).acks = 1 ∧ (txnOf none 1 true).cmp = false ∧ 1 < (txnOf none 2 false).acks
    ∧ (txnOf none 0 false).req.kind = .rdS ∧ (txnOf none 0 false).victim = false ∧ (txnOf none 0 false).grant = false
    ∧ codeSeen (carrying (fabricOf {} { txns := [(8, txnOf none 0 false)] }) (.cmp 2 8)) (pageOfLine 8) = false
    ∧ allocWays idleService {} hypClass ≠ 0 ∧ cappedOver idleService hypClass = false := by decide +kernel
def fetchTxn : Txn := { req := { kind := .rdCode, src := 1, line := 8 }, code := true }
/-- The home of page 0 and of its first line as given. -/
def pageFabric (h : Home) (m : Msg) : State := carrying { homes := [(idleService.homeNo 0, h)] } m
theorem test_code_pages : waitsFetch (pageFabric {} (.codeMark 0 0)) 0 = true ∧ ((pageFabric { pages := [0] } (.codeMark 0 0)).home (idleService.pageHome 0)).pages.contains 0 = true
    ∧ ((pageFabric {} (.codeMark 0 0)).home (idleService.pageHome 0)).pages.length < 4096
    ∧ waitsFetch (pageFabric { txns := [(0, txnOf none 0 false)] } (.codeQuery 0 0)) 0 = false
    ∧ mget? ((pageFabric { drops := [(0, { waitAck := 2, waitClr := 0 })], pages := [0] } (.dropAck 1 0)).home (idleService.pageHome 0)).drops 0 = some { waitAck := 2, waitClr := 0 }
    ∧ (2#8) &&& ~~~ (bitOf 1) = 0 ∧ (0xFF#8) &&& ~~~ (bitOf 1) ≠ 0 := by decide +kernel

/-- Core 8 of cluster 1 holds a committed store to line 8. -/
def storing : State :=
  let e : SbEntry := { pa := 0x208, size := 8, data := 1, nc := false, committed := true }
  { quiet {} { dir := [(8, sharedBy)], sc := [(8, cleanSc)] } with cores := [(8, { coreAt hyp with sb := [e] })] }
theorem test_may_own : mayOwn storing 1 8 none hypClass = true ∧ mayOwn storing 1 8 (some 8) hypClass = true ∧ mayOwn storing 1 9 (some 8) hypClass = false
    ∧ canAsk storing 1 8 = true ∧ storing.l2 1 8 = none ∧ storing.dirOf (idleService.homeNo 8) 8 = some sharedBy ∧ sharedBy.st = .ds
    ∧ dirWaysTaken (storing.home (idleService.homeNo 8)) 8 < 16 ∧ storing.clusterOf 8 = 1 := by decide +kernel
/-- Cluster 1 holds line 8, whose page is code-seen. -/
def heldCode : State := { idleService with fab := { clusters := [(1, { l2 := [(8, l2In .s)] })], homes := [(idleService.pageHome 0, { pages := [0] }), (idleService.homeNo 8, { dir := [(8, sharedBy)], pages := [0], filter := [(filterIndex 0, 1)] })] } }
theorem test_fetch_held : fetchHeld heldCode 1 8 (some 8) = true := by decide +kernel
theorem test_evictions : fabricUp (quiet { l2 := [(8, l2In .e)] } { dir := [(8, ownedBy 1)] }) = true
    ∧ (quiet { l2 := [(8, l2In .e)] } {}).l2 1 8 = some (l2In .e) ∧ mget? ((quiet { l2 := [(8, l2In .m)] } {}).cluster 1).wb 8 = none
    ∧ (carrying (fabricOf { wb := [(8, { data := 6, cls := hypClass })] } { dir := [(8, ownedBy 1)] }) (.wb 1 8 6 hypClass)).l2 1 8 = none
    ∧ (carrying (fabricOf { wb := [(8, { data := 6, cls := hypClass })] } { dir := [(8, ownedBy 1)] }) (.wb 1 8 6 hypClass)).dirOf (idleService.homeNo 8) 8 = some (ownedBy 1) := by decide +kernel
theorem test_data_at_cluster : L2Fits (carrying (fabricOf { mshr := [(8, waitsFor .rdS)] } {}) (.data 1 8 5 .e 0 false)) 1 8
    ∧ L2Fits (carrying (fabricOf { mshr := [(8, waitsFor .rdCode)], l2 := [(8, l2In .s)] } {}) (.data 1 8 5 .s 0 false)) 1 8
    ∧ (carrying (fabricOf { mshr := [(8, { waitsFor .rdCode with core := some 8 })] } {}) (.data 1 8 5 .s 0 false)).mshrOf 1 8 = some { waitsFor .rdCode with core := some 8 } :=
  ⟨.inr (by decide +kernel), .inl (by decide +kernel), by decide +kernel⟩
theorem test_home_calm (m : Msg) : HomeCalm (carrying (fabricOf {} { txns := [(8, txnOf (some 1) 0 false)], dir := [(8, ownedBy 1)] }) m) (idleService.homeNo 8)
    ∧ (txnOf (some 1) 0 false).down = false ∧ (txnOf (some 1) 0 false).pre = false ∧ (txnOf (some 1) 0 false).req.tag = 3 ∧ (4#16) ≠ 3
    ∧ inKeep (carrying (fabricOf {} {}) (.mdata 8 5)) ((8#42).toNat * 64) = false ∧ (txnOf (some 1) 0 false).wb = none ∧ (txnOf (some 1) 0 false).early = false ∧ (txnOf (some 1) 0 false).req.kind = .rdS
    ∧ { txnOf (some 1) 0 false with early := true }.early = true ∧ ({ txnOf none 1 true with req := { kind := .wb, src := 2, line := 8 } } : Txn).req.kind = .wb :=
  ⟨⟨by rfl, by rfl, by rfl, (fun q h => by cases h), (fun q h => by cases h)⟩, by decide +kernel⟩
/-- Page 0 at its home, with a line that cluster 1 owns, and with none. -/
theorem test_code_set : HomeCalm (pageFabric { dir := [(0, ownedBy 1)] } (.codeSet 0 0)) 0 ∧ pageBusy { dir := [(0, ownedBy 1)] } 0 = false
    ∧ ownedLines { dir := [(0, ownedBy 1)] } 0 = [(0, 1)] ∧ ownedLines {} 0 = [] ∧ pageBusy {} 0 = false :=
  ⟨⟨by rfl, by rfl, by rfl, (fun q h => by cases h), (fun q h => by cases h)⟩, by decide +kernel⟩
theorem test_keep_rows : rowFilled { idleService.dram with fill := 2 } 8 = true ∧ rowFilled { idleService.dram with fill := 0 } 8 = false
    ∧ keepLine { idleService with fab := keeping [] [], dram := { idleService.dram with fill := 0 } } 0x200 8 = true := by decide +kernel

/-! Arbor. -/
/-- An outbound window of 64 KiB at the base of the range, A32, D32. -/
def outWin0 : OutWin := { base := 0xC00000000000, logSize := 16, space := 2, am := 0x09, busBase := 0x80000000, width := 2, addrOrder := false, rmw := true }
/-- An inbound window of 64 KiB, A32, at IPA 0. -/
def inWin0 : InWin := { space := 2, amMatch := 0x09, amMask := 0xFF, busBase := 0x40000000, logSize := 16, ipaBase := 0, rd := true, wr := true, addrOrder := false, post := true, respErr := false }
def anAccess (k : OutKind) : OutAcc := { kind := k, vc := none, cls := 1, off := 4, size := 4, data := 0x11223344, cmpv := 0, win := outWin0 }
def profileOf (code : BitVec 8) : Profile :=
  { code := code, caps := { shippedCaps code with retry := true, parity := 1 }, txd := 0, skew := 0, arbMode := 0, options := 0, rstTime := 200, lines := [], entry := [], timers := [], insn := [] }
def cleanSc0 : ScLine := { data := 0x1122334455667788, dirty := false, way := 0, nru := false, cls := 1 }
/-- Session 5 of pavilion 1 under a VME profile with the roles MASTER and SLAVE; the pavilion's first page is page 0. -/
def bus (e : Session) (f : Arbor → Arbor) : State :=
  { withPav { st := .running, nvcpu := 1 } with
    arb := f { ses := [(5, e)], prof := some (profileOf 2), roles := { master := true, slave := true, handler := 0xFE }, itlb := [plainEntry 1 0 0] }
    fab := { homes := [(idleService.homeNo 0, { sc := [(0, cleanSc0)] })] } }
def openSes (q : List OutAcc) : Session := { st := .open_, owner := 1, outw := [(0, outWin0)], inw := [(1, inWin0)], queue := q }
theorem test_outbound_hypotheses : (bus (openSes []) id).mode = .service ∧ paKind (bus (openSes []) id) 0xC00000000004 = .arborWin
    ∧ findWindow (bus (openSes []) id) 0xC00000010000 = none ∧ findWindow (bus (openSes []) id) 0xC0000000FFFC = some (5, 0, outWin0)
    ∧ ((bus (openSes []) id).ses 5).owner.setWidth 16 = (1 : ClassId) ∧ ((bus (openSes []) id).ses 5).errPost = false
    ∧ (bus (openSes []) id).arb.waiting = [] ∧ acceptedCount (bus (openSes []) id) < 4096
    ∧ 32 ≤ ((bus (openSes (List.replicate 32 (anAccess .store))) id).ses 5).queue.length
    ∧ atomRefused (bus (openSes []) id) { outWin0 with rmw := false } 9 4 = true := by decide +kernel
theorem test_outbound_cycle : arborServes (bus (openSes [anAccess .store]) (fun a => { a with owned := true })) = true
    ∧ arstLow (bus (openSes [anAccess .store]) id) = false ∧ arbPick (bus (openSes [anAccess .store]) id) = some 5
    ∧ ((bus (openSes [anAccess .load]) id).ses 5).queue = [anAccess .load] := by decide +kernel
def cycle0 (r : Bool) : BusCycle := { ses := 5, dead := false, addr := 0x80000004, size := 4, read := r, write := !r, data := 0x11223344, am := 0x09, started := 0 }
def cycling (k : OutKind) (r : Bool) : State := bus (openSes [anAccess k]) (fun a => { a with owned := true, cycle := some (cycle0 r), roles := { a.roles with syscon := true } })
theorem test_cycle_end : (cycling .load true).arb.cycle = some (cycle0 true) ∧ ((cycling .load true).ses 5).queue = [anAccess .load]
    ∧ ((cycling .load true).ses 5).wait = none ∧ (cycling .load true).arb.inbuf = [] ∧ (anAccess .load).done + min (beatBytes (cycling .load true) outWin0) (4 - 0) = 4
    ∧ (cycling .load true).caps.parity ≠ 0 ∧ (cycling .store false).caps.retry = true ∧ (cycling .load true).arb.roles.syscon = true
    ∧ ((cycling .load true).ses 5).retryLim = 16 ∧ { anAccess .load with retries := 16 }.retries = 16 := by decide +kernel
theorem test_wedge : ((bus (openSes [anAccess .load]) id).ses 5).st = .open_ ∧ (∀ x ∈ [anAccess .load], x.vc = none ∧ outMoves x.kind = false) := by decide +kernel
/-- The window's bus addresses are those of the inbound window. -/
def looping (rd : Bool) : State :=
  let w := { outWin0 with busBase := 0x40000000 }
  bus { st := .open_, owner := 1, outw := [(0, w)], inw := [(1, { inWin0 with rd := rd, respErr := true })], queue := [{ anAccess .load with win := w }] } id
theorem test_loopback : (loopTarget (looping true) { anAccess .load with win := { outWin0 with busBase := 0x40000000 } }).isSome = true
    ∧ (readyHead (looping true) 5).isSome = true
    ∧ (loopMemory (uncoreEvent (looping true) 32 4 1) 5 { inWin0 with respErr := true } 0x40000004 true false).1 = some 4
    ∧ (agentRead (loopMemory (uncoreEvent (looping true) 32 4 1) 5 { inWin0 with respErr := true } 0x40000004 true false).2 arborAgent 1 4 4).isSome = true
    ∧ ((agentRead (loopMemory (uncoreEvent (looping true) 32 4 1) 5 { inWin0 with respErr := true } 0x40000004 true false).2 arborAgent 1 4 4).map (·.2.arb)
        = some (loopMemory (uncoreEvent (looping true) 32 4 1) 5 { inWin0 with respErr := true } 0x40000004 true false).2.arb)
    ∧ (loopTarget (looping false) { anAccess .load with win := { outWin0 with busBase := 0x40000000 } }).map (·.2.2.rd) = some false := by decide +kernel
theorem test_tenure : arbPick (bus (openSes [anAccess .load]) id) = some 5 ∧ underWay (bus (openSes []) (fun a => { a with owned := true })) = none
    ∧ (profileOf 2).code ≠ 3 ∧ (profileOf 2).arbMode = 0 ∧ allRequests (bus (openSes []) (fun a => { a with roles := { syscon := true } })) 0b0101 ≠ 0
    ∧ (bus (openSes []) id).vme = true ∧ (bus (openSes []) (fun a => { a with running := true })).arb.running = true
    ∧ (bus (openSes []) (fun a => { a with granting := some 3, arstUntil := some 9 })).arb.arstUntil = some 9 := by decide +kernel
theorem test_page_commands : ((bus { openSes [] with bmLen := 64, bmIpa := 0x100 } id).ses 5).bmLen ≠ 0
    ∧ mget? ((bus (openSes []) id).ses 5).outw (((1#32).extractLsb' 2 2)).toNat = some outWin0 ∧ ((bus (openSes []) id).ses 5).st ≠ .closed
    ∧ ((bus (openSes []) id).ses 5).vecs = [] ∧ ((bus { openSes [] with vecs := [{ vec := 0x40, level := 3, entry := 0, rora := true }] } id).ses 5).vecs ≠ []
    ∧ (∀ k ∈ (bus (openSes []) id).arb.kept, k.ses ≠ 5) := by decide +kernel
def pClose : Packet := pk 0x0404 1 0 5 0
def pSesReset : Packet := pk 0x0405 1 1 5 0
def pProfile : Packet := pk 0x0401 4 0 2 (2 ^ 128 * 200)
theorem test_session_commands : Passes (asked (bus (openSes []) id) pClose) 0 specSessionClose pClose []
    ∧ Passes (asked (bus (openSes []) id) pSesReset) 0 specSessionReset pSesReset [] ∧ ((asked (bus (openSes []) id) pClose).ses (pkSes pClose)).queue = []
    ∧ ((asked (bus (openSes []) id) pClose).ses (pkSes pClose)).st = .open_ ∧ noPavWait (asked (bus (openSes []) id) pClose)
    ∧ Passes (asked (assembled true) pProfile) 0 specArbProfileLoad pProfile (apPacket pProfile) ∧ apCheck (asked (assembled true) pProfile) pProfile = none :=
  ⟨⟨by decide +kernel, by decide +kernel, by decide +kernel⟩, ⟨by decide +kernel, by decide +kernel, by decide +kernel⟩, by decide +kernel,
   by decide +kernel, (by unfold noPavWait; decide +kernel), ⟨by decide +kernel, Option.isNone_iff_eq_none.mp (by decide +kernel), by decide +kernel⟩, by decide +kernel⟩
theorem test_address_phase : answersPhases (bus (openSes []) id) = true ∧ phaseWindow (bus (openSes []) id) 2 0x09 0x40000010 = some (5, 1, inWin0)
    ∧ phaseWindow (bus (openSes []) id) 2 0x09 0x40010000 = none ∧ pavDraining (bus (openSes []) id) 1 = false
    ∧ (inbTarget (bus (openSes []) id) 5 (0 + (0x40000010 - 0x40000000)) .write).1 = some 0x10
    ∧ phaseWindow (bus { openSes [] with st := .halted } id) 2 0x09 0x4000FFFF = some (5, 1, inWin0) := by decide +kernel
/-- An accepted phase at IPA 0x10. -/
def phase0 (write post : Bool) : InPhase :=
  { ses := 5, win := 1, w := { inWin0 with post := post }, answer := .accept, busAddr := 0x40000010, pa := 0x10, write := write, cls := 1, ahead := [] }
def phased (write post : Bool) : State := bus (openSes []) (fun a => { a with phase := some (phase0 write post) })
theorem test_data_phases : (phased true true).arb.phase = some (phase0 true true) ∧ (0x10 + 4) % 4096 ≠ 0 ∧ 0x10 % 4 = 0 ∧ (4 : Nat) ∈ [1, 2, 4, 8]
    ∧ ((phase0 true true).busAddr + BitVec.ofNat 64 4).toNat < 0x40000000 + 2 ^ 16
    ∧ (phaseWrite (phased true false) (phase0 true false) 4 7).isSome = true ∧ (phaseRead (phased false true) (phase0 false true) 4).isSome = true
    ∧ (inbTarget (phased false true) 5 (windowIpa inWin0 0x40000010) .rmw).1 = some 0x10 ∧ (phased true true).caps.parity ≠ 0 := by decide +kernel
/-- The line that a posted write goes to has a transaction open. -/
def busyLine : State :=
  { phased true true with fab := { homes := [(idleService.homeNo 0, { txns := [(0, { req := { kind := .rdS, src := 2, line := 0 }, cmp := true })] })] } }
theorem test_posted_write : (agentWrite { busyLine with arb := { busyLine.arb with inbuf := [{ ses := 5, pa := 0x10, size := 4, data := 7, cls := 1 }] } }
    arborAgent 1 0x10 4 7).isNone = true := by decide +kernel
/-- Entry 2 of session 5 takes level 3. -/
def vectoring (n : Nat) : State :=
  bus { openSes [] with imap := [(2, { level := 3, vmatch := 0x40, vmask := 0xFF, width := 0, rora := true })],
                        vecs := List.replicate n { vec := 0x40, level := 1, entry := 0, rora := false } } id
theorem test_bus_interrupts : canAck (vectoring 15) = true ∧ (0x08#8).getLsbD 3 = true ∧ (vectoring 15).arb.roles.handler.getLsbD 3 = true ∧ levelHeld (vectoring 15) 3 = false
    ∧ (∀ k, 3 < k → k < 8 → (0x08#8).getLsbD k = false) ∧ (matchVector (vectoring 15) 3 (readVector (vectoring 15) 3 0x40).1).isSome = true
    ∧ matchVector (vectoring 15) 3 (readVector (vectoring 15) 3 0x41).1 = none ∧ ((vectoring 15).ses 5).vecs.length < 16 ∧ 16 ≤ ((vectoring 16).ses 5).vecs.length := by
  refine ⟨by decide +kernel, by decide +kernel, by decide +kernel, by decide +kernel, ?_, by decide +kernel, by decide +kernel, by decide +kernel, by decide +kernel⟩
  intro k h g
  have : k = 4 ∨ k = 5 ∨ k = 6 ∨ k = 7 := by omega
  rcases this with rfl | rfl | rfl | rfl <;> decide
/-- The session is RESETTING with its reset under way; its head store has begun; a further access waits behind it. -/
def waitOf (started : Bool) : SesWait := { close := false, halt := false, lane := some 0, tag := 7, squashed := 0, started := started }
theorem test_squashed_arrival : ((bus { openSes [] with st := .resetting, wait := some (waitOf true) } id).ses 5).st = .resetting
    ∧ ((bus { openSes [] with st := .resetting, wait := some (waitOf true) } id).ses 5).errPost = false
    ∧ (bus { openSes [] with st := .resetting } id).arb.roles.master = true := by decide +kernel
theorem test_wedge_begun : headBegun (cycling .store false) 5 = true ∧ headBegun (bus (openSes [anAccess .store]) id) 5 = false
    ∧ ((cycling .store false).ses 5).st = .open_ ∧ arborServes (cycling .store false) = true ∧ (cycling .store false).arb.waiting = [] := by decide +kernel
theorem test_ack_idle : (bus (openSes [anAccess .store]) (fun a => { a with owned := true })).arb.ack = none ∧ (cycling .load true).dev.porst = false
    ∧ (cycling .load true).vme = true ∧ (bus (openSes []) (fun a => { a with roles := { syscon := true } })).arb.cycle = none := by decide +kernel
/-- Arbor, the system controller, holds the bus at level 0 with a cycle under way; a grant at level 2 stands, with and without requests at the balls. -/
def controller (f : Arbor → Arbor) : State := bus (openSes []) (fun a => f { a with roles := { a.roles with syscon := true, reqLevel := 0 } })
def granting2 (balls : W32) : State := controller (fun a => { a with granting := some 2, bus := [(6, balls)] })
theorem test_arbitration : (controller (fun a => { a with owned := true, cycle := some (cycle0 true) })).arb.owned = true ∧ (0b1000#4).getLsbD 3 = true
    ∧ (controller (fun a => { a with owned := true, cycle := some (cycle0 true) })).arb.cycle = some (cycle0 true)
    ∧ (granting2 0xFFFFFFFF).arb.granting = some 2
    ∧ allRequests (granting2 0xFFFFFFFF) (if (granting2 0xFFFFFFFF).vme then ~~~ ((mget (granting2 0xFFFFFFFF).arb.bus 6 0xFFFFFFFF).setWidth 4) else 0) = 0
    ∧ allRequests (granting2 0xFFFFFFFD) (if (granting2 0xFFFFFFFD).vme then ~~~ ((mget (granting2 0xFFFFFFFD).arb.bus 6 0xFFFFFFFF).setWidth 4) else 0) ≠ 0
    ∧ (granting2 0xFFFFFFFD).arb.prof.map (fun p => (p.code, p.arbMode)) = some (2, 0) ∧ ownRequest (controller id) = false := by decide +kernel
/-- Session 6, of the same domain, resets first. -/
def domainWaits : State :=
  let s := bus { openSes [] with domain := 9 } id
  asked { s with arb := { s.arb with ses := s.arb.ses ++ [(6, { st := .resetting, owner := 1, domain := 9, wait := some (waitOf true) })], resets := [6] } } pSesReset
theorem test_domain_waits : Passes domainWaits 0 specSessionReset pSesReset [] ∧ (domainWaits.ses (pkSes pSesReset)).st = .open_ ∧ (domainWaits.ses (pkSes pSesReset)).wait = none
    ∧ (domainWaits.ses (pkSes pSesReset)).domain ≠ 0 ∧ (6 : Ses) ≠ pkSes pSesReset ∧ (6 : Ses) ∈ domainWaits.arb.resets
    ∧ (domainWaits.ses 6).domain = (domainWaits.ses (pkSes pSesReset)).domain ∧ phaseFresh (asked (bus (openSes []) id) pClose) (pkSes pClose) = false
    ∧ ((asked (bus (openSes []) id) pClose).ses (pkSes pClose)).domain = 0 :=
  ⟨⟨by decide +kernel, by decide +kernel, by decide +kernel⟩, by decide +kernel, by decide +kernel, by decide +kernel, by decide +kernel, by decide +kernel,
   by decide +kernel, by decide +kernel, by decide +kernel⟩
theorem test_profile_load_reads : readWaits (asked (assembled true) pProfile) (apImg pProfile) (min (apLen pProfile) 65536) = false := by decide +kernel
theorem test_phase_refused : (bus (openSes []) id).arb.path ≠ some 1 ∧ (bus (openSes []) id).arb.phase = none ∧ (inWin0).rd = true
    ∧ answersPhases ((bus (openSes []) id).setMode .rest) = true ∧ phaseWindow ((bus (openSes []) id).setMode .rest) 2 0x09 0x40000010 = some (5, 1, inWin0)
    ∧ ((phased true true).ses 5).wait = none ∧ (phaseWindow (bus { openSes [] with inw := [(1, { inWin0 with wr := false })] } id) 2 0x09 0x40000010).map (·.2.2.wr) = some false
    ∧ ({ phase0 true true with w := { inWin0 with rd := false } } : InPhase).w.rd = false := by decide +kernel
/-- A loaded image, of the same capabilities, runs the acknowledge cycle; one is under way. -/
def imaged : State := bus (openSes []) (fun a => { a with prof := some { profileOf 4 with entry := List.replicate 16 0, insn := [0] }, running := true })
theorem test_image_acknowledges : canAck imaged = true ∧ imageRuns imaged = true ∧ (readVector imaged 3 0x40).2 = true ∧ imageRuns (vectoring 15) = false
    ∧ ({ imaged with arb := { imaged.arb with ack := some 3 } }).arb.ack ≠ none := by decide +kernel
/-! The step sequencer. -/
/-- Thread 0 at the word of an idle profile with unknown microcode. -/
def sequencing (path : Option Thread) : State := bus (openSes []) (fun a => { a with running := true, path := path })
/-- A word of the operation, with its fields a, g, hi and lo (12 R382). -/
def sqWord (op : BitVec 6) (a : BitVec 3) (b : BitVec 3) (g : BitVec 4) (imm : BitVec 16) : W32 := op ++ a ++ b ++ g ++ imm
theorem seq_at (path : Option Thread) (w : W32) (h : sqLegal w = true) : SeqAt (sequencing path) 0 w (w.extractLsb' 26 6).toNat :=
  ⟨by rfl, by rfl, by rfl, rfl, h, ⟨profileOf 2, by rfl, .inl rfl⟩⟩
theorem test_seq_outputs : sqLegal (sqWord 1 0 0 2 0xFF55) = true ∧ sqLegal (sqWord 2 1 0 0 0) = true ∧ sqLegal (sqWord 3 0 0 9 0xFF00) = true
    ∧ sqLegal (sqWord 4 1 0 9 0) = true ∧ sqLegal (sqWord 5 0 0 0 0x3F15) = true ∧ mayDrive (sequencing (some 0)) 0 0 ∧ ¬ mayDrive (sequencing none) 0 3
    ∧ mayDrive (sequencing none) 0 4 :=
  ⟨by decide, by decide, by decide, by decide, by decide, .inr (by rfl), by unfold mayDrive; decide +kernel, .inl (by decide)⟩
theorem test_seq_words : [sqWord 6 0 0 0 5, sqWord 7 0 0 2 0x0101, sqWord 8 0 0 2 0x0101, sqWord 9 0 0 0 1, sqWord 10 0 0 1 0, sqWord 11 1 0 7 0, sqWord 11 1 0 8 0, sqWord 11 1 0 9 0,
    sqWord 12 1 0 3 0, sqWord 13 1 2 8 0, sqWord 14 1 0 7 5, sqWord 15 1 0 5 0x0FFF, sqWord 16 0 0 0 3].all sqLegal = true := by decide +kernel
/-- Thread 0 waits for the condition given; x7 is 1. -/
def sqWaiting (k : SeqWait) : State := (bus (openSes []) (fun a => { a with running := true, events := 0x0011 })).setThread 0 { wait := k, x := [(7, 1)] }
theorem test_seq_waits : ((sqWaiting (.delay 4)).thread 0).wait = .delay 4 ∧ ((sqWaiting (.line 2 1 1 false)).thread 0).wait = .line 2 1 1 false
    ∧ ((sqWaiting (.event 0x0010)).thread 0).wait = .event 0x0010 ∧ (sqWaiting (.event 0x0010)).arb.events &&& 0x0010 ≠ 0
    ∧ mget ((sqWaiting (.event 0x0010)).thread 0).x 7 0 ≠ 0 ∧ (sampleLines (sqWaiting (.line 2 1 1 false)) 2 0xFFFFFFFF).setWidth 8 &&& 1#8 = 1#8 := by decide +kernel

theorem seq_of (s : State) (th : Thread) (w : W32) (r : s.arb.running = true) (p : s.dev.porst = false) (k : (s.thread th).wait = .ready) (h : sqLegal w = true)
    (f : s.arb.prof = some (profileOf 2)) : SeqAt s th w (w.extractLsb' 26 6).toNat := ⟨r, p, k, rfl, h, ⟨profileOf 2, f, .inl rfl⟩⟩
/-- SIG of HELD and YIELD by ARB, of DONE, NEXT and VECTOR by MST, of NEXT by SLV; with a bus that is owned, an acknowledge cycle, or a phase under way. -/
def acking : State := bus (openSes []) (fun a => { a with running := true, ack := some 3 })
def writingPhase : State := bus (openSes []) (fun a => { a with running := true, phase := some (phase0 true true), path := some 1 })
theorem test_seq_signals : SeqAt (sequencing none) 2 (sqWord 10 0 0 0 2) 10 ∧ SeqAt (sequencing none) 2 (sqWord 10 0 0 0 4) 10 ∧ SeqAt (sequencing (some 0)) 0 (sqWord 10 0 0 0 3) 10
    ∧ SeqAt (sequencing (some 0)) 0 (sqWord 10 0 0 0 12) 10 ∧ SeqAt acking 0 (sqWord 10 0 0 0 13) 10 ∧ SeqAt writingPhase 1 (sqWord 10 0 0 0 12) 10
    ∧ (sequencing none).arb.owned = false ∧ (sequencing (some 0)).arb.cycle = none ∧ acking.arb.ack = some 3 ∧ (sequencing none).arb.ack = none
    ∧ matchVector acking (3#3).toNat (mget acking.arb.fields 4 0) = none ∧ writingPhase.arb.phase = some (phase0 true true) ∧ (phase0 true true).write = true
    ∧ ((sqWord 10 0 0 0 13).extractLsb' 0 4).toNat = 13 :=
  ⟨seq_of _ _ _ rfl rfl rfl (by decide) rfl, seq_of _ _ _ rfl rfl rfl (by decide) rfl, seq_of _ _ _ rfl rfl rfl (by decide) rfl, seq_of _ _ _ rfl rfl rfl (by decide) rfl,
   seq_of _ _ _ rfl rfl rfl (by decide) rfl, seq_of _ _ _ rfl rfl rfl (by decide) rfl, by decide, by decide, by decide, by decide, by decide +kernel, by rfl, by decide, by decide⟩
/-- END by MST and SLV with nothing under way, and LDE of the fields that STE has and has not written. -/
theorem test_seq_end : SeqAt (sequencing none) 0 (sqWord 16 0 0 0 3) 16 ∧ SeqAt (sequencing (some 1)) 1 (sqWord 16 0 0 0 3) 16 ∧ (sequencing (some 1)).arb.phase = none
    ∧ mget? (sequencing none).arb.fields 8 = none ∧ SeqAt (sequencing none) 0 (sqWord 11 1 0 0 8) 11 ∧ ((sqWord 11 1 0 0 8).extractLsb' 0 4).toNat = 8
    ∧ mget? ({ sequencing none with arb := { (sequencing none).arb with fields := [(9, 5)] } }).arb.fields 9 = some 5 ∧ ((sqWord 11 1 0 0 12).extractLsb' 0 4).toNat = 12 :=
  ⟨seq_of _ _ _ rfl rfl rfl (by decide) rfl, seq_of _ _ _ rfl rfl rfl (by decide) rfl, by rfl, by rfl, seq_of _ _ _ rfl rfl rfl (by decide) rfl, by decide, by rfl, by decide⟩
/-- Session 5 moves 16 bytes from the bus to IPA 0x40, or to the page at 0x200000, which no entry of the cache translates. -/
def moving (ipa : BitVec 48) : OutAcc := { anAccess .load with kind := .mover true ipa true, size := 16 }
theorem test_burst : usesBlock (bus (openSes [moving 0x40]) (fun a => { a with owned := true })) (moving 0x40) = some 0x0B
    ∧ arbPick (bus (openSes [moving 0x40]) (fun a => { a with owned := true })) = some 5
    ∧ (inbTarget (bus (openSes [moving 0x40]) (fun a => { a with owned := true })) 5 (0x40 + 0) .write).1 = some 0x40
    ∧ arborServes (bus (openSes [moving 0x40]) (fun a => { a with owned := true, beats := 3, lastSes := 5 })) = true
    ∧ (bus (openSes [moving 0x40]) (fun a => { a with owned := true, beats := 3, lastSes := 5 })).arb.beats ≠ 0
    ∧ (bus (openSes [moving 0x40]) (fun a => { a with owned := true })).arb.beats = 0 := by decide +kernel
def refusing : State := bus (openSes [moving 0x200000]) (fun a => { a with owned := true, cycle := some (cycle0 true) })
theorem test_beat_refused : (inbTarget { refusing with arb := { refusing.arb with cycle := none, beats := refusing.arb.beats - 1 } } 5 ((0x200000#48).toNat + 0) .write).1 = none
    ∧ refusing.arb.cycle = some (cycle0 true) ∧ (refusing.ses 5).queue = [moving 0x200000] := by decide +kernel
theorem test_off_bus : offBus (looping true) 5 = true ∧ offBus (cycling .load true) 5 = false := by decide +kernel
theorem test_waits_behind : ∃ p ∈ (bus (openSes []) (fun a => { a with waiting := [(5, anAccess .load)] })).arb.waiting, p.1 = 5 :=
  ⟨(5, anAccess .load), by simp [bus], rfl⟩
theorem test_rmw_window : (phase0 true true).w.rd = true ∧ (phase0 true true).w.wr = true ∧ (phased true true).arb.inbuf = [] ∧ (phase0 false true).ahead = [] := by decide +kernel
/-- Byte lane 1 of group 0 takes a parity line. -/
theorem test_lane_parity : ((bus (openSes []) (fun a => { a with prof := some { profileOf 2 with caps := { (profileOf 2).caps with parity := 2 } } })).caps.parity).getLsbD (4 * 0 + 1) = true
    ∧ parityLines (bus (openSes []) id) 2 = 0 ∧ parityLines (bus (openSes []) id) 0 = 1 := by decide +kernel

/-! PCI Express, timers, Quartz, trace, test port, registers. -/
/-- Port 0 with link 0 and a function of it. -/
def ported (l : PcieLink) (f : PcieFn) : State :=
  { withPav { st := .running, nvcpu := 1, nirq := 4 } with
    ports := [(0, { roleSet := true, links := [(0, l)], fns := [(0, f)], itlb := [plainEntry 1 0 0] })]
    gate := { ranges := [{ owner := 1, base := 0, len := 0x200000 }] }
    fab := { homes := [(idleService.homeNo 0, { sc := [(0, { data := 5, dirty := false, way := 0, nru := false, cls := 1 })] })] } }
def rootLink : PcieLink := { present := true, up := true, width := 8, speed := 3, perstOut := false }
def endLink : PcieLink := { rootLink with endpoint := true, numVf := 2 }
def ownedFn : PcieFn := { owner := 1 }
/-- What the targets of a request of 8 bytes leave, and its parts. -/
def parts8 (addr : W64) (acc : Acc) : Option (List (Nat × Nat × Nat)) × State :=
  partTargets (pcieCount (ported rootLink ownedFn) false 1 1) false 0 0 addr acc (lineParts addr.toNat 8)
theorem test_pcie_requests : linkRuns (ported rootLink ownedFn) false 0 = true ∧ fnExists (ported rootLink ownedFn) false 0 0 = true ∧ fnMuted (ported rootLink ownedFn) false 0 0 = false
    ∧ ((ported rootLink ownedFn).link false 0).rx = [] ∧ (0x38 : W64) ≠ ((ported rootLink ownedFn).link false 0).msiAddr
    ∧ (parts8 0x38 .write).1 = some [(0x38, 0, 8)] ∧ (parts8 0x3C .write).1 = some [(0x3C, 0, 4), (0x40, 4, 4)] ∧ (parts8 0x1038 .read).1 = none
    ∧ (writeParts false 1 7 [(0x38, 0, 8)] (setRx (parts8 0x38 .write).2 false 0 [])).1 = []
    ∧ (readParts false 1 [(0x38, 0, 8)] 0 (parts8 0x38 .read).2).isSome = true
    ∧ (pcieTarget (pcieCount (ported rootLink ownedFn) false 1 1) false 0 0 0x38 8 .rmw).1 = some (0x38, .normal)
    ∧ (agentAtom (pcieTarget (pcieCount (ported rootLink ownedFn) false 1 1) false 0 0 0x38 8 .rmw).2 (pcieAgent false) 1 0x38 8 9 1 2).isSome = true := by decide +kernel
/-- A link that is up, in REST. -/
def restLink : State := (ported rootLink ownedFn).setMode .rest
theorem test_pcie_rest : restLink.mode = .rest ∧ (restLink.link false 0).present = true ∧ (restLink.link false 0).up = true := by decide +kernel
theorem test_pcie_upconfig : linkRuns (ported { rootLink with reduced := true, full := 16 } {}) false 0 = true ∧ ((ported { rootLink with reduced := true, full := 16 } {}).link false 0).reduced = true
    ∧ (ported { rootLink with reduced := true } {}).policy 9 ≠ 0 ∧ (ported rootLink {}).gate.restart = false ∧ (ported rootLink {}).gate.restReq = none
    ∧ ({ width := 16, capable := false } : UpTry).capable = false ∧ ({ width := 8 } : UpTry).width ≠ (16#5) := by decide +kernel
theorem test_pcie_endpoint : ((ported endLink { owner := 1, flr := some (none, 0) }).link false 0).endpoint = true
    ∧ ((ported endLink { owner := 1, flr := some (none, 0) }).pfn false 0 0).flr.isSome = true ∧ fnExists (ported endLink ownedFn) false 0 2 = true
    ∧ fnExists (ported endLink ownedFn) false 0 3 = false ∧ ((ported endLink { owner := 1, msixEn := true, masks := 0, bme := true }).pfn false 0 0).masks.getLsbD 31 = false
    ∧ linkRuns (ported endLink ownedFn) false 0 = true := by decide +kernel
/-- A route of a function's vector 9 to ID 2 of pavilion 1. -/
def msiRoute : Route := { src := pcieSource false 0 0 9, hyp := false, pav := 1, id := 2, vc := 0 }
theorem test_pcie_messages : routeFits (ported rootLink ownedFn) msiRoute = true ∧ routeFits (ported rootLink {}) msiRoute = false := by decide +kernel
def sentReq : PcieReq := { vc := none, config := true, reads := true, addr := 0, size := 4, cls := hypClass, fn := 0, at_ := 0 }
theorem test_pcie_completion : ((ported { rootLink with reqs := [sentReq] } {}).link false 0).reqs = [sentReq] ∧ sentReq.dead = false
    ∧ linkRuns (ported { rootLink with reqs := [sentReq] } {}) false 0 = true := by decide +kernel
theorem test_pcie_links : ((ported { endLink with up := false, perstIn := false } {}).link false 0).present = true ∧ (1 ≤ (1#3).toNat ∧ (5#3).toNat ≤ 5)
    ∧ (7#5).toNat < rootLink.width.toNat ∧ ((ported { rootLink with reduced := true } {}).link false 0).reduced = true ∧ idleService.policy 9 ≠ 0
    ∧ (∃ p ∈ ((ported { rootLink with perstOut := true } {}).port false).links, p.2.present = true ∧ p.2.endpoint = false ∧ p.2.perstOut = true)
    ∧ ((ported rootLink { owner := 1, flr := some (some 0, 7) }).pfn false 0 0).flr = some (some 0, 7)
    ∧ ((asked (ported rootLink { owner := 1, flr := some (some 0, 7) }) (pk 0x0B02 2 0 0 0xFFFF)).lane 0).cur = some (pk 0x0B02 2 0 0 0xFFFF)
    ∧ (2#10) ∉ ([0, 1, 18, 32, 384] : List (BitVec 10)) ∧ (0x8000#32).getLsbD 15 = true := by decide +kernel

/-- Channel 3 counts Quartz ticks, its period over. -/
def timing (t : Timer) : State := { idleService with qz := { locked := true }, timers := [(3, t)] }
def period : Timer := { ctl := 0b101, cnt := 9, cmp := 9 }
theorem test_timer_ticks : quartzTicks (timing period) 3 = true ∧ quartzTicks (timing { period with cnt := 8 }) 3 = true ∧ ((timing period).timer 3).linked = false
    ∧ (∀ m, tmEvents ((timing period).timer m).ctl = false) ∧ (timing period).mode ≠ .belvedere := by decide +kernel
/-- Channel 3 counts the rises of TG0. -/
def gated : Timer := { ctl := 0b0_00001_0_0000_10_0001 }
theorem test_gate : tmEn gated.ctl = true ∧ timersRun (timing { ctl := 0b1001 }) 3 = true ∧ (timing { ctl := 0b1001 }).dev.tg.getLsbD 0 ≠ true
    ∧ (∀ m, m ≠ 3 → tmEvents ((timing { ctl := 0b1001 }).timer m).ctl = false) := by decide +kernel
theorem test_timer_owner : (timing { owner := 1 }).mode = .service ∧ (1 : ClassId) = ((timing { owner := 1 }).timer 3).owner ∧ (1 : ClassId) ≠ noClass
    ∧ (2 : ClassId) ≠ hypClass ∧ (2 : ClassId) ≠ ((timing { owner := 1 }).timer 3).owner ∧ 24 < ((0x1F0#32).extractLsb' 4 5).toNat := by decide +kernel
theorem test_pll : (waiting 0x1FF true).dev.porst = false ∧ (waiting 0x1FF true).dev.refclk = true ∧ (waiting 0x1FF true).qz.locked = false
    ∧ (waiting 0x1FF true).dev.coldRun = false ∧ (waiting 0x1FF true).mode = .cold ∧ (waiting 0x1FF true).dev.coldHeld = false
    ∧ ({ waiting 0x1FF true with dev := { (waiting 0x1FF true).dev with coldHeld := true } }).dev.coldHeld = true := by decide +kernel
/-- Quartz disciplined at its falling edges. -/
def clocked (q : Quartz) : State := { idleService with qz := { q with locked := true, mode := true, edge := false } }
theorem test_pps : (∀ m, tmEvents ((clocked {}).timer m).ctl = false) ∧ (clocked {}).qz.accepted = false ∧ (clocked { accepted := true }).qz.accepted = true
    ∧ (1001000000 - (clocked { accepted := true, lastEdge := 0 }).qz.lastEdge) % 1000000000 ≤ 1000000 ∧ 1000000 < (1500000000 - 0) % 1000000000
    ∧ (clocked {}).qz.holdover = false ∧ (clocked { ppsOut := true }).qz.ppsHigh = none ∧ (clocked { ppsHigh := some 0 }).qz.ppsHigh = some 0 := by decide +kernel
/-- The funnel as given. -/
def funnelled (f : Funnel) : State := { idleService with funnel := f }
theorem test_funnel : (funnelled { out := [(0, [1, 2])] }).funnel.buf.length + [(1 : Byte), 2].length ≤ 262144 - 4096 ∧ ((funnelled {}).core 0).trc.gap = 0
    ∧ traceClass (funnelled { classes := 3 }) 0 = 3#2 ∧ ¬ (262144 - 1 + 1 < (196608 : Nat))
    ∧ ringFull { on := true, buf := List.replicate 64 0, ringK := 16, rate := 5 } = false
    ∧ ringFull { on := true, full := true, ringK := 6, buf := List.replicate 64 0 } = true ∧ (0 : Nat) < 4000
    ∧ (funnelled { draining := true }).funnel.buf = [] ∧ (funnelled { draining := true }).funnel.out = [] := by decide +kernel
theorem test_test_port : idleService.dev.rails.getLsbD 8 = true ∧ dbgAccepted idleService = false
    ∧ dbgAccepted { idleService with dev := { idleService.dev with hdr := some { hdr0 with debug := true } } } = true ∧ 5 < slotsPerChannel idleService.dram
    ∧ (0x41#8) ∉ ([1, 2, 3, 4, 5, 6, 7, 0x40] : List (BitVec 8)) := by decide +kernel
/-- A raw read waits for row 5, and the fill reaches it. -/
def debugged (fill : Nat) : State := { idleService with dev := { idleService.dev with hdr := some { hdr0 with debug := true } }, dram := { fill := fill }, jtag := { want := some (3, 5) } }
theorem test_debug_waits : dbgAccepted (debugged 5) = true ∧ (5#34).toNat < slotsPerChannel (debugged 5).dram ∧ (debugged 5).dram.fill ≤ (5#34).toNat
    ∧ (5#34).toNat < (debugged 6).dram.fill ∧ (debugged 5).jtag.want = some (3, (5#34).toNat) ∧ (debugged 5).mode = .service ∧ (debugged 5).dev.stopped = false
    ∧ (5#34).toNat < min ((debugged 5).dram.fill + (1#32).toNat) (slotsPerChannel (debugged 5).dram) ∧ (debugged 5).dev.rails.getLsbD 8 = true := by decide +kernel
theorem test_registers : (0 : Vc).toNat < vcCount idleService.cmap.part ∧ mget? (((running hyp).updCore 0 (fun c => { c with holds := [(0, (true, 4))] })).core 0).holds 0 = some (true, 4)
    ∧ mget? ((running hyp).core 0).holds 0 = none ∧ storesDone (running hyp) 0 = true ∧ (idleService.timer 3).ctl.getLsbD 1 = false := by decide +kernel
theorem test_quartz_space (pa : Nat) (h : 0xE00000100000 ≤ pa) (k : pa < 0xE00000200000) : paKind idleService pa = .quartz := by
  have e : usableTop idleService.dram = 64 * 2 ^ 33 / 8 * 7 := by rfl
  unfold paKind
  rw [e]
  repeat (first | rw [if_neg (by omega)] | rw [if_pos (by omega)])
/-- Pavilion 1 has interrupt 2 enabled, with SEND, at its vCPU 0, which core 0 runs; its entry stands in the home's cache. -/
def posting (send : Bool) : State :=
  let r : Route := { src := 0x13, hyp := false, pav := 1, id := 2, vc := 0 }
  let l : LineNo := lineOf (0x100000 + 8)
  let x : ScLine := { data := BitVec.ofNat 512 ((if send then 3 else 1) * 2 ^ 64), dirty := false, way := 0, nru := false, cls := hypClass }
  { served State.reset with
    pavs := [(1, { st := .running, nvcpu := 1, nirq := 4, pit := 0x100000 })]
    cores := [(0, coreAt { sup with run := true })]
    gate := { routes := [r] }
    timers := [(1, { owner := 1 })]
    fab := { homes := [(idleService.homeNo l, { sc := [(l.toNat, x)] })] } }
theorem test_posts : pitEntry (posting true) ((posting true).pav 1) 2 = 3#32 ∧ ((posting true).core 0).arch.tr.vmid = 1 ∧ pitEntry (posting false) ((posting false).pav 1) 2 = 1#32
    ∧ (posting true).gate.routes.filter (fun q => q.src == 0x13 && routeFits (posting true) q) = [{ src := 0x13, hyp := false, pav := 1, id := 2, vc := 0 }]
    ∧ postDeferred (posting true) 1 = false ∧ runningOn (posting true) 1 0 = some 0 ∧ (∀ r ∈ (posting true).gate.routes, r.src = 0x23 → routeFits (posting true) r = false) ∧ (resting 1).dev.porst = false := by decide +kernel

/-! Whole-machine statements. -/
theorem test_reset_wf : State.reset.dram.wf := by decide
theorem test_reset_sound : Sound State.reset := ⟨⟨fun k p h => by simp [State.reset, mget?] at h, fun k j p h => by simp [State.reset, mget?] at h, fun p h => by simp [State.reset] at h⟩, by decide⟩
/-- A step with a command in front: the queue's rest stays. -/
theorem test_step_runs : step { State.reset with pending := [.timerTick 0, .ppsHoldover] } = exec (.timerTick 0) { State.reset with pending := [.ppsHoldover] } := by rfl
theorem test_empty_queue : (idleService.pending = [] ∧ idleService.qz.locked = false) ∧ ((clocked {}).pending = [] ∧ (clocked {}).qz.locked = true ∧ (clocked {}).dev.porst = false) := by decide +kernel
theorem test_dram_lines : isTagLine {} 5 = false ∧ ({} : Dram).lost = none ∧ isTagLine { mica := true, mode := .open_ } 5 = false := by decide +kernel
/-- The example of 09 R289's raw read, line 0x24A4 of a channel with two ranks, by hand from the table of R278. -/
theorem test_dram_address : dramAddr 1 0x24A4 = { sub := false, bankGroup := 2, bank := 2, column := 288, rank := true, row := 0 } := by decide
theorem test_mica_zero : ∃ b, micaEncode 0 = some b := by
  have h : (micaEncode 0).isSome = true := by decide +kernel
  exact Option.isSome_iff_exists.mp h
/-- The round trip's hypotheses: an operation that a style admits, and a word that decodes. -/
theorem test_round_trip : (CoreOp.alu true .sub 3 1 2).wf true = true ∧ (CoreOp.alu true .sub 3 1 2).wf false = false ∧ decodeCore false (encodeCore .sync) = some .sync := by decide
theorem test_entry_faults : entryReserved 0x0000000000000003 false 0 = false ∧ entryReserved 0x0000000000000001 false 0 = true ∧ entryReserved 0x0000000000000009 true 3 = true
    ∧ (plainEntry 1 0 0).s1on = false ∧ { plainEntry 1 0 0 with s1on := true }.s1on = true := by decide
/-- A reset core idles in every field that ResetState names. -/
theorem test_reset_reads : (State.reset.core 7).arch = {} ∧ (State.reset.pav 255).st = .none ∧ (State.reset.ses 16383).st = .closed ∧ (State.reset.timer 31).ctl = 0 := by decide

/-- The line of a posted request has a transaction open at its home: the request waits whole. -/
theorem test_posted_waits :
    (writeParts false 1 7 [(0x38, 0, 8)] (setRx { ported rootLink ownedFn with fab := { homes := [(idleService.homeNo 0, { txns := [(0, { req := { kind := .rdS, src := 2, line := 0 }, cmp := true })] })] } } false 0 [])).1
      = [(0x38, 0, 8)] := by decide +kernel

/-! The remaining configuration commands: each with a packet that passes every check. -/
/-- VTB at 0x10000, PIT at 0x20000, THRESH 1, four vCPUs, 64 interrupts. -/
def pCreate : Packet := pk 0x0201 3 0 1 (0x10000 + 2 ^ 64 * 0x20000 + 2 ^ 128 * 0x100 + 2 ^ 144 * 4 + 2 ^ 160 * 64)
def defined1 : State := withPav { st := .defined, nvcpu := 4, nirq := 64, pit := 0x20000 }
theorem test_pav_create_accepts : Accepts (asked idleService pCreate) 0 cfgPavCreate pCreate :=
  ⟨⟨by decide +kernel, by decide +kernel, by decide +kernel⟩, by decide +kernel, by decide +kernel, by rfl, by decide +kernel⟩
/-- vCPU 3 to vc 63. -/
def pMap : Packet := pk 0x0206 2 0 1 (3 + 2 ^ 16 * 63 + 2 ^ 24)
theorem test_pav_vcpu_map_accepts : Accepts (asked defined1 pMap) 0 cfgPavVcpuMap pMap :=
  ⟨⟨by decide +kernel, by decide +kernel, by decide +kernel⟩, by decide +kernel, by decide +kernel, by rfl, by decide +kernel⟩
def pCtl : Packet := pk 0x0207 2 1 1 (0x0102 + 2 ^ 16 * 0xFF03 + 2 ^ 64 * 0x30000)
theorem test_pav_ctl_accepts : Accepts (asked defined1 pCtl) 0 cfgPavCtlSet pCtl :=
  ⟨⟨by decide +kernel, by decide +kernel, by decide +kernel⟩, by decide +kernel, by decide +kernel, by rfl, by decide +kernel⟩
def pParity : Packet := pk 0x0303 2 0 0 1
def pKeep : Packet := pk 0x0304 2 0 0 (0x400000 + 2 ^ 64 * 0x10000)
def pMica : Packet := pk 0x0305 2 0 0 1
theorem test_mem_parity_accepts : Accepts (asked (assembled true) pParity) 0 cfgMemParitySet pParity :=
  ⟨⟨by decide +kernel, by decide +kernel, by decide +kernel⟩, by decide +kernel, by decide +kernel, by rfl, by decide +kernel⟩
theorem test_keep_region_accepts : Accepts (asked (assembled true) pKeep) 0 cfgKeepRegionSet pKeep :=
  ⟨⟨by decide +kernel, by decide +kernel, by decide +kernel⟩, by decide +kernel, by decide +kernel, by rfl, by decide +kernel⟩
theorem test_mica_accepts : Accepts (asked idleService pMica) 0 cfgMicaSet pMica :=
  ⟨⟨by decide +kernel, by decide +kernel, by decide +kernel⟩, by decide +kernel, by decide +kernel, by rfl, by decide +kernel⟩
/-- Session 5 for pavilion 1: a safety session of domain 63. -/
def pOpen : Packet := pk 0x0402 2 0 5 (1 + 2 ^ 8 + 2 ^ 16 * 63 + 2 ^ 24 * 0xFF + 2 ^ 32 * 1000)
theorem test_session_open_accepts : Accepts (asked defined1 pOpen) 0 cfgSessionOpen pOpen :=
  ⟨⟨by decide +kernel, by decide +kernel, by decide +kernel⟩, by decide +kernel, by decide +kernel, by rfl, by decide +kernel⟩
/-- Outbound window 1 of session 5: 16 MiB beside the session's other window, A32, D32. -/
def pWindow : Packet := pk 0x0403 3 0 5 (2 ^ 8 + 2 ^ 16 + 2 ^ 24 * 2 + 2 ^ 32 * 9 + 2 ^ 40 * 2 + 2 ^ 64 * 0xC00001000000 + 2 ^ 128 * 24 + 2 ^ 192 * 0x81000000)
theorem test_session_window_accepts : Accepts (asked (bus (openSes []) id) pWindow) 0 cfgSessionWindowSet pWindow :=
  ⟨⟨by decide +kernel, by decide +kernel, by decide +kernel⟩, by decide +kernel, by decide +kernel, by rfl, by decide +kernel⟩
/-- MASTER, SLAVE and a handler of levels 1 to 7, under a VME profile. -/
def pRole : Packet := pk 0x0406 2 0 0 (2 ^ 8 + 2 ^ 16 + 2 ^ 24 * 3 + 2 ^ 32 * 0xFE)
def profiled : State := { assembled true with arb := { prof := some (profileOf 2) } }
theorem test_arb_role_accepts : Accepts (asked profiled pRole) 0 cfgArbRoleSet pRole :=
  ⟨⟨by decide +kernel, by decide +kernel, by decide +kernel⟩, by decide +kernel, by decide +kernel, by rfl, by decide +kernel⟩
/-- Interrupt 63 of pavilion 1, with no source, to its vCPU 3; then the same cleared whole. -/
def pRoute : Packet := pk 0x0601 2 0 (1 + 2 ^ 16 * 63) (2 ^ 64 * 3 + 2 ^ 80)
def pUnroute : Packet := pk 0x0602 2 1 (1 + 2 ^ 16 * 63) 0
theorem test_irq_route_set_accepts : Accepts (asked defined1 pRoute) 0 cfgIrqRouteSet pRoute :=
  ⟨⟨by decide +kernel, by decide +kernel, by decide +kernel⟩, by decide +kernel, by decide +kernel, by rfl, by decide +kernel⟩
theorem test_irq_route_clear_accepts : Accepts (asked defined1 pUnroute) 0 cfgIrqRouteClear pUnroute :=
  ⟨⟨by decide +kernel, by decide +kernel, by decide +kernel⟩, by decide +kernel, by decide +kernel, by rfl, by decide +kernel⟩
/-- Item 4 at its highest value, a day. -/
def pPolicy : Packet := pk 0x0703 2 0 0 (4 + 2 ^ 64 * 86400)
theorem test_fault_policy_accepts : Accepts (asked idleService pPolicy) 0 cfgFaultPolicySet pPolicy :=
  ⟨⟨by decide +kernel, by decide +kernel, by decide +kernel⟩, by decide +kernel, by decide +kernel, by rfl, by decide +kernel⟩
/-- FOLLY index 15 is unloaded. -/
def pUnload : Packet := pk 0x0801 4 0 15 (2 ^ 96 * 1)
theorem test_folly_load_accepts : Accepts (asked idleService pUnload) 0 cfgFollyLoad pUnload :=
  ⟨⟨by decide +kernel, by decide +kernel, by decide +kernel⟩, by decide +kernel, by decide +kernel, Option.isNone_iff_eq_none.mp (by decide +kernel), by decide +kernel⟩
def pDisc : Packet := pk 0x0A01 2 0 0 (1 + 2 ^ 16 + 2 ^ 32 * 499999999)
def pTimer : Packet := pk 0x0A02 2 0 30 (0x100 + 2 ^ 16)
theorem test_discipline_accepts : Accepts (asked idleService pDisc) 0 cfgQzDisciplineSet pDisc :=
  ⟨⟨by decide +kernel, by decide +kernel, by decide +kernel⟩, by decide +kernel, by decide +kernel, by rfl, by decide +kernel⟩
theorem test_timer_alloc_accepts : Accepts (asked idleService pTimer) 0 cfgTimerAlloc pTimer :=
  ⟨⟨by decide +kernel, by decide +kernel, by decide +kernel⟩, by decide +kernel, by decide +kernel, by rfl, by decide +kernel⟩
/-- Port 1 as four links, link 3 an endpoint with 64 functions. -/
def pPorts : Packet := pk 0x0B01 2 0 1 (2 + 2 ^ 8 * 8 + 2 ^ 40 * 64)
theorem test_pcie_role_accepts : Accepts (asked (assembled true) pPorts) 0 cfgPcieRoleSet pPorts :=
  ⟨⟨by decide +kernel, by decide +kernel, by decide +kernel⟩, by decide +kernel, by decide +kernel, by rfl, by decide +kernel⟩
/-- Function 0xFFFF below the root-port link 0 of port 0, for the hypervisor class. -/
def pAssignFn : Packet := pk 0x0B02 2 0 (2 ^ 8 * 0xFFFF) 0x100
def rooted : State := idleService.setPort false { links := [(0, { present := true })] }
theorem test_pcie_vf_accepts : Accepts (asked rooted pAssignFn) 0 cfgPcieVfAssign pAssignFn :=
  ⟨⟨by decide +kernel, by decide +kernel, by decide +kernel⟩, by decide +kernel, by decide +kernel, by rfl, by decide +kernel⟩
/-- The ring of 64 KiB at 4 MiB, with the sink on; unit 36's first counter on its last code. -/
def pTrace : Packet := pk 0x0C01 4 0 0 (1 + 2 ^ 16 * 16 + 2 ^ 32 * 10 + 2 ^ 40 * 10 + 2 ^ 64 * 0x400000)
theorem test_trace_config_accepts : Accepts (asked ranged pTrace) 0 cfgTraceConfig pTrace :=
  ⟨⟨by decide +kernel, by decide +kernel, by decide +kernel⟩, by decide +kernel, by decide +kernel, by rfl, by decide +kernel⟩
def pUncore : Packet := pk 0x0C02 2 1 36 (4 + 2 ^ 8 + 2 ^ 16 * 0x101)
theorem test_pmu_uncore_accepts : Accepts (asked idleService pUncore) 0 cfgPmuUncoreConfig pUncore :=
  ⟨⟨by decide +kernel, by decide +kernel, by decide +kernel⟩, by decide +kernel, by decide +kernel, by rfl, by decide +kernel⟩

end Sys2Proof.Tests
end

-- ==== Reset ====
section
/-! What reset leaves (O56): an empty memory reads zero, and the empty core map is usable. -/

namespace Sys2Proof.Machine

/-- A memory that no cell was written to reads zero. -/
theorem slotBytes_nil (s : Slot) (i n : Nat) : slotBytes [] s i n = 0 := by
  induction n generalizing i with
  | zero => rfl
  | succ n ih => simp [slotBytes, cellGet, ih]

/-- Every register that was never written is zero. -/
theorem gRead_default (r : Reg) : gRead {} r = 0 := by
  unfold gRead spRead
  repeat' split
  all_goals rfl

/-- A map without entries holds no unit twice. -/
theorem mapUsable_empty : MapUsable {} where
  mapped k _ h := by simp [mget?] at h
  distinct k _ _ h := by simp [mget?] at h
  spare _ h := by simp at h

theorem reset_sound : Sound State.reset := ⟨mapUsable_empty, by decide⟩

/-- Settles O56: every map of the reset state is empty, so each part of it reads as its default. -/
theorem resetState : Obligations.ResetState :=
  ⟨rfl, rfl, reset_sound, fun _ => ⟨rfl, rfl, rfl, gRead_default⟩, fun _ => rfl, fun _ => rfl,
    rfl, rfl, rfl, rfl, rfl, fun _ => ⟨rfl, rfl⟩, fun _ _ => slotBytes_nil _ _ _⟩

end Sys2Proof.Machine
end

-- ==== Registers and posts ====
section
/-! Registers that cores reach by address, and posts (O53): what an access to the Quartz page and to VIRQ_SEND answers and changes, and where a post goes. -/

namespace Sys2Proof.Machine

/-! ### Hold registers (16 R502) -/

/-- A half of a 64-bit value, the upper one where `high`. -/
def halfWord (v : W64) (high : Bool) : W32 := if high then v.extractLsb' 32 32 else v.extractLsb' 0 32

/-- The half that the hold register keeps is read from it, and the hold register is empty again. -/
theorem readHalf_held {s : State} {vc : Vc} {pair : Nat} {high : Bool} {v : W32} (live : W64) (h : mget? (s.core vc).holds pair = some (high, v)) :
    readHalf s vc pair high live = (v, s.setCore vc { s.core vc with holds := mdel (s.core vc).holds pair }) := by
  simp [readHalf, h]

/-- Any other read takes the live value and latches its other half. -/
theorem readHalf_fresh {s : State} {vc : Vc} {pair : Nat} {high : Bool} (live : W64)
    (h : ∀ k v, mget? (s.core vc).holds pair = some (k, v) → k ≠ high) :
    readHalf s vc pair high live = (halfWord live high,
      s.setCore vc { s.core vc with holds := mput (s.core vc).holds pair (!high, halfWord live !high) }) := by
  have hf (k : Bool) : (if k then live.extractLsb' 32 32 else live.setWidth 32) = halfWord live k := by
    rw [halfWord, BitVec.setWidth_eq_extractLsb' (by decide)]
  simp only [readHalf, hf]
  split
  · next k v e => rw [if_neg (h k v e)]
  · rfl

/-! ### Accesses to the Quartz page (16 R493, R502) -/

/-- A running core reaches the registers of the Quartz page. -/
theorem regReached_quartz {s : State} {vc : Vc} {pa : Nat} (hm : s.mode = .service) (hv : vc.toNat < vcCount s.cmap.part)
    (hk : paKind s pa = .quartz) (h4 : pa % 4 = 0) : regReached s vc pa = true := by
  simp [regReached, hm, hv, hk, h4, isRegs]

theorem sendReady_quartz {s : State} {vc : Vc} {pa : Nat} (hk : paKind s pa = .quartz) : sendReady s vc pa = true := by
  simp [sendReady, hk]

/-- The first 4 KiB of the page are Quartz's own registers. -/
theorem regRead_quartz {s : State} {vc : Vc} {cls : ClassId} {pa : Nat} (hk : paKind s pa = .quartz) (h0 : pa / 4096 % 256 = 0) :
    regRead s vc cls pa = quartzRead s vc (pa % 4096) := by
  simp only [regRead, hk, h0, if_pos]

/-- Quartz's own registers take no writes. -/
theorem regWrite_quartz {s : State} {vc : Vc} {cls : ClassId} {pa : Nat} {v : W32} (hk : paKind s pa = .quartz) (h0 : pa / 4096 % 256 = 0) :
    regWrite s vc cls pa v = s := by
  simp [regWrite, hk, h0]

/-- Timer channel 3 has the fourth page after them. -/
theorem regWrite_timer {s : State} {vc : Vc} {cls : ClassId} {pa i : Nat} {v : W32} (hk : paKind s pa = .quartz) (hi : pa / 4096 % 256 = i + 1)
    (hl : i < 32) : regWrite s vc cls pa v = timerWrite s cls (BitVec.ofNat 5 i) (pa % 4096) v := by
  simp only [regWrite, hk, hi]
  rw [if_pos (by omega), Nat.add_sub_cancel]

/-- CMP of a channel of its own, without a preload, takes the value at once (16 R499). -/
theorem writeCmp_direct {s : State} {n : TmrNo} {v : W32} (hl : (s.timer n).linked = false) (hp : (s.timer n).ctl.getLsbD 1 = false) :
    writeCmp s n v = s.setTimer n { s.timer n with cmp := v } := by
  simp only [writeCmp, ctlOwner, oddHalf, tmPreEn, hl, hp, Bool.false_and, Bool.false_eq_true, if_false]

section
variable {s : State} {vc : Vc} {cls : ClassId} (hm : s.mode = .service) (hv : vc.toNat < vcCount s.cmap.part)
  (hk : ∀ pa, 0xE00000100000 ≤ pa → pa < 0xE00000200000 → paKind s pa = .quartz)
include hm hv hk

/-- A hold-register read in the first 4 KiB of the page answers what Quartz's register gives. -/
theorem execHoldRegisterRead_quartz {pa : BitVec 48} (h1 : 0xE00000100000 ≤ pa.toNat) (h2 : pa.toNat < 0xE00000101000) (h4 : pa.toNat % 4 = 0) :
    exec (.holdRegisterRead vc cls pa) s
      = .next ((quartzRead s vc (pa.toNat % 4096)).2.answer ((quartzRead s vc (pa.toNat % 4096)).1.setWidth 64)) := by
  have hq := hk pa.toNat h1 (by omega)
  simp [exec, execHoldRegisterRead, regReached_quartz hm hv hq h4, regRead_quartz hq (by omega)]

/-- QZ_TIME is read by halves, through the hold register of pair 0. -/
theorem execHoldRegisterRead_time (high : Bool) :
    exec (.holdRegisterRead vc cls (if high then 0xE00000100004 else 0xE00000100000)) s
      = .next ((readHalf s vc 0 high (BitVec.ofNat 64 s.qz.time)).2.answer
          ((readHalf s vc 0 high (BitVec.ofNat 64 s.qz.time)).1.setWidth 64)) := by
  cases high <;> exact execHoldRegisterRead_quartz hm hv hk (by decide) (by decide) (by decide)

/-- The counter of ignored pulses is read and cleared at once (00 R11). -/
theorem execRcRegisterRead_ignored : exec (.rcRegisterRead vc cls 0xE00000100020) s
    = .next (({ s with qz := { s.qz with ignored := 0 } } : State).answer (s.qz.ignored.setWidth 64)) := by
  have hq := hk 0xE00000100020 (by decide) (by decide)
  have hr : regRead s vc cls 0xE00000100020 = (s.qz.ignored, { s with qz := { s.qz with ignored := 0 } }) := regRead_quartz hq rfl
  simp [exec, execRcRegisterRead, regReached_quartz hm hv hq rfl, hr]

/-- A write of the status, whose fields are read-only, changes nothing (00 R8). -/
theorem execRegisterWrite_status (v : W32) : exec (.registerWrite vc cls 0xE00000100008 v) s = .next s := by
  have hq := hk 0xE00000100008 (by decide) (by decide)
  simp [exec, execRegisterWrite, whenTrue, regWrite_quartz hq rfl]

/-- The hypervisor's write of CMP of channel 3 takes effect at once (16 R499). -/
theorem execRegisterWrite_cmp {v : W32} (hl : (s.timer 3).linked = false) (hp : (s.timer 3).ctl.getLsbD 1 = false) :
    exec (.registerWrite vc hypClass 0xE00000104004 v) s = .next (s.setTimer 3 { s.timer 3 with cmp := v }) := by
  have hq := hk 0xE00000104004 (by decide) (by decide)
  have hw : regWrite s vc hypClass 0xE00000104004 v = s.setTimer 3 { s.timer 3 with cmp := v } :=
    (regWrite_timer (i := 3) hq rfl (by decide)).trans (writeCmp_direct hl hp)
  simp [exec, execRegisterWrite, whenTrue, regReached_quartz hm hv hq rfl, sendReady_quartz hq, hw]

end

/-! ### Posts (10 R310 to R322; 13 R420) -/

/-- A VIRQ_SEND write of a running core whose stores are performed is VIRQ_SEND's effect. -/
theorem execVirqSendWrite_ready {s : State} {vc : Vc} {pn : Pav} {v : W32} (hm : s.mode = .service) (hv : vc.toNat < vcCount s.cmap.part)
    (hd : storesDone s vc = true) : exec (.virqSendWrite vc pn v) s = .next (virqSend s vc pn v) := by
  simp [exec, execVirqSendWrite, whenTrue, hm, hv, hd]

theorem forceInbound_empty {s : State} (h : s.arb.inbuf = []) : forceInbound s = s := by
  unfold forceInbound
  rw [h]
  show { s with arb := { s.arb with inbuf := [] } } = s
  rw [← h]

theorem drainRx_empty {s : State} {p : Bool} {l : Nat} (h : (s.link p l).rx = []) : drainRx s p l = s := by
  unfold drainRx
  rw [h]
  rfl

/-- Where nothing waits before the post, the source has nothing to perform first. -/
theorem sourceWrites_quiet {s : State} {v : Nat} (hi : v % 16 = 1 → s.arb.inbuf = [])
    (hx : v % 16 = 2 → (s.link ((v / 16) % 2 == 1) (v / 32 % 4)).rx = []) : sourceWrites s v = s := by
  unfold sourceWrites
  split
  · next h => exact forceInbound_empty (hi h)
  · next h => exact drainRx_empty (hx h)
  · rfl

/-- A post before which nothing waits goes out at once. -/
theorem execVirqPost_quiet {s : State} {src : BitVec 64} (hp : s.dev.porst = false) (hi : src.toNat % 16 = 1 → s.arb.inbuf = [])
    (hx : src.toNat % 16 = 2 → (s.link ((src.toNat / 16) % 2 == 1) (src.toNat / 32 % 4)).rx = []) :
    exec (.virqPost src) s = .next (postSource s src) := by
  have hr : sourceReady s src.toNat = true := by
    by_cases h2 : src.toNat % 16 = 2
    · simp [sourceReady, hx h2]
    · simp [sourceReady, h2]
  simp [exec, execVirqPost, hp, sourceWrites_quiet hi hx, hr]

theorem mem_insertNat {n m : Nat} {l : List Nat} : m ∈ insertNat n l ↔ m = n ∨ m ∈ l := by
  induction l with
  | nil => simp [insertNat]
  | cons k l ih =>
    unfold insertNat
    split
    · simp
    · split
      · next h => simp [h]
      · simp only [List.mem_cons, ih]
        tauto

/-- A post to an enabled ID of a pavilion within its rate goes to the latch of the core that runs the vCPU (10 R314). -/
theorem postVirq_running {s : State} {pn : Pav} {i : Nat} {c : Vc} (hs : (s.pav pn).st = .running) (hi : i < (s.pav pn).nirq)
    (he : entryEn (pitEntry s (s.pav pn) i) = true) (hd : postDeferred s pn = false)
    (hr : runningOn s pn (entryVcpu (pitEntry s (s.pav pn) i)) = some c) :
    ∃ q, postVirq s pn i = latchId (s.setQos (pn.setWidth 16) q) c i := by
  have hq (q : Qos) : runningOn (s.setQos (pn.setWidth 16) q) pn (entryVcpu (pitEntry s (s.pav pn) i)) = some c := hr
  exact ⟨_, by simp [postVirq, hs, hi, he, hd, hq]; rfl⟩

/-- In SERVICE a post goes by the routes of its source. -/
theorem postSource_service {s : State} {src : BitVec 64} (hm : s.mode = .service) : postSource s src = postRoutes s src := by
  rw [postSource, hm]

/-- A source with one fitting route, to a pavilion, posts there. -/
theorem postRoutes_single {s : State} {src : BitVec 64} {r : Route} (h : s.gate.routes.filter (fun q => q.src == src && routeFits s q) = [r])
    (hh : r.hyp = false) : postRoutes s src = postVirq s r.pav r.id.toNat := by
  simp [postRoutes, h, hh]

/-- A source without a fitting route posts nothing. -/
theorem postRoutes_none {s : State} {src : BitVec 64} (h : ∀ r ∈ s.gate.routes, r.src = src → routeFits s r = false) :
    postRoutes s src = s := by
  have he : s.gate.routes.filter (fun q => q.src == src && routeFits s q) = [] := by
    rw [List.filter_eq_nil_iff]
    intro r hr hf
    simp only [Bool.and_eq_true, beq_iff_eq] at hf
    simp [h r hr hf.1] at hf
  simp [postRoutes, he]

/-- VIRQ_SEND posts for a core of the pavilion, to an ID whose SEND is 1 (10 R317, R318). -/
theorem virqSend_posts {s : State} {vc : Vc} {pn : Pav} {v : W32} (hc : (s.core vc).arch.tr.vmid = pn) (hs : (s.pav pn).st ≠ .none)
    (hi : (v.extractLsb' 0 11).toNat < (s.pav pn).nirq) (he : (pitEntry s (s.pav pn) (v.extractLsb' 0 11).toNat).getLsbD 1 = true) :
    virqSend s vc pn v = postVirq s pn (v.extractLsb' 0 11).toNat :=
  if_pos ⟨hc, hs, hi, he⟩

/-- Any other write of VIRQ_SEND changes nothing. -/
theorem virqSend_ignored {s : State} {vc : Vc} {pn : Pav} {v : W32} (h : (s.core vc).arch.tr.vmid ≠ pn ∨ (s.pav pn).nirq ≤ (v.extractLsb' 0 11).toNat
    ∨ (pitEntry s (s.pav pn) (v.extractLsb' 0 11).toNat).getLsbD 1 = false) : virqSend s vc pn v = s := by
  refine if_neg fun ⟨hc, _, hi, he⟩ => ?_
  obtain h | h | h := h
  · exact h hc
  · exact absurd hi (Nat.not_lt.mpr h)
  · exact absurd (he.symm.trans h) (by decide)

/-- What a post to a running vCPU changes of the cores, the fabric and the memory: one bit of one latch (10 R314). -/
theorem latchId_changes (s : State) (c : Vc) (i : Nat) :
    i ∈ ((latchId s c i).core c).latch ∧ (∀ j, j ∈ (s.core c).latch → j ∈ ((latchId s c i).core c).latch)
      ∧ (∀ v, v ≠ c → (latchId s c i).core v = s.core v) ∧ (latchId s c i).fab = s.fab ∧ (latchId s c i).dram = s.dram := by
  have hl : ((latchId s c i).core c).latch = insertNat i (s.core c).latch := by
    simp [latchId]
  refine ⟨?_, fun j hj => ?_, fun v hv => State.core_setCore_ne s c v _ hv, rfl, rfl⟩
  · exact hl ▸ mem_insertNat.mpr (.inl rfl)
  · exact hl ▸ mem_insertNat.mpr (.inr hj)

/-- Settles O53: an access reaches its register by its page, a write of VIRQ_SEND or a post that nothing waits before takes effect at once, and a post to a running vCPU ends in a latch. -/
theorem registersAndPosts : Obligations.RegistersAndPosts := by
  refine ⟨fun s vc cls high hm hv hk => ⟨?_, ?_, ?_, ?_, ?_⟩, fun s vc pn v hm hv hd => ⟨?_, ?_⟩, fun s src hp hi hx => ⟨?_, ?_, ?_⟩⟩
  · intro h v hh hhigh
    subst hhigh
    refine ⟨_, execHoldRegisterRead_time hm hv hk h, ?_, ?_⟩ <;> rw [readHalf_held _ hh]
    · rfl
    · exact (congrArg (fun c : Core => mget? c.holds 0) (State.core_setCore_self s vc _)).trans (mget?_mdel_self _ _)
  · intro hh
    refine ⟨_, execHoldRegisterRead_time hm hv hk high, ?_, ?_⟩ <;> rw [readHalf_fresh _ hh]
    · rfl
    · exact (congrArg (fun c : Core => mget? c.holds 0) (State.core_setCore_self s vc _)).trans (mget?_mput_self _ _ _)
  · exact ⟨_, execRcRegisterRead_ignored hm hv hk, rfl, rfl⟩
  · exact execRegisterWrite_status hm hv hk
  · exact fun v hl hc => execRegisterWrite_cmp hm hv hk hl hc
  · intro hc hs hi he
    rw [execVirqSendWrite_ready hm hv hd, virqSend_posts hc hs hi he]
  · intro h
    rw [execVirqSendWrite_ready hm hv hd, virqSend_ignored h]
  · intro hm
    rw [execVirqPost_quiet hp hi hx, postSource, hm]
  · intro hr hm
    rw [execVirqPost_quiet hp hi hx, postSource_service hm, postRoutes_none hr]
  · intro r c hm hr hh p i hs hn he hd hc
    obtain ⟨q, hq⟩ := postVirq_running hs hn he hd hc
    refine ⟨latchId (s.setQos (r.pav.setWidth 16) q) c r.id.toNat, ?_, latchId_changes _ c r.id.toNat⟩
    rw [execVirqPost_quiet hp hi hx, postSource_service hm, postRoutes_single hr hh, hq]

end Sys2Proof.Machine
end

-- ==== Soundness ====
section
/-! What every step keeps (O57). One lemma `<operation>_sound` for each operation of the model that yields a state: from a sound state it leads to a sound one. An operation that leaves the map and the memory alone keeps both by `Sound.frame`; those that write the memory cite the laws of its canonical form (`dramWrite_wf`), and the few that make or move the map cite `buildMap_usable`, `MapUsable.useSpare` and `MapUsable.dropSpares`. -/

namespace Sys2Proof.Machine

-- One proof after another: a thousand short proofs elaborated at once would each take a thread.
set_option Elab.async false

/-! ### Sound states -/

/-- Soundness speaks of the core map and the memory alone. -/
theorem sound_iff {s : State} : Sound s ↔ MapUsable s.cmap ∧ s.dram.wf :=
  ⟨fun h => ⟨h.map, h.memory⟩, fun h => ⟨h.1, h.2⟩⟩

/-- A state with the same core map and the same memory is as sound. -/
theorem Sound.frame {s t : State} (h : Sound s) (hc : t.cmap = s.cmap) (hd : t.dram = s.dram) : Sound t :=
  ⟨hc ▸ h.map, hd ▸ h.memory⟩

theorem ite_sound {c : Prop} [Decidable c] {s t : State} (hs : Sound s) (ht : Sound t) : Sound (if c then s else t) := by
  split <;> assumption

theorem foldl_sound {α : Type} {f : State → α → State} {l : List α} {s : State} (hf : ∀ t a, Sound t → Sound (f t a)) (h : Sound s) :
    Sound (l.foldl f s) := by
  induction l generalizing s with
  | nil => exact h
  | cons a l ih => exact ih (hf s a h)

/-- A memory in canonical form may take the place of the memory. -/
theorem Sound.setFab {s : State} (h : Sound s) {f : Fabric} : Sound { s with fab := f } := h.frame rfl rfl
theorem Sound.setArb {s : State} (h : Sound s) {a : Arbor} : Sound { s with arb := a } := h.frame rfl rfl
theorem Sound.setGate {s : State} (h : Sound s) {g : Gate} : Sound { s with gate := g } := h.frame rfl rfl
theorem Sound.setFunnel {s : State} (h : Sound s) {f : Funnel} : Sound { s with funnel := f } := h.frame rfl rfl
theorem Sound.setFlash {s : State} (h : Sound s) {f : Flash} : Sound { s with flash := f } := h.frame rfl rfl
theorem Sound.setDev {s : State} (h : Sound s) {d : Device} : Sound { s with dev := d } := h.frame rfl rfl
theorem Sound.setDram {s : State} (h : Sound s) {d : Dram} (hd : d.wf) : Sound { s with dram := d } := ⟨h.map, hd⟩
/-- The state of a pair that is known by its parts. -/
theorem Sound.snd {α : Type} {p : α × State} {a : α} {t : State} (h : Sound p.2) (e : p = (a, t)) : Sound t := by
  subst e; exact h
theorem snd_ite_sound {α : Type} {c : Prop} [Decidable c] {p q : α × State} (hp : Sound p.2) (hq : Sound q.2) : Sound (if c then p else q).2 := by
  split <;> assumption
/-- The canonical form is a matter of the cells alone. -/
theorem Sound.cells {s t : State} (h : Sound s) (hc : t.cmap = s.cmap) (hd : t.dram.cells = s.dram.cells) : Sound t :=
  ⟨hc ▸ h.map, (congrArg cellsWf hd).trans h.memory⟩
theorem Sound.setQosMap {s : State} (h : Sound s) {q} : Sound { s with qos := q } := h.frame rfl rfl
theorem Sound.setFabDram {s : State} (h : Sound s) {f : Fabric} {d : Dram} (hd : d.wf) : Sound { s with fab := f, dram := d } :=
  ⟨h.map, hd⟩
/-- Writes in turn keep the memory canonical when each does. -/
theorem foldl_wf {α : Type} {f : Dram → α → Dram} {l : List α} {d : Dram} (hf : ∀ d a, d.wf → (f d a).wf) (h : d.wf) : (l.foldl f d).wf := by
  induction l generalizing d with
  | nil => exact h
  | cons a l ih => exact ih (hf d a h)
theorem Sound.setArbDevGate {s : State} (h : Sound s) {a d g} : Sound { s with arb := a, dev := d, gate := g } := h.frame rfl rfl
theorem ite_next_sound {c : Prop} [Decidable c] {o p : Out} {u : State} (ho : o = .next u → Sound u) (hp : p = .next u → Sound u)
    (e : (if c then o else p) = .next u) : Sound u := by
  split at e
  · exact ho e
  · exact hp e

/-! ### Machine/Ops -/

theorem setCore_sound {s vc c} (h : Sound s) : Sound (State.setCore s vc c) :=
  h.frame rfl rfl

theorem updCore_sound {s vc f} (h : Sound s) : Sound (State.updCore s vc f) :=
  setCore_sound h

theorem setPav_sound {s p v} (h : Sound s) : Sound (State.setPav s p v) :=
  h.frame rfl rfl

theorem setQos_sound {s c q} (h : Sound s) : Sound (State.setQos s c q) :=
  h.frame rfl rfl

theorem setSes_sound {s n v} (h : Sound s) : Sound (State.setSes s n v) :=
  h.frame rfl rfl

theorem setLane_sound {s n v} (h : Sound s) : Sound (State.setLane s n v) :=
  h.frame rfl rfl

theorem setTimer_sound {s n v} (h : Sound s) : Sound (State.setTimer s n v) :=
  h.frame rfl rfl

theorem setPort_sound {s p v} (h : Sound s) : Sound (State.setPort s p v) :=
  h.frame rfl rfl

theorem setCluster_sound {s k v} (h : Sound s) : Sound (State.setCluster s k v) :=
  h.frame rfl rfl

theorem setHome_sound {s k v} (h : Sound s) : Sound (State.setHome s k v) :=
  h.frame rfl rfl

theorem reach_sound {s t} (h : Sound s) : Sound (State.reach s t) :=
  h.frame rfl rfl

theorem answer_sound {s v} (h : Sound s) : Sound (State.answer s v) :=
  h.frame rfl rfl

theorem free_sound {s} (h : Sound s) : Sound (State.free s).2 :=
  h.frame rfl rfl

theorem setMode_sound {s m} (h : Sound s) : Sound (State.setMode s m) :=
  h.frame rfl rfl

theorem quartzTick_sound {s} (h : Sound s) : Sound (quartzTick s) :=
  ite_sound (h.frame rfl rfl) h

theorem next_sound {s u : State} (h : Sound s) (e : (Host.Outcome.next s : Out) = .next u) : Sound u := by
  cases e; exact h

theorem whenTrue_sound {g s t u} (hs : Sound s) (ht : Sound t) (e : whenTrue g s t = .next u) : Sound u :=
  next_sound (ite_sound ht hs) e

theorem getD_sound {s : State} {o : Option State} (h : Sound s) (ho : ∀ t, o = some t → Sound t) : Sound (o.getD s) := by
  cases o with
  | none => exact h
  | some t => exact ho t rfl

theorem orStay_sound {s : State} {o : Option State} {u} (h : Sound s) (ho : ∀ t, o = some t → Sound t) (e : orStay s o = .next u) : Sound u :=
  next_sound (getD_sound h ho) e

/-! ### Machine/ArborLines -/

theorem driveLines_sound {s g mask val} (h : Sound s) : Sound (driveLines s g mask val) :=
  h.frame rfl rfl

theorem driveParity_sound {s g v} (h : Sound s) : Sound (driveParity s g v) :=
  ite_sound h (h.frame rfl rfl)

theorem releaseLines_sound {s g mask} (h : Sound s) : Sound (releaseLines s g mask) :=
  h.frame rfl rfl

theorem portLine_sound {s g i v} (h : Sound s) : Sound (portLine s g i v) :=
  h.frame rfl rfl

theorem timerOut_sound {s on} (h : Sound s) : Sound (timerOut s on) := by
  unfold timerOut
  split
  · exact h
  · dsimp only
    apply Sound.setArb
    exact portLine_sound h

theorem noteLines_sound {s g lines} (h : Sound s) : Sound (noteLines s g lines) :=
  ite_sound (timerOut_sound (ite_sound ((h.frame rfl rfl).frame rfl rfl) (ite_sound ((h.frame rfl rfl).frame rfl rfl) (h.frame rfl rfl)))) (ite_sound ((h.frame rfl rfl).frame rfl rfl) (ite_sound ((h.frame rfl rfl).frame rfl rfl) (h.frame rfl rfl)))

theorem driveGrant_sound {s l} (h : Sound s) : Sound (driveGrant s l) :=
  ite_sound (foldl_sound (fun _ _ h1 => portLine_sound h1) h) h

theorem driveBclr_sound {s on} (h : Sound s) : Sound (driveBclr s on) :=
  ite_sound (portLine_sound h) h

theorem driveChain_sound {s own} (h : Sound s) : Sound (driveChain s own) :=
  ite_sound (portLine_sound (portLine_sound h)) h

theorem driveLock_sound {s on} (h : Sound s) : Sound (driveLock s on) :=
  ite_sound (portLine_sound h) h

theorem releaseMst_sound {s} (h : Sound s) : Sound (releaseMst s) :=
  foldl_sound (fun _ _ h1 => releaseLines_sound h1) h

theorem keepDuties_sound {s} (h : Sound s) : Sound (keepDuties s) :=
  foldl_sound (fun _ _ h1 => releaseLines_sound h1) h

/-! ### Machine/Lines -/

theorem setL2_sound {s k l v} (h : Sound s) : Sound (State.setL2 s k l v) :=
  setCluster_sound h

theorem setMshr_sound {s k l v} (h : Sound s) : Sound (State.setMshr s k l v) :=
  setCluster_sound h

theorem setTxn_sound {s k l v} (h : Sound s) : Sound (State.setTxn s k l v) :=
  setHome_sound h

theorem setDir_sound {s k l v} (h : Sound s) : Sound (State.setDir s k l v) :=
  setHome_sound h

theorem setWbuf_sound {s k l v} (h : Sound s) : Sound (setWbuf s k l v) :=
  setHome_sound (setHome_sound h)

theorem scPut_sound {s k l d dirty c} (h : Sound s) : Sound (scPut s k l d dirty c) := by
  unfold scPut
  dsimp only
  split
  · exact setHome_sound (ite_sound (setWbuf_sound h) h)
  · split
    · exact ite_sound (setWbuf_sound h) h
    · exact setHome_sound (ite_sound (setWbuf_sound h) h)

/-! ### Machine/Logs -/

theorem setUnit_sound {s kind i u1} (h : Sound s) : Sound (State.setUnit s kind i u1) :=
  h.frame rfl rfl

theorem logOpen_sound {s e} (h : Sound s) : Sound (logOpen s e).2.2 := by
  grind [logOpen, free_sound]

theorem logEvent_sound {s e} (h : Sound s) : Sound (logEvent s e) := by
  unfold logEvent
  apply ite_sound h.setGate
  exact (logOpen_sound h).setGate

theorem flagRec_sound {s seq bit} (h : Sound s) : Sound (flagRec s seq bit) :=
  h.frame rfl rfl

theorem pendNotice_sound {s vc hyp n fresh} (h : Sound s) : Sound (pendNotice s vc hyp n fresh) := by
  unfold pendNotice
  dsimp only
  split
  · exact ite_sound (h.frame rfl rfl) h
  · exact flagRec_sound (setCore_sound h)

theorem notify_sound {s cls seq vc} (h : Sound s) : Sound (notify s cls seq vc) := by
  have h1 := ite_sound (c := (s.policy 0x200).testBit cls.toNat) (pendNotice_sound (vc := vc.getD 0) (hyp := true) (n := { cls := cls, seq := seq }) (fresh := true) h) h
  cases vc with
  | none => exact h1
  | some v => exact ite_sound (pendNotice_sound h1) h1

theorem recordFault_sound {s e1 vc} (h : Sound s) : Sound (recordFault s e1 vc) :=
  notify_sound (logEvent_sound (setUnit_sound h))

theorem recordCorrected_sound {s cls kind i} (h : Sound s) : Sound (recordCorrected s cls kind i) := by
  unfold recordCorrected
  exact notify_sound (logEvent_sound (setUnit_sound h))

theorem unitState_sound {s kind i st} (h : Sound s) : Sound (unitState s kind i st) :=
  setUnit_sound h

theorem uncoreEvent_sound {s unit code cls} (h : Sound s) : Sound (uncoreEvent s unit code cls) := by
  rw [uncoreEvent_frame]
  exact h.frame rfl rfl

theorem uncoreTimes_sound {s unit code cls n} (h : Sound s) : Sound (uncoreTimes s unit code cls n) := by
  induction n with
  | zero => exact h
  | succ n ih => exact uncoreEvent_sound ih

/-! ### Machine/FabricNet -/

theorem moveAll_sound {s} (h : Sound s) : Sound (moveAll s) :=
  h.frame rfl rfl

theorem newTag_sound {s a} (h : Sound s) : Sound (State.newTag s a).2 :=
  h.frame rfl rfl

theorem sendT_sound {s src cls tag m} (h : Sound s) : Sound (sendT s src cls tag m) := by
  unfold sendT
  exact uncoreEvent_sound (h.frame rfl rfl)

theorem sendM_sound {s src cls m} (h : Sound s) : Sound (sendM s src cls m) :=
  sendT_sound h

theorem sendAll_sound {s src cls m ks} (h : Sound s) : Sound (sendAll s src cls m ks) :=
  foldl_sound (fun _ _ h1 => sendM_sound h1) h

theorem arrive_sound {s p rest} (h : Sound s) : Sound (arrive s p rest) :=
  h.frame rfl rfl

theorem resend_sound {s stop p} (h : Sound s) : Sound (resend s stop p) :=
  ite_sound (h.frame rfl rfl) (ite_sound (h.frame rfl rfl) h)

/-! ### Machine/Trace -/

theorem dropPacket_sound {s vc} (h : Sound s) : Sound (dropPacket s vc) := by
  unfold dropPacket
  dsimp only
  apply uncoreEvent_sound
  apply Sound.setFunnel
  exact setCore_sound h

theorem pushPacket_sound {s vc bs} (h : Sound s) : Sound (pushPacket s vc bs) := by
  unfold pushPacket
  apply ite_sound
  · dsimp only
    apply Sound.setFunnel
    exact setCore_sound h
  · exact dropPacket_sound h

theorem emitRaw_sound {s vc a p} (h : Sound s) : Sound (emitRaw s vc a p) :=
  pushPacket_sound (setCore_sound h)

theorem emitHeld_sound {s vc a} (h : Sound s) : Sound (emitHeld s vc a) :=
  ite_sound h (ite_sound (dropPacket_sound (setCore_sound h)) (emitRaw_sound h))

theorem emitSync_sound {s vc a pc} (h : Sound s) : Sound (emitSync s vc a pc) :=
  ite_sound (pushPacket_sound (setCore_sound h)) h

theorem emitTs_sound {s vc a} (h : Sound s) : Sound (emitTs s vc a) :=
  ite_sound (emitRaw_sound h) h

theorem emit_sound {s vc a pc p} (h : Sound s) : Sound (emit s vc a pc p) :=
  emitRaw_sound (emitTs_sound (emitSync_sound (emitHeld_sound h)))

theorem traceEnter_sound {s vc a pc} (h : Sound s) : Sound (traceEnter s vc a pc) :=
  ite_sound (ite_sound h (emitSync_sound (setCore_sound h))) (setCore_sound h)

theorem traceRetire_sound {s vc a r} (h : Sound s) : Sound (traceRetire s vc a r) := by
  unfold traceRetire
  dsimp only
  apply ite_sound
  · split
    · split
      · exact ite_sound (emitSync_sound (traceEnter_sound h)) (traceEnter_sound h)
      · exact ite_sound (emitTs_sound (emitHeld_sound (setCore_sound (ite_sound (emitSync_sound (traceEnter_sound h)) (traceEnter_sound h))))) (setCore_sound (ite_sound (emitSync_sound (traceEnter_sound h)) (traceEnter_sound h)))
    · apply emit_sound
      split
      · exact ite_sound (emitSync_sound (traceEnter_sound h)) (traceEnter_sound h)
      · exact ite_sound (emitTs_sound (emitHeld_sound (setCore_sound (ite_sound (emitSync_sound (traceEnter_sound h)) (traceEnter_sound h))))) (setCore_sound (ite_sound (emitSync_sound (traceEnter_sound h)) (traceEnter_sound h)))
  · exact traceEnter_sound h

theorem traceCtx_sound {s vc old new} (h : Sound s) : Sound (traceCtx s vc old new) :=
  ite_sound (emit_sound h) h

theorem traceExc_sound {s vc old new cls l epc} (h : Sound s) : Sound (traceExc s vc old new cls l epc) :=
  ite_sound (traceCtx_sound (emit_sound (traceEnter_sound h))) (traceEnter_sound h)

/-! ### Machine/Undo -/

theorem sendWb_sound {s k l x} (h : Sound s) : Sound (sendWb s k l x) := by
  unfold sendWb
  split
  · next he => exact sendT_sound (setCluster_sound ((newTag_sound h).snd he))

theorem discardFill_sound {vc s f} (h : Sound s) : Sound (discardFill vc s f) := by
  unfold discardFill
  dsimp only
  split
  · split
    · exact h
    · exact setL2_sound h
  · split
    · exact h
    · exact ite_sound (ite_sound (sendWb_sound (setL2_sound h)) (setL2_sound h)) h
  · exact updCore_sound h
  · exact updCore_sound h
  · exact updCore_sound h
  · exact h

theorem discardFills_sound {s vc n} (h : Sound s) : Sound (discardFills s vc n) :=
  foldl_sound (fun _ _ h1 => discardFill_sound h1) (updCore_sound h)

theorem rollbackCore_sound {s vc} (h : Sound s) : Sound (rollbackCore s vc) :=
  setCore_sound (discardFills_sound h)

theorem queueEvent_sound {s vc ev} (h : Sound s) : Sound (queueEvent s vc ev) :=
  updCore_sound h

theorem specRollback_sound {s vc} (h : Sound s) : Sound (specRollback s vc) :=
  queueEvent_sound (rollbackCore_sound h)

theorem rollbackReaders_sound {s k l except} (h : Sound s) : Sound (rollbackReaders s k l except) :=
  foldl_sound (fun _ _ h1 => ite_sound (specRollback_sound h1) h1) h

theorem dropRegions_sound {s vc f} (h : Sound s) : Sound (dropRegions s vc f) :=
  ite_sound h (ite_sound (setCore_sound h) (ite_sound (setCore_sound h) (rollbackCore_sound (setCore_sound h))))

theorem forgetReq_sound {s r} (h : Sound s) : Sound (forgetReq s r) :=
  updCore_sound h

theorem dropRequests_sound {s k f} (h : Sound s) : Sound (dropRequests s k f) :=
  foldl_sound (fun _ _ h1 => forgetReq_sound h1) (setCluster_sound h)

theorem dropRecent_sound {s k f} (h : Sound s) : Sound (dropRecent s k f) :=
  setCluster_sound h

theorem dropPage_sound {s k p} (h : Sound s) : Sound (dropPage s k p) :=
  dropRecent_sound (dropRequests_sound (foldl_sound (fun _ _ h1 => updCore_sound (dropRegions_sound (ite_sound (rollbackCore_sound h1) h1))) h))

/-! ### Machine/Coherence -/

theorem updTxn_sound {s k l f} (h : Sound s) : Sound (updTxn s k l f) := by
  unfold updTxn
  split
  · exact setTxn_sound h
  · exact h

theorem fillTxn_sound {s k l t} (h : Sound s) : Sound (fillTxn s k l t) := by
  unfold fillTxn
  dsimp only
  split
  · exact setTxn_sound (uncoreEvent_sound (setHome_sound h))
  · split
    · exact setTxn_sound (uncoreEvent_sound h)
    · apply ite_sound
      · apply Sound.setFab
        exact setTxn_sound (uncoreEvent_sound h)
      · exact sendM_sound (setTxn_sound (uncoreEvent_sound h))

theorem closeTxn_sound {s k l} (h : Sound s) : Sound (closeTxn s k l) :=
  setTxn_sound h

theorem grantShared_sound {s k l t d} (h : Sound s) : Sound (grantShared s k l t d) :=
  sendM_sound (setTxn_sound (setDir_sound h))

theorem grantOwned_sound {s k l t d} (h : Sound s) : Sound (grantOwned s k l t d) :=
  sendM_sound (setTxn_sound (setDir_sound h))

theorem performNc_sound {s k l t d} (h : Sound s) : Sound (performNc s k l t d) := by
  unfold performNc
  dsimp only
  split
  · exact sendT_sound (closeTxn_sound h)
  · exact sendT_sound (closeTxn_sound (scPut_sound (setDir_sound h)))
  · exact sendT_sound (closeTxn_sound (scPut_sound (setDir_sound h)))

theorem finishTxn_sound {s k l} (h : Sound s) : Sound (finishTxn s k l) := by
  unfold finishTxn
  split
  · exact h
  · apply ite_sound
    · apply ite_sound (sendM_sound (setTxn_sound h))
      apply ite_sound
      · dsimp only
        apply closeTxn_sound
        apply setDir_sound
        split
        · exact ite_sound (scPut_sound h) h
        · exact h
      · apply ite_sound (sendM_sound (setTxn_sound (setDir_sound h)))
        split
        · exact h
        · split
          · exact grantShared_sound h
          · exact grantShared_sound h
          · exact grantOwned_sound h
          · exact grantOwned_sound h
          · exact performNc_sound h
    · exact h

theorem claimOwned_sound {s k l t} (h : Sound s) : Sound (claimOwned s k l t) := by
  unfold claimOwned
  dsimp only
  split
  · exact fillTxn_sound h
  · split
    · exact fillTxn_sound (sendAll_sound h)
    · exact sendM_sound (setTxn_sound (setDir_sound (sendAll_sound h)))

theorem collectLine_sound {s k l t} (h : Sound s) : Sound (collectLine s k l t) := by
  unfold collectLine
  dsimp only
  split
  · exact fillTxn_sound h
  · split
    · exact fillTxn_sound (sendAll_sound h)
    · exact sendM_sound (setTxn_sound (sendAll_sound h))

theorem proceedTxn_sound {s k l t} (h : Sound s) : Sound (proceedTxn s k l t) := by
  unfold proceedTxn
  dsimp only
  split
  · split
    · split
      · exact fillTxn_sound h
      · exact sendM_sound (setTxn_sound h)
    · exact fillTxn_sound h
  · split
    · split
      · exact fillTxn_sound h
      · exact sendM_sound (setTxn_sound h)
    · exact fillTxn_sound h
  · exact claimOwned_sound h
  · split
    · exact ite_sound (setTxn_sound (sendAll_sound h)) (claimOwned_sound h)
    · exact claimOwned_sound h
  · split
    · split
      · exact fillTxn_sound h
      · exact sendM_sound (setTxn_sound h)
    · exact fillTxn_sound h
  · exact collectLine_sound h
  · exact collectLine_sound h
  · exact closeTxn_sound h

theorem startTxn_sound {s k r} (h : Sound s) : Sound (startTxn s k r) :=
  ite_sound (sendM_sound (setTxn_sound h)) (ite_sound (sendM_sound (setTxn_sound h)) (finishTxn_sound (proceedTxn_sound (setTxn_sound h))))

theorem startVictim_sound {s k v e1 c} (h : Sound s) : Sound (startVictim s k v e1 c) :=
  finishTxn_sound (sendAll_sound (uncoreEvent_sound (setTxn_sound (newTag_sound h))))

theorem queueReq_sound {s k r} (h : Sound s) : Sound (queueReq s k r) := by
  unfold queueReq
  exact uncoreEvent_sound (setHome_sound h)

theorem nackReq_sound {s k r} (h : Sound s) : Sound (nackReq s k r) := by
  unfold nackReq
  exact sendT_sound (uncoreEvent_sound ((ite_sound (setHome_sound h) h).frame rfl rfl))

theorem pumpQueue_sound {s k} (h : Sound s) : Sound (pumpQueue s k) :=
  foldl_sound (fun _ _ h1 => ite_sound h1 (startTxn_sound (setHome_sound h1))) h

theorem pumpVictim_sound {s k} (h : Sound s) : Sound (pumpVictim s k) := by
  unfold pumpVictim
  refine foldl_sound (fun t a ht => ?_) ?_
  · dsimp only
    apply ite_sound ht
    split
    · exact startVictim_sound ht
    · exact ht
  · exact h

theorem pumpTokens_sound {s k} (h : Sound s) : Sound (pumpTokens s k) := by
  unfold pumpTokens
  refine foldl_sound (fun t a ht => ?_) ?_
  · dsimp only
    split
    · exact ht
    · exact ite_sound ht (sendT_sound ht)
  · exact h

theorem placeReqAs_sound {s r sure} (h : Sound s) : Sound (placeReqAs s r sure) := by
  unfold placeReqAs
  dsimp only
  apply ite_sound (queueReq_sound h)
  apply ite_sound (startTxn_sound h)
  split
  · exact startVictim_sound (queueReq_sound h)
  · exact ite_sound (queueReq_sound h) (nackReq_sound h)

theorem placeReq_sound {s r} (h : Sound s) : Sound (placeReq s r) :=
  placeReqAs_sound h

theorem startDown_sound {s k l owner} (h : Sound s) : Sound (startDown s k l owner) := by
  unfold startDown
  split
  · exact sendM_sound (setTxn_sound h)
  · split
    · next he => exact sendM_sound (setTxn_sound ((newTag_sound h).snd he))

theorem noteDown_sound {s k p l} (h : Sound s) : Sound (noteDown s k p l) :=
  setHome_sound h

theorem pumpSet_sound {s k p} (h : Sound s) : Sound (pumpSet s k p) :=
  ite_sound (foldl_sound (fun _ _ h1 => startDown_sound (noteDown_sound h1)) h) (sendM_sound (setHome_sound (foldl_sound (fun _ _ h1 => startDown_sound (noteDown_sound h1)) h)))

theorem pumpSets_sound {s k} (h : Sound s) : Sound (pumpSets s k) :=
  foldl_sound (fun _ _ h1 => pumpSet_sound h1) h

theorem pumpLeft_sound {s k} (h : Sound s) : Sound (pumpLeft s k) :=
  foldl_sound (fun _ _ h1 => ite_sound h1 (placeReq_sound (h1.frame rfl rfl))) h

theorem pumpHome_sound {s k} (h : Sound s) : Sound (pumpHome s k) :=
  pumpTokens_sound (pumpQueue_sound (pumpVictim_sound (pumpQueue_sound (pumpSets_sound (pumpLeft_sound h)))))

theorem openReq_sound {s r} (h : Sound s) : Sound (openReq s r) :=
  pumpHome_sound (placeReq_sound h)

theorem sendCmp_sound {s k l c} (h : Sound s) : Sound (sendCmp s k l c) :=
  sendM_sound (foldl_sound (fun _ _ h1 => updCore_sound h1) (by grind [setMshr_sound, setL2_sound]))

theorem tryCmp_sound {s k l} (h : Sound s) : Sound (tryCmp s k l) := by
  unfold tryCmp
  split
  · exact h
  · exact ite_sound (sendCmp_sound h) h

theorem tryCmpAll_sound {s k n} (h : Sound s) : Sound (tryCmpAll s k n) := by
  induction n generalizing s with
  | zero => exact h
  | succ n ih =>
    have ht := foldl_sound (l := mkeys (s.cluster k).mshr) (fun _ l => tryCmp_sound (k := k) (l := BitVec.ofNat 42 l)) h
    exact ite_sound (ih ht) ht

theorem evictLine_sound {s k l} (h : Sound s) : Sound (evictLine s k l) := by
  unfold evictLine
  split
  · exact h
  · exact ite_sound (sendWb_sound (setL2_sound (rollbackReaders_sound h))) (setL2_sound (rollbackReaders_sound h))

theorem l2Room_sound {s k l} (h : Sound s) : Sound (l2Room s k l) := by
  unfold l2Room
  dsimp only
  apply ite_sound h
  split
  · exact evictLine_sound h
  · exact h

theorem takeData_sound {s0 k l d granted n dirty} (h : Sound s0) : Sound (takeData s0 k l d granted n dirty) := by
  grind [takeData, l2Room_sound, setL2_sound, updCore_sound, tryCmpAll_sound, setMshr_sound, sendCmp_sound]

theorem takeGrant_sound {s k l n} (h : Sound s) : Sound (takeGrant s k l n) := by
  grind [takeGrant, setL2_sound, tryCmpAll_sound, setMshr_sound]

theorem giveUp_sound {s k l} (h : Sound s) : Sound (giveUp s k l) :=
  setL2_sound (rollbackReaders_sound h)

theorem fromWb_sound {s k l e1 req st n} (h : Sound s) : Sound (fromWb s k l e1 req st n) :=
  sendM_sound (ite_sound (sendM_sound h) h)

theorem onFwdS_sound {s k l req} (h : Sound s) : Sound (onFwdS s k l req) := by
  unfold onFwdS
  dsimp only
  split
  · exact fromWb_sound h
  · split
    · exact sendM_sound h
    · split
      · exact sendM_sound h
      · exact sendM_sound (ite_sound (sendM_sound (setL2_sound h)) (setL2_sound h))

theorem onFwdX_sound {s k l req n} (h : Sound s) : Sound (onFwdX s k l req n) := by
  unfold onFwdX
  dsimp only
  split
  · exact fromWb_sound h
  · split
    · exact sendM_sound h
    · split
      · exact sendM_sound h
      · exact sendM_sound (giveUp_sound h)

theorem onFwdRd_sound {s k l} (h : Sound s) : Sound (onFwdRd s k l) := by
  unfold onFwdRd
  dsimp only
  split
  · exact fromWb_sound h
  · split
    · exact sendM_sound h
    · split
      · exact sendM_sound h
      · exact sendM_sound (setL2_sound h)

theorem onInv_sound {s k l coll} (h : Sound s) : Sound (onInv s k l coll) :=
  sendM_sound (giveUp_sound h)

theorem onBinv_sound {s k l} (h : Sound s) : Sound (onBinv s k l) := by
  unfold onBinv
  dsimp only
  split
  · exact fromWb_sound h
  · split
    · exact sendM_sound h
    · exact sendM_sound (giveUp_sound h)

theorem wbEntry_sound {s h1 l} (h : Sound s) : Sound (wbEntry s h1 l) := by
  unfold wbEntry
  split
  · exact h
  · split
    · exact h
    · exact setDir_sound h
    · exact setDir_sound h

theorem dropHolder_sound {s h1 l k} (h : Sound s) : Sound (dropHolder s h1 l k) := by
  unfold dropHolder
  split
  · exact h
  · exact ite_sound (ite_sound (setDir_sound h) (setDir_sound h)) (setDir_sound h)

theorem refill_sound {s h1 l} (h : Sound s) : Sound (refill s h1 l) := by
  unfold refill
  split
  · exact h
  · exact finishTxn_sound (fillTxn_sound (setTxn_sound h))

theorem endPre_sound {s h1 l t} (h : Sound s) : Sound (endPre s h1 l t) :=
  ite_sound (setTxn_sound h) (finishTxn_sound (proceedTxn_sound (setTxn_sound h)))

theorem onNotHeld_sound {s h1 l k} (h : Sound s) : Sound (onNotHeld s h1 l k) := by
  unfold onNotHeld
  split
  · exact h
  · exact ite_sound (closeTxn_sound (dropHolder_sound h)) (ite_sound (endPre_sound (dropHolder_sound h)) (refill_sound (ite_sound h (dropHolder_sound h))))

theorem endForward_sound {s h1 l t} (h : Sound s) : Sound (endForward s h1 l t) :=
  ite_sound (endPre_sound h) (ite_sound (closeTxn_sound h) (setTxn_sound h))

theorem onFwdAck3_sound {s h1 l k t} (h : Sound s) : Sound (onFwdAck3 s h1 l k t) := by
  unfold onFwdAck3
  dsimp only
  apply ite_sound (finishTxn_sound (setTxn_sound h))
  apply ite_sound (ite_sound (ite_sound (endPre_sound h) (closeTxn_sound h)) (setTxn_sound h))
  split
  · exact endForward_sound (setDir_sound h)
  · exact endForward_sound (setDir_sound h)
  · exact setTxn_sound h
  · exact setTxn_sound h
  · exact ite_sound (finishTxn_sound (fillTxn_sound (setTxn_sound h))) (setTxn_sound h)

theorem onFwdAck_sound {s h1 l k info tag} (h : Sound s) : Sound (onFwdAck s h1 l k info tag) := by
  unfold onFwdAck
  split
  · exact h
  · exact ite_sound h (ite_sound (onFwdAck3_sound h) (endForward_sound (setDir_sound h)))

theorem wbForTxn_sound {s0 h1 l k d c owner t} (h : Sound s0) : Sound (wbForTxn s0 h1 l k d c owner t) :=
  ite_sound (ite_sound (finishTxn_sound (setTxn_sound (ite_sound (wbEntry_sound h) h))) (ite_sound (closeTxn_sound (ite_sound (wbEntry_sound h) h)) (ite_sound (endPre_sound (ite_sound (wbEntry_sound h) h)) (ite_sound (endForward_sound (ite_sound (wbEntry_sound h) h)) (finishTxn_sound (fillTxn_sound (setTxn_sound (ite_sound (wbEntry_sound h) h)))))))) (ite_sound (setTxn_sound (ite_sound (wbEntry_sound h) h)) (ite_sound (wbEntry_sound h) h))

theorem onWb_sound {s h1 l k d c} (h : Sound s) : Sound (onWb s h1 l k d c) := by
  grind [onWb, uncoreEvent_sound, scPut_sound, wbForTxn_sound, wbEntry_sound, sendM_sound]

theorem onDataH_sound {s h1 l d dirty c} (h : Sound s) : Sound (onDataH s h1 l d dirty c) :=
  finishTxn_sound (updTxn_sound h)

theorem onHomeAck_sound {s h1 l} (h : Sound s) : Sound (onHomeAck s h1 l) :=
  finishTxn_sound (updTxn_sound h)

theorem onClusterAck_sound {s k l} (h : Sound s) : Sound (onClusterAck s k l) := by
  unfold onClusterAck
  split
  · exact h
  · exact tryCmpAll_sound (setMshr_sound h)

theorem onMdata_sound {s h1 l d} (h : Sound s) : Sound (onMdata s h1 l d) := by
  unfold onMdata
  split
  · exact h
  · exact finishTxn_sound (setTxn_sound (scPut_sound h))

theorem onCodeAnswer_sound {s h1 l} (h : Sound s) : Sound (onCodeAnswer s h1 l) := by
  unfold onCodeAnswer
  split
  · exact h
  · exact ite_sound (ite_sound (finishTxn_sound (setTxn_sound h)) (ite_sound (setTxn_sound h) (finishTxn_sound (proceedTxn_sound (setTxn_sound h))))) h

theorem onCmp_sound {s h1 l} (h : Sound s) : Sound (onCmp s h1 l) := by
  unfold onCmp
  split
  · exact h
  · exact ite_sound (setTxn_sound h) (closeTxn_sound h)

theorem onCodeSet_sound {s k p} (h : Sound s) : Sound (onCodeSet s k p) :=
  pumpSet_sound (setHome_sound h)

theorem lowerCount_sound {s k p} (h : Sound s) : Sound (lowerCount s k p) :=
  setHome_sound h

theorem onCodeClr_sound {s k p} (h : Sound s) : Sound (onCodeClr s k p) :=
  sendM_sound (lowerCount_sound h)

theorem startDrop_sound {s h1 p} (h : Sound s) : Sound (startDrop s h1 p) :=
  sendAll_sound (uncoreEvent_sound (setHome_sound h))

theorem startMark_sound {s h1 p} (h : Sound s) : Sound (startMark s h1 p) :=
  sendAll_sound (setHome_sound h)

theorem answerLines_sound {s h1 p ls} (h : Sound s) : Sound (answerLines s h1 p ls) :=
  foldl_sound (fun _ _ h1 => sendM_sound h1) (setHome_sound h)

theorem codeStep_sound {s h1 p} (h : Sound s) : Sound (codeStep s h1 p) := by
  unfold codeStep
  dsimp only
  apply ite_sound h
  apply ite_sound (ite_sound (startDrop_sound h) (answerLines_sound h))
  apply ite_sound (ite_sound h (answerLines_sound h))
  apply ite_sound (startMark_sound (ite_sound h (answerLines_sound h)))
  split
  · exact ite_sound (ite_sound h (answerLines_sound h)) (startDrop_sound (ite_sound h (answerLines_sound h)))
  · exact ite_sound h (answerLines_sound h)

theorem codeStepAll_sound {s h1} (h : Sound s) : Sound (codeStepAll s h1) :=
  foldl_sound (fun _ _ h1 => codeStep_sound h1) h

theorem onCodeAsk_sound {s p l} (h : Sound s) : Sound (onCodeAsk s p l) :=
  codeStep_sound (setHome_sound h)

theorem onDropAck_sound {s h1 p k} (h : Sound s) : Sound (onDropAck s h1 p k) := by
  unfold onDropAck
  dsimp only
  split
  · exact h
  · exact ite_sound (sendAll_sound (setHome_sound h)) (setHome_sound h)

theorem onCodeDone_sound {s k h1 p} (h : Sound s) : Sound (onCodeDone s k h1 p) := by
  unfold onCodeDone
  dsimp only
  split
  · exact ite_sound (codeStep_sound (setHome_sound h)) (setHome_sound h)
  · split
    · exact h
    · exact ite_sound (codeStepAll_sound (setHome_sound h)) (setHome_sound h)

theorem onRetry_sound {s a l} (h : Sound s) : Sound (onRetry s a l) := by
  unfold onRetry
  dsimp only
  split
  · exact pumpHome_sound (setHome_sound h)
  · apply pumpHome_sound
    apply placeReqAs_sound
    apply Sound.setFab
    exact setHome_sound h

theorem onAdata_sound {s a l v} (h : Sound s) : Sound (onAdata s a l v) :=
  h.frame rfl rfl

theorem tagUse_sound {s sl dirty c} (h : Sound s) : Sound (tagUse s sl dirty c) :=
  ite_sound (h.cells rfl rfl) (uncoreEvent_sound (h.cells rfl rfl))

theorem countWrite_sound {s l v c} (h : Sound s) : Sound (countWrite s l v c) :=
  ite_sound (uncoreEvent_sound (uncoreEvent_sound h)) (tagUse_sound (uncoreEvent_sound (uncoreEvent_sound h)))

theorem readSlot_sound {s l c} (h : Sound s) : Sound (readSlot s l c).2 :=
  ite_sound (ite_sound (uncoreEvent_sound (uncoreEvent_sound h)) (tagUse_sound (uncoreEvent_sound (uncoreEvent_sound h)))) (setQos_sound (ite_sound (uncoreEvent_sound (uncoreEvent_sound h)) (tagUse_sound (uncoreEvent_sound (uncoreEvent_sound h)))))

theorem onMrd_sound {s l} (h : Sound s) : Sound (onMrd s l) :=
  sendM_sound (readSlot_sound h)

theorem keepRecord_sound {s l w1} (h : Sound s) : Sound (keepRecord s l w1) :=
  h.frame rfl rfl

theorem setKeep_sound {s l v} (h : Sound s) : Sound (setKeep s l v) :=
  h.frame rfl rfl

theorem blvTake_sound {s l d} (h : Sound s) : Sound (blvTake s l d) :=
  h.frame rfl rfl

theorem blvAgain_sound {s l d} (h : Sound s) : Sound (blvAgain s l d) :=
  ite_sound (uncoreEvent_sound (blvTake_sound h)) h

/-- The spine's store writes the memory by a line write, which keeps its canonical form. -/
theorem keepStore_sound {s l d} (h : Sound s) : Sound (keepStore s l d) := by
  have h1 := countWrite_sound (l := l) (v := d) (c := devClass) (uncoreEvent_sound (unit := 16 + s.stopOf 30) (code := 1) (cls := devClass) (keepRecord_sound (l := l) (w1 := some d) h))
  exact blvAgain_sound (h1.setDram (dramWrite_wf _ _ _ h1.memory))

theorem keepWrite_sound {s r} (h : Sound s) : Sound (keepWrite s r) := by
  unfold keepWrite
  exact sendT_sound (uncoreEvent_sound (keepStore_sound (setKeep_sound h)))

theorem keepServe_sound {s r} (h : Sound s) : Sound (keepServe s r) :=
  ite_sound (ite_sound (keepWrite_sound h) (setKeep_sound h)) (sendM_sound (setKeep_sound h))

theorem keepStart_sound {s r} (h : Sound s) : Sound (keepStart s r) :=
  ite_sound (sendM_sound (uncoreEvent_sound (setKeep_sound (keepRecord_sound h)))) (keepServe_sound (keepRecord_sound h))

theorem keepAccept_sound {s r} (h : Sound s) : Sound (keepAccept s r) :=
  ite_sound (h.frame rfl rfl) (keepStart_sound h)

theorem keepNext_sound {s l} (h : Sound s) : Sound (keepNext s l) :=
  foldl_sound (fun _ _ h1 => ite_sound h1 (keepStart_sound (h1.frame rfl rfl))) h

theorem onSpineData_sound {s l d} (h : Sound s) : Sound (onSpineData s l d) := by
  unfold onSpineData
  split
  · exact keepNext_sound (sendT_sound (ite_sound (uncoreEvent_sound (ite_sound (setKeep_sound h) (keepStore_sound (setKeep_sound h)))) (uncoreEvent_sound (ite_sound (blvTake_sound (setKeep_sound h)) (setKeep_sound h)))))
  · exact h

theorem onKinv_sound {s l} (h : Sound s) : Sound (onKinv s l) :=
  sendM_sound (h.frame rfl rfl)

theorem onSpineAck_sound {s l} (h : Sound s) : Sound (onSpineAck s l) := by
  unfold onSpineAck
  split
  · exact keepNext_sound (keepServe_sound h)
  · exact h

theorem keepPump_sound {s} (h : Sound s) : Sound (keepPump s) :=
  foldl_sound (fun _ _ h1 => by grind [keepNext_sound, keepWrite_sound]) h

theorem deliver_sound {s p u} (h : Sound s) (e : deliver s p = some u) : Sound u := by
  grind [deliver, onFwdS_sound, onFwdX_sound, onFwdRd_sound, onInv_sound, onBinv_sound, sendM_sound, dropPage_sound, onKinv_sound, onClusterAck_sound, pumpHome_sound, onHomeAck_sound, onSpineAck_sound, onFwdAck_sound, onNotHeld_sound, takeGrant_sound, onCmp_sound, onWb_sound, setCluster_sound, onRetry_sound, onCodeAnswer_sound, onDropAck_sound, takeData_sound, onDataH_sound, onMrd_sound, onSpineData_sound, onMdata_sound, onAdata_sound, onCodeAsk_sound, onCodeSet_sound, onCodeClr_sound, onCodeDone_sound, sound_iff]

theorem deliverFirst_sound {s f u} (h : Sound s) (e : deliverFirst s f = some u) : Sound u := by
  unfold deliverFirst at e
  split at e
  · cases e
  · exact deliver_sound (arrive_sound h) e

theorem settle_sound {l n s} (h : Sound s) : Sound (settle l n s) := by
  induction n generalizing s with
  | zero => exact h
  | succ n ih =>
    unfold settle
    split
    · exact h
    · next e => exact ih (deliverFirst_sound h e)

theorem runNc_sound {s r u} (h : Sound s) (e : runNc s r = some u) : Sound u := by
  grind [runNc, settle_sound, newTag_sound, uncoreEvent_sound, openReq_sound]

/-! ### Machine/Irq -/

theorem raisePhys_sound {s vc id} (h : Sound s) : Sound (raisePhys s vc id) :=
  updCore_sound h

theorem dropNow_sound {s p} (h : Sound s) : Sound (dropNow s p) :=
  ite_sound (ite_sound (foldl_sound (fun _ _ h1 => dropPage_sound h1) h) (foldl_sound (fun _ _ h1 => lowerCount_sound h1) (uncoreEvent_sound (setHome_sound (foldl_sound (fun _ _ h1 => dropPage_sound h1) h))))) h

theorem pokeLine_sound {s c l f} (h : Sound s) : Sound (pokeLine s c l f) := by
  unfold pokeLine
  apply scPut_sound
  apply updTxn_sound
  apply Sound.setFab
  exact foldl_sound (fun _ _ h1 => by grind [setL2_sound, rollbackReaders_sound]) (dropNow_sound h)

theorem deviceNc_sound {s r} (h : Sound s) : Sound (deviceNc s r) := by
  unfold deviceNc
  split
  · next he => exact runNc_sound h he
  · split
    · next he2 =>
        exact ite_sound (openReq_sound ((newTag_sound (uncoreEvent_sound h)).snd he2)) (((newTag_sound (uncoreEvent_sound h)).snd he2).frame rfl rfl)

theorem homeAtomic_sound {s a pa fn v} (h : Sound s) : Sound (homeAtomic s a pa fn v) :=
  deviceNc_sound h

theorem gateWrite32_sound {s pa v} (h : Sound s) : Sound (gateWrite32 s pa v) :=
  deviceNc_sound h

theorem setPend_sound {s p v i} (h : Sound s) : Sound (setPend s p v i) :=
  homeAtomic_sound h

theorem clearPend_sound {s a p v} (h : Sound s) : Sound (clearPend s a p v) :=
  foldl_sound (fun _ _ h1 => ite_sound h1 (homeAtomic_sound h1)) h

theorem orPend_sound {s p v ids} (h : Sound s) : Sound (orPend s p v ids) :=
  foldl_sound (fun _ _ h1 => setPend_sound h1) h

theorem latchId_sound {s vc i} (h : Sound s) : Sound (latchId s vc i) :=
  updCore_sound h

theorem doorbell_sound {s pn v} (h : Sound s) : Sound (doorbell s pn v) :=
  ite_sound (raisePhys_sound (homeAtomic_sound h)) h

theorem postVirq_sound {s pn i} (h : Sound s) : Sound (postVirq s pn i) := by
  unfold postVirq
  dsimp only
  apply ite_sound h
  apply ite_sound (setPav_sound h)
  apply ite_sound
  · apply ite_sound (setPend_sound (setPav_sound (setQos_sound h)))
    split
    · exact latchId_sound (setQos_sound h)
    · exact doorbell_sound (setPend_sound (setQos_sound h))
  · exact h

theorem postRoutes_sound {s src} (h : Sound s) : Sound (postRoutes s src) :=
  foldl_sound (fun _ _ h1 => by grind [raisePhys_sound, postVirq_sound]) h

theorem postSource_sound {s src} (h : Sound s) : Sound (postSource s src) := by
  unfold postSource
  split
  · exact h.frame rfl rfl
  · exact ite_sound (h.frame rfl rfl) h
  · exact postRoutes_sound h

theorem spillLatch_sound {s vc} (h : Sound s) : Sound (spillLatch s vc) :=
  ite_sound (updCore_sound (homeAtomic_sound (orPend_sound h))) h

theorem loadLatch_sound {s vc pn v} (h : Sound s) : Sound (loadLatch s vc pn v) := by
  unfold loadLatch
  exact updCore_sound (homeAtomic_sound (clearPend_sound h))

/-! ### Machine/Fabric -/

theorem askHome_sound {s k l kind core c} (h : Sound s) : Sound (askHome s k l kind core c) := by
  unfold askHome
  split
  · next he => exact openReq_sound (uncoreEvent_sound (setMshr_sound ((newTag_sound h).snd he)))

theorem execRdS_sound {clu line cls s u} (h : Sound s) (e : execRdS clu line cls s = .next u) : Sound u :=
  whenTrue_sound h (askHome_sound h) e

theorem execRdCode_sound {clu line core cls s u} (h : Sound s) (e : execRdCode clu line core cls s = .next u) : Sound u := by
  simp only [execRdCode] at e
  split at e
  · exact next_sound (by cases core; exacts [h, updCore_sound h]) e
  · exact whenTrue_sound h (askHome_sound h) e

theorem execRdX_sound {clu line store cls s u} (h : Sound s) (e : execRdX clu line store cls s = .next u) : Sound u :=
  whenTrue_sound h (askHome_sound h) e

theorem execUpg_sound {clu line store cls s u} (h : Sound s) (e : execUpg clu line store cls s = .next u) : Sound u :=
  whenTrue_sound h (askHome_sound h) e

theorem execWb_sound {clu line s u} (h : Sound s) (e : execWb clu line s = .next u) : Sound u := by
  grind [execWb, whenTrue, orStay, whenTrue_sound, evictLine_sound, orStay_sound, deliverFirst_sound]

theorem askNc_sound {s r} (h : Sound s) : Sound (askNc s r) := by
  unfold askNc
  split
  · next he => exact openReq_sound ((newTag_sound (uncoreEvent_sound h)).snd he)

theorem execNcRd_sound {agent cls pa size s u} (h : Sound s) (e : execNcRd agent cls pa size s = .next u) : Sound u :=
  whenTrue_sound h (askNc_sound h) e

theorem execNcWr_sound {agent cls line mask data s u} (h : Sound s) (e : execNcWr agent cls line mask data s = .next u) : Sound u :=
  whenTrue_sound h (askNc_sound h) e

theorem execAtom_sound {agent cls pa size op opnd cmpv s u} (h : Sound s) (e : execAtom agent cls pa size op opnd cmpv s = .next u) : Sound u :=
  whenTrue_sound h (askNc_sound h) e

theorem takeRow_sound {s f u} (h : Sound s) (e : takeRow s f = .next u) : Sound u := by
  grind [takeRow, orStay, orStay_sound, deliverFirst_sound]

theorem execFwdS_sound {clu line s u} (h : Sound s) (e : execFwdS clu line s = .next u) : Sound u :=
  takeRow_sound h e

theorem execFwdX_sound {clu line s u} (h : Sound s) (e : execFwdX clu line s = .next u) : Sound u :=
  takeRow_sound h e

theorem execFwdRd_sound {clu line s u} (h : Sound s) (e : execFwdRd clu line s = .next u) : Sound u :=
  takeRow_sound h e

theorem execInv_sound {clu line s u} (h : Sound s) (e : execInv clu line s = .next u) : Sound u :=
  takeRow_sound h e

theorem execBinv_sound {clu line s u} (h : Sound s) (e : execBinv clu line s = .next u) : Sound u :=
  takeRow_sound h e

theorem execDrop_sound {clu page s u} (h : Sound s) (e : execDrop clu page s = .next u) : Sound u :=
  takeRow_sound h e

theorem execFwdAck_sound {clu line s u} (h : Sound s) (e : execFwdAck clu line s = .next u) : Sound u :=
  takeRow_sound h e

theorem execNotHeld_sound {clu line s u} (h : Sound s) (e : execNotHeld clu line s = .next u) : Sound u :=
  takeRow_sound h e

theorem execGrant_sound {clu line s u} (h : Sound s) (e : execGrant clu line s = .next u) : Sound u :=
  takeRow_sound h e

theorem execCmp_sound {clu line s u} (h : Sound s) (e : execCmp clu line s = .next u) : Sound u :=
  takeRow_sound h e

theorem execWbAck_sound {clu line s u} (h : Sound s) (e : execWbAck clu line s = .next u) : Sound u :=
  takeRow_sound h e

theorem execNack_sound {agent line s u} (h : Sound s) (e : execNack agent line s = .next u) : Sound u :=
  takeRow_sound h e

theorem execRetry_sound {agent line s u} (h : Sound s) (e : execRetry agent line s = .next u) : Sound u :=
  takeRow_sound h e

theorem execDone_sound {agent line s u} (h : Sound s) (e : execDone agent line s = .next u) : Sound u :=
  takeRow_sound h e

theorem execDropAck_sound {clu page s u} (h : Sound s) (e : execDropAck clu page s = .next u) : Sound u :=
  takeRow_sound h e

theorem execData_sound {clu line s u} (h : Sound s) (e : execData clu line s = .next u) : Sound u :=
  takeRow_sound h e

theorem execDataH_sound {clu line s u} (h : Sound s) (e : execDataH clu line s = .next u) : Sound u :=
  takeRow_sound h e

theorem execMdata_sound {line s u} (h : Sound s) (e : execMdata line s = .next u) : Sound u :=
  takeRow_sound h e

theorem execAdata_sound {agent line s u} (h : Sound s) (e : execAdata agent line s = .next u) : Sound u :=
  takeRow_sound h e

theorem execCodeMark_sound {page s u} (h : Sound s) (e : execCodeMark page s = .next u) : Sound u :=
  takeRow_sound h e

theorem execCodeQuery_sound {page s u} (h : Sound s) (e : execCodeQuery page s = .next u) : Sound u :=
  takeRow_sound h e

theorem execCodeSet_sound {slice page s u} (h : Sound s) (e : execCodeSet slice page s = .next u) : Sound u :=
  takeRow_sound h e

theorem execCodeClr_sound {slice page s u} (h : Sound s) (e : execCodeClr slice page s = .next u) : Sound u :=
  takeRow_sound h e

theorem askKeep_sound {s r} (h : Sound s) : Sound (askKeep s r) := by
  unfold askKeep
  split
  · next he => exact keepAccept_sound ((newTag_sound (uncoreEvent_sound h)).snd he)

theorem execKeepRd_sound {agent pa size s u} (h : Sound s) (e : execKeepRd agent pa size s = .next u) : Sound u :=
  whenTrue_sound h (askKeep_sound h) e

theorem execKeepWr_sound {agent line mask data s u} (h : Sound s) (e : execKeepWr agent line mask data s = .next u) : Sound u :=
  whenTrue_sound h (askKeep_sound h) e

theorem execKeepAtom_sound {agent pa size op opnd cmpv s u} (h : Sound s) (e : execKeepAtom agent pa size op opnd cmpv s = .next u) : Sound u :=
  whenTrue_sound h (askKeep_sound h) e

theorem execKinv_sound {line s u} (h : Sound s) (e : execKinv line s = .next u) : Sound u :=
  takeRow_sound h e

theorem execAck_sound {dst line s u} (h : Sound s) (e : execAck dst line s = .next u) : Sound u :=
  takeRow_sound h e

theorem runKeep_sound {s r w u} (h : Sound s) (e : runKeep s r = some (w, u)) : Sound u := by
  unfold runKeep at e
  dsimp only at e
  split at e
  · split at e
    · cases e
      exact settle_sound (askKeep_sound (settle_sound h))
    · cases e
  · cases e

theorem agentRead_sound {s a c pa n w u} (h : Sound s) (e : agentRead s a c pa n = some (w, u)) : Sound u := by
  simp only [agentRead] at e
  split at e
  · obtain ⟨⟨v, t⟩, hr, e⟩ := Option.map_eq_some_iff.1 e
    cases e
    exact runKeep_sound h hr
  · obtain ⟨t, hr, e⟩ := Option.map_eq_some_iff.1 e
    cases e
    exact runNc_sound h hr

theorem agentWrite_sound {s a c pa n v u} (h : Sound s) (e : agentWrite s a c pa n v = some u) : Sound u := by
  simp only [agentWrite] at e
  split at e
  · obtain ⟨⟨v, t⟩, hr, rfl⟩ := Option.map_eq_some_iff.1 e
    exact runKeep_sound h hr
  · exact runNc_sound h e

theorem agentAtom_sound {s a c pa n op opnd cmpv w u} (h : Sound s) (e : agentAtom s a c pa n op opnd cmpv = some (w, u)) : Sound u := by
  unfold agentAtom at e
  dsimp only at e
  split at e
  · exact runKeep_sound h e
  · obtain ⟨t, et, he⟩ := Option.map_eq_some_iff.mp e
    cases he
    exact runNc_sound h et

/-! ### Machine/Caches -/

theorem noteFills_sound {s vc fs} (h : Sound s) : Sound (noteFills s vc fs) :=
  ite_sound (updCore_sound h) h

theorem bringShared_sound {s vc l u} (h : Sound s) (e : bringShared s vc l = some u) : Sound u := by
  grind [bringShared, settle_sound, askHome_sound, noteFills_sound]

theorem bringOwned_sound {s vc l u} (h : Sound s) (e : bringOwned s vc l = some u) : Sound u := by
  grind [bringOwned, settle_sound, askHome_sound]

theorem l1dEvict_sound {s vc l} (h : Sound s) : Sound (l1dEvict s vc l) := by
  unfold l1dEvict
  dsimp only
  split
  · exact ite_sound (specRollback_sound h) h
  · exact setL2_sound (ite_sound (specRollback_sound h) h)

theorem l1dRoom_sound {s vc l} (h : Sound s) : Sound (l1dRoom s vc l) := by
  unfold l1dRoom
  dsimp only
  apply ite_sound h
  split
  · exact l1dEvict_sound h
  · split
    · exact l1dEvict_sound h
    · exact h

theorem fillL1_sound {s0 vc l} (h : Sound s0) : Sound (fillL1 s0 vc l) := by
  unfold fillL1
  dsimp only
  split
  · exact l1dRoom_sound h
  · exact ite_sound (l1dRoom_sound h) (noteFills_sound (setL2_sound (l1dRoom_sound h)))

theorem readLine_sound {s vc l x} (h : Sound s) : Sound (readLine s vc l x) :=
  updCore_sound (fillL1_sound h)

theorem writeLine_sound {s vc l off n v} (h : Sound s) : Sound (writeLine s vc l off n v) := by
  unfold writeLine
  dsimp only
  split
  · exact updCore_sound (l1dRoom_sound (rollbackReaders_sound h))
  · exact setL2_sound (updCore_sound (l1dRoom_sound (rollbackReaders_sound h)))

theorem keepTouch_sound {s vc pa u} (h : Sound s) (e : keepTouch s vc pa = some u) : Sound u := by
  obtain ⟨⟨v, t⟩, hr, rfl⟩ := Option.map_eq_some_iff.1 e
  exact agentRead_sound h hr

theorem readCode_sound {s k l core c u} (h : Sound s) (e : readCode s k l core c = some u) : Sound u := by
  unfold readCode at e
  dsimp only at e
  split at e
  · cases e
    split
    · exact updCore_sound (settle_sound h)
    · exact settle_sound h
  · split at e
    · split at e
      · cases e
        split
        · apply ite_sound
          · apply noteFills_sound
            split
            · exact updCore_sound (settle_sound (askHome_sound (settle_sound h)))
            · exact settle_sound (askHome_sound (settle_sound h))
          · split
            · exact updCore_sound (settle_sound (askHome_sound (settle_sound h)))
            · exact settle_sound (askHome_sound (settle_sound h))
        · split
          · exact updCore_sound (settle_sound (askHome_sound (settle_sound h)))
          · exact settle_sound (askHome_sound (settle_sound h))
      · cases e
    · cases e

/-! ### Machine/Pmu -/

theorem pmuOverflow_sound {s vc n pc exact} (h : Sound s) : Sound (pmuOverflow s vc n pc exact) :=
  ite_sound (ite_sound (ite_sound (postVirq_sound (setCore_sound h)) (setCore_sound h)) (raisePhys_sound (setCore_sound h))) (setCore_sound h)

theorem pmuBump_sound {s vc pc exact f n} (h : Sound s) : Sound (pmuBump s vc pc exact f n) := by
  induction f generalizing s n with
  | zero => exact h
  | succ f ih => exact ite_sound (pmuOverflow_sound (ite_sound (ih (setCore_sound h)) (setCore_sound h))) (setCore_sound h)

theorem pmuEvent_sound {s vc ev l pc exact} (h : Sound s) : Sound (pmuEvent s vc ev l pc exact) :=
  foldl_sound (fun _ _ h1 => ite_sound (pmuBump_sound h1) h1) h

theorem pmuEvents_sound {s vc evs l pc exact} (h : Sound s) : Sound (pmuEvents s vc evs l pc exact) :=
  foldl_sound (fun _ _ h1 => pmuEvent_sound h1) h

theorem pmuPace_sound {s vc l pc used rest} (h : Sound s) : Sound (pmuPace s vc l pc used rest) :=
  pmuEvents_sound (ite_sound (pmuBump_sound h) h)

theorem pmuCourses_sound {s vc l pc n used} (h : Sound s) : Sound (pmuCourses s vc l pc n used) := by
  induction n generalizing s used with
  | zero => exact h
  | succ n ih => exact ih (pmuPace_sound h)

theorem pmuWasted_sound {s vc pc ls} (h : Sound s) : Sound (pmuWasted s vc pc ls) :=
  foldl_sound (fun _ _ h1 => pmuPace_sound h1) h

theorem pmuQueued_sound {s vc pc q} (h : Sound s) : Sound (pmuQueued s vc pc q) :=
  foldl_sound (fun _ _ h1 => pmuEvent_sound h1) h

/-! ### Machine/Mmu -/

theorem walkRead1_sound {s vc pa u} (h : Sound s) (e : walkRead1 s vc pa = some u) : Sound u := by
  unfold walkRead1 at e
  split at e
  · exact keepTouch_sound h e
  · obtain ⟨_, hm, rfl⟩ := Option.map_eq_some_iff.mp e
    exact ite_sound (bringShared_sound h hm) (fillL1_sound (bringShared_sound h hm))

theorem walkTouch_sound {vc l s u} (h : Sound s) (e : walkTouch vc l s = some u) : Sound u := by
  unfold walkTouch at e
  split at e
  · cases e
    exact h
  · split at e
    · cases e
    · next he =>
        split at e
        · cases e
          exact walkRead1_sound h he
        · exact walkTouch_sound (walkRead1_sound h he) e

theorem freshXlat_sound {s vc va acc fetch fromMem} (h : Sound s) : Sound (freshXlat s vc va acc fetch fromMem).2 := by
  simp only [freshXlat]
  split
  · exact h
  · next he _ => exact walkTouch_sound h he
  · next he _ =>
      split
      · exact walkTouch_sound h he
      · exact setCore_sound (walkTouch_sound h he)

theorem xlate_sound {s vc va acc fetch} (h : Sound s) : Sound (xlate s vc va acc fetch).2 := by
  simp only [xlate]
  apply snd_ite_sound
  · exact h
  · apply snd_ite_sound
    · exact h
    · apply snd_ite_sound
      · split
        · exact h
        · exact h
      · split
        · apply snd_ite_sound
          · exact freshXlat_sound (updCore_sound h)
          · split
            · exact freshXlat_sound (updCore_sound (setCore_sound h))
            · exact setCore_sound h
            · exact setCore_sound h
        · split
          · next he => exact snd_ite_sound ((freshXlat_sound h).snd he) (freshXlat_sound (updCore_sound ((freshXlat_sound h).snd he)))
          · exact freshXlat_sound h

theorem inboundTouch_sound {a c rs s} (h : Sound s) : Sound (inboundTouch a c rs s) := by
  unfold inboundTouch
  refine foldl_sound (fun t a ht => ?_) ?_
  · dsimp only
    split
    · next he => exact runKeep_sound ht he
    · exact askKeep_sound ht
  · exact h

/-! ### Machine/CoreExec -/

theorem countHot_sound {s vc a va pa} (h : Sound s) : Sound (countHot s vc a va pa) :=
  setCore_sound h

theorem commitOne_sound {vc a s r} (h : Sound s) : Sound (commitOne vc a s r) := by
  unfold commitOne
  dsimp only
  split
  · apply countHot_sound
    split
    · exact updCore_sound (traceRetire_sound (pmuCourses_sound (pmuEvents_sound h)))
    · exact traceRetire_sound (pmuCourses_sound (pmuEvents_sound h))
  · split
    · exact updCore_sound (traceRetire_sound (pmuCourses_sound (pmuEvents_sound h)))
    · exact traceRetire_sound (pmuCourses_sound (pmuEvents_sound h))

theorem commitWith_sound {s vc adopt rs} (h : Sound s) : Sound (commitWith s vc adopt rs) :=
  foldl_sound (fun _ _ h1 => commitOne_sound h1) (pmuWasted_sound (pmuQueued_sound (setCore_sound h)))

theorem commitCore_sound {s vc} (h : Sound s) : Sound (commitCore s vc) :=
  commitWith_sound h

theorem commitAt_sound {s vc p} (h : Sound s) : Sound (commitAt s vc p) :=
  commitWith_sound h

theorem enterExc_sound {s vc x epc kind} (h : Sound s) : Sound (enterExc s vc x epc kind) :=
  traceExc_sound (pmuEvent_sound (ite_sound (setCore_sound h) (updCore_sound (setCore_sound h))))

theorem raise_sound {s vc x u} (h : Sound s) (e : raise s vc x = some u) : Sound u := by
  unfold raise at e
  dsimp only at e
  split at e
  · cases e
    exact specRollback_sound h
  · split at e
    · cases e
      exact enterExc_sound (commitCore_sound h)
    · cases e

theorem endSuspend_sound {s vc} (h : Sound s) : Sound (endSuspend s vc) :=
  ite_sound (emit_sound (traceEnter_sound (updCore_sound h))) (traceEnter_sound (updCore_sound h))

theorem wakeDue_sound {s vc} (h : Sound s) : Sound (wakeDue s vc) :=
  ite_sound (endSuspend_sound h) h

theorem fetchLine_sound {s vc l u} (h : Sound s) (e : fetchLine s vc l = some u) : Sound u := by
  unfold fetchLine at e
  split at e
  · cases e
    exact h
  · exact readCode_sound h e

/-- The state that a fetch leaves. -/
def Fetched.state : Fetched → State
  | .ok s _ | .fault s _ | .wait s => s

theorem fetchAt_sound {s vc} (h : Sound s) : Sound (fetchAt s vc).state := by
  unfold fetchAt
  dsimp only
  split
  · exact h
  split
  · exact setCore_sound h
  split
  next e => exact ite_sound (c := undone s _ vc) ((xlate_sound h).snd e) h
  next e =>
    have h1 := (xlate_sound h).snd e
    split
    · exact h1
    · simpa only [Fetched.state] using updCore_sound h1
  next x s1 e =>
    have h1 := (xlate_sound h).snd e
    split
    · exact h1
    split
    · exact h
    split
    · exact h
    next e2 =>
      have h2 := fetchLine_sound h1 e2
      split
      · exact h2
      · simpa only [Fetched.state] using updCore_sound h2

theorem executed_sound {s vc a evs ends taken cond ind} (h : Sound s) : Sound (executed s vc a evs ends taken cond ind) := by
  unfold executed
  exact updCore_sound h

theorem branchExec_sound {s vc taken target} (h : Sound s) : Sound (branchExec s vc taken target) :=
  ite_sound (executed_sound (updCore_sound h)) (ite_sound (executed_sound (updCore_sound h)) (updCore_sound (executed_sound (updCore_sound h))))

theorem retExec_sound {s vc a evs} (h : Sound s) : Sound (retExec s vc a evs) := by
  unfold retExec
  dsimp only
  apply ite_sound (executed_sound h)
  split
  · exact executed_sound h
  · exact ite_sound (executed_sound (updCore_sound h)) (updCore_sound (executed_sound (updCore_sound h)))

theorem drained_sound {s vc u} (h : Sound s) (e : drained s vc = some u) : Sound u := by
  unfold drained at e
  split at e
  · cases e
    exact commitCore_sound h
  · cases e

theorem committedAlone_sound {s vc a evs ends taken ind} (h : Sound s) : Sound (committedAlone s vc a evs ends taken ind) :=
  traceCtx_sound (commitCore_sound (executed_sound h))

theorem noteEntry_sound {s vc n} (h : Sound s) : Sound (noteEntry s vc n) := by
  unfold noteEntry
  dsimp only
  split
  · exact ite_sound (setCore_sound h) h
  · exact ite_sound (queueEvent_sound h) h

theorem irqStop_sound {s vc} (h : Sound s) : Sound (irqStop s vc) :=
  ite_sound (rollbackCore_sound h) h

theorem raised_sound {s t vc x} (h : Sound s) (ht : Sound t) : Sound ((raise t vc x).getD s) :=
  getD_sound h fun _ => raise_sound ht

theorem instrRow_sound {s vc w mine run} (hr : ∀ op t u, Sound t → run op t = some u → Sound u) (h : Sound s) :
    Sound (instrRow s vc w mine run) := by
  have h0 := wakeDue_sound (vc := vc) h
  have h1 := fetchAt_sound (vc := vc) h0
  unfold instrRow
  dsimp only
  split
  case isFalse => exact h0
  split
  · exact irqStop_sound h0
  split
  next e => rw [e] at h1; exact h1
  next e => rw [e] at h1; exact raised_sound h0 h1
  next s1 en e =>
    rw [e] at h1
    split
    · exact raised_sound h0 h1
    split
    · split
      · exact h0
      next e2 =>
        have h2 := hr _ _ _ h1 e2
        exact ite_sound (noteEntry_sound h2) h2
    · exact h0

/-! ### Machine/Reply -/

theorem deviceWrite_sound {s pa n v} (h : Sound s) : Sound (deviceWrite s pa n v) := by
  unfold deviceWrite
  dsimp only
  split
  · next he => exact runNc_sound h he
  · exact ite_sound (pokeLine_sound h) (deviceNc_sound h)

theorem writeSlot_sound {s pa r} (h : Sound s) : Sound (writeSlot s pa r) := by
  unfold writeSlot
  exact deviceWrite_sound (deviceWrite_sound (deviceWrite_sound (deviceWrite_sound (deviceWrite_sound h))))

theorem signalBoard_sound {s} (h : Sound s) : Sound (signalBoard s) :=
  h.frame rfl rfl

theorem finishCmd_sound {s n r store} (h : Sound s) : Sound (finishCmd s n r store) := by
  unfold finishCmd
  dsimp only
  split
  · exact h
  · exact ite_sound (setLane_sound h) (ite_sound (postSource_sound (ite_sound (signalBoard_sound (setLane_sound (ite_sound (writeSlot_sound h) h))) (setLane_sound (ite_sound (writeSlot_sound h) h)))) (ite_sound (signalBoard_sound (setLane_sound (ite_sound (writeSlot_sound h) h))) (setLane_sound (ite_sound (writeSlot_sound h) h))))

theorem reply_sound {s n status detail result payload} (h : Sound s) : Sound (reply s n status detail result payload) := by
  unfold reply
  split
  · exact h
  · exact finishCmd_sound h

theorem replyDone_sound {s n detail result payload} (h : Sound s) : Sound (replyDone s n detail result payload) :=
  reply_sound h

/-! ### Machine/Tlbi -/

theorem tlbiCore_sound {t s vc} (h : Sound s) : Sound (tlbiCore t s vc) := by
  unfold tlbiCore
  exact updCore_sound (dropRegions_sound (ite_sound (rollbackCore_sound h) h))

theorem tlbiCluster_sound {t s k} (h : Sound s) : Sound (tlbiCluster t s k) :=
  dropRecent_sound (dropRequests_sound h)

theorem tlbiEverywhere_sound {s t} (h : Sound s) : Sound (tlbiEverywhere s t) := by
  have h1 : Sound (s.allCores.foldl (tlbiCore t) s) := foldl_sound (fun _ _ => tlbiCore_sound) h
  have h2 : Sound ((List.range 8).foldl (tlbiCluster t) (s.allCores.foldl (tlbiCore t) s)) := foldl_sound (fun _ _ => tlbiCluster_sound) h1
  grind [tlbiEverywhere, sound_iff]

theorem dropVmid_sound {s p} (h : Sound s) : Sound (dropVmid s p) :=
  tlbiEverywhere_sound h

theorem inboundXlate_sound {s a cache pn ipa acc} (h : Sound s) : Sound (inboundXlate s a cache pn ipa acc).2.2 := by
  grind [inboundXlate, inboundTouch_sound]

/-! ### Machine/ArborOps -/

theorem forceWrite_sound {s a c pa n v} (h : Sound s) : Sound (forceWrite s a c pa n v) := by
  unfold forceWrite
  split
  · next he => exact agentWrite_sound h he
  · exact pokeLine_sound h

theorem drainSome_sound {n s} (h : Sound s) : Sound (drainSome n s) := by
  induction n generalizing s with
  | zero => exact h
  | succ n ih =>
    unfold drainSome
    split
    · exact h
    · split
      · exact h
      · next e => exact ih ((agentWrite_sound h e).frame rfl rfl)

theorem drainInbound_sound {s} (h : Sound s) : Sound (drainInbound s) :=
  drainSome_sound h

theorem forceInbound_sound {s} (h : Sound s) : Sound (forceInbound s) :=
  foldl_sound (fun _ _ h1 => forceWrite_sound h1) (h.frame rfl rfl)

theorem forceStores_sound {s vc} (h : Sound s) : Sound (forceStores s vc) :=
  foldl_sound (fun _ _ h1 => forceWrite_sound h1) (updCore_sound h)

theorem sesPost_sound {s n sub} (h : Sound s) : Sound (sesPost s n sub) :=
  postSource_sound (forceInbound_sound h)

theorem recordArbErr_sound {s n code addr} (h : Sound s) : Sound (recordArbErr s n code addr) :=
  ite_sound (ite_sound (sesPost_sound (setSes_sound h)) (setSes_sound h)) (setSes_sound h)

theorem finishWait_sound {s vc v} (h : Sound s) : Sound (finishWait s vc v) := by
  unfold finishWait
  split
  · exact h
  · dsimp only
    split
    · exact updCore_sound (updCore_sound h)
    · exact committedAlone_sound (updCore_sound h)

theorem failWait_sound {s vc} (h : Sound s) : Sound (failWait s vc) := by
  unfold failWait
  split
  · exact h
  · exact enterExc_sound (updCore_sound h)

theorem storeEnded_sound {s vc} (h : Sound s) : Sound (storeEnded s vc) := by
  unfold storeEnded
  split
  · exact h
  · exact updCore_sound h

theorem endMover_sound {s n code moved} (h : Sound s) : Sound (endMover s n code moved) :=
  sesPost_sound (setSes_sound h)

theorem accessError_sound {s n acc code addr run} (h : Sound s) : Sound (accessError s n acc code addr run) := by
  have h1 := recordArbErr_sound (n := n) (code := code) (addr := addr) h
  unfold accessError
  generalize acc.kind = k
  cases k with
  | mover => exact endMover_sound h
  | store => exact ite_sound (storeEnded_sound h1) (setSes_sound (storeEnded_sound h1))
  | _ =>
    cases acc.vc with
    | none => exact h1
    | some v => exact failWait_sound h1

theorem accessDone_sound {s n acc v} (h : Sound s) : Sound (accessDone s n acc v) := by
  unfold accessDone
  generalize acc.kind = k
  cases k with
  | mover => exact endMover_sound h
  | store => exact storeEnded_sound h
  | _ =>
    cases acc.vc with
    | none => exact answer_sound h
    | some v => exact finishWait_sound h

theorem enqueue_sound {s n acc} (h : Sound s) : Sound (enqueue s n acc) := by
  unfold enqueue
  dsimp only
  apply Sound.setArb
  exact setSes_sound h

theorem countSquashed_sound {s n} (h : Sound s) : Sound (countSquashed s n) :=
  ite_sound (setSes_sound h) h

theorem acceptAccess_sound {s n acc} (h : Sound s) : Sound (acceptAccess s n acc) := by
  grind [acceptAccess, accessError_sound, countSquashed_sound, enqueue_sound, sound_iff]

theorem refuseUnmapped_sound {s vc kind} (h : Sound s) : Sound (refuseUnmapped s vc kind) := by
  unfold refuseUnmapped
  dsimp only
  apply ite_sound
  · split
    · exact failWait_sound (h.frame rfl rfl)
    · exact h.frame rfl rfl
  · exact storeEnded_sound (h.frame rfl rfl)

theorem readmit_sound {s n acc} (h : Sound s) : Sound (readmit s n acc) := by
  unfold readmit
  dsimp only
  split
  · exact ite_sound (accessError_sound h) (refuseUnmapped_sound h)
  · exact ite_sound (ite_sound (acceptAccess_sound h) (accessError_sound h)) (ite_sound (acceptAccess_sound h) (refuseUnmapped_sound h))

theorem admitWaiting_sound {s} (h : Sound s) : Sound (admitWaiting s) :=
  foldl_sound (fun _ _ h1 => readmit_sound h1) (h.frame rfl rfl)

theorem popHead_sound {s n} (h : Sound s) : Sound (popHead s n) := by
  unfold popHead
  dsimp only
  apply admitWaiting_sound
  apply Sound.setArb
  exact setSes_sound h

theorem arborAccess_sound {s vc kind c pa size data cmpv} (h : Sound s) : Sound (arborAccess s vc kind c pa size data cmpv) := by
  unfold arborAccess
  split
  · exact refuseUnmapped_sound h
  · exact ite_sound (acceptAccess_sound h) (refuseUnmapped_sound h)

theorem uncoreAdd_sound {s unit code cls n} (h : Sound s) : Sound (uncoreAdd s unit code cls n) := by
  unfold uncoreAdd
  apply ite_sound h
  exact h.frame rfl rfl

theorem chargeTenure_sound {s} (h : Sound s) : Sound (chargeTenure s) := by
  unfold chargeTenure
  dsimp only
  apply Sound.setArb
  exact uncoreAdd_sound (setQos_sound h)

theorem releaseBus_sound {s} (h : Sound s) : Sound (releaseBus s) := by
  unfold releaseBus
  apply ite_sound
  · dsimp only
    apply Sound.setArb
    exact chargeTenure_sound h
  · exact h

theorem afterCycle_sound {s} (h : Sound s) : Sound (afterCycle s) :=
  ite_sound (ite_sound h (ite_sound (releaseBus_sound h) h)) h

/-! ### Machine/ArborSes -/

theorem clearPavPends_sound {s pn} (h : Sound s) : Sound (clearPavPends s pn).1 :=
  foldl_sound (fun _ _ => updCore_sound) (foldl_sound (fun _ _ => clearPend_sound) h)

theorem armDoorbells_sound {s pn} (h : Sound s) : Sound (armDoorbells s pn) :=
  foldl_sound (fun _ _ h1 => homeAtomic_sound h1) h

theorem finishPavReset_sound {s pn w} (h : Sound s) : Sound (finishPavReset s pn w) := by
  have h1 := dropVmid_sound (p := pn) (armDoorbells_sound (pn := pn) (clearPavPends_sound (pn := pn) h))
  grind [finishPavReset, setPav_sound, replyDone_sound]

theorem tryPav_sound {s pn} (h : Sound s) : Sound (tryPav s pn) := by
  unfold tryPav
  split
  · exact ite_sound (finishPavReset_sound h) h
  · exact h

theorem pushVector_sound {s n v} (h : Sound s) : Sound (pushVector s n v) := by
  unfold pushVector
  dsimp only
  apply sesPost_sound
  apply ite_sound
  · apply Sound.setArb
    exact setSes_sound h
  · exact setSes_sound h

theorem pushKept_sound {s n} (h : Sound s) : Sound (pushKept s n) := by
  unfold pushKept
  apply ite_sound h
  split
  · exact h
  · exact pushVector_sound (h.frame rfl rfl)

theorem releaseLevels_sound {s0 n f} (h : Sound s0) : Sound (releaseLevels s0 n f) := by
  unfold releaseLevels
  dsimp only
  apply Sound.setArb
  exact setSes_sound h

theorem squashQueue_sound {s n code keepHead run} (h : Sound s) : Sound (squashQueue s n code keepHead run).1 := by
  unfold squashQueue
  apply foldl_sound (fun _ _ => accessError_sound)
  have h1 := setSes_sound (n := n) (v := { s.ses n with queue := if keepHead then (s.ses n).queue.take 1 else [] }) h
  split
  · exact foldl_sound (fun _ _ => accessError_sound) (h1.frame rfl rfl)
  · exact h1.frame rfl rfl

theorem endReset_sound {s n w1} (h : Sound s) : Sound (endReset s n w1) := by
  unfold endReset
  dsimp only
  apply tryPav_sound
  split
  · apply replyDone_sound
    apply Sound.setArb
    exact setSes_sound (forceInbound_sound h)
  · apply Sound.setArb
    exact setSes_sound (forceInbound_sound h)

theorem startReset_sound {s n} (h : Sound s) : Sound (startReset s n) :=
  afterCycle_sound (admitWaiting_sound (releaseLevels_sound (setSes_sound (squashQueue_sound (setSes_sound h)))))

theorem runResets_sound {k n s} (h : Sound s) : Sound (runResets k n s) := by
  unfold runResets
  split
  · exact h
  · split
    · exact h
    · apply ite_sound h
      dsimp only
      split
      · exact runResets_sound (startReset_sound (endReset_sound h))
      · exact endReset_sound h

theorem trySes_sound {s n} (h : Sound s) : Sound (trySes s n) :=
  runResets_sound h

theorem resetSession_sound {s n close halt lane tag} (h : Sound s) : Sound (resetSession s n close halt lane tag) := by
  unfold resetSession
  dsimp only
  apply ite_sound
  · apply Sound.setArb
    exact setSes_sound h
  · apply trySes_sound
    apply startReset_sound
    apply Sound.setArb
    exact setSes_sound h

/-! ### Machine/ArborBus -/

theorem setField_sound {s i v} (h : Sound s) : Sound (setField s i v) :=
  h.frame rfl rfl

theorem raiseEvent_sound {s i} (h : Sound s) : Sound (raiseEvent s i) :=
  h.frame rfl rfl

theorem giveCycle_sound {s kind addr attr data next} (h : Sound s) : Sound (giveCycle s kind addr attr data next) :=
  ite_sound (raiseEvent_sound (setField_sound (setField_sound (setField_sound (setField_sound (setField_sound (setField_sound h))))))) (setField_sound (setField_sound (setField_sound (setField_sound (setField_sound (setField_sound h))))))

theorem cycleLines_sound {s kind lanes} (h : Sound s) : Sound (cycleLines s kind lanes) :=
  ite_sound (driveLock_sound (portLine_sound h)) h

theorem inbTarget_sound {s n ipa acc} (h : Sound s) : Sound (inbTarget s n ipa acc).2 := by
  grind [inbTarget, inboundXlate_sound, sound_iff]

theorem arborRead_sound {s c pa n w u} (h : Sound s) (e : arborRead s c pa n = some (w, u)) : Sound u := by
  unfold arborRead at e
  split at e
  · dsimp only at e
    cases e
    exact h
  · exact agentRead_sound h e

theorem arborWrite_sound {s c pa n v u} (h : Sound s) (e : arborWrite s c pa n v = some u) : Sound u := by
  unfold arborWrite at e
  split at e
  · dsimp only at e
    cases e
    exact h.frame rfl rfl
  · exact agentWrite_sound h e

theorem arborForce_sound {s c pa n v} (h : Sound s) : Sound (arborForce s c pa n v) := by
  unfold arborForce
  cases e : arborWrite s c pa n v with
  | none => exact forceWrite_sound h
  | some t => exact arborWrite_sound h e

theorem cycleData_sound {s n a cnt off d u} (h : Sound s) (e : cycleData s n a cnt off = some (.ok (d, u))) : Sound u := by
  unfold cycleData at e
  generalize a.kind = k at e
  cases k with
  | mover toMem ipa b =>
    have h1 := inbTarget_sound (n := n) (ipa := ipa.toNat + a.done) (acc := if toMem then .write else .read) h
    dsimp only at e
    generalize inbTarget s n (ipa.toNat + a.done) (if toMem then .write else .read) = r at e h1
    rcases r with ⟨_ | pa, t⟩
    · cases e
    · grind [arborRead_sound, Option.map_eq_some_iff]
  | _ => cases e; exact h

theorem failHead_sound {s n a code addr} (h : Sound s) : Sound (failHead s n a code addr) :=
  trySes_sound (accessError_sound (popHead_sound h))

theorem cycleDone_sound {s n a cnt off addr sent data} (h : Sound s) : Sound (cycleDone s n a cnt off addr sent data) := by
  have h1 : ∀ {c : Prop} [Decidable c] {x}, Sound (if c then { s with arb := { s.arb with wrote := x } } else s) :=
    ite_sound (h.frame rfl rfl) h
  have tail : ∀ {t b e f g v x} {c d : Nat}, Sound t → Sound
      (if !b then failHead t n a .memory addr
       else if c < d then
         if e && f then failHead (t.setSes n x) n g .squashed addr else t.setSes n x
       else trySes (accessDone (popHead t n) n g v) n) := fun ht =>
    ite_sound (failHead_sound ht) (ite_sound (ite_sound (failHead_sound (setSes_sound ht)) (setSes_sound ht))
      (trySes_sound (accessDone_sound (popHead_sound ht))))
  unfold cycleDone
  generalize a.kind = k
  rcases k with _ | _ | _ | ⟨_ | _, ipa, _⟩
  case mover.true =>
    apply tail
    dsimp only
    generalize hr : inbTarget _ n (ipa.toNat + a.done) .write = r
    have ht : Sound r.2 := hr ▸ inbTarget_sound h1
    rcases r with ⟨_ | pa, t⟩
    · exact ht
    · exact arborForce_sound ht
  all_goals exact tail h1

theorem cycleRetry_sound {s n a addr} (h : Sound s) : Sound (cycleRetry s n a addr) :=
  ite_sound (setSes_sound h) (failHead_sound h)

theorem endCycle_sound {s c resp timeout data} (h : Sound s) : Sound (endCycle s c resp timeout data) := by
  grind [endCycle, driveLock_sound, failHead_sound, cycleDone_sound, forceInbound_sound, cycleRetry_sound, afterCycle_sound, trySes_sound, sound_iff]

theorem execArborOutboundAccess_sound {kind cls pa size data cmpv s u} (h : Sound s) (e : execArborOutboundAccess kind cls pa size data cmpv s = .next u) : Sound u :=
  whenTrue_sound h (arborAccess_sound h) e

theorem startCycle_sound {s ses u} (h : Sound s) (e : startCycle s ses = some u) : Sound u := by
  unfold startCycle at e
  split at e
  case isFalse => cases e
  split at e
  · cases e
  next a rest _ =>
  dsimp only at e
  split at e
  · cases e
  · cases e; exact afterCycle_sound (failHead_sound h)
  next d s1 hd =>
  have h1 := cycleData_sound h hd
  have hc : Sound (if s1.arb.lastSes = ses then s1 else chargeTenure s1) := ite_sound h1 (chargeTenure_sound h1)
  cases e
  refine ite_sound ?_ (uncoreEvent_sound ?_)
  all_goals exact cycleLines_sound (giveCycle_sound (setField_sound (hc.frame rfl rfl)))

theorem execOutboundBusCycle_sound {ses s u} (h : Sound s) (e : execOutboundBusCycle ses s = .next u) : Sound u := by
  grind [execOutboundBusCycle, orStay, orStay_sound, startCycle_sound]

theorem execOutboundCycleEnd_sound {resp data s u} (h : Sound s) (e : execOutboundCycleEnd resp data s = .next u) : Sound u := by
  unfold execOutboundCycleEnd at e
  split at e
  · exact next_sound h e
  · dsimp only at e
    exact whenTrue_sound h (endCycle_sound h) e

theorem loopMemory_sound {s n w1 addr reads writes} (h : Sound s) : Sound (loopMemory s n w1 addr reads writes).2 :=
  snd_ite_sound h (inbTarget_sound h)

theorem countRefusal_sound {s c} (h : Sound s) : Sound (countRefusal s c) :=
  uncoreEvent_sound (h.frame rfl rfl)

theorem execLoopbackCycle_sound {ses s u} (h : Sound s) (e : execLoopbackCycle ses s = .next u) : Sound u := by
  refine whenTrue_sound h (getD_sound h fun t ht => ?_) e
  split at ht
  · cases ht
  split at ht
  · cases ht
  dsimp only at ht
  split at ht
  · cases ht
  · cases ht; exact failHead_sound h
  next d s0 hd =>
  have h0 := cycleData_sound h hd
  have h1 := uncoreEvent_sound (unit := 32) (code := 4) (cls := (s.ses ses).owner.setWidth 16) (forceInbound_sound h0)
  split at ht
  next s2 hm =>
    cases ht
    have h2 := (loopMemory_sound h1).snd hm
    exact ite_sound (cycleRetry_sound (countRefusal_sound h2)) (failHead_sound (countRefusal_sound h2))
  next pa s2 hm =>
    have h2 := (loopMemory_sound h1).snd hm
    split at ht
    · cases ht
    next v s3 hv =>
    cases ht
    have h3 := arborRead_sound h2 hv
    exact cycleDone_sound (ite_sound (arborForce_sound h3) h3)

theorem setThread_sound {s th t} (h : Sound s) : Sound (State.setThread s th t) :=
  h.frame rfl rfl

theorem restartMst_sound {s} (h : Sound s) : Sound (restartMst s) := by
  unfold restartMst
  dsimp only
  apply Sound.setArb
  exact setThread_sound (releaseMst_sound h)

theorem execSessionCycleTimerExpiry_sound {s u} (h : Sound s) (e : execSessionCycleTimerExpiry s = .next u) : Sound u := by
  unfold execSessionCycleTimerExpiry at e
  split at e
  · exact next_sound h e
  · dsimp only at e
    exact next_sound (endCycle_sound (restartMst_sound (reach_sound h))) e

theorem execBusTimerExpiry_sound {s u} (h : Sound s) (e : execBusTimerExpiry s = .next u) : Sound u := by
  unfold execBusTimerExpiry at e
  dsimp only at e
  refine whenTrue_sound h ?_ e
  split
  · apply endCycle_sound
    apply timerOut_sound
    apply Sound.setArb
    split
    · exact reach_sound h
    · exact h
  · apply afterCycle_sound
    apply Sound.setArb
    apply timerOut_sound
    apply Sound.setArb
    split
    · exact reach_sound h
    · exact h
  · apply Sound.setArb
    apply timerOut_sound
    apply Sound.setArb
    split
    · exact reach_sound h
    · exact h

theorem wedgeSession_sound {s n} (h : Sound s) : Sound (wedgeSession s n) := by
  grind [wedgeSession, setSes_sound, recordArbErr_sound, afterCycle_sound, admitWaiting_sound, squashQueue_sound, sound_iff]

theorem execSessionWedge_sound {ses s u} (h : Sound s) (e : execSessionWedge ses s = .next u) : Sound u := by
  unfold execSessionWedge at e
  dsimp only at e
  split at e
  · exact next_sound h e
  · exact whenTrue_sound h (wedgeSession_sound (reach_sound h)) e

theorem execBusGranted_sound {s u} (h : Sound s) (e : execBusGranted s = .next u) : Sound u := by
  unfold execBusGranted at e
  dsimp only at e
  refine whenTrue_sound h ?_ e
  exact h.frame rfl rfl

theorem raiseYield_sound {s} (h : Sound s) : Sound (raiseYield s) :=
  afterCycle_sound ((ite_sound (raiseEvent_sound h) h).frame rfl rfl)

theorem execBusYield_sound {s u} (h : Sound s) (e : execBusYield s = .next u) : Sound u :=
  whenTrue_sound h (raiseYield_sound h) e

theorem noteRequests_sound {s req} (h : Sound s) : Sound (noteRequests s req) :=
  ite_sound (h.frame rfl rfl) h

theorem arbitrate_sound {s req} (h : Sound s) : Sound (arbitrate s req) := by
  grind [arbitrate, driveChain_sound, driveBclr_sound, driveGrant_sound, sound_iff]

theorem execBusRequestArbitration_sound {req s u} (h : Sound s) (e : execBusRequestArbitration req s = .next u) : Sound u := by
  unfold execBusRequestArbitration at e
  split at e
  · split at e
    · dsimp only at e
      exact next_sound (ite_sound (raiseYield_sound (driveBclr_sound (noteRequests_sound h))) h) e
    · exact next_sound (arbitrate_sound (noteRequests_sound h)) e
  · exact next_sound h e

theorem execArbitrationGrantTimeout_sound {s u} (h : Sound s) (e : execArbitrationGrantTimeout s = .next u) : Sound u := by
  unfold execArbitrationGrantTimeout at e
  dsimp only at e
  refine whenTrue_sound h ?_ e
  exact arbitrate_sound (driveGrant_sound (h.frame rfl rfl))

theorem writeBmCtl_sound {s n v} (h : Sound s) : Sound (writeBmCtl s n v) := by
  unfold writeBmCtl
  dsimp only
  apply ite_sound
  · split
    · exact acceptAccess_sound (setSes_sound (setSes_sound h))
    · exact endMover_sound (free_sound (setSes_sound (setSes_sound h)))
  · exact setSes_sound h

theorem execBmGo_sound {ses v s u} (h : Sound s) (e : execBmGo ses v s = .next u) : Sound u :=
  whenTrue_sound h (writeBmCtl_sound h) e

theorem writeSesCtl_sound {s n v} (h : Sound s) : Sound (writeSesCtl s n v) :=
  setSes_sound h

theorem execSesRunWrite_sound {ses v s u} (h : Sound s) (e : execSesRunWrite ses v s = .next u) : Sound u :=
  whenTrue_sound h (writeSesCtl_sound h) e

theorem readErrCode_sound {s n} (h : Sound s) : Sound (readErrCode s n).2 :=
  setSes_sound h

theorem execErrCodeRead_sound {ses cls s u} (h : Sound s) (e : execErrCodeRead ses cls s = .next u) : Sound u := by
  unfold execErrCodeRead at e
  split at e
  · split at e
    · split at e
      · next he => exact next_sound (answer_sound ((readErrCode_sound h).snd he)) e
    · exact next_sound (answer_sound h) e
  · exact next_sound h e

theorem writeVecPop_sound {s n} (h : Sound s) : Sound (writeVecPop s n) := by
  unfold writeVecPop
  dsimp only
  split
  · exact h
  · apply pushKept_sound
    apply ite_sound
    · apply Sound.setArb
      exact setSes_sound h
    · exact setSes_sound h

theorem execVecPop_sound {ses s u} (h : Sound s) (e : execVecPop ses s = .next u) : Sound u :=
  whenTrue_sound h (writeVecPop_sound h) e

theorem arstFell_sound {s} (h : Sound s) : Sound (arstFell s) := by
  unfold arstFell
  dsimp only
  apply releaseBus_sound
  apply Sound.setArb
  split
  · exact endCycle_sound h
  · exact h

theorem execArstInput_sound {s u} (h : Sound s) (e : execArstInput s = .next u) : Sound u := by
  unfold execArstInput at e
  refine whenTrue_sound h ?_ e
  exact arstFell_sound (h.frame rfl rfl)

theorem execArstNRise_sound {s u} (h : Sound s) (e : execArstNRise s = .next u) : Sound u := by
  unfold execArstNRise at e
  refine whenTrue_sound h ?_ e
  exact h.frame rfl rfl

theorem execBackplaneResetEnd_sound {s u} (h : Sound s) (e : execBackplaneResetEnd s = .next u) : Sound u := by
  unfold execBackplaneResetEnd at e
  split at e
  · exact next_sound h e
  · dsimp only at e
    refine next_sound ?_ e
    apply Sound.setArb
    exact reach_sound h

theorem execAfailInput_sound {level s u} (h : Sound s) (e : execAfailInput level s = .next u) : Sound u := by
  unfold execAfailInput at e
  dsimp only at e
  refine whenTrue_sound h ?_ e
  exact h.frame rfl rfl

/-! ### Machine/PcieOps -/

theorem setLink_sound {s p l v} (h : Sound s) : Sound (State.setLink s p l v) :=
  setPort_sound h

theorem setPfn_sound {s p l fn v} (h : Sound s) : Sound (State.setPfn s p l fn v) :=
  setPort_sound h

theorem pcieCount_sound {s p code c} (h : Sound s) : Sound (pcieCount s p code c) :=
  uncoreEvent_sound h

theorem logLink_sound {s p l} (h : Sound s) : Sound (logLink s p l) := by
  unfold logLink
  split
  · next he => exact logEvent_sound ((free_sound h).snd he)

theorem postedError_sound {s p l} (h : Sound s) : Sound (postedError s p l) :=
  logLink_sound (setLink_sound h)

theorem refusePcie_sound {s vc kind} (h : Sound s) : Sound (refusePcie s vc kind) := by
  unfold refusePcie
  apply ite_sound
  · split
    · exact failWait_sound h
    · exact h
  · exact storeEnded_sound h

theorem sendPosted_sound {s p l addr d n c} (h : Sound s) : Sound (sendPosted s p l addr d n c) :=
  pcieCount_sound (setLink_sound h)

theorem sendNonPosted_sound {s p l r} (h : Sound s) : Sound (sendNonPosted s p l r) :=
  pcieCount_sound (setLink_sound h)

theorem memRequest_sound {s p l vc kind c fn addr size data cmpv} (h : Sound s) : Sound (memRequest s p l vc kind c fn addr size data cmpv) := by
  cases kind with
  | store => exact storeEnded_sound (sendPosted_sound h)
  | atomic op => exact ite_sound (sendNonPosted_sound h) (refusePcie_sound h)
  | _ => exact sendNonPosted_sound h

theorem ecamRequest_sound {s p l vc kind c off size data} (h : Sound s) : Sound (ecamRequest s p l vc kind c off size data) := by
  unfold ecamRequest
  split
  · exact refusePcie_sound h
  · dsimp only
    apply ite_sound
    · apply ite_sound
      · split
        · exact finishWait_sound (free_sound h)
        · exact answer_sound (free_sound h)
      · exact storeEnded_sound h
    · exact sendNonPosted_sound h

theorem pcieAccess_sound {s vc kind c pa size data cmpv} (h : Sound s) : Sound (pcieAccess s vc kind c pa size data cmpv) := by
  unfold pcieAccess
  dsimp only
  apply ite_sound (ite_sound (storeEnded_sound (postedError_sound h)) (refusePcie_sound h))
  apply ite_sound
  · split
    · exact refusePcie_sound h
    · exact ite_sound (memRequest_sound h) (refusePcie_sound h)
  · exact ite_sound (ecamRequest_sound h) (memRequest_sound h)

theorem flrWrite_sound {s p l fn} (h : Sound s) : Sound (flrWrite s p l fn) :=
  ite_sound (sendNonPosted_sound h) h

theorem startFlr_sound {s p l fn who} (h : Sound s) : Sound (startFlr s p l fn who).1 := by
  unfold startFlr
  dsimp only
  split
  · exact setLink_sound (setPfn_sound h)
  · split
    · exact free_sound h
    · exact flrWrite_sound (setLink_sound (setPfn_sound (free_sound h)))

theorem resetLink_sound {s p l} (h : Sound s) : Sound (resetLink s p l) :=
  setLink_sound (foldl_sound (fun _ _ => startFlr_sound) h)

theorem pcieTarget_sound {s p l fn addr n acc} (h : Sound s) : Sound (pcieTarget s p l fn addr n acc).2 := by
  unfold pcieTarget
  extract_lets k c a allowed
  split
  · exact h
  split
  · exact h
  have hx := inboundXlate_sound (a := pcieAgent p) (cache := (s.port p).itlb) (pn := c.setWidth 8) (ipa := a) (acc := acc) h
  generalize inboundXlate s (pcieAgent p) (s.port p).itlb (c.setWidth 8) a acc = r at hx
  rcases r with ⟨_ | ⟨pa, mt⟩, cache, t⟩ <;> exact setPort_sound hx

theorem partTargets_sound {s p l fn addr acc ps} (h : Sound s) : Sound (partTargets s p l fn addr acc ps).2 := by
  induction ps generalizing s with
  | nil => exact h
  | cons q t ih =>
    rw [partTargets]
    split
    next s1 e => exact (pcieTarget_sound h).snd e
    next pa _ s1 e =>
      have h2 := ih ((pcieTarget_sound h).snd e)
      generalize partTargets s1 p l fn addr acc t = r at h2
      rcases r with ⟨_ | r, s2⟩ <;> exact h2

theorem sendCpl_sound {s p l fn d st c} (h : Sound s) : Sound (sendCpl s p l fn d st c) :=
  pcieCount_sound (setLink_sound h)

theorem msiArrive_sound {s p l fn data} (h : Sound s) : Sound (msiArrive s p l fn data) :=
  ite_sound (postSource_sound h) (setLink_sound h)

theorem sendMsix_sound {s p l fn v c} (h : Sound s) : Sound (sendMsix s p l fn v c) := by
  unfold sendMsix
  split
  · exact sendPosted_sound h

theorem flushMsix_sound {s p l fn} (h : Sound s) : Sound (flushMsix s p l fn) :=
  foldl_sound (fun _ _ h1 => ite_sound (sendMsix_sound (setPfn_sound h1)) h1) h

/-! ### Machine/ArborIn -/

theorem refusePhase_sound {s n i w1 addr write} (h : Sound s) : Sound (refusePhase s n i w1 addr write) :=
  (ite_sound (answer_sound (countRefusal_sound h)) (countRefusal_sound h)).frame rfl rfl

theorem decidePhase_sound {s space am addr write parityOk u} (h : Sound s) (e : decidePhase s space am addr write parityOk = some u) : Sound u := by
  grind [decidePhase, refusePhase_sound, inbTarget_sound, uncoreEvent_sound, sound_iff]

theorem execInboundAddressPhase_sound {space am addr write parityOk answered s u} (h : Sound s) (e : execInboundAddressPhase space am addr write parityOk answered s = .next u) : Sound u := by
  unfold execInboundAddressPhase at e
  split at e
  · dsimp only at e
    split at e
    · next he =>
        refine next_sound ?_ e
        split
        · exact trySes_sound (decidePhase_sound h he)
        · exact decidePhase_sound h he
    · refine next_sound ?_ e
      split
      · exact trySes_sound (h.frame rfl rfl)
      · exact h.frame rfl rfl
  · exact next_sound h e

theorem rewalkPhase_sound {s f} (h : Sound s) : Sound (rewalkPhase s f) := by
  unfold rewalkPhase
  split
  · exact h
  split
  · split
    next e => exact ((inbTarget_sound h).snd e).setArb
    next e => exact refusePhase_sound ((inbTarget_sound h).snd e)
  · exact h

theorem forceRx_sound {s pn} (h : Sound s) : Sound (forceRx s pn) :=
  foldl_sound (fun _ _ h1 => foldl_sound (fun _ _ h2 => setLink_sound (foldl_sound (fun _ _ h3 => foldl_sound (fun _ _ h4 => forceWrite_sound h4) h3) h2)) h1) h

theorem purgeVmid_sound {s pn} (h : Sound s) : Sound (purgeVmid s pn) := by
  unfold purgeVmid
  exact rewalkPhase_sound (dropVmid_sound (forceRx_sound (forceInbound_sound (foldl_sound (fun _ _ => forceStores_sound) h))))

theorem nextPhase_sound {s ph0 w size ahead} (h : Sound s) : Sound (nextPhase s ph0 w size ahead) := by
  unfold nextPhase
  dsimp only
  refine ite_sound h.setArb (ite_sound ?_ h.setArb)
  split
  next e => exact ((inbTarget_sound h).snd e).setArb
  next e => exact refusePhase_sound ((inbTarget_sound h).snd e)

theorem advancePhase_sound {s ph w1 size ahead} (h : Sound s) : Sound (advancePhase s ph w1 size ahead) :=
  trySes_sound (nextPhase_sound h)

theorem phaseRead_sound {s ph n w u} (h : Sound s) (e : phaseRead s ph n = some (w, u)) : Sound u :=
  arborRead_sound h e

theorem phaseWrite_sound {s ph n v u} (h : Sound s) (e : phaseWrite s ph n v = some u) : Sound u :=
  arborWrite_sound h e

theorem execInboundWriteData_sound {size data parityOk timedOut s u} (h : Sound s) (e : execInboundWriteData size data parityOk timedOut s = .next u) : Sound u := by
  unfold execInboundWriteData at e
  split at e
  · exact next_sound h e
  · split at e
    · dsimp only at e
      split at e
      · exact next_sound (refusePhase_sound h) e
      · split at e
        · split at e
          · refine next_sound ?_ e
            exact advancePhase_sound (drainInbound_sound ((drainInbound_sound h).frame rfl rfl))
          · refine next_sound ?_ e
            apply ite_sound
            · apply Sound.setArb
              exact countRefusal_sound (drainInbound_sound h)
            · exact drainInbound_sound h
        · split at e
          · refine next_sound ?_ e
            apply Sound.setArb
            exact countRefusal_sound (drainInbound_sound h)
          · split at e
            · split at e
              · next he2 => exact next_sound (advancePhase_sound (phaseWrite_sound (drainInbound_sound h) he2)) e
              · exact next_sound (drainInbound_sound h) e
            · exact next_sound (drainInbound_sound h) e
    · exact next_sound h e

theorem execInboundReadData_sound {size s u} (h : Sound s) (e : execInboundReadData size s = .next u) : Sound u := by
  unfold execInboundReadData at e
  split at e
  · exact next_sound h e
  · split at e
    · dsimp only at e
      split at e
      · split at e
        · exact next_sound (advancePhase_sound (answer_sound (snd_ite_sound (drainInbound_sound h) (free_sound (drainInbound_sound h))))) e
        · split at e
          · exact next_sound h e
          · next he3 =>
              exact next_sound (advancePhase_sound (answer_sound (phaseRead_sound (snd_ite_sound (drainInbound_sound h) (free_sound (drainInbound_sound h))) he3))) e
      · exact next_sound (drainInbound_sound h) e
    · exact next_sound h e

theorem execInboundRmwCycle_sound {size data s u} (h : Sound s) (e : execInboundRmwCycle size data s = .next u) : Sound u := by
  have h1 := drainInbound_sound h
  unfold execInboundRmwCycle at e
  split at e
  · exact next_sound h e
  split at e
  case isFalse => exact next_sound h e
  dsimp only at e
  split at e
  · exact next_sound h1 e
  split at e
  · exact next_sound (refusePhase_sound h1) e
  split at e
  next e2 => exact next_sound (refusePhase_sound ((inbTarget_sound h1).snd e2)) e
  next s2 e2 =>
  have h2 := (inbTarget_sound h1).snd e2
  split at e
  · exact next_sound h e
  next s3 e3 =>
  have h4 : ∀ v, Sound (s3.answer v) := fun _ => answer_sound (phaseRead_sound h2 e3)
  split at e
  · exact next_sound (advancePhase_sound (h4 _)) e
  split at e
  · exact next_sound (refusePhase_sound (h4 _)) e
  split at e
  next e5 => exact next_sound (advancePhase_sound (phaseWrite_sound (h4 _) e5)) e
  · exact next_sound h e

theorem takeVector_sound {s l v} (h : Sound s) : Sound (takeVector s l v) := by
  unfold takeVector
  split
  · exact h.frame rfl rfl
  · exact ite_sound (pushVector_sound h) (h.frame rfl rfl)

theorem beginAck_sound {s l} (h : Sound s) : Sound (beginAck s l) := by
  unfold beginAck
  dsimp only
  apply driveLock_sound
  apply Sound.setArb
  apply giveCycle_sound
  apply Sound.setArb
  exact setField_sound (setField_sound (ite_sound h (h.frame rfl rfl)))

theorem endAck_sound {s} (h : Sound s) : Sound (endAck s) :=
  afterCycle_sound ((driveLock_sound h).frame rfl rfl)

theorem execInterruptAcknowledgeCycle_sound {ai vector s u} (h : Sound s) (e : execInterruptAcknowledgeCycle ai vector s = .next u) : Sound u := by
  unfold execInterruptAcknowledgeCycle at e
  dsimp only at e
  split at e
  · split at e
    · refine next_sound ?_ e
      exact h.frame rfl rfl
    · split at e
      · refine next_sound ?_ e
        exact takeVector_sound (h.frame rfl rfl)
      · refine next_sound ?_ e
        apply ite_sound
        · apply raiseEvent_sound
          apply Sound.setArb
          exact uncoreEvent_sound (beginAck_sound (h.frame rfl rfl))
        · exact endAck_sound (takeVector_sound (uncoreEvent_sound (beginAck_sound (h.frame rfl rfl))))
  · exact next_sound h e

theorem execAckCycleTimeout_sound {ai s u} (h : Sound s) (e : execAckCycleTimeout ai s = .next u) : Sound u := by
  unfold execAckCycleTimeout at e
  dsimp only at e
  split at e
  · refine next_sound ?_ e
    exact endAck_sound (restartMst_sound (h.frame rfl rfl))
  · split at e
    · split at e
      · refine next_sound ?_ e
        exact h.frame rfl rfl
      · refine next_sound ?_ e
        apply endAck_sound
        apply restartMst_sound
        apply Sound.setArb
        exact uncoreEvent_sound (beginAck_sound (h.frame rfl rfl))
    · exact next_sound h e

theorem execIackChainPass_sound {iackIn as_ s u} (h : Sound s) (e : execIackChainPass iackIn as_ s = .next u) : Sound u := by
  unfold execIackChainPass at e
  dsimp only at e
  refine whenTrue_sound h ?_ e
  exact h.frame rfl rfl

/-! ### Machine/PavSteps -/

theorem pavUnits_sound {s pn} (h : Sound s) : Sound (pavUnits s pn) := by
  have h1 : Sound ((ownedSes s pn).foldl (fun t n => if (t.ses n).wait.isSome then t else resetSession t n false false none 0) s) :=
    foldl_sound (fun _ _ ht => ite_sound ht (resetSession_sound ht)) h
  refine tryPav_sound (setPav_sound (List.foldlRecOn (motive := fun r : State × Bool => Sound r.1) _ _ h1 fun r hr f _ => ?_))
  split
  · exact hr
  · exact startFlr_sound hr

theorem pavSquash_sound {s pn} (h : Sound s) : Sound (pavSquash s pn) :=
  foldl_sound (fun _ _ h1 => admitWaiting_sound (by grind [squashQueue_sound])) (setPav_sound h)

theorem answerStops_sound {s pn} (h : Sound s) : Sound (answerStops s pn) :=
  ite_sound h (foldl_sound (fun _ _ h1 => replyDone_sound h1) (setPav_sound h))

theorem resumeReset_sound {s pn} (h : Sound s) : Sound (resumeReset s pn) := by
  unfold resumeReset
  dsimp only
  split
  · exact h
  · exact ite_sound (pavUnits_sound (setPav_sound h)) h

theorem recallGuests_sound {s pn} (h : Sound s) : Sound (recallGuests s pn) :=
  foldl_sound (fun _ _ h1 => ite_sound (rollbackCore_sound h1) h1) h

theorem advancePav_sound {s pn} (h : Sound s) : Sound (advancePav s pn) := by
  unfold advancePav
  dsimp only
  split
  · exact ite_sound (answerStops_sound h) h
  · exact resumeReset_sound (ite_sound (pavSquash_sound (ite_sound (answerStops_sound h) h)) (ite_sound (answerStops_sound h) h))

theorem advancePavs_sound {s} (h : Sound s) : Sound (advancePavs s) :=
  foldl_sound (fun _ _ h1 => advancePav_sound h1) h

/-! ### Machine/Funnel -/

theorem dropMany_sound {vc n s} (h : Sound s) : Sound (dropMany vc n s) := by
  induction n with
  | zero => exact h
  | succ n ih => exact dropPacket_sound ih

theorem execTracePacketArrival_sound {s u} (h : Sound s) (e : execTracePacketArrival s = .next u) : Sound u := by
  unfold execTracePacketArrival at e
  split at e
  · exact next_sound h e
  · dsimp only at e
    split at e
    · split at e
      · refine next_sound ?_ e
        apply Sound.setFunnel
        exact setCore_sound h
      · refine next_sound ?_ e
        exact h.frame rfl rfl
    · refine next_sound ?_ e
      exact dropMany_sound (h.frame rfl rfl)

theorem sinkLine_sound {s d} (h : Sound s) : Sound (sinkLine s d) :=
  ite_sound (ite_sound (sendPosted_sound h) (postedError_sound h)) (forceWrite_sound h)

theorem funnelIdle_sound {s} (h : Sound s) : Sound (funnelIdle s) :=
  ite_sound (h.frame rfl rfl) h

theorem execTraceSinkWrite_sound {s u} (h : Sound s) (e : execTraceSinkWrite s = .next u) : Sound u := by
  unfold execTraceSinkWrite at e
  dsimp only at e
  split at e
  case isFalse => exact next_sound h e
  split at e
  · exact next_sound h e
  split at e
  · split at e
    · exact next_sound h.setFunnel e
    · exact next_sound (funnelIdle_sound (uncoreEvent_sound (sinkLine_sound h)).setFunnel) e
  · exact next_sound (ite_sound (funnelIdle_sound h) h) e

theorem execTfRptrWrite_sound {high v s u} (h : Sound s) (e : execTfRptrWrite high v s = .next u) : Sound u := by
  unfold execTfRptrWrite at e
  dsimp only at e
  refine next_sound ?_ e
  exact h.frame rfl rfl

theorem flushEncoders_sound {s} (h : Sound s) : Sound (flushEncoders s) :=
  foldl_sound (fun _ _ h1 => emitHeld_sound h1) h

theorem execTfFlush_sound {v s u} (h : Sound s) (e : execTfFlush v s = .next u) : Sound u := by
  unfold execTfFlush at e
  split at e
  · dsimp only at e
    refine next_sound ?_ e
    exact funnelIdle_sound ((flushEncoders_sound h).frame rfl rfl)
  · exact next_sound h e

theorem applyTrace_sound {s on pcie ringK full tsk synck rate base classes} (h : Sound s) : Sound (applyTrace s on pcie ringK full tsk synck rate base classes) :=
  ite_sound (funnelIdle_sound ((ite_sound (flushEncoders_sound h) h).frame rfl rfl)) (ite_sound ((ite_sound (flushEncoders_sound h) h).frame rfl rfl) (ite_sound ((ite_sound (flushEncoders_sound h) h).frame rfl rfl) (ite_sound (flushEncoders_sound h) h)))

/-! ### Machine/Lanes -/

theorem presentCmd_sound {s n p ring} (h : Sound s) : Sound (presentCmd s n p ring) := by
  unfold presentCmd
  dsimp only
  split
  · exact finishCmd_sound (setLane_sound h)
  · exact ite_sound (setLane_sound h) (reply_sound (setLane_sound h))

theorem logEventOnly_sound {s cls index detail addr} (h : Sound s) : Sound (logEventOnly s cls index detail addr) :=
  logEvent_sound h

theorem stopRing_sound {s n cause base} (h : Sound s) : Sound (stopRing s n cause base) :=
  logEventOnly_sound (setLane_sound h)

theorem checkRing_sound {s n} (h : Sound s) : Sound (checkRing s n) :=
  ite_sound h (ite_sound (stopRing_sound h) (ite_sound (stopRing_sound h) (ite_sound (stopRing_sound h) h)))

theorem writeCrTail_sound {s n v} (h : Sound s) : Sound (writeCrTail s n v) :=
  checkRing_sound (setLane_sound h)

theorem writeLaneCtl_sound {s n v} (h : Sound s) : Sound (writeLaneCtl s n v) :=
  checkRing_sound (setLane_sound h)

theorem writeDoorbell_sound {s n v} (h : Sound s) : Sound (writeDoorbell s n v) :=
  ite_sound h (ite_sound (setLane_sound h) (ite_sound (setLane_sound h) (ite_sound (setLane_sound h) (presentCmd_sound (setLane_sound h)))))

theorem readPeak_sound {s} (h : Sound s) : Sound (readPeak s).2 :=
  h.frame rfl rfl

theorem readMbStat_sound {s n} (h : Sound s) : Sound (readMbStat s n).2 :=
  ite_sound (h.frame rfl rfl) h

theorem laneRead_sound {s n off} (h : Sound s) : Sound (laneRead s n off).2 := by
  have h1 := readMbStat_sound (n := n) h
  have h2 := readPeak_sound h
  unfold laneRead
  dsimp only
  repeat' apply snd_ite_sound
  all_goals assumption

theorem laneWrite_sound {s n off v} (h : Sound s) : Sound (laneWrite s n off v) :=
  ite_sound (writeLaneCtl_sound h) (ite_sound (ite_sound h (setLane_sound h)) (ite_sound (ite_sound h (setLane_sound h)) (ite_sound (ite_sound h (setLane_sound h)) (ite_sound (ite_sound h (setLane_sound h)) (ite_sound (ite_sound h (setLane_sound h)) (ite_sound (writeCrTail_sound h) (ite_sound (setLane_sound h) (ite_sound (writeDoorbell_sound h) (ite_sound (setLane_sound h) (ite_sound (ite_sound h (setLane_sound h)) h))))))))))

theorem execCrTailDoorbell_sound {lane v s u} (h : Sound s) (e : execCrTailDoorbell lane v s = .next u) : Sound u :=
  whenTrue_sound h (writeCrTail_sound h) e

theorem execRingEnWrite_sound {lane v s u} (h : Sound s) (e : execRingEnWrite lane v s = .next u) : Sound u :=
  whenTrue_sound h (writeLaneCtl_sound h) e

theorem execMbDoorbellWrite_sound {lane v s u} (h : Sound s) (e : execMbDoorbellWrite lane v s = .next u) : Sound u :=
  whenTrue_sound h (writeDoorbell_sound h) e

theorem execMbStatRead_sound {lane s u} (h : Sound s) (e : execMbStatRead lane s = .next u) : Sound u := by
  unfold execMbStatRead at e
  split at e
  · split at e
    · next he => exact next_sound (answer_sound ((readMbStat_sound h).snd he)) e
  · exact next_sound h e

theorem execTjPeakRead_sound {lane s u} (h : Sound s) (e : execTjPeakRead lane s = .next u) : Sound u := by
  unfold execTjPeakRead at e
  split at e
  · split at e
    · next he => exact next_sound (answer_sound ((readPeak_sound h).snd he)) e
  · exact next_sound h e

theorem readPieces_sound {pa is s u} (h : Sound s) (e : readPieces pa is s = some u) : Sound u := by
  induction is generalizing s with
  | nil => cases e; exact h
  | cons i t ih =>
    unfold readPieces at e
    split at e
    · cases e
    next e1 => exact ih (agentRead_sound h e1) e

theorem execRingCommandTake_sound {lane s u} (h : Sound s) (e : execRingCommandTake lane s = .next u) : Sound u := by
  unfold execRingCommandTake at e
  dsimp only at e
  split at e
  · split at e
    · exact next_sound h e
    · next he2 => exact next_sound (presentCmd_sound (setLane_sound (readPieces_sound (checkRing_sound h) he2))) e
  · exact next_sound (ite_sound (checkRing_sound h) h) e

/-! ### Machine/Pcie -/

theorem holdIn_sound {s p l x} (h : Sound s) : Sound (holdIn s p l x) :=
  setLink_sound h

theorem writeParts_sound {p c d ps s} (h : Sound s) : Sound (writeParts p c d ps s).2 := by
  induction ps generalizing s with
  | nil => exact h
  | cons q t ih =>
    unfold writeParts
    split
    · exact h
    next e => exact ih (pcieCount_sound (agentWrite_sound h e))

theorem setRx_sound {s p l q} (h : Sound s) : Sound (setRx s p l q) :=
  setLink_sound h

theorem drainRxN_sound {p l n s} (h : Sound s) : Sound (drainRxN p l n s) := by
  induction n generalizing s with
  | zero => exact h
  | succ n ih =>
    unfold drainRxN
    split
    · exact h
    split
    · exact ih (msiArrive_sound (setRx_sound h))
    split
    next e => exact ih (setRx_sound ((writeParts_sound h).snd e))
    next e => exact setRx_sound ((writeParts_sound h).snd e)

theorem drainRx_sound {s p l} (h : Sound s) : Sound (drainRx s p l) :=
  drainRxN_sound h

theorem postRx_sound {s p l x} (h : Sound s) : Sound (postRx s p l x) :=
  drainRx_sound (setRx_sound h)

theorem readParts_sound {p c ps d s w u} (h : Sound s) (e : readParts p c ps d s = some (w, u)) : Sound u := by
  induction ps generalizing d s with
  | nil => cases e; exact h
  | cons q t ih =>
    unfold readParts at e
    split at e
    · cases e
    next e1 => exact ih (pcieCount_sound (agentRead_sound h e1)) e

theorem inboundWrite_sound {port link fn addr size data poisoned s} (h : Sound s) : Sound (inboundWrite port link fn addr size data poisoned s) := by
  unfold inboundWrite
  dsimp only
  apply ite_sound
  · apply ite_sound (logLink_sound (pcieCount_sound h))
    apply ite_sound (postRx_sound (pcieCount_sound h))
    split
    · next he => exact (partTargets_sound (pcieCount_sound h)).snd he
    · next he => exact postRx_sound ((partTargets_sound (pcieCount_sound h)).snd he)
  · exact h

theorem execPcieInboundWrite_sound {port link fn addr size data poisoned s u} (h : Sound s) (e : execPcieInboundWrite port link fn addr size data poisoned s = .next u) : Sound u :=
  next_sound (ite_sound (holdIn_sound h) (inboundWrite_sound h)) e

theorem inboundRead_sound {port link fn addr size s} (h : Sound s) : Sound (inboundRead port link fn addr size s) := by
  unfold inboundRead
  dsimp only
  apply ite_sound
  · apply ite_sound (drainRx_sound h)
    apply ite_sound (sendCpl_sound (pcieCount_sound (drainRx_sound h)))
    split
    · next he => exact sendCpl_sound ((partTargets_sound (pcieCount_sound (drainRx_sound h))).snd he)
    · next he =>
        split
        · exact h
        · next he2 =>
            exact answer_sound (sendCpl_sound (readParts_sound ((partTargets_sound (pcieCount_sound (drainRx_sound h))).snd he) he2))
  · exact h

theorem execPcieInboundRead_sound {port link fn addr size s u} (h : Sound s) (e : execPcieInboundRead port link fn addr size s = .next u) : Sound u :=
  next_sound (ite_sound (holdIn_sound h) (inboundRead_sound h)) e

theorem inboundAtomic_sound {port link fn addr size op opnd cmpv s} (h : Sound s) : Sound (inboundAtomic port link fn addr size op opnd cmpv s) := by
  unfold inboundAtomic
  dsimp only
  apply ite_sound
  · apply ite_sound (drainRx_sound h)
    apply ite_sound (sendCpl_sound (pcieCount_sound (drainRx_sound h)))
    split
    · next he => exact sendCpl_sound ((pcieTarget_sound (pcieCount_sound (drainRx_sound h))).snd he)
    · next he =>
        apply ite_sound (sendCpl_sound ((pcieTarget_sound (pcieCount_sound (drainRx_sound h))).snd he))
        split
        · exact h
        · next he2 =>
            exact answer_sound (sendCpl_sound (agentAtom_sound ((pcieTarget_sound (pcieCount_sound (drainRx_sound h))).snd he) he2))
  · exact h

theorem execPcieInboundAtomicop_sound {port link fn addr size op opnd cmpv s u} (h : Sound s) (e : execPcieInboundAtomicop port link fn addr size op opnd cmpv s = .next u) : Sound u :=
  next_sound (ite_sound (holdIn_sound h) (inboundAtomic_sound h)) e

theorem inboundMsi_sound {port link fn data s} (h : Sound s) : Sound (inboundMsi port link fn data s) :=
  ite_sound (postRx_sound (pcieCount_sound h)) h

theorem execPcieMsiMessage_sound {port link fn data s u} (h : Sound s) (e : execPcieMsiMessage port link fn data s = .next u) : Sound u :=
  next_sound (ite_sound (holdIn_sound h) (inboundMsi_sound h)) e

theorem endRequest_sound {s r ok data} (h : Sound s) : Sound (endRequest s r ok data) := by
  unfold endRequest
  apply ite_sound (storeEnded_sound h)
  dsimp only
  split
  · exact answer_sound h
  · exact ite_sound (finishWait_sound h) (failWait_sound h)

theorem inboundCompletion_sound {port link ok data s} (h : Sound s) : Sound (inboundCompletion port link ok data s) := by
  unfold inboundCompletion
  dsimp only
  apply ite_sound
  · split
    · exact h
    · exact endRequest_sound (pcieCount_sound (setLink_sound h))
  · exact h

theorem execPcieCompletion_sound {port link ok data s u} (h : Sound s) (e : execPcieCompletion port link ok data s = .next u) : Sound u :=
  next_sound (ite_sound (holdIn_sound h) (inboundCompletion_sound h)) e

theorem takeHeld_sound {port link x s u} (h : Sound s) (e : takeHeld port link x s = some u) : Sound u := by
  unfold takeHeld at e
  dsimp only at e
  split at e
  · cases e
    exact inboundWrite_sound h
  · cases e
    exact inboundMsi_sound h
  · cases e
    exact inboundCompletion_sound h
  · split at e
    · split at e
      · cases e
      · cases e
        exact inboundRead_sound h
    · cases e
      exact h
  · split at e
    · cases e
    · cases e
      exact inboundAtomic_sound h

theorem takeAll_sound {port link xs s} (h : Sound s) : Sound (takeAll port link xs s) := by
  induction xs generalizing s with
  | nil => exact h
  | cons x t ih =>
    unfold takeAll
    split
    next e => exact ih (takeHeld_sound h e)
    · exact setLink_sound h

theorem deliverHeld_sound {s port l} (h : Sound s) : Sound (deliverHeld s port l) :=
  ite_sound (takeAll_sound (setLink_sound h)) h

theorem execPcieCompletionTimeout_sound {port link s u} (h : Sound s) (e : execPcieCompletionTimeout port link s = .next u) : Sound u := by
  unfold execPcieCompletionTimeout at e
  dsimp only at e
  split at e
  · exact next_sound h e
  · exact next_sound (endRequest_sound (reach_sound (setLink_sound h))) e

theorem execMsixSend_sound {port link cls fn v s u} (h : Sound s) (e : execMsixSend port link cls fn v s = .next u) : Sound u := by
  unfold execMsixSend at e
  dsimp only at e
  split at e
  · split at e
    · exact next_sound (sendMsix_sound h) e
    · split at e
      · exact next_sound (setPfn_sound h) e
      · exact next_sound h e
  · exact next_sound h e

theorem execPciePerstInput_sound {port link asserted hot s u} (h : Sound s) (e : execPciePerstInput port link asserted hot s = .next u) : Sound u := by
  unfold execPciePerstInput at e
  dsimp only at e
  split at e
  · split at e
    · split at e
      · exact next_sound (resetLink_sound h) e
      · exact next_sound h e
    · split at e
      · exact next_sound (resetLink_sound (setLink_sound h)) e
      · exact next_sound (setLink_sound h) e
  · exact next_sound h e

theorem execRootPerstRelease_sound {port s u} (h : Sound s) (e : execRootPerstRelease port s = .next u) : Sound u := by
  unfold execRootPerstRelease at e
  dsimp only at e
  split at e
  · exact next_sound h e
  · exact next_sound (reach_sound (setPort_sound h)) e

theorem execFlrComplete_sound {port link fn s u} (h : Sound s) (e : execFlrComplete port link fn s = .next u) : Sound u := by
  unfold execFlrComplete at e
  dsimp only at e
  split at e
  · exact next_sound h e
  · exact next_sound (tryPav_sound (replyDone_sound (setPfn_sound h))) e
  · exact next_sound (tryPav_sound (setPfn_sound h)) e

theorem execPcieLinkUp_sound {port link speed width s u} (h : Sound s) (e : execPcieLinkUp port link speed width s = .next u) : Sound u :=
  whenTrue_sound h (setLink_sound h) e

theorem readCfg_sound {s f reg} (h : Sound s) : Sound (readCfg s f reg).2 := by
  simp only [readCfg]
  apply snd_ite_sound
  · exact h
  · apply snd_ite_sound
    · exact h
    · apply snd_ite_sound
      · exact h
      · apply snd_ite_sound
        · exact h
        · apply snd_ite_sound
          · exact h
          · split
            · exact h
            · exact free_sound h

theorem writeCfg_sound {s p l fn reg v} (h : Sound s) : Sound (writeCfg s p l fn reg v) := by
  have hf {v} : Sound (s.setPfn p l fn v) := setPfn_sound h
  unfold writeCfg
  dsimp only
  apply ite_sound h
  apply ite_sound (flushMsix_sound hf)
  apply ite_sound (ite_sound (startFlr_sound h) hf)
  apply ite_sound (flushMsix_sound hf)
  apply ite_sound
  · split
    · exact hf
    · exact hf
    · exact hf
    · exact flushMsix_sound hf
  · exact hf

theorem execPcieInboundConfigRequest_sound {port link fn reg write s u} (h : Sound s) (e : execPcieInboundConfigRequest port link fn reg write s = .next u) : Sound u := by
  unfold execPcieInboundConfigRequest at e
  dsimp only at e
  split at e
  · split at e
    · exact next_sound (sendCpl_sound (pcieCount_sound h)) e
    · split at e
      · exact next_sound (sendCpl_sound (writeCfg_sound (pcieCount_sound h))) e
      · exact next_sound (answer_sound (sendCpl_sound (readCfg_sound (pcieCount_sound h)))) e
  · exact next_sound h e

/-! ### Machine/Timers -/

theorem setVals_sound {s n cnt cmp} (h : Sound s) : Sound (setVals s n cnt cmp) :=
  ite_sound (setTimer_sound (setTimer_sound h)) (setTimer_sound h)

theorem compareEvent_sound {s n} (h : Sound s) : Sound (compareEvent s n) :=
  ite_sound (setTimer_sound h) (ite_sound (postSource_sound (foldl_sound (fun _ _ h1 => updCore_sound h1) (setTimer_sound h))) (foldl_sound (fun _ _ h1 => updCore_sound h1) (setTimer_sound h)))

theorem tick_sound {f s n} (h : Sound s) : Sound (tick f s n) := by
  induction f generalizing s n with
  | zero => exact h
  | succ f ih =>
    have fold {l : List TmrNo} {t} (ht : Sound t) : Sound (l.foldl (tick f) t) := foldl_sound (fun _ _ => ih) ht
    have h1 := setVals_sound (n := n) (cnt := cntNext s n) (cmp := cmpNext s n) h
    unfold tick
    split
    · have h2 : ∀ {v}, Sound (if wrapsNext s n then (setVals s n (cntNext s n) (cmpNext s n)).setTimer n v else setVals s n (cntNext s n) (cmpNext s n)) :=
        ite_sound (setTimer_sound h1) h1
      have h3 {c : Bool} {t} (ht : Sound t) : Sound (if c then compareEvent t n else t) := ite_sound (compareEvent_sound ht) ht
      have h4 {c : Bool} {l : List TmrNo} {t} (ht : Sound t) : Sound (if c then l.foldl (tick f) t else t) := ite_sound (fold ht) ht
      exact h4 (h4 (h3 h2))
    · exact h

theorem execTimerTick_sound {ch s u} (h : Sound s) (e : execTimerTick ch s = .next u) : Sound u :=
  whenTrue_sound h (tick_sound h) e

theorem execTimerWrap_sound {ch s u} (h : Sound s) (e : execTimerWrap ch s = .next u) : Sound u :=
  whenTrue_sound h (tick_sound h) e

theorem execTimerCompareEvent_sound {ch s u} (h : Sound s) (e : execTimerCompareEvent ch s = .next u) : Sound u :=
  whenTrue_sound h (tick_sound h) e

theorem gateEdge_sound {s src level} (h : Sound s) : Sound (gateEdge s src level) :=
  foldl_sound (fun _ _ h1 => tick_sound h1) h

theorem setGateLine_sound {s src level} (h : Sound s) : Sound (setGateLine s src level) :=
  ite_sound (h.frame rfl rfl) (ite_sound (h.frame rfl rfl) (ite_sound (h.frame rfl rfl) h))

theorem execTgGateChange_sound {src level s u} (h : Sound s) (e : execTgGateChange src level s = .next u) : Sound u :=
  whenTrue_sound h (ite_sound (setGateLine_sound h) (gateEdge_sound (setGateLine_sound h))) e

theorem writeCmp_sound {s n v} (h : Sound s) : Sound (writeCmp s n v) :=
  ite_sound (setTimer_sound (setTimer_sound h)) (setTimer_sound h)

theorem writeCnt_sound {s n v} (h : Sound s) : Sound (writeCnt s n v) :=
  setTimer_sound h

theorem writeCtl_sound {s n v} (h : Sound s) : Sound (writeCtl s n v) :=
  ite_sound h (ite_sound (setTimer_sound (setTimer_sound h)) (setTimer_sound h))

theorem execTmrCmpWrite_sound {cls ch v s u} (h : Sound s) (e : execTmrCmpWrite cls ch v s = .next u) : Sound u :=
  whenTrue_sound h (writeCmp_sound h) e

theorem execTmrCntWrite_sound {cls ch v s u} (h : Sound s) (e : execTmrCntWrite cls ch v s = .next u) : Sound u :=
  whenTrue_sound h (writeCnt_sound h) e

theorem execTmrCtlWrite_sound {cls ch v s u} (h : Sound s) (e : execTmrCtlWrite cls ch v s = .next u) : Sound u :=
  whenTrue_sound h (writeCtl_sound h) e

theorem firstEdge_sound {s} (h : Sound s) : Sound (firstEdge s) :=
  ite_sound (gateEdge_sound (h.frame rfl rfl)) (h.frame rfl rfl)

theorem laterEdge_sound {s} (h : Sound s) : Sound (laterEdge s) :=
  (free_sound h).frame rfl rfl

theorem candidateEdge_sound {s} (h : Sound s) : Sound (candidateEdge s) :=
  ite_sound (laterEdge_sound h) (h.frame rfl rfl)

theorem execQzPpsInEdge_sound {rising at_ s u} (h : Sound s) (e : execQzPpsInEdge rising at_ s = .next u) : Sound u := by
  unfold execQzPpsInEdge at e
  split at e
  · dsimp only at e
    split at e
    · exact next_sound (ite_sound (firstEdge_sound (gateEdge_sound (setGateLine_sound (reach_sound h)))) (ite_sound (laterEdge_sound (gateEdge_sound (setGateLine_sound (reach_sound h)))) (candidateEdge_sound (gateEdge_sound (setGateLine_sound (reach_sound h)))))) e
    · exact next_sound (gateEdge_sound (setGateLine_sound (reach_sound h))) e
  · exact next_sound h e

theorem execPpsHoldover_sound {s u} (h : Sound s) (e : execPpsHoldover s = .next u) : Sound u := by
  grind [execPpsHoldover, whenTrue, reach_sound, whenTrue_sound, sound_iff]

theorem execQzPpsOutPulse_sound {s u} (h : Sound s) (e : execQzPpsOutPulse s = .next u) : Sound u := by
  grind [execQzPpsOutPulse, whenTrue, reach_sound, whenTrue_sound, gateEdge_sound, sound_iff]

theorem execQzPpsOutFall_sound {s u} (h : Sound s) (e : execQzPpsOutFall s = .next u) : Sound u := by
  grind [execQzPpsOutFall, reach_sound, gateEdge_sound, sound_iff]

/-! ### Machine/Regs -/

theorem readHalf_sound {s vc pair high live} (h : Sound s) : Sound (readHalf s vc pair high live).2 := by
  simp only [readHalf]
  split
  · exact snd_ite_sound (setCore_sound h) (setCore_sound h)
  · exact setCore_sound h

theorem timerRead_sound {s vc c n off} (h : Sound s) : Sound (timerRead s vc c n off).2 :=
  snd_ite_sound h (snd_ite_sound (snd_ite_sound (readHalf_sound h) h) (snd_ite_sound h (snd_ite_sound h (snd_ite_sound h (snd_ite_sound h h)))))

theorem timerWrite_sound {s c n off v} (h : Sound s) : Sound (timerWrite s c n off v) :=
  ite_sound h (ite_sound (writeCnt_sound h) (ite_sound (writeCmp_sound h) (ite_sound (writeCtl_sound h) (ite_sound (ite_sound h (setTimer_sound h)) h))))

theorem quartzRead_sound {s vc off} (h : Sound s) : Sound (quartzRead s vc off).2 := by
  have hr {p b v} : Sound (readHalf s vc p b v).2 := readHalf_sound h
  unfold quartzRead
  dsimp only
  repeat' apply snd_ite_sound
  all_goals first | exact h | exact hr | exact h.frame rfl rfl

theorem uncoreRead_sound {s vc u1 off} (h : Sound s) : Sound (uncoreRead s vc u1 off).2 :=
  snd_ite_sound h (snd_ite_sound (readHalf_sound h) (snd_ite_sound h (snd_ite_sound h h)))

theorem uncoreWrite_sound {s u1 off v} (h : Sound s) : Sound (uncoreWrite s u1 off v) :=
  ite_sound (h.frame rfl rfl) h

theorem funnelRead_sound {s vc off} (h : Sound s) : Sound (funnelRead s vc off).2 :=
  snd_ite_sound h (snd_ite_sound (readHalf_sound h) (snd_ite_sound (readHalf_sound h) (snd_ite_sound h (snd_ite_sound h (snd_ite_sound (h.frame rfl rfl) h)))))

theorem nextOf_sound {s o} (h : Sound s) (ho : ∀ t, o = .next t → Sound t) : Sound (nextOf s o) := by
  unfold nextOf
  split
  · exact ho _ rfl
  · exact h

theorem funnelWrite_sound {s off v} (h : Sound s) : Sound (funnelWrite s off v) :=
  ite_sound (nextOf_sound h fun _ => execTfRptrWrite_sound h) (ite_sound (nextOf_sound h fun _ => execTfRptrWrite_sound h)
    (ite_sound (nextOf_sound h fun _ => execTfFlush_sound h) h))

theorem arbRead_sound {s off} (h : Sound s) : Sound (arbRead s off).2 := by
  have hr {a} : Sound { s with arb := a } := h.setArb
  unfold arbRead
  dsimp only
  repeat' apply snd_ite_sound
  all_goals first | exact h | exact hr

theorem sesRead_sound {s c n off} (h : Sound s) : Sound (sesRead s c n off).2 := by
  have h1 := readErrCode_sound (n := n) h
  have h2 {v} : Sound (s.setSes n v) := setSes_sound h
  simp only [sesRead, apply_ite Prod.snd]
  repeat' apply ite_sound
  all_goals first | exact h | exact h1 | exact h2

theorem sesWrite_sound {s c n off v} (h : Sound s) : Sound (sesWrite s c n off v) :=
  ite_sound h (ite_sound (writeSesCtl_sound h) (ite_sound (ite_sound (writeVecPop_sound h) h) (ite_sound (setSes_sound h) (ite_sound (setSes_sound h) (ite_sound (setSes_sound h) (ite_sound (setSes_sound h) (ite_sound (setSes_sound h) (ite_sound (writeBmCtl_sound h) (ite_sound (setSes_sound h) h)))))))))

theorem linkRead_sound {s p l off} (h : Sound s) : Sound (linkRead s p l off).2 :=
  snd_ite_sound h (snd_ite_sound (setLink_sound h) (snd_ite_sound h (snd_ite_sound h (snd_ite_sound h (snd_ite_sound h (snd_ite_sound h h))))))

theorem linkWrite_sound {s p l off c v} (h : Sound s) : Sound (linkWrite s p l off c v) := by
  have hl {v} : Sound (s.setLink p l v) := setLink_sound h
  exact ite_sound hl (ite_sound hl (ite_sound hl (ite_sound hl (ite_sound (nextOf_sound h fun _ e => execMsixSend_sound h e) (ite_sound hl h)))))

theorem pavRead_sound {s pn off} (h : Sound s) : Sound (pavRead s pn off).2 :=
  snd_ite_sound h (snd_ite_sound (setPav_sound h) (snd_ite_sound (setPav_sound h) (snd_ite_sound (setPav_sound h) (snd_ite_sound (setPav_sound h) h))))

theorem virqSend_sound {s vc pn v} (h : Sound s) : Sound (virqSend s vc pn v) :=
  ite_sound (postVirq_sound h) h

theorem regRead_sound {s vc c pa} (h : Sound s) : Sound (regRead s vc c pa).2 := by
  simp only [regRead]
  cases paKind s pa with
  | lanes => exact snd_ite_sound (laneRead_sound h) h
  | quartz => exact snd_ite_sound (quartzRead_sound h) (snd_ite_sound (timerRead_sound h) h)
  | uncore => exact uncoreRead_sound h
  | funnel => exact funnelRead_sound h
  | arborCtl => exact arbRead_sound h
  | sessions => exact sesRead_sound h
  | pcieCtl => exact linkRead_sound h
  | pavCtl =>
    cases pavBlock pa with
    | none => exact h
    | some p => exact pavRead_sound h
  | _ => exact h

theorem regWrite_sound {s vc c pa v} (h : Sound s) : Sound (regWrite s vc c pa v) := by
  simp only [regWrite]
  cases paKind s pa with
  | lanes => exact ite_sound (laneWrite_sound h) h
  | quartz => exact ite_sound (timerWrite_sound h) h
  | uncore => exact uncoreWrite_sound h
  | funnel => exact funnelWrite_sound h
  | sessions => exact sesWrite_sound h
  | pcieCtl => exact linkWrite_sound h
  | pavCtl =>
    cases pavBlock pa with
    | none => exact h
    | some p => exact ite_sound (virqSend_sound h) h
  | _ => exact h

theorem regLoad_sound {s vc c pa size w u} (h : Sound s) (e : regLoad s vc c pa size = some (w, u)) : Sound u := by
  unfold regLoad at e
  split at e
  · split at e
    · next he =>
        cases e
        exact (regRead_sound h).snd he
  · split at e
    · split at e
      · next he =>
          split at e
          · next he2 =>
              cases e
              exact (regRead_sound ((regRead_sound h).snd he)).snd he2
    · cases e

theorem regStore_sound {s vc c pa size v} (h : Sound s) : Sound (regStore s vc c pa size v) :=
  ite_sound (regWrite_sound h) (ite_sound (regWrite_sound (regWrite_sound h)) h)

theorem execHoldRegisterRead_sound {vc cls pa s u} (h : Sound s) (e : execHoldRegisterRead vc cls pa s = .next u) : Sound u := by
  unfold execHoldRegisterRead at e
  split at e
  · split at e
    · next he => exact next_sound (answer_sound ((regRead_sound h).snd he)) e
  · exact next_sound h e

theorem execRcRegisterRead_sound {vc cls pa s u} (h : Sound s) (e : execRcRegisterRead vc cls pa s = .next u) : Sound u := by
  unfold execRcRegisterRead at e
  split at e
  · dsimp only at e
    exact next_sound (answer_sound (regRead_sound h)) e
  · exact next_sound h e

theorem execRegisterWrite_sound {vc cls pa v s u} (h : Sound s) (e : execRegisterWrite vc cls pa v s = .next u) : Sound u :=
  whenTrue_sound h (regWrite_sound h) e

theorem execVirqSendWrite_sound {vc p v s u} (h : Sound s) (e : execVirqSendWrite vc p v s = .next u) : Sound u :=
  whenTrue_sound h (virqSend_sound h) e

theorem sourceWrites_sound {s v} (h : Sound s) : Sound (sourceWrites s v) := by
  unfold sourceWrites
  split
  · exact forceInbound_sound h
  · exact drainRx_sound h
  · exact h

theorem execVirqPost_sound {src s u} (h : Sound s) (e : execVirqPost src s = .next u) : Sound u :=
  next_sound (ite_sound (postSource_sound (ite_sound h (sourceWrites_sound h))) (ite_sound h (sourceWrites_sound h))) e

/-! ### Machine/GateOps -/

theorem refuse_sound {s n r} (h : Sound s) : Sound (refuse s n r) :=
  reply_sound h

theorem markChanged_sound {s os} (h : Sound s) : Sound (markChanged s os) :=
  h.frame rfl rfl

theorem stageCmd_sound {s n p img} (h : Sound s) : Sound (stageCmd s n p img) := by
  unfold stageCmd
  dsimp only
  split
  · exact h
  · exact reply_sound (h.frame rfl rfl)

/-- The effect of a configuration command keeps a state sound. -/
def Cfg.KeepsSound (c : Cfg) : Prop := ∀ s p img, Sound s → Sound (c.apply s p img)

theorem commitSingle_sound {s n c p} (hc : c.KeepsSound) (h : Sound s) : Sound (commitSingle s n c p) :=
  replyDone_sound (markChanged_sound (hc _ _ _ (reach_sound h)))

theorem configRow_sound {s n c} (hc : c.KeepsSound) (h : Sound s) : Sound (configRow s n c) := by
  unfold configRow
  split
  · exact h
  split
  · exact refuse_sound h
  split
  · exact h
  split
  · split
    · exact refuse_sound h
    · exact stageCmd_sound h
  split
  · exact h
  split
  · exact refuse_sound h
  split
  · exact refuse_sound h
  · exact commitSingle_sound hc h

theorem plainRow_sound {s n c changes own check run reads} (hr : ∀ p, Sound (run p)) (h : Sound s) :
    Sound (plainRow s n c changes own check run reads) := by
  unfold plainRow
  split
  · exact h
  split
  · exact refuse_sound h
  split
  · exact h
  split
  · exact refuse_sound h
  · exact hr _

theorem beginCmd_sound {s n} (h : Sound s) : Sound (beginCmd s n) :=
  setLane_sound h

/-! ### Machine/Seq -/

theorem outputTo_sound {s th path f} (hf : ∀ t, Sound t → Sound (f t)) (h : Sound s) : Sound (outputTo s th path f) :=
  ite_sound h.setArb (hf s h)

theorem xSet_sound {s th i v} (h : Sound s) : Sound (xSet s th i v) :=
  setThread_sound h

theorem seqRow_sound {s th w op f u} (hf : ∀ t q, Sound t → Sound (f t q)) (h : Sound s) (e : seqRow s th w op f = .next u) :
    Sound u :=
  whenTrue_sound h (hf _ _ (setThread_sound h)) e

theorem putLines_sound {s g mask val} (h : Sound s) : Sound (putLines s g mask val) :=
  ite_sound (arstFell_sound (driveLines_sound h)) (driveLines_sound h)

theorem execSeqOut_sound {th w s u} (h : Sound s) (e : execSeqOut th w s = .next u) : Sound u :=
  seqRow_sound (fun _ _ h => outputTo_sound (fun _ h => putLines_sound h) h) h e

theorem execSeqDrv_sound {th w s u} (h : Sound s) (e : execSeqDrv th w s = .next u) : Sound u :=
  seqRow_sound (fun _ _ h => outputTo_sound (fun _ h => driveParity_sound (putLines_sound h)) h) h e

theorem execSeqRel_sound {th w s u} (h : Sound s) (e : execSeqRel th w s = .next u) : Sound u :=
  seqRow_sound (fun _ _ h => outputTo_sound (fun _ h => releaseLines_sound (releaseLines_sound h)) h) h e

theorem execSeqSmp_sound {th w lines s u} (h : Sound s) (e : execSeqSmp th w lines s = .next u) : Sound u :=
  seqRow_sound (fun _ _ h => setThread_sound (xSet_sound (noteLines_sound h))) h e

theorem setAx_sound {s mask val} (h : Sound s) : Sound (setAx s mask val) :=
  h.frame rfl rfl

theorem execSeqAxs_sound {th w s u} (h : Sound s) (e : execSeqAxs th w s = .next u) : Sound u :=
  seqRow_sound (fun _ _ h => outputTo_sound (fun _ h => setAx_sound h) h) h e

theorem startWait_sound {t th k} (h : Sound t) : Sound (startWait t th k) :=
  setThread_sound h

theorem execSeqDly_sound {th w s u} (h : Sound s) (e : execSeqDly th w s = .next u) : Sound u :=
  seqRow_sound (fun _ _ h => startWait_sound h) h e

theorem execSeqDlyExpiry_sound {th s u} (h : Sound s) (e : execSeqDlyExpiry th s = .next u) : Sound u := by
  unfold execSeqDlyExpiry at e
  dsimp only at e
  split at e
  · exact next_sound (setThread_sound h) e
  · exact next_sound h e

theorem execSeqWt_sound {th w s u} (h : Sound s) (e : execSeqWt th w s = .next u) : Sound u :=
  seqRow_sound (fun _ _ h => startWait_sound h) h e

theorem execSeqWtn_sound {th w s u} (h : Sound s) (e : execSeqWtn th w s = .next u) : Sound u :=
  seqRow_sound (fun _ _ h => startWait_sound h) h e

theorem execSeqWte_sound {th w s u} (h : Sound s) (e : execSeqWte th w s = .next u) : Sound u :=
  seqRow_sound (fun _ _ h => startWait_sound h) h e

theorem takeEvent_sound {s th e1} (h : Sound s) : Sound (takeEvent s th e1) :=
  setThread_sound (xSet_sound (h.frame rfl rfl))

theorem execSeqWaitComplete_sound {th lines s u} (h : Sound s) (e : execSeqWaitComplete th lines s = .next u) : Sound u := by
  unfold execSeqWaitComplete at e
  dsimp only at e
  split at e
  · exact whenTrue_sound h (setThread_sound (noteLines_sound h)) e
  · split at e
    · exact next_sound h e
    · exact next_sound (takeEvent_sound h) e
    · exact next_sound (takeEvent_sound (free_sound h)) e
  · exact next_sound h e

theorem execSeqWaitTimeout_sound {th s u} (h : Sound s) (e : execSeqWaitTimeout th s = .next u) : Sound u :=
  whenTrue_sound h (setThread_sound h) e

theorem readBeat_sound {s} (h : Sound s) : Sound (readBeat s) := by
  grind [readBeat, execInboundReadData_sound, raiseEvent_sound, setField_sound]

theorem onDecode_sound {s} (h : Sound s) : Sound (onDecode s) := by
  unfold onDecode
  cases e : (if answersPhases s && slvFree s then decidePhase s ((mget s.arb.fields 3 0).extractLsb' 8 3)
      ((mget s.arb.fields 3 0).setWidth 8) (fieldAddr s) ((mget s.arb.fields 3 0).getLsbD 11) true else none) with
  | none => simp only [e]; exact raiseEvent_sound h
  | some t =>
    have ht : Sound t := by
      split at e
      · exact decidePhase_sound h e
      · cases e
    simp only [e]
    split
    · exact ite_sound (ite_sound (raiseEvent_sound ht.setArb) (readBeat_sound (raiseEvent_sound ht.setArb)))
        (raiseEvent_sound (setField_sound ht))
    · exact raiseEvent_sound ht

theorem nextBeat_sound {s} (h : Sound s) : Sound (nextBeat s) := by
  unfold nextBeat
  split
  · exact h
  · exact ite_sound h (ite_sound (endCycle_sound h) (getD_sound (endCycle_sound h) (fun _ e => startCycle_sound (endCycle_sound h) e)))

theorem onSignal_sound {s th e1} (h : Sound s) : Sound (onSignal s th e1) := by
  unfold onSignal
  split
  · exact raiseEvent_sound h.setArb
  · exact raiseEvent_sound h.setArb
  · exact onDecode_sound h
  · dsimp only
    split
    · next he =>
      have ht := execInboundWriteData_sound h he
      exact ite_sound h (raiseEvent_sound ht)
    · exact h
  · exact raiseYield_sound h
  · exact nextBeat_sound h
  · exact ite_sound h (readBeat_sound h)
  · split
    · exact takeVector_sound h
    · exact h
  · exact raiseEvent_sound h

theorem execSeqSig_sound {th w s u} (h : Sound s) (e : execSeqSig th w s = .next u) : Sound u :=
  seqRow_sound (fun _ _ h => onSignal_sound h) h e

theorem execSeqLde_sound {th w s u} (h : Sound s) (e : execSeqLde th w s = .next u) : Sound u :=
  seqRow_sound (fun _ _ h => ite_sound (xSet_sound h) (ite_sound (xSet_sound h) (ite_sound (xSet_sound (free_sound h)) (xSet_sound h)))) h e

theorem execSeqSte_sound {th w s u} (h : Sound s) (e : execSeqSte th w s = .next u) : Sound u :=
  seqRow_sound (fun _ _ h => setField_sound h) h e

theorem execSeqOpr_sound {th w s u} (h : Sound s) (e : execSeqOpr th w s = .next u) : Sound u :=
  seqRow_sound (fun _ _ h => xSet_sound h) h e

theorem execSeqOpi_sound {th w s u} (h : Sound s) (e : execSeqOpi th w s = .next u) : Sound u :=
  seqRow_sound (fun _ _ h => xSet_sound h) h e

theorem execSeqBr_sound {th w s u} (h : Sound s) (e : execSeqBr th w s = .next u) : Sound u :=
  seqRow_sound (fun _ _ h => ite_sound (setThread_sound h) h) h e

theorem execSeqEnd_sound {th w1 s u} (h : Sound s) (e : execSeqEnd th w1 s = .next u) : Sound u := by
  refine seqRow_sound (fun t _ ht => ?_) h e
  have h1 {b : Bool} {v m w} : Sound (if b then setAx (t.setThread th v) m w else t.setThread th v) :=
    ite_sound (setAx_sound (setThread_sound ht)) (setThread_sound ht)
  dsimp only
  apply ite_sound
  · split
    · exact endCycle_sound h1
    · exact endAck_sound h1
    · exact h1
  · apply ite_sound
    · split
      · exact trySes_sound h1.setArb
      · exact h1.setArb
    · exact h1

/-! ### Machine/GateArb -/

theorem cfgSessionOpen_keepsSound : cfgSessionOpen.KeepsSound := fun _ _ _ h => setSes_sound h

theorem holdWindows_sound {s} (h : Sound s) : Sound (holdWindows s) :=
  foldl_sound (fun _ _ h1 => blvTake_sound h1) (h.frame rfl rfl)

theorem cfgSessionWindowSet_keepsSound : cfgSessionWindowSet.KeepsSound := by
  intro s p img h
  simp only [cfgSessionWindowSet]
  split
  · exact setSes_sound h
  · exact ite_sound (holdWindows_sound (setSes_sound h)) (setSes_sound h)
  · exact ite_sound (setSes_sound h) (releaseLevels_sound (setSes_sound h))

theorem beginSes_sound {s lane p close halt} (h : Sound s) : Sound (beginSes s lane p close halt) :=
  resetSession_sound (markChanged_sound (beginCmd_sound h))

theorem startThreads_sound {s} (h : Sound s) : Sound (startThreads s) :=
  foldl_sound (fun _ _ h1 => setThread_sound h1) (h.frame rfl rfl)

theorem commitRoles_sound {s r} (h : Sound s) : Sound (commitRoles s r) :=
  startThreads_sound (h.frame rfl rfl)

theorem cfgArbRoleSet_keepsSound : cfgArbRoleSet.KeepsSound := fun _ _ _ h => commitRoles_sound h

theorem loadProfile_sound {s pr} (h : Sound s) : Sound (loadProfile s pr) :=
  h.frame rfl rfl

theorem execSessionOpen_sound {lane s u} (h : Sound s) (e : execSessionOpen lane s = .next u) : Sound u :=
  next_sound (configRow_sound cfgSessionOpen_keepsSound h) e

theorem execSessionWindowSet_sound {lane s u} (h : Sound s) (e : execSessionWindowSet lane s = .next u) : Sound u :=
  next_sound (configRow_sound cfgSessionWindowSet_keepsSound h) e

theorem execArbRoleSet_sound {lane s u} (h : Sound s) (e : execArbRoleSet lane s = .next u) : Sound u :=
  next_sound (configRow_sound cfgArbRoleSet_keepsSound h) e

theorem execSessionClose_sound {lane s u} (h : Sound s) (e : execSessionClose lane s = .next u) : Sound u :=
  next_sound (plainRow_sound (fun _ => beginSes_sound h) h) e

theorem execSessionReset_sound {lane s u} (h : Sound s) (e : execSessionReset lane s = .next u) : Sound u :=
  next_sound (plainRow_sound (fun _ => beginSes_sound h) h) e

theorem execArbProfileLoad_sound {lane s u} (h : Sound s) (e : execArbProfileLoad lane s = .next u) : Sound u :=
  next_sound (plainRow_sound (fun _ => replyDone_sound (markChanged_sound (loadProfile_sound h))) h) e

/-! ### Machine/GateFolly -/

theorem dropFollyCore_sound {i s v} (h : Sound s) : Sound (dropFollyCore i s v) :=
  dropRegions_sound (ite_sound (rollbackCore_sound h) h)

theorem dropFolly_sound {s i} (h : Sound s) : Sound (dropFolly s i) :=
  foldl_sound (fun _ _ h1 => dropRecent_sound (dropRequests_sound h1)) (foldl_sound (fun _ _ h1 => dropFollyCore_sound h1) h)

theorem commitFolly_sound {s p img} (h : Sound s) : Sound (commitFolly s p img) := by
  unfold commitFolly
  dsimp only
  apply ite_sound
  · apply Sound.setGate
    exact dropFolly_sound h
  · apply Sound.setGate
    exact dropFolly_sound h

theorem cfgFollyLoad_keepsSound : cfgFollyLoad.KeepsSound := fun _ _ _ h => commitFolly_sound h

theorem execFollyLoad_sound {lane s u} (h : Sound s) (e : execFollyLoad lane s = .next u) : Sound u :=
  next_sound (configRow_sound cfgFollyLoad_keepsSound h) e

/-! ### Machine/GateIo -/

theorem commitDiscipline_sound {s mode edge out off} (h : Sound s) : Sound (commitDiscipline s mode edge out off) :=
  ite_sound (gateEdge_sound (h.frame rfl rfl)) (h.frame rfl rfl)

theorem cfgQzDisciplineSet_keepsSound : cfgQzDisciplineSet.KeepsSound := fun _ _ _ h => commitDiscipline_sound h

theorem allocTimer_sound {s n o link} (h : Sound s) : Sound (allocTimer s n o link) :=
  ite_sound (ite_sound (setTimer_sound (setTimer_sound h)) (setTimer_sound h)) (ite_sound (setTimer_sound (setTimer_sound h)) (setTimer_sound h))

theorem cfgTimerAlloc_keepsSound : cfgTimerAlloc.KeepsSound := fun _ _ _ h => allocTimer_sound h

theorem commitPorts_sound {s p} (h : Sound s) : Sound (commitPorts s p) :=
  setPort_sound h

theorem cfgPcieRoleSet_keepsSound : cfgPcieRoleSet.KeepsSound := fun _ _ _ h => commitPorts_sound h

theorem cfgPcieVfAssign_keepsSound : cfgPcieVfAssign.KeepsSound := fun _ _ _ h => setPfn_sound h

theorem beginRemove_sound {s lane p} (h : Sound s) : Sound (beginRemove s lane p) := by
  grind [beginRemove, markChanged_sound, beginCmd_sound, startFlr_sound, setPfn_sound, replyDone_sound]

theorem execQzDisciplineSet_sound {lane s u} (h : Sound s) (e : execQzDisciplineSet lane s = .next u) : Sound u :=
  next_sound (configRow_sound cfgQzDisciplineSet_keepsSound h) e

theorem execTimerAlloc_sound {lane s u} (h : Sound s) (e : execTimerAlloc lane s = .next u) : Sound u :=
  next_sound (configRow_sound cfgTimerAlloc_keepsSound h) e

theorem execPcieRoleSet_sound {lane s u} (h : Sound s) (e : execPcieRoleSet lane s = .next u) : Sound u :=
  next_sound (configRow_sound cfgPcieRoleSet_keepsSound h) e

theorem execPcieVfAssign_sound {lane s u} (h : Sound s) (e : execPcieVfAssign lane s = .next u) : Sound u := by
  unfold execPcieVfAssign at e
  split at e
  · exact next_sound h e
  · split at e
    · exact next_sound (plainRow_sound (fun _ => beginRemove_sound h) h) e
    · exact next_sound (configRow_sound cfgPcieVfAssign_keepsSound h) e

/-! ### Machine/GateMem -/

theorem cfgMemAssign_keepsSound : cfgMemAssign.KeepsSound := fun _ _ _ h => h.cells rfl rfl

theorem cfgMemRelease_keepsSound : cfgMemRelease.KeepsSound := fun _ _ _ h => h.setGate

/-- An empty memory is in canonical form. -/
theorem startFill_sound {s} (h : Sound s) : Sound (startFill s) := ⟨h.map, rfl⟩

theorem startCopy_sound {s} (h : Sound s) : Sound (startCopy s) :=
  h.frame rfl rfl

theorem cfgMemParitySet_keepsSound : cfgMemParitySet.KeepsSound := by
  intro s p img h
  have h1 : Sound { s with dram := { s.dram with modeSet := true } } := h.cells rfl rfl
  exact ite_sound h1 (startCopy_sound (startFill_sound (h1.cells rfl rfl)))

theorem writeAfter_wf {d : Dram} {l : Nat} {v : Line} (h : d.wf) : (writeAfter d l v).wf := dramWrite_wf _ l v h

theorem linesToDram_sound {s inside} (h : Sound s) : Sound (linesToDram s inside) := by
  simp only [linesToDram]
  apply Sound.setFabDram
  · exact foldl_sound (fun _ _ h => setCluster_sound (setHome_sound h)) h
  · exact foldl_wf (fun _ _ h => writeAfter_wf h) h.memory

theorem cfgKeepRegionSet_keepsSound : cfgKeepRegionSet.KeepsSound := by
  intro s p img h
  apply foldl_sound (fun _ _ h => keepAccept_sound h)
  exact (linesToDram_sound h).setFabDram (linesToDram_sound h).memory

theorem cfgMicaSet_keepsSound : cfgMicaSet.KeepsSound := fun _ _ _ h => h.cells rfl rfl

theorem execMemAssign_sound {lane s u} (h : Sound s) (e : execMemAssign lane s = .next u) : Sound u :=
  next_sound (configRow_sound cfgMemAssign_keepsSound h) e

theorem execMemRelease_sound {lane s u} (h : Sound s) (e : execMemRelease lane s = .next u) : Sound u :=
  next_sound (configRow_sound cfgMemRelease_keepsSound h) e

theorem execMemParitySet_sound {lane s u} (h : Sound s) (e : execMemParitySet lane s = .next u) : Sound u :=
  next_sound (configRow_sound cfgMemParitySet_keepsSound h) e

theorem execKeepRegionSet_sound {lane s u} (h : Sound s) (e : execKeepRegionSet lane s = .next u) : Sound u :=
  next_sound (configRow_sound cfgKeepRegionSet_keepsSound h) e

theorem execMicaSet_sound {lane s u} (h : Sound s) (e : execMicaSet lane s = .next u) : Sound u :=
  next_sound (configRow_sound cfgMicaSet_keepsSound h) e

/-! ### Machine/GateObs -/

theorem cfgFaultPolicySet_keepsSound : cfgFaultPolicySet.KeepsSound := by
  intro s p img h
  have h1 : Sound { s with gate := { s.gate with policy := mput s.gate.policy (pkGet p 16 2) (BitVec.ofNat 64 (pkGet p 24 8)) } } :=
    h.setGate
  exact ite_sound h1.setFlash (ite_sound (h1.cells rfl rfl) h1)

theorem execLogRead_sound {lane s u} (h : Sound s) (e : execLogRead lane s = .next u) : Sound u :=
  next_sound (plainRow_sound (fun _ => replyDone_sound h) h) e

theorem execLogClear_sound {lane s u} (h : Sound s) (e : execLogClear lane s = .next u) : Sound u := by
  unfold execLogClear at e
  refine next_sound ?_ e
  exact plainRow_sound (fun _ => replyDone_sound (h.frame rfl rfl)) h

theorem execUnitStatus_sound {lane s u} (h : Sound s) (e : execUnitStatus lane s = .next u) : Sound u :=
  next_sound (plainRow_sound (fun _ => replyDone_sound h) h) e

theorem execDeviceInfo_sound {lane s u} (h : Sound s) (e : execDeviceInfo lane s = .next u) : Sound u :=
  next_sound (plainRow_sound (fun _ => replyDone_sound h) h) e

theorem cfgTraceConfig_keepsSound : cfgTraceConfig.KeepsSound := fun _ _ _ h => applyTrace_sound h

theorem cfgPmuUncoreConfig_keepsSound : cfgPmuUncoreConfig.KeepsSound := fun _ _ _ h => h.frame rfl rfl

theorem execFaultPolicySet_sound {lane s u} (h : Sound s) (e : execFaultPolicySet lane s = .next u) : Sound u :=
  next_sound (configRow_sound cfgFaultPolicySet_keepsSound h) e

theorem execTraceConfig_sound {lane s u} (h : Sound s) (e : execTraceConfig lane s = .next u) : Sound u :=
  next_sound (configRow_sound cfgTraceConfig_keepsSound h) e

theorem execPmuUncoreConfig_sound {lane s u} (h : Sound s) (e : execPmuUncoreConfig lane s = .next u) : Sound u :=
  next_sound (configRow_sound cfgPmuUncoreConfig_keepsSound h) e

/-! ### Machine/GatePav -/

theorem takeBase_sound {s pn vtb} (h : Sound s) : Sound (takeBase s pn vtb) :=
  foldl_sound (fun _ _ h1 => ite_sound (updCore_sound (ite_sound (rollbackCore_sound h1) h1)) h1) h

theorem zeroLines_sound {pa n s} (h : Sound s) : Sound (zeroLines pa n s) := by
  induction n generalizing s with
  | zero => exact h
  | succ n ih => exact deviceWrite_sound (ih h)

theorem initPit_sound {s p} (h : Sound s) : Sound (initPit s p) :=
  foldl_sound (fun _ _ h1 => deviceWrite_sound h1) (zeroLines_sound h)

theorem cfgPavCreate_keepsSound : cfgPavCreate.KeepsSound := by
  intro s p img h
  simp only [cfgPavCreate]
  apply purgeVmid_sound
  apply takeBase_sound
  apply initPit_sound
  exact (setPav_sound h).setQosMap

theorem cfgPavDestroy_keepsSound : cfgPavDestroy.KeepsSound := by
  intro s p img h
  simp only [cfgPavDestroy]
  apply Sound.setQosMap
  apply setPav_sound
  apply purgeVmid_sound
  apply takeBase_sound
  exact h.setGate

theorem cfgPavStart_keepsSound : cfgPavStart.KeepsSound := fun _ _ _ h => setPav_sound h

theorem cfgPavCtlSet_keepsSound : cfgPavCtlSet.KeepsSound := by
  intro s p img h
  exact ite_sound (purgeVmid_sound (takeBase_sound (setPav_sound h))) (setPav_sound h)

theorem cfgPavVcpuMap_keepsSound : cfgPavVcpuMap.KeepsSound := fun _ _ _ h => deviceWrite_sound h

theorem cfgQosMemSet_keepsSound : cfgQosMemSet.KeepsSound := fun _ _ _ h => setQos_sound h

theorem cfgQosCacheSet_keepsSound : cfgQosCacheSet.KeepsSound := fun _ _ _ h => setQos_sound h

theorem cfgQosArbSet_keepsSound : cfgQosArbSet.KeepsSound := fun _ _ _ h => setQos_sound h

theorem cfgQosIrqRateSet_keepsSound : cfgQosIrqRateSet.KeepsSound := fun _ _ _ h => setQos_sound h

theorem writeEntry_sound {s pn i vcpu en send} (h : Sound s) : Sound (writeEntry s pn i vcpu en send) :=
  gateWrite32_sound h

theorem cfgIrqRouteSet_keepsSound : cfgIrqRouteSet.KeepsSound := by
  intro s p img h
  have h1 : ∀ l : List Route, Sound { s with gate := { s.gate with routes := l } } := fun _ => h.setGate
  exact ite_sound (ite_sound (h1 _) (h1 _)) (writeEntry_sound (ite_sound (h1 _) (h1 _)))

theorem cfgIrqRouteClear_keepsSound : cfgIrqRouteClear.KeepsSound := by
  intro s p img h
  exact ite_sound h.setGate (gateWrite32_sound h.setGate)

theorem execPavCreate_sound {lane s u} (h : Sound s) (e : execPavCreate lane s = .next u) : Sound u :=
  next_sound (configRow_sound cfgPavCreate_keepsSound h) e

theorem execPavDestroy_sound {lane s u} (h : Sound s) (e : execPavDestroy lane s = .next u) : Sound u :=
  next_sound (configRow_sound cfgPavDestroy_keepsSound h) e

theorem execPavStart_sound {lane s u} (h : Sound s) (e : execPavStart lane s = .next u) : Sound u :=
  next_sound (configRow_sound cfgPavStart_keepsSound h) e

theorem execPavCtlSet_sound {lane s u} (h : Sound s) (e : execPavCtlSet lane s = .next u) : Sound u :=
  next_sound (configRow_sound cfgPavCtlSet_keepsSound h) e

theorem execPavVcpuMap_sound {lane s u} (h : Sound s) (e : execPavVcpuMap lane s = .next u) : Sound u :=
  next_sound (configRow_sound cfgPavVcpuMap_keepsSound h) e

theorem execQosMemSet_sound {lane s u} (h : Sound s) (e : execQosMemSet lane s = .next u) : Sound u :=
  next_sound (configRow_sound cfgQosMemSet_keepsSound h) e

theorem execQosCacheSet_sound {lane s u} (h : Sound s) (e : execQosCacheSet lane s = .next u) : Sound u :=
  next_sound (configRow_sound cfgQosCacheSet_keepsSound h) e

theorem execQosArbSet_sound {lane s u} (h : Sound s) (e : execQosArbSet lane s = .next u) : Sound u :=
  next_sound (configRow_sound cfgQosArbSet_keepsSound h) e

theorem execQosIrqRateSet_sound {lane s u} (h : Sound s) (e : execQosIrqRateSet lane s = .next u) : Sound u :=
  next_sound (configRow_sound cfgQosIrqRateSet_keepsSound h) e

theorem execIrqRouteSet_sound {lane s u} (h : Sound s) (e : execIrqRouteSet lane s = .next u) : Sound u :=
  next_sound (configRow_sound cfgIrqRouteSet_keepsSound h) e

theorem execIrqRouteClear_sound {lane s u} (h : Sound s) (e : execIrqRouteClear lane s = .next u) : Sound u :=
  next_sound (configRow_sound cfgIrqRouteClear_keepsSound h) e

theorem execPavStop_sound {lane s u} (h : Sound s) (e : execPavStop lane s = .next u) : Sound u :=
  next_sound (plainRow_sound (fun _ => advancePav_sound (recallGuests_sound (setPav_sound (markChanged_sound (beginCmd_sound h))))) h) e

theorem execPavReset_sound {lane s u} (h : Sound s) (e : execPavReset lane s = .next u) : Sound u :=
  next_sound (plainRow_sound (fun _ => advancePav_sound (recallGuests_sound (setPav_sound (markChanged_sound (beginCmd_sound h))))) h) e

/-! ### Machine/GateSlate -/

/-- Every configuration command keeps the map usable and the memory canonical. -/
theorem cfgOf_sound {op : Nat} {c : Cfg} (e : cfgOf op = some c) : c.KeepsSound := by
  unfold cfgOf at e
  split at e <;> cases e
  · exact cfgPavCreate_keepsSound
  · exact cfgPavDestroy_keepsSound
  · exact cfgPavStart_keepsSound
  · exact cfgPavVcpuMap_keepsSound
  · exact cfgPavCtlSet_keepsSound
  · exact cfgMemAssign_keepsSound
  · exact cfgMemRelease_keepsSound
  · exact cfgMemParitySet_keepsSound
  · exact cfgKeepRegionSet_keepsSound
  · exact cfgMicaSet_keepsSound
  · exact cfgSessionOpen_keepsSound
  · exact cfgSessionWindowSet_keepsSound
  · exact cfgArbRoleSet_keepsSound
  · exact cfgQosMemSet_keepsSound
  · exact cfgQosCacheSet_keepsSound
  · exact cfgQosArbSet_keepsSound
  · exact cfgQosIrqRateSet_keepsSound
  · exact cfgIrqRouteSet_keepsSound
  · exact cfgIrqRouteClear_keepsSound
  · exact cfgFaultPolicySet_keepsSound
  · exact cfgFollyLoad_keepsSound
  · exact cfgQzDisciplineSet_keepsSound
  · exact cfgTimerAlloc_keepsSound
  · exact cfgPcieRoleSet_keepsSound
  · exact cfgPcieVfAssign_keepsSound
  · exact cfgTraceConfig_keepsSound
  · exact cfgPmuUncoreConfig_keepsSound

theorem setSlate_sound {s id k} (h : Sound s) : Sound (State.setSlate s id k) :=
  h.frame rfl rfl

theorem execSlateBegin_sound {lane s u} (h : Sound s) (e : execSlateBegin lane s = .next u) : Sound u := by
  grind [execSlateBegin, plainRow_sound, setSlate_sound, replyDone_sound, sound_iff]

theorem applySlate_sound {cmds s os} (h : Sound s) : Sound (applySlate cmds s os).1 := by
  induction cmds generalizing s os with
  | nil => exact h
  | cons c t ih =>
    unfold applySlate
    split
    · exact ih h
    · next f e => exact ih (cfgOf_sound e _ _ _ h)

theorem commitSlate_sound {s lane p id k} (h : Sound s) : Sound (commitSlate s lane p id k) := by
  unfold commitSlate
  split
  · exact refuse_sound (setSlate_sound h)
  · exact beginCmd_sound (setSlate_sound h)

theorem execSlateCommit_sound {lane s u} (h : Sound s) (e : execSlateCommit lane s = .next u) : Sound u := by
  unfold execSlateCommit at e
  split at e
  · exact next_sound h e
  · split at e
    · exact next_sound (refuse_sound h) e
    · split at e
      · exact next_sound h e
      · exact next_sound (ite_sound h (commitSlate_sound h)) e

theorem reachInstant_sound {s id} (h : Sound s) : Sound (reachInstant s id) := by
  unfold reachInstant
  split
  · exact h
  · split
    · exact h
    · exact replyDone_sound (markChanged_sound (applySlate_sound (setSlate_sound (reach_sound h))))

theorem execSlateCommitInstant_sound {id s u} (h : Sound s) (e : execSlateCommitInstant id s = .next u) : Sound u :=
  next_sound (reachInstant_sound h) e

theorem settleArmed_sound {s} (h : Sound s) : Sound (settleArmed s) :=
  foldl_sound (fun _ _ h1 => reachInstant_sound h1) h

theorem stopCommit_sound {s} (h : Sound s) : Sound (stopCommit s) := by
  unfold stopCommit
  split
  · exact h
  · split
    · next he =>
        split
        · exact reply_sound ((free_sound h).snd he)
        · exact (free_sound h).snd he

theorem meetCommits_sound {s} (h : Sound s) : Sound (meetCommits s) :=
  ite_sound (settleArmed_sound h) (stopCommit_sound h)

theorem execSlateRollback_sound {lane s u} (h : Sound s) (e : execSlateRollback lane s = .next u) : Sound u := by
  unfold execSlateRollback at e
  split at e
  · exact next_sound h e
  · split at e
    · exact next_sound (refuse_sound h) e
    · exact next_sound (replyDone_sound (setSlate_sound h)) e

theorem execSlateStatus_sound {lane s u} (h : Sound s) (e : execSlateStatus lane s = .next u) : Sound u := by
  grind [execSlateStatus, plainRow_sound, replyDone_sound]

theorem execSlateIdleExpiry_sound {id s u} (h : Sound s) (e : execSlateIdleExpiry id s = .next u) : Sound u := by
  unfold execSlateIdleExpiry at e
  split at e
  · exact next_sound h e
  · exact next_sound (ite_sound h (logEventOnly_sound (setSlate_sound (reach_sound h)))) e

/-! ### Machine/Faults -/

theorem saveLog_sound {s} (h : Sound s) : Sound (saveLog s) :=
  h.frame rfl rfl

theorem openUnit_sound {s e1} (h : Sound s) : Sound (openUnit s e1).2 := by
  unfold openUnit
  split
  · next he => exact (free_sound h).snd he

theorem safetyOnly_sound {s} (h : Sound s) : Sound (safetyOnly s) :=
  h.frame rfl rfl

theorem endUnderWay_sound {s} (h : Sound s) : Sound (endUnderWay s) := by
  unfold endUnderWay
  dsimp only
  apply Sound.setArb
  exact keepDuties_sound h

theorem belvederePort_sound {s} (h : Sound s) : Sound (belvederePort s) := by
  unfold belvederePort
  dsimp only
  apply Sound.setArb
  exact endUnderWay_sound h

theorem answerLane0_sound {s} (h : Sound s) : Sound (answerLane0 s) :=
  ite_sound (ite_sound (replyDone_sound h) (reply_sound h)) h

theorem dropLanes_sound {s} (h : Sound s) : Sound (dropLanes s) :=
  h.frame rfl rfl

theorem stopAll_sound {s} (h : Sound s) : Sound (stopAll s) := by
  grind [stopAll, safetyOnly_sound, belvederePort_sound, sound_iff]

theorem enterBelvedere_sound {s e1 vc} (h : Sound s) : Sound (enterBelvedere s e1 vc) := by
  unfold enterBelvedere
  apply ite_sound
  · dsimp only
    apply ite_sound (saveLog_sound (stopAll_sound (answerLane0_sound (settleArmed_sound (dropLanes_sound (recordFault_sound h))))))
    apply Sound.setGate
    exact stopAll_sound (answerLane0_sound (settleArmed_sound (dropLanes_sound (recordFault_sound h))))
  · exact h

theorem resetPav_sound {s pn} (h : Sound s) : Sound (resetPav s pn) := by
  unfold resetPav
  dsimp only
  split
  · exact advancePav_sound (recallGuests_sound (setPav_sound h))
  · exact advancePav_sound (recallGuests_sound (setPav_sound h))
  · exact h

theorem lostOutcome_sound {s e1 vc} (h : Sound s) : Sound (lostOutcome s e1 vc) :=
  ite_sound (resetPav_sound (recordFault_sound h)) (enterBelvedere_sound h)

theorem lostLine_sound {s l c} (h : Sound s) : Sound (lostLine s l c) := by
  have h1 := fun v => setHome_sound (k := s.homeNo l) (v := v) (setWbuf_sound (k := s.homeNo l) (l := l) (v := none) h)
  simp only [lostLine]
  exact lostOutcome_sound (openUnit_sound (e1 := { cls := 0x20, action := 8, ukind := 0, uindex := 0, owner := c, addr := BitVec.ofNat 64 (l.toNat * 64) })
    ((h1 _).setDram (dramWrite_wf _ _ _ (h1 _).memory)))

/-! ### Machine/GateModes -/

theorem beginCore_sound {s vc} (h : Sound s) : Sound (beginCore s vc) := by
  unfold beginCore
  exact updCore_sound h

theorem startService_sound {s lane} (h : Sound s) : Sound (startService s lane) := by
  have h3 := foldl_sound (l := ((List.range 63).map (fun i => BitVec.ofNat 6 (i + 1))))
    (f := fun t n => let l := t.lane n; t.setLane n { l with busy := false })
    (fun _ _ h => setLane_sound h) (foldl_sound (l := (s.reach (s.qz.time + 5000)).allCores) (f := beginCore) (fun _ _ h => beginCore_sound h) (reach_sound (t := s.qz.time + 5000) h))
  unfold startService
  exact replyDone_sound h3.setArbDevGate

theorem endWfe_sound {s} (h : Sound s) : Sound (endWfe s) :=
  foldl_sound (fun _ _ h1 => updCore_sound h1) h

theorem railSettled_sound {s lane} (h : Sound s) : Sound (railSettled s lane) := by
  unfold railSettled
  split
  · next he =>
      dsimp only
      apply replyDone_sound
      apply Sound.setGate
      exact reach_sound ((free_sound h).snd he)

theorem writeLines_wf {d : Dram} {ls : SMap Line} (h : d.wf) : (writeLines d ls).wf := foldl_wf (fun _ _ h => dramWrite_wf _ _ _ h) h

theorem flushCaches_sound {s} (h : Sound s) : Sound (flushCaches s) := by
  simp only [flushCaches]
  apply foldl_sound (fun _ _ h => setHome_sound h)
  apply foldl_sound (fun _ _ h => setCluster_sound h)
  exact h.setDram (foldl_wf (fun _ _ h => writeLines_wf h) (foldl_wf (fun _ _ h => writeLines_wf h) h.memory))

theorem flushFree_sound {s} (h : Sound s) : Sound (flushFree s) := by
  have free {α : Type} {f : α → SMap Line} {l : List α} {d : Dram} (hd : d.wf) :
      (l.foldl (fun d k => (f k).foldl (fun a p => writeAfter a p.1 p.2) d) d).wf :=
    foldl_wf (fun _ _ h => foldl_wf (fun _ _ h => dramWrite_wf _ _ _ h) h) hd
  simp only [flushFree]
  apply foldl_sound (fun _ _ h => setHome_sound h)
  apply foldl_sound (fun _ _ h => setCluster_sound h)
  exact h.setDram (free (free h.memory))

theorem settleAll_sound {s} (h : Sound s) : Sound (settleAll s) :=
  foldl_sound (fun _ _ h1 => settle_sound h1) h

theorem abandonRest_sound {s lane} (h : Sound s) : Sound (abandonRest s lane) :=
  endWfe_sound (replyDone_sound ((ite_sound (flushCaches_sound (settleAll_sound h)) (flushFree_sound (settleAll_sound h))).frame rfl rfl))

theorem wakeUp_sound {s} (h : Sound s) : Sound (wakeUp s) := by
  have h1 := foldl_sound (l := s.dev.held) (fun t a => postRoutes_sound (s := t) (src := a)) (endWfe_sound (s := { s with
    dram := { s.dram with selfRefresh := false }
    dev := { s.dev with mode := .service, vidReq := s.dev.vidSet, held := [], wake := 0 } }) (h.cells rfl rfl))
  unfold wakeUp
  dsimp only
  split
  · exact ite_sound (railSettled_sound h1) h1
  · exact h1

theorem awake_sound {s} (h : Sound s) : Sound (awake s) := by
  unfold awake
  apply ite_sound (wakeUp_sound h)
  split
  · exact abandonRest_sound h
  · exact h

theorem execModeSet_sound {lane s u} (h : Sound s) (e : execModeSet lane s = .next u) : Sound u := by
  grind [execModeSet, plainRow_sound, wakeUp_sound, replyDone_sound, startService_sound, beginCmd_sound, sound_iff]

theorem execDeviceReset_sound {lane s u} (h : Sound s) (e : execDeviceReset lane s = .next u) : Sound u := by
  unfold execDeviceReset at e
  refine next_sound ?_ e
  exact plainRow_sound (fun _ => (saveLog_sound (replyDone_sound h)).frame rfl rfl) h

theorem execVoltageSet_sound {lane s u} (h : Sound s) (e : execVoltageSet lane s = .next u) : Sound u := by
  grind [execVoltageSet, plainRow_sound, beginCmd_sound, railSettled_sound, sound_iff]

theorem execCoreVidStep_sound {s u} (h : Sound s) (e : execCoreVidStep s = .next u) : Sound u := by
  unfold execCoreVidStep at e
  dsimp only at e
  split at e
  · exact next_sound h e
  · refine next_sound ?_ e
    split
    · exact ite_sound (railSettled_sound ((ite_sound (reach_sound h) h).frame rfl rfl)) ((ite_sound (reach_sound h) h).frame rfl rfl)
    · exact (ite_sound (reach_sound h) h).frame rfl rfl

theorem execRestEnter_sound {lane s u} (h : Sound s) (e : execRestEnter lane s = .next u) : Sound u := by
  grind [execRestEnter, plainRow_sound, beginCmd_sound, sound_iff]

theorem execRestEntry_sound {s u} (h : Sound s) (e : execRestEntry s = .next u) : Sound u := by
  grind [execRestEntry, flushCaches_sound, replyDone_sound, sound_iff]

theorem execRestEntryWaitExpiry_sound {s u} (h : Sound s) (e : execRestEntryWaitExpiry s = .next u) : Sound u := by
  unfold execRestEntryWaitExpiry at e
  split at e
  · exact next_sound h e
  · split at e
    · exact next_sound h e
    · dsimp only at e
      refine next_sound ?_ e
      apply refuse_sound
      apply Sound.setGate
      exact reach_sound h

theorem execRestWake_sound {ev s u} (h : Sound s) (e : execRestWake ev s = .next u) : Sound u := by
  unfold execRestWake at e
  split at e
  · exact next_sound h e
  · split at e
    · exact next_sound (ite_sound (wakeUp_sound h) h) e
    · split at e
      · exact next_sound (ite_sound (abandonRest_sound h) h) e
      · exact next_sound h e

theorem execFwUpdateStage_sound {lane s u} (h : Sound s) (e : execFwUpdateStage lane s = .next u) : Sound u := by
  simp only [execFwUpdateStage] at e
  refine next_sound ?_ e
  exact plainRow_sound (fun _ => ite_sound (replyDone_sound (h.frame rfl rfl)) (ite_sound (replyDone_sound (free_sound (h.frame rfl rfl))) (refuse_sound (free_sound (h.frame rfl rfl))))) h

theorem execFwActivate_sound {lane s u} (h : Sound s) (e : execFwActivate lane s = .next u) : Sound u := by
  grind [execFwActivate, plainRow_sound, replyDone_sound, beginCmd_sound, sound_iff]

theorem serveHeld_sound {s n} (h : Sound s) : Sound (serveHeld s n) :=
  ite_sound (writeDoorbell_sound (setLane_sound h)) h

theorem payReply_sound {s n} (h : Sound s) : Sound (payReply s n) := by
  unfold payReply
  dsimp only
  split
  · exact finishCmd_sound (setLane_sound h)
  · exact h

theorem endRestart_sound {s} (h : Sound s) : Sound (endRestart s) := by
  simp only [endRestart]
  apply foldl_sound (fun _ _ h => serveHeld_sound h)
  have h1 := foldl_sound (l := (mkeys s.gate.lanes).map (fun i => BitVec.ofNat 6 i)) (fun t a => payReply_sound (s := t) (n := a))
    (h.setGate (g := { s.gate with restart := false }))
  split
  · exact replyDone_sound h1.setDev
  · exact h1

theorem gatehouseMismatch_sound {s} (h : Sound s) : Sound (gatehouseMismatch s) := by
  unfold gatehouseMismatch
  generalize recentTimes s s.gate.mismatches (mismatchWindow s 5) = ts
  have h1 := h.setGate (g := { s.gate with mismatches := ts })
  apply ite_sound
  · exact ite_sound h1.setGate (enterBelvedere_sound h1)
  · exact (recordFault_sound (awake_sound h1)).setGate

theorem pageReads_sound {a n s} (h : Sound s) : Sound (pageReads a n s).2 := by
  induction a generalizing n s with
  | zero => exact h
  | succ a ih =>
    unfold pageReads
    exact ih (laneRead_sound h)

theorem pageWrites_sound {a n s} (h : Sound s) : Sound (pageWrites a n s) := by
  induction a generalizing n s with
  | nil => exact h
  | cons v t ih => exact ih (laneWrite_sound h)

theorem mgmtTransfer_sound {s read off n ws} (h : Sound s) : Sound (mgmtTransfer s read off n ws) := by
  unfold mgmtTransfer
  apply ite_sound
  · apply ite_sound
    · split
      · next he => exact ((pageReads_sound h).snd he).frame rfl rfl
    · exact pageWrites_sound h
  · exact h

theorem execI3cPrivateTransfer_sound {read off n ws s u} (h : Sound s) (e : execI3cPrivateTransfer read off n ws s = .next u) : Sound u :=
  next_sound (mgmtTransfer_sound h) e

theorem execSpiFrame_sound {read off n ws s u} (h : Sound s) (e : execSpiFrame read off n ws s = .next u) : Sound u :=
  next_sound (mgmtTransfer_sound h) e

theorem execI3cSetdasa_sound {addr s u} (h : Sound s) (e : execI3cSetdasa addr s = .next u) : Sound u := by
  unfold execI3cSetdasa at e
  refine whenTrue_sound h ?_ e
  exact h.frame rfl rfl

theorem execI3cEntdaa_sound {addr s u} (h : Sound s) (e : execI3cEntdaa addr s = .next u) : Sound u := by
  unfold execI3cEntdaa at e
  refine whenTrue_sound h ?_ e
  exact h.frame rfl rfl

theorem execI3cEnec_sound {s u} (h : Sound s) (e : execI3cEnec s = .next u) : Sound u := by
  unfold execI3cEnec at e
  refine whenTrue_sound h ?_ e
  exact h.frame rfl rfl

/-! ### Machine/Cold -/

theorem fullReset_sound {s porst} : Sound (fullReset s porst) :=
  ⟨⟨fun k p h => by simp [fullReset, mget?] at h, fun k j p h => by simp [fullReset, mget?] at h, fun p h => by simp [fullReset] at h⟩,
    rfl⟩

/-- Reads of a map that a list of pairs was written to. -/
theorem mget?_foldl_mput {α : Type} {l : List (Nat × α)} {m : SMap α} {k : Nat} {v : α}
    (h : mget? (l.foldl (fun a p => mput a p.1 p.2) m) k = some v) : (k, v) ∈ l ∨ mget? m k = some v := by
  induction l generalizing m with
  | nil => exact .inr h
  | cons p l ih =>
    obtain hl | hm := ih h
    · exact .inl (List.mem_cons_of_mem _ hl)
    · by_cases hk : k = p.1
      · subst hk
        rw [mget?_mput_self] at hm
        cases hm
        exact .inl List.mem_cons_self
      · exact .inr (by rwa [mget?_mput_ne _ _ _ _ hk] at hm)

/-- The map loses spares, and only spares. -/
theorem MapUsable.dropSpares {m : CoreMap} (h : MapUsable m) (q : BitVec 7 → Bool) (r : BitVec 72) :
    MapUsable { m with spares := m.spares.filter q, retired := r } where
  mapped k p e := by
    obtain ⟨hp, hf, hs⟩ := h.mapped k p e
    exact ⟨hp, hf, fun hm => hs (List.mem_filter.mp hm).1⟩
  distinct := h.distinct
  spare p hp := h.spare p (List.mem_filter.mp hp).1

/-- A spare that is no spare any more may take a virtual core. -/
theorem MapUsable.useSpare {m : CoreMap} (h : MapUsable m) {p : BitVec 7} (hp : p ∈ m.spares) (k : Nat) (r : BitVec 72) :
    MapUsable { m with map := mput m.map k p, spares := m.spares.filter (fun q => q != p), retired := r } where
  mapped j q e := by
    by_cases hj : j = k
    · subst hj
      rw [mget?_mput_self] at e
      cases e
      exact ⟨(h.spare _ hp).1, (h.spare _ hp).2, by simp⟩
    · rw [mget?_mput_ne _ _ _ _ hj] at e
      obtain ⟨hq, hf, hs⟩ := h.mapped j q e
      exact ⟨hq, hf, fun hm => hs (List.mem_filter.mp hm).1⟩
  distinct i j q ei ej := by
    have free (i : Nat) : ¬ mget? m.map i = some p := fun e => (h.mapped i p e).2.2 hp
    by_cases hi : i = k <;> by_cases hj : j = k
    · exact hi.trans hj.symm
    · subst hi
      rw [mget?_mput_self] at ei
      rw [mget?_mput_ne _ _ _ _ hj] at ej
      cases ei
      exact absurd ej (free j)
    · subst hj
      rw [mget?_mput_self] at ej
      rw [mget?_mput_ne _ _ _ _ hi] at ei
      cases ej
      exact absurd ei (free i)
    · rw [mget?_mput_ne _ _ _ _ hi] at ei
      rw [mget?_mput_ne _ _ _ _ hj] at ej
      exact h.distinct i j q ei ej
  spare q hq := h.spare q (List.mem_filter.mp hq).1

/-- A fold that keeps its value or takes an element ends with an element of the list. -/
theorem foldl_choose_mem {α : Type} {f : Option α → α → Option α} (hf : ∀ b a, f b a = some a ∨ f b a = b) {l : List α} {b : Option α} {x : α}
    (h : l.foldl f b = some x) : x ∈ l ∨ b = some x := by
  induction l generalizing b with
  | nil => exact .inr h
  | cons a l ih =>
    obtain hl | hb := ih h
    · exact .inl (List.mem_cons_of_mem _ hl)
    · obtain ha | ha := hf b a <;> rw [ha] at hb
      · cases hb
        exact .inl List.mem_cons_self
      · exact .inr hb

theorem chooseSpare_mem {m : CoreMap} {k : Nat} {p : BitVec 7} (h : chooseSpare m k = some p) : p ∈ m.spares := by
  refine (foldl_choose_mem (fun b a => ?_) h).resolve_right (by simp)
  cases b with
  | none => exact .inl rfl
  | some q => dsimp only; split <;> simp

theorem mapRest_usable {m : CoreMap} {vc : Nat} (h : MapUsable m) : MapUsable (mapRest m vc) := by
  unfold mapRest
  split
  · exact h
  · split
    · exact h
    · next e => exact h.useSpare (chooseSpare_mem e) vc m.retired

/-- What the clusters below `n` have given the map: virtual core v of cluster k stands on its v-th usable core, and the core after the mapped ones is the spare. -/
structure ClustersMapped (m : CoreMap) (n : Nat) : Prop where
  mapped : ∀ k p, mget? m.map k = some p → ∃ c < n, ∃ i < vcPerCluster m.part, (usableIn m c)[i]? = some p ∧ k = vcPerCluster m.part * c + i
  spare : ∀ p ∈ m.spares, ∃ c < n, (usableIn m c)[vcPerCluster m.part]? = some p

theorem mapCluster_mapped {m : CoreMap} {n : Nat} (h : ClustersMapped m n) : ClustersMapped (mapCluster m n) (n + 1) where
  mapped k p e := by
    obtain hl | hm := mget?_foldl_mput e
    · obtain ⟨⟨q, i⟩, hq, hk⟩ := List.mem_map.mp hl
      cases hk
      rw [List.mem_zipIdx_iff_getElem?, List.getElem?_take] at hq
      split at hq
      · next hi => exact ⟨n, by omega, i, hi, hq, rfl⟩
      · cases hq
    · obtain ⟨c, hc, hi⟩ := h.mapped k p hm
      exact ⟨c, by omega, hi⟩
  spare p hp := by
    obtain hp | hp := List.mem_append.mp hp
    · obtain ⟨c, hc, hi⟩ := h.spare p hp
      exact ⟨c, by omega, hi⟩
    · obtain ⟨i, hi⟩ := List.mem_iff_getElem?.mp hp
      rw [List.getElem?_take, List.getElem?_drop] at hi
      split at hi
      · next h0 =>
        obtain rfl : i = 0 := by omega
        exact ⟨n, by omega, hi⟩
      · cases hi

theorem mem_usableIn {m : CoreMap} {c : Nat} {p : BitVec 7} (hc : c < 8) (h : p ∈ usableIn m c) :
    p.toNat / 9 = c ∧ p.toNat < 72 ∧ m.fused.getLsbD p.toNat = false := by
  simp only [usableIn, coresIn, List.mem_filter, List.mem_map, List.mem_range] at h
  obtain ⟨⟨i, hi, rfl⟩, hu⟩ := h
  have e : (BitVec.ofNat 7 (9 * c + i)).toNat = 9 * c + i := by
    rw [BitVec.toNat_ofNat, Nat.mod_eq_of_lt (by omega)]
  simp only [Bool.and_eq_true, Bool.not_eq_true'] at hu
  exact ⟨by omega, by omega, hu.1⟩

theorem usableIn_nodup (m : CoreMap) {c : Nat} (hc : c < 8) : (usableIn m c).Nodup := by
  refine List.Nodup.filter _ (List.Nodup.map_on ?_ List.nodup_range)
  intro i hi j hj e
  rw [List.mem_range] at hi hj
  have := congrArg BitVec.toNat e
  rw [BitVec.toNat_ofNat, BitVec.toNat_ofNat, Nat.mod_eq_of_lt (by omega), Nat.mod_eq_of_lt (by omega)] at this
  omega

/-- A usable core stands at one place of one cluster. -/
theorem usableIn_place {m : CoreMap} {c d i j : Nat} {p : BitVec 7} (hc : c < 8) (hd : d < 8)
    (hi : (usableIn m c)[i]? = some p) (hj : (usableIn m d)[j]? = some p) : c = d ∧ i = j := by
  obtain rfl : c = d := (mem_usableIn hc (List.mem_of_getElem? hi)).1.symm.trans (mem_usableIn hd (List.mem_of_getElem? hj)).1
  obtain ⟨hl, _⟩ := List.getElem?_eq_some_iff.mp hi
  exact ⟨rfl, (List.getElem?_inj hl (usableIn_nodup m hc)).mp (hi.trans hj.symm)⟩

theorem ClustersMapped.usable {m : CoreMap} (h : ClustersMapped m 8) : MapUsable m where
  mapped k p e := by
    obtain ⟨c, hc, i, hi, hp, rfl⟩ := h.mapped k p e
    obtain ⟨-, hlt, hf⟩ := mem_usableIn hc (List.mem_of_getElem? hp)
    refine ⟨hlt, hf, fun hs => ?_⟩
    obtain ⟨d, hd, hq⟩ := h.spare p hs
    exact absurd (usableIn_place hc hd hp hq).2 (by omega)
  distinct k j p ek ej := by
    obtain ⟨c, hc, i, -, hp, rfl⟩ := h.mapped k p ek
    obtain ⟨d, hd, i', -, hq, rfl⟩ := h.mapped j p ej
    obtain ⟨rfl, rfl⟩ := usableIn_place hc hd hp hq
    rfl
  spare p hp := by
    obtain ⟨c, hc, hi⟩ := h.spare p hp
    exact (mem_usableIn hc (List.mem_of_getElem? hi)).2

/-- Clusters in turn, from an empty map on. -/
theorem clustersMapped_range {m : CoreMap} (hm : m.map = []) (hs : m.spares = []) (n : Nat) :
    ClustersMapped ((List.range n).foldl mapCluster m) n := by
  induction n with
  | zero => exact ⟨fun k p e => by simp [hm, mget?] at e, fun p hp => by simp [hs] at hp⟩
  | succ n ih =>
    rw [List.range_succ, List.foldl_append]
    exact mapCluster_mapped ih

theorem foldl_mapRest_usable {l : List Nat} {m : CoreMap} (h : MapUsable m) : MapUsable (l.foldl mapRest m) := by
  induction l generalizing m with
  | nil => exact h
  | cons v l ih => exact ih (mapRest_usable h)

/-- The map that COLD makes is usable (15 R569). -/
theorem buildMap_usable (part : Part) (fused retired : BitVec 72) : MapUsable (buildMap part fused retired) :=
  foldl_mapRest_usable (clustersMapped_range rfl rfl 8).usable

theorem dropSpare_sound {s p} (h : Sound s) : Sound (dropSpare s p) := by
  unfold dropSpare
  apply recordFault_sound
  exact ⟨h.map.dropSpares _ _, h.memory⟩

theorem reassignHt_sound {s k} (h : Sound s) : Sound (reassignHt s k) := by
  unfold reassignHt
  exact h.frame rfl rfl

theorem dropSlice_sound {s k} (h : Sound s) : Sound (dropSlice s k) := by
  unfold dropSlice
  exact recordFault_sound (setHome_sound (reassignHt_sound h))

theorem dropLink_sound {s i} (h : Sound s) : Sound (dropLink s i) := by
  unfold dropLink
  exact recordFault_sound (h.frame rfl rfl)

theorem retirePair_sound {s b} (h : Sound s) : Sound (retirePair s b) :=
  h.frame rfl rfl

theorem dropPair_sound {s b} (h : Sound s) : Sound (dropPair s b) :=
  ite_sound (recordFault_sound (recordFault_sound (retirePair_sound h))) (recordFault_sound (retirePair_sound h))

theorem coldFails_sound {s g c} (h : Sound s) : Sound (coldFails s g c) :=
  ite_sound (h.frame rfl rfl) h

theorem memFails_sound {s c off} (h : Sound s) : Sound (memFails s c off) := by
  unfold memFails
  split
  · next he => exact ite_sound ((coldFails_sound ((free_sound h).snd he)).frame rfl rfl) (coldFails_sound ((free_sound h).snd he))

theorem setMemory_sound {s h1 misfit} (h : Sound s) : Sound (setMemory s h1 misfit) := by
  unfold setMemory
  split
  · exact memFails_sound h
  · apply ite_sound
    · dsimp only
      split
      · exact h.cells rfl rfl
      · exact memFails_sound (h.cells rfl rfl)
    · exact memFails_sound h

theorem setTraining_sound {s bad} (h : Sound s) : Sound (setTraining s bad) := by
  have h1 := foldl_sound (l := clustersOf bad) (fun t a h => recordFault_sound (s := t) (e1 := { cls := 0x28, action := 0x0B, ukind := 6, uindex := a }) (vc := none) h) h
  simp only [setTraining]
  split
  · exact h1
  · exact h1.cells rfl rfl
  · exact coldFails_sound h1

theorem coldTests_sound {s b} (h : Sound s) : Sound (coldTests s b) :=
  setTraining_sound (coldFails_sound (coldFails_sound (coldFails_sound (foldl_sound (fun _ _ h1 => dropPair_sound h1) (foldl_sound (fun _ _ h1 => dropPair_sound h1) (foldl_sound (fun _ _ h1 => dropLink_sound h1) (foldl_sound (fun _ _ h1 => dropSlice_sound h1) (foldl_sound (fun _ _ h1 => dropSpare_sound h1) h))))))))

theorem setRights_sound {s h1} (h : Sound s) : Sound (setRights s h1) :=
  foldl_sound (fun _ _ h1 => setLane_sound h1) h

theorem readLogs_sound {s} (h : Sound s) : Sound (readLogs s) := by
  unfold readLogs
  exact h.frame rfl rfl

theorem holdCold_sound {s} (h : Sound s) : Sound (holdCold s) := by
  unfold holdCold
  dsimp only
  apply Sound.setDev
  exact setLane_sound h

theorem beginCold_sound {s b} (h : Sound s) : Sound (beginCold s b) := by
  unfold beginCold
  dsimp only
  apply Sound.setDev
  exact readLogs_sound (h.frame rfl rfl)

theorem loadSafety_sound {s h1} (h : Sound s) : Sound (loadSafety s h1) :=
  h.frame rfl rfl

theorem runFirmware_sound {s b} (h : Sound s) : Sound (runFirmware s b) := by
  unfold runFirmware
  split
  · exact holdCold_sound h
  · have hm := buildMap_usable s.cmap.part b.fused s.flash.retired
    exact setLane_sound (setRights_sound (loadSafety_sound (coldTests_sound (setMemory_sound ⟨hm, h.memory⟩))))

theorem execQuartzPllLock_sound {s u} (h : Sound s) (e : execQuartzPllLock s = .next u) : Sound u := by
  unfold execQuartzPllLock at e
  dsimp only at e
  refine whenTrue_sound h ?_ e
  split
  · exact ite_sound (runFirmware_sound (h.frame rfl rfl)) (h.frame rfl rfl)
  · exact h.frame rfl rfl

theorem restartCold_sound {s} (h : Sound s) : Sound (restartCold s) := by
  grind [restartCold, fullReset_sound, sound_iff]

theorem coldMismatch_sound {s} (h : Sound s) : Sound (coldMismatch s) := by
  unfold coldMismatch
  exact recordFault_sound (ite_sound (holdCold_sound (restartCold_sound h)) (restartCold_sound h))

theorem execGatehouseRestart_sound {s u} (h : Sound s) (e : execGatehouseRestart s = .next u) : Sound u := by
  unfold execGatehouseRestart at e
  split at e
  · exact next_sound h e
  · split at e
    · exact next_sound (endRestart_sound h) e
    · split at e
      · exact next_sound (ite_sound (coldMismatch_sound h) h) e
      · exact next_sound (gatehouseMismatch_sound h) e

theorem execPorstNAssert_sound {s u} (h : Sound s) (e : execPorstNAssert s = .next u) : Sound u := by
  grind [execPorstNAssert, fullReset_sound]

theorem execPorstNRelease_sound {boot s u} (h : Sound s) (e : execPorstNRelease boot s = .next u) : Sound u := by
  unfold execPorstNRelease at e
  split at e
  · dsimp only at e
    refine next_sound ?_ e
    exact ite_sound (beginCold_sound (h.frame rfl rfl)) (h.frame rfl rfl)
  · exact next_sound h e

theorem execDeviceResetEffect_sound {boot s u} (h : Sound s) (e : execDeviceResetEffect boot s = .next u) : Sound u := by
  grind [execDeviceResetEffect, fullReset_sound, reach_sound, beginCold_sound]

theorem io18Levels_sound {s0} (h : Sound s0) : Sound (io18Levels s0) :=
  ite_sound ((h.frame rfl rfl).frame rfl rfl) ((h.frame rfl rfl).frame rfl rfl)

theorem execVddIo18Up_sound {s u} (h : Sound s) (e : execVddIo18Up s = .next u) : Sound u := by
  unfold execVddIo18Up at e
  split at e
  · exact next_sound h e
  · refine next_sound ?_ e
    exact io18Levels_sound (h.frame rfl rfl)

theorem execSupplyInRange_sound {rail boot s u} (h : Sound s) (e : execSupplyInRange rail boot s = .next u) : Sound u := by
  unfold execSupplyInRange at e
  dsimp only at e
  split at e
  · split at e
    · refine next_sound ?_ e
      exact beginCold_sound (h.frame rfl rfl)
    · refine next_sound ?_ e
      exact h.frame rfl rfl
  · split at e
    · split at e
      · refine next_sound ?_ e
        exact beginCold_sound (io18Levels_sound (h.frame rfl rfl))
      · refine next_sound ?_ e
        exact io18Levels_sound (h.frame rfl rfl)
    · split at e
      · refine next_sound ?_ e
        exact beginCold_sound (h.frame rfl rfl)
      · refine next_sound ?_ e
        exact h.frame rfl rfl

theorem assignLoad_sound {s} (h : Sound s) : Sound (assignLoad s) := by
  unfold assignLoad
  split
  · exact h.frame rfl rfl

theorem execAssemblyEntry_sound {s u} (h : Sound s) (e : execAssemblyEntry s = .next u) : Sound u := by
  have h1 := startCopy_sound (startFill_sound (assignLoad_sound h))
  unfold execAssemblyEntry at e
  split at e
  · exact next_sound h e
  · split at e
    · refine next_sound ?_ e
      dsimp only
      generalize startCopy (startFill (assignLoad s)) = t at h1
      have h2 := h1.setDev (d := { t.dev with mode := .assembly, coldRun := false, boot := none })
      split
      · exact h2
      · split
        · exact enterBelvedere_sound h2
        · exact enterBelvedere_sound (openUnit_sound h2)
    · exact next_sound h e

theorem copyLines_sound {m off pa n k s} (h : Sound s) : Sound (copyLines m off pa n k s) := by
  induction n generalizing off pa k s with
  | zero => exact h
  | succ n ih =>
    unfold copyLines
    exact ih (ite_sound h (deviceWrite_sound h))

theorem execHypervisorCopy_sound {shaOk s u} (h : Sound s) (e : execHypervisorCopy shaOk s = .next u) : Sound u := by
  grind [execHypervisorCopy, copyLines_sound, logEventOnly_sound, startService_sound, refuse_sound, sound_iff]

/-! ### Machine/CoreAlu -/

theorem shortOp_sound {s vc rd v cf} (h : Sound s) : Sound (shortOp s vc rd v cf) :=
  executed_sound h

theorem longOp_sound {s vc t evs u} (h : Sound s) (e : longOp s vc t evs = some u) : Sound u := by
  unfold longOp at e
  obtain ⟨_, hm, rfl⟩ := Option.map_eq_some_iff.mp e
  exact executed_sound (setCore_sound h)

theorem aluRun_sound {vc op s u} (h : Sound s) (e : aluRun vc op s = some u) : Sound u := by
  unfold aluRun at e
  dsimp only at e
  split at e
  · cases e
    exact shortOp_sound h
  · cases e
    exact shortOp_sound h
  · cases e

theorem execAluOp_sound {vc w1 s u} (h : Sound s) (e : execAluOp vc w1 s = .next u) : Sound u :=
  next_sound (instrRow_sound (fun _ _ _ h e => aluRun_sound h e) h) e

theorem alu2Run_sound {vc op s u} (h : Sound s) (e : alu2Run vc op s = some u) : Sound u := by
  unfold alu2Run at e
  dsimp only at e
  split at e
  · cases e
    exact shortOp_sound h
  · cases e
    exact shortOp_sound h
  · cases e

theorem execAlu2Op_sound {vc w1 s u} (h : Sound s) (e : execAlu2Op vc w1 s = .next u) : Sound u :=
  next_sound (instrRow_sound (fun _ _ _ h e => alu2Run_sound h e) h) e

theorem muldivRun_sound {vc op s u} (h : Sound s) (e : muldivRun vc op s = some u) : Sound u := by
  unfold muldivRun at e
  dsimp only at e
  split at e
  · exact longOp_sound h e
  · cases e

theorem execMuldivOp_sound {vc w1 s u} (h : Sound s) (e : execMuldivOp vc w1 s = .next u) : Sound u :=
  next_sound (instrRow_sound (fun _ _ _ h e => muldivRun_sound h e) h) e

theorem riRun_sound {vc op s u} (h : Sound s) (e : riRun vc op s = some u) : Sound u := by
  unfold riRun at e
  dsimp only at e
  split at e
  · cases e
    exact shortOp_sound h
  · cases e
    exact shortOp_sound h
  · cases e
    exact shortOp_sound h
  · cases e

theorem execRiIntegerOp_sound {vc w1 s u} (h : Sound s) (e : execRiIntegerOp vc w1 s = .next u) : Sound u :=
  next_sound (instrRow_sound (fun _ _ _ h e => riRun_sound h e) h) e

theorem fpRun_sound {vc op s u} (h : Sound s) (e : fpRun vc op s = some u) : Sound u := by
  unfold fpRun at e
  dsimp only at e
  split at e
  · exact longOp_sound h e
  · cases e

theorem execFpOp_sound {vc w1 s u} (h : Sound s) (e : execFpOp vc w1 s = .next u) : Sound u :=
  next_sound (instrRow_sound (fun _ _ _ h e => fpRun_sound h e) h) e

theorem fmaRun_sound {vc op s u} (h : Sound s) (e : fmaRun vc op s = some u) : Sound u := by
  unfold fmaRun at e
  dsimp only at e
  split at e
  · exact longOp_sound h e
  · cases e

theorem execFmaOp_sound {vc w1 s u} (h : Sound s) (e : execFmaOp vc w1 s = .next u) : Sound u :=
  next_sound (instrRow_sound (fun _ _ _ h e => fmaRun_sound h e) h) e

/-! ### Machine/CoreBranch -/

theorem branchTo_sound {s vc taken target u} (h : Sound s) (e : branchTo s vc taken target = some u) : Sound u := by
  unfold branchTo at e
  dsimp only at e
  split at e
  · exact raise_sound h e
  · cases e
    exact branchExec_sound h

theorem brRun_sound {vc op s u} (h : Sound s) (e : brRun vc op s = some u) : Sound u := by
  unfold brRun at e
  dsimp only at e
  split at e
  · exact branchTo_sound h e
  · cases e

theorem execBrCompare_sound {vc w1 s u} (h : Sound s) (e : execBrCompare vc w1 s = .next u) : Sound u :=
  next_sound (instrRow_sound (fun _ _ _ h e => brRun_sound h e) h) e

theorem briRun_sound {vc op s u} (h : Sound s) (e : briRun vc op s = some u) : Sound u := by
  unfold briRun at e
  dsimp only at e
  split at e
  · exact branchTo_sound h e
  · cases e

theorem execBri_sound {vc w1 s u} (h : Sound s) (e : execBri vc w1 s = .next u) : Sound u :=
  next_sound (instrRow_sound (fun _ _ _ h e => briRun_sound h e) h) e

theorem fbRun_sound {vc op s u} (h : Sound s) (e : fbRun vc op s = some u) : Sound u := by
  unfold fbRun at e
  dsimp only at e
  split at e
  · exact branchTo_sound h e
  · cases e

theorem execBrFlags_sound {vc w1 s u} (h : Sound s) (e : execBrFlags vc w1 s = .next u) : Sound u :=
  next_sound (instrRow_sound (fun _ _ _ h e => fbRun_sound h e) h) e

theorem jRun_sound {vc op s u} (h : Sound s) (e : jRun vc op s = some u) : Sound u := by
  unfold jRun at e
  dsimp only at e
  split at e
  · split at e
    · cases e
      exact executed_sound h
    · exact raise_sound h e
  · cases e

theorem execJ_sound {vc w1 s u} (h : Sound s) (e : execJ vc w1 s = .next u) : Sound u :=
  next_sound (instrRow_sound (fun _ _ _ h e => jRun_sound h e) h) e

theorem jrRun_sound {vc op s u} (h : Sound s) (e : jrRun vc op s = some u) : Sound u := by
  unfold jrRun at e
  dsimp only at e
  split at e
  · split at e
    · exact raise_sound h e
    · cases e
      exact executed_sound h
  · cases e

theorem execJr_sound {vc w1 s u} (h : Sound s) (e : execJr vc w1 s = .next u) : Sound u :=
  next_sound (instrRow_sound (fun _ _ _ h e => jrRun_sound h e) h) e

/-! ### Machine/FaultCore -/

theorem coreFault_sound {s vc k} (h : Sound s) : Sound (coreFault s vc k) := by
  unfold coreFault
  exact recordFault_sound (updCore_sound (rollbackCore_sound h))

theorem translatorFault_sound {s k} (h : Sound s) : Sound (translatorFault s k) := by
  simp only [translatorFault]
  apply recordFault_sound
  split
  · exact setCluster_sound h
  · exact foldl_sound (fun _ _ h => forgetReq_sound h) (setCluster_sound (setCluster_sound h))

theorem spineFault_sound {s} (h : Sound s) : Sound (spineFault s) :=
  recordFault_sound (h.frame rfl rfl)

theorem freeRegs_sound {a m s} (h : Sound s) : Sound (freeRegs a m s).2 := by
  induction a generalizing m s with
  | nil => exact h
  | cons r t ih =>
    unfold freeRegs
    exact ih (free_sound h)

theorem loseRegs_sound {s vc} (h : Sound s) : Sound (loseRegs s vc) := by
  unfold loseRegs
  split
  · next he =>
      split
      · next he2 =>
          split
          · next he3 =>
              split
              · next he4 =>
                  exact updCore_sound ((free_sound ((free_sound ((freeRegs_sound ((freeRegs_sound h).snd he)).snd he2)).snd he3)).snd he4)

theorem emptyL1d_sound {s vc} (h : Sound s) : Sound (emptyL1d s vc) :=
  setCluster_sound h

theorem retireSpare_sound {s vc p} (h : Sound s) : Sound (retireSpare s vc p) := by
  unfold retireSpare
  apply logEvent_sound
  exact ⟨h.map.dropSpares _ _, h.memory⟩

theorem failSpares_sound {s vc n} (h : Sound s) : Sound (failSpares s vc n) := by
  induction n generalizing s with
  | zero => exact h
  | succ n ih =>
    unfold failSpares
    split
    · exact ih (retireSpare_sound h)
    · exact h

theorem foldl_cmap {α : Type} {f : State → α → State} (hf : ∀ t a, (f t a).cmap = t.cmap) (l : List α) (s : State) :
    (l.foldl f s).cmap = s.cmap := by
  induction l generalizing s with
  | nil => rfl
  | cons a l ih => exact (ih _).trans (hf s a)

theorem sendT_cmap (s : State) (src : Agent) (cls : ClassId) (tag : BitVec 16) (m : Msg) : (sendT s src cls tag m).cmap = s.cmap := by
  obtain ⟨f, u, e⟩ := sendT_frame s src cls tag m
  rw [e]

theorem sendWb_cmap (s : State) (k : Nat) (l : LineNo) (x : L2Line) : (sendWb s k l x).cmap = s.cmap := by
  simp [sendWb, sendT_cmap]

theorem discardFill_cmap (vc : Vc) (s : State) (f : Fill) : (discardFill vc s f).cmap = s.cmap := by
  cases f with
  | l1d l => grind [discardFill, State.setL2_cmap]
  | l2 l => grind [discardFill, State.setL2_cmap, sendWb_cmap]
  | dtlb | l2tlb | walk | kept => rfl

theorem rollbackCore_cmap (s : State) (vc : Vc) : (rollbackCore s vc).cmap = s.cmap := by
  simp [rollbackCore, discardFills, foldl_cmap (discardFill_cmap vc)]

theorem dropRequests_cmap (s : State) (k : Nat) (f : XlateReq → Bool) : (dropRequests s k f).cmap = s.cmap := by
  simp [dropRequests, foldl_cmap (f := forgetReq) (fun _ _ => rfl)]

theorem emptyL1d_cmap (s : State) (vc : Vc) : (emptyL1d s vc).cmap = s.cmap := rfl

/-- A migration moves a virtual core to a core that was a spare (15 R459). -/
theorem migrate_sound {s vc new} (hn : new ∈ s.cmap.spares) (h : Sound s) : Sound (migrate s vc new) := by
  have h0 := emptyL1d_sound (vc := vc) (foldl_sound (l := List.range 8) (f := fun t k => dropRequests t k (fun r => r.vc == vc))
    (fun _ _ h => dropRequests_sound h) (rollbackCore_sound (vc := vc) h))
  have hc : (emptyL1d ((List.range 8).foldl (fun t k => dropRequests t k (fun r => r.vc == vc)) (rollbackCore s vc)) vc).cmap = s.cmap := by
    rw [emptyL1d_cmap, foldl_cmap (fun t k => dropRequests_cmap t k _), rollbackCore_cmap]
  simp only [migrate]
  generalize emptyL1d _ vc = t at h0 hc ⊢
  have h1 : ∀ f, Sound { t with cmap := moveMap t.cmap vc.toNat (s.pcOf vc) new, flash := f } :=
    fun _ => ⟨h0.map.useSpare (by rwa [hc]) _ _, h0.memory⟩
  apply recordFault_sound
  apply logEvent_sound
  apply ite_sound
  · exact emit_sound (updCore_sound (h1 _))
  · exact updCore_sound (h1 _)

theorem execCoreMigration_sound {vc obs s u} (h : Sound s) (e : execCoreMigration vc obs s = .next u) : Sound u := by
  have h0 := failSpares_sound (vc := vc) (n := obs.badSpares) (awake_sound h)
  simp only [execCoreMigration] at e
  split at e
  · refine next_sound ?_ e
    split
    · exact enterBelvedere_sound h0
    · next p hp =>
      have h1 := migrate_sound (vc := vc) (chooseSpare_mem hp) h0
      exact ite_sound h1 (lostOutcome_sound (loseRegs_sound h1))
  · exact next_sound h e

theorem dropLine_sound {s l} (h : Sound s) : Sound (dropLine s l) := by
  have h1 := foldl_sound (l := List.range 8) (f := fun t k => if (t.l2 k l).isSome then giveUp t k l else t)
    (fun _ _ h => ite_sound (giveUp_sound h) h) h
  simp only [dropLine]
  generalize List.foldl _ s _ = t at h1 ⊢
  exact setDir_sound (h1.cells rfl rfl)

theorem loseLine_sound {s l c} (h : Sound s) : Sound (loseLine s l c) :=
  lostLine_sound (dropLine_sound h)

theorem refetched_sound {s e1 vc} (h : Sound s) : Sound (refetched s e1 vc) :=
  recordFault_sound h

theorem l1dError_sound {s vc l} (h : Sound s) : Sound (l1dError s vc l) := by
  unfold l1dError
  dsimp only
  split
  · exact h
  · exact ite_sound (ite_sound (loseLine_sound h) (refetched_sound (ite_sound (specRollback_sound h) h))) h

theorem l2Error_sound {s k l} (h : Sound s) : Sound (l2Error s k l) := by
  unfold l2Error
  split
  · exact h
  · split
    · next he =>
        split
        · exact refetched_sound (ite_sound (rollbackReaders_sound ((openUnit_sound h).snd he)) (giveUp_sound ((openUnit_sound h).snd he)))
        · exact refetched_sound (ite_sound (rollbackReaders_sound ((openUnit_sound h).snd he)) (giveUp_sound ((openUnit_sound h).snd he)))
        · exact ite_sound (refetched_sound (rollbackReaders_sound ((openUnit_sound h).snd he))) (loseLine_sound ((openUnit_sound h).snd he))
        · exact ite_sound (refetched_sound (rollbackReaders_sound ((openUnit_sound h).snd he))) (loseLine_sound ((openUnit_sound h).snd he))

theorem dirError_sound {s h1 l} (h : Sound s) : Sound (dirError s h1 l) := by
  have h1 := foldl_sound (l := List.range 8) (f := fun t k => if (t.l2 k l).isSome then giveUp t k l else t)
    (fun _ _ h => ite_sound (giveUp_sound h) h) h
  simp only [dirError]
  apply recordFault_sound
  apply setDir_sound
  split
  · exact scPut_sound h1
  · exact h1

theorem scError_sound {s h1 l} (h : Sound s) : Sound (scError s h1 l) := by
  unfold scError
  dsimp only
  split
  · exact h
  · exact recordFault_sound (setHome_sound h)

theorem storeError_sound {s vc} (h : Sound s) : Sound (storeError s vc) :=
  recordFault_sound h

theorem retireHomeWay_sound {s h1 w1} (h : Sound s) : Sound (retireHomeWay s h1 w1) :=
  setHome_sound h

theorem retireL2Set_sound {k s i} (h : Sound s) : Sound (retireL2Set k s i) := by
  unfold retireL2Set
  split
  · next he =>
      split
      · exact ite_sound ((free_sound h).snd he) (evictLine_sound ((free_sound h).snd he))
      · exact (free_sound h).snd he

theorem execCacheWayRetire_sound {home k way s0 u} (h : Sound s0) (e : execCacheWayRetire home k way s0 = .next u) : Sound u := by
  have ha := awake_sound h
  simp only [execCacheWayRetire] at e
  split at e
  · split at e
    · exact next_sound (recordFault_sound (retireHomeWay_sound ha)) e
    · exact next_sound (recordFault_sound (setCluster_sound (openUnit_sound (foldl_sound (fun _ _ h => retireL2Set_sound h) ha)))) e
  · exact next_sound h e

/-! ### Machine/CoreMem -/

theorem xlateParts_sound {vc acc a b s} (h : Sound s) : Sound (xlateParts vc acc a b s).2 := by
  induction a generalizing b s with
  | nil => exact h
  | cons p t ih =>
    unfold xlateParts
    have h1 := xlate_sound (s := s) (vc := vc) (va := p.1) (acc := acc) (fetch := false) h
    generalize xlate s vc p.1 acc false = r at h1
    obtain ⟨_ | r, s1⟩ := r
    · exact h1
    · have h2 := ih (b := true) h1
      dsimp only
      generalize xlateParts vc acc t true s1 = q at h2
      obtain ⟨_ | ⟨ps, e⟩, s2⟩ := q
      · exact h2
      · cases r <;> exact h2

theorem accessParts_sound {s vc va n acc} (h : Sound s) : Sound (accessParts s vc va n acc).2 := by
  simp only [accessParts]
  split
  · next he => exact (xlateParts_sound h).snd he
  · next he =>
      apply snd_ite_sound
      · exact (xlateParts_sound h).snd he
      · split
        · exact (xlateParts_sound h).snd he
        · exact (xlateParts_sound h).snd he

theorem accessed_sound {α : Type} {s vc r u} {f : α → State → Option State} (hf : ∀ a t u, Sound t → f a t = some u → Sound u)
    (hr : Sound r.2) (e : accessed s vc r f = some u) : Sound u := by
  unfold accessed at e
  split at e
  · cases e
    exact hr
  · split at e
    · cases e
    · exact raise_sound hr e
    · exact hf _ _ _ hr e

theorem report_sound {s vc at_ pair} (h : Sound s) : Sound (report s vc at_ pair) := by
  unfold report
  dsimp only
  split
  · exact specRollback_sound h
  · split
    · exact updCore_sound (specRollback_sound h)
    · exact setCluster_sound (updCore_sound (specRollback_sound h))

/-- Every state in which an operation leaves the device is sound: the one in which it stands unexecuted, if it leaves one, and the one of its result. -/
def LeavesSound {α : Type} (done : α → Prop) : Except (Option State) α → Prop
  | .error none => True
  | .error (some t) => Sound t
  | .ok a => done a

theorem LeavesSound.error {α : Type} {done : α → Prop} {r : Except (Option State) α} {o : Option State} {u : State} (h : LeavesSound done r)
    (er : r = .error o) (e : o = some u) : Sound u := by
  subst er e
  exact h

theorem LeavesSound.ok {α : Type} {done : α → Prop} {r : Except (Option State) α} {a : α} (h : LeavesSound done r) (e : r = .ok a) :
    done a := by
  subst e
  exact h

theorem forward_sound {s vc pa n} (h : Sound s) : LeavesSound (fun _ => True) (forward s vc pa n) := by
  simp only [forward]
  split
  · trivial
  · split
    · trivial
    · split
      · exact report_sound h
      · exact setCore_sound h

theorem cachedRead_sound {s vc pa n} (h : Sound s) : LeavesSound (fun p => Sound p.2) (cachedRead s vc pa n) := by
  simp only [cachedRead]
  split
  · trivial
  · next s1 e =>
    have h1 := bringShared_sound h e
    split
    · exact h1
    · split
      · trivial
      · split
        · exact readLine_sound h1
        · exact readLine_sound h1

theorem uncachedRead_sound {s vc pa n} (h : Sound s) : LeavesSound (fun p => Sound p.2) (uncachedRead s vc pa n) := by
  simp only [uncachedRead]
  split
  · trivial
  · next e =>
    have h1 := agentRead_sound h e
    split
    · exact h1
    · exact h1

theorem loadPart_sound {s vc p} (h : Sound s) : LeavesSound (fun p => Sound p.2) (loadPart s vc p) := by
  unfold loadPart
  have hf := forward_sound (vc := vc) (pa := p.pa) (n := p.n) h
  split
  · next o e =>
    rw [e] at hf
    cases o <;> exact hf
  · exact h
  · split
    · exact uncachedRead_sound h
    · exact cachedRead_sound h

theorem loadParts_sound {vc ps s} (h : Sound s) : LeavesSound (fun p => Sound p.2) (loadParts vc ps s) := by
  induction ps generalizing s with
  | nil => exact h
  | cons p t ih =>
    unfold loadParts
    have h1 := loadPart_sound (vc := vc) (p := p) h
    generalize loadPart s vc p = r at h1
    obtain o | ⟨⟨v, e⟩, s1⟩ := r
    · cases o <;> exact h1
    · have h2 := ih h1
      dsimp only at h2 ⊢
      generalize loadParts vc t s1 = q at h2
      obtain o | ⟨⟨w, f⟩, s2⟩ := q
      · cases o <;> exact h2
      · exact h2

theorem waited_sound {s vc} (h : Sound s) : Sound (waited s vc).2 := by
  grind [waited, updCore_sound]

theorem deviceReady_sound {s vc} (h : Sound s) : LeavesSound Sound (deviceReady s vc) := by
  simp only [deviceReady]
  split
  · exact report_sound h
  · split
    · next e => exact drained_sound h e
    · trivial

theorem deviceLoad_sound {s vc w1 pa n u} (h : Sound s) (e : deviceLoad s vc w1 pa n = some u) : Sound u := by
  grind [deviceLoad, updCore_sound, finishWait_sound, agentRead_sound, arborAccess_sound, pcieAccess_sound, regLoad_sound, raise_sound, Option.map_eq_some_iff]

theorem orElse_sound {o : Option State} {s u : State} (ho : ∀ t, o = some t → Sound t) (hs : Sound s)
    (e : o.orElse (fun _ => some s) = some u) : Sound u := by
  cases o with
  | none =>
    cases e
    exact hs
  | some t => exact ho u e

theorem deviceAccess_sound {s vc rd fp sx w1 evs p u} (h : Sound s) (e : deviceAccess s vc rd fp sx w1 evs p = some u) : Sound u := by
  have hd := deviceReady_sound (vc := vc) h
  unfold deviceAccess at e
  split at e
  · next er => exact hd.error er e
  · next er =>
    split at e
    · exact deviceLoad_sound (hd.ok er) e
    · cases e
      exact hd.ok er

theorem checkLine_sound {s vc p err} (h : Sound s) : Sound (checkLine s vc p err) := by
  unfold checkLine
  apply ite_sound
  · split
    · exact h
    · exact recordCorrected_sound h
    · exact l1dError_sound h
  · exact h

theorem loadOp_sound {s vc w1 fn rd va err u} (h : Sound s) (e : loadOp s vc w1 fn rd va err = some u) : Sound u := by
  unfold loadOp at e
  refine accessed_sound (fun ps t u ht e => ?_) (accessParts_sound h) e
  dsimp only at e
  split at e
  · cases e
  · next p rest =>
    split at e
    · exact deviceAccess_sound ht e
    · have h2 := checkLine_sound (vc := vc) (p := p) (err := err) ht
      split at e
      · cases e
        exact h2
      · have h3 := loadParts_sound (vc := vc) (ps := p :: rest) h2
        split at e
        · next er => exact h3.error er e
        · next er => exact longOp_sound (waited_sound (h3.ok er)) e

theorem loadRun_sound {vc w1 err op s u} (h : Sound s) (e : loadRun vc w1 err op s = some u) : Sound u := by
  unfold loadRun at e
  dsimp only at e
  split at e
  · exact loadOp_sound h e
  · exact loadOp_sound h e
  · cases e

theorem execLoad_sound {vc w1 err s u} (h : Sound s) (e : execLoad vc w1 err s = .next u) : Sound u :=
  next_sound (instrRow_sound (fun _ _ _ h e => loadRun_sound h e) h) e

theorem deviceStore_sound {s vc pa n v u} (h : Sound s) (e : deviceStore s vc pa n v = some u) : Sound u := by
  unfold deviceStore at e
  dsimp only at e
  split at e
  · exact agentWrite_sound h e
  · exact agentWrite_sound h e
  · cases e
    exact arborAccess_sound (updCore_sound h)
  · cases e
    exact pcieAccess_sound (updCore_sound h)
  · cases e
    exact regStore_sound h

theorem storeExecuted_sound {s vc code a evs ends taken ind} (h : Sound s) : Sound (storeExecuted s vc code a evs ends taken ind) :=
  ite_sound (updCore_sound (commitCore_sound (executed_sound h))) (executed_sound h)

theorem storeOp_sound {s vc fn rd va u} (h : Sound s) (e : storeOp s vc fn rd va = some u) : Sound u := by
  unfold storeOp at e
  refine accessed_sound (fun ps t u ht e => ?_) (accessParts_sound h) e
  dsimp only at e
  split at e
  · cases e
  · split at e
    · have h2 := deviceReady_sound (vc := vc) ht
      split at e
      · next er => exact h2.error er e
      · next er =>
        split at e
        · obtain ⟨s3, e3, rfl⟩ := Option.map_eq_some_iff.mp e
          exact committedAlone_sound (deviceStore_sound (h2.ok er) e3)
        · cases e
          exact h2.ok er
    · split at e
      · cases e
      · obtain ⟨c, -, rfl⟩ := Option.map_eq_some_iff.mp e
        exact storeExecuted_sound (setCore_sound ht)

theorem storeRun_sound {vc op s u} (h : Sound s) (e : storeRun vc op s = some u) : Sound u := by
  unfold storeRun at e
  dsimp only at e
  split at e
  · exact storeOp_sound h e
  · exact storeOp_sound h e
  · cases e

theorem execStore_sound {vc w1 s u} (h : Sound s) (e : execStore vc w1 s = .next u) : Sound u :=
  next_sound (instrRow_sound (fun _ _ _ h e => storeRun_sound h e) h) e

theorem popStore_sound {s vc} (h : Sound s) : Sound (popStore s vc) :=
  updCore_sound h

theorem drainStore_sound {s vc e1 u} (h : Sound s) (e : drainStore s vc e1 = some u) : Sound u := by
  grind [drainStore, popStore_sound, agentWrite_sound, tryCmpAll_sound, writeLine_sound, Option.map_eq_some_iff]

theorem execStoreDrain_sound {vc s u} (h : Sound s) (e : execStoreDrain vc s = .next u) : Sound u := by
  unfold execStoreDrain at e
  split at e
  · exact next_sound h e
  · split at e
    · refine next_sound (getD_sound h fun t e1 => ?_) e
      obtain ⟨t, et, rfl⟩ := Option.map_eq_some_iff.mp e1
      exact advancePavs_sound (drainStore_sound h et)
    · exact next_sound h e

theorem atomDone_sound {s vc rd n old evs} (h : Sound s) : Sound (atomDone s vc rd n old evs) :=
  committedAlone_sound h

theorem atomCached_sound {s vc fn n pa opnd cmpv w u} (h : Sound s) (e : atomCached s vc fn n pa opnd cmpv = some (w, u)) : Sound u := by
  unfold atomCached at e
  dsimp only at e
  split at e
  · cases e
  · next he =>
      split at e
      · cases e
      · split at e
        · cases e
          exact readLine_sound (bringOwned_sound h he)
        · cases e
          exact writeLine_sound (bringOwned_sound h he)

theorem atomTarget_sound {s vc w1 fn n rd opnd cmpv p evs u} (h : Sound s) (e : atomTarget s vc w1 fn n rd opnd cmpv p evs = some u) : Sound u := by
  grind [atomTarget, updCore_sound, atomDone_sound, agentAtom_sound, atomCached_sound, raise_sound, arborAccess_sound, pcieAccess_sound, Option.map_eq_some_iff]

theorem atomRun_sound {vc w1 op s u} (h : Sound s) (e : atomRun vc w1 op s = some u) : Sound u := by
  unfold atomRun at e
  split at e
  · dsimp only at e
    split at e
    · exact raise_sound h e
    · refine accessed_sound (fun ps t u ht e => ?_) (accessParts_sound h) e
      split at e
      · next ed =>
        have h2 := drained_sound ht ed
        obtain ⟨-, e⟩ | ⟨-, e⟩ := ite_eq_iff.mp e
        · exact orElse_sound (fun _ e => atomTarget_sound h2 e) h2 e
        · cases e
          exact h2
      · cases e
  · cases e

theorem execAtomic_sound {vc w1 s u} (h : Sound s) (e : execAtomic vc w1 s = .next u) : Sound u :=
  next_sound (instrRow_sound (fun _ _ _ h e => atomRun_sound h e) h) e

/-! ### Machine/CoreCall -/

theorem frameParts_sound {vc acc vs s} (h : Sound s) : Sound (frameParts vc acc vs s).2 := by
  induction vs generalizing s with
  | nil => exact h
  | cons v t ih =>
    have h1 {r s1} (er : accessParts s vc v 8 acc = (r, s1)) : Sound s1 := (accessParts_sound h).snd er
    unfold frameParts
    split
    · next er => exact h1 er
    · next er =>
      split
      · next er2 => exact (ih (h1 er)).snd er2
      · next er2 => exact (ih (h1 er)).snd er2
      · next er2 => exact (ih (h1 er)).snd er2
    · next er =>
      split
      · next er2 => exact (ih (h1 er)).snd er2
      · next er2 => exact (ih (h1 er)).snd er2

theorem frameDevice_sound {vc l s u} (h : Sound s) (e : frameDevice vc l s = some u) : Sound u := by
  induction l generalizing s with
  | nil =>
    cases e
    exact h
  | cons x t ih =>
    obtain ⟨p, v⟩ := x
    unfold frameDevice at e
    dsimp only at e
    split at e
    · cases e
    · next s1 e1 =>
      refine ih ?_ e
      split at e1
      · exact deviceStore_sound h e1
      · exact agentWrite_sound h e1

theorem callPush_sound {s vc ra} (h : Sound s) : Sound (callPush s vc ra) :=
  ite_sound h (updCore_sound h)

theorem callOp_sound {s vc pm target bad ind u} (h : Sound s) (e : callOp s vc pm target bad ind = some u) : Sound u := by
  unfold callOp at e
  dsimp only at e
  split at e
  · exact raise_sound h e
  · split at e
    · exact raise_sound h e
    · refine accessed_sound (fun ps t u ht e => ?_) (frameParts_sound h) e
      split at e
      · have h2 := deviceReady_sound (vc := vc) ht
        split at e
        · next er => exact h2.error er e
        · next er =>
          split at e
          · obtain ⟨s3, e3, rfl⟩ := Option.map_eq_some_iff.mp e
            exact committedAlone_sound (frameDevice_sound (callPush_sound (h2.ok er)) e3)
          · cases e
            exact h2.ok er
      · split at e
        · cases e
        · obtain ⟨c, -, rfl⟩ := Option.map_eq_some_iff.mp e
          exact storeExecuted_sound (callPush_sound (setCore_sound ht))

theorem callRun_sound {vc op s u} (h : Sound s) (e : callRun vc op s = some u) : Sound u := by
  unfold callRun at e
  dsimp only at e
  split at e
  · exact callOp_sound h e
  · cases e

theorem execCall_sound {vc w1 s u} (h : Sound s) (e : execCall vc w1 s = .next u) : Sound u :=
  next_sound (instrRow_sound (fun _ _ _ h e => callRun_sound h e) h) e

theorem callrRun_sound {vc op s u} (h : Sound s) (e : callrRun vc op s = some u) : Sound u := by
  unfold callrRun at e
  dsimp only at e
  split at e
  · exact callOp_sound h e
  · cases e

theorem execCallr_sound {vc w1 s u} (h : Sound s) (e : execCallr vc w1 s = .next u) : Sound u :=
  next_sound (instrRow_sound (fun _ _ _ h e => callrRun_sound h e) h) e

theorem holdWord_sound {s vc i v} (h : Sound s) : Sound (holdWord s vc i v) :=
  updCore_sound h

theorem frameDevRead_sound {s vc i p} (h : Sound s) : LeavesSound (fun r => Sound r.2) (frameDevRead s vc i p) := by
  have hd := deviceReady_sound (vc := vc) h
  unfold frameDevRead
  split
  · exact h
  · split
    · next o er =>
      rw [er] at hd
      cases o <;> exact hd
    · next s1 er =>
      have h1 := hd.ok er
      dsimp only
      split
      · split
        · split
          · trivial
          · next e => exact holdWord_sound (agentRead_sound h1 e)
        · split
          · trivial
          · next e => exact holdWord_sound (agentRead_sound h1 e)
        · exact arborAccess_sound (updCore_sound h1)
        · exact pcieAccess_sound (updCore_sound h1)
        · split
          · next e => exact holdWord_sound (regLoad_sound h1 e)
          · trivial
      · exact h1

theorem frameRead_sound {s vc i p} (h : Sound s) : LeavesSound (fun r => Sound r.2) (frameRead s vc i p) := by
  unfold frameRead
  split
  · exact frameDevRead_sound h
  · have h1 := loadPart_sound (vc := vc) (p := p) h
    generalize loadPart s vc p = r at h1
    obtain o | ⟨⟨v, e⟩, s1⟩ := r
    · cases o <;> exact h1
    · exact h1

theorem frameReads_sound {vc l s} (h : Sound s) : LeavesSound (fun r => Sound r.2) (frameReads vc l s) := by
  induction l generalizing s with
  | nil => exact h
  | cons x t ih =>
    obtain ⟨i, p⟩ := x
    unfold frameReads
    have h1 := frameRead_sound (vc := vc) (i := i) (p := p) h
    generalize frameRead s vc i p = r at h1
    obtain o | ⟨⟨v, e⟩, s1⟩ := r
    · cases o <;> exact h1
    · have h2 := ih h1
      dsimp only at h2 ⊢
      generalize frameReads vc t s1 = q at h2
      obtain o | ⟨⟨w, f⟩, s2⟩ := q
      · cases o <;> exact h2
      · exact h2

theorem retAlone_sound {s vc a evs} (h : Sound s) : Sound (retAlone s vc a evs) :=
  committedAlone_sound (updCore_sound h)

theorem retRest_sound {s vc hd pm e0 u} (h : Sound s) (e : retRest s vc hd pm e0 = some u) : Sound u := by
  unfold retRest at e
  dsimp only at e
  refine accessed_sound (fun ps t u ht e => ?_) (frameParts_sound h) e
  have h2 := frameReads_sound (vc := vc) (l := ((0 :: (List.range (2 * (pairsOf pm).length)).map (· + 2)).zip (hd.take 1 ++ ps))) ht
  split at e
  · next er => exact h2.error er e
  · next er =>
    have h3 := h2.ok er
    dsimp only at e h3
    split at e
    · exact raise_sound h3 e
    · split at e
      · cases e
        exact retAlone_sound (waited_sound h3)
      · cases e
        exact retExec_sound (waited_sound h3)

theorem retRun_sound {vc op s u} (h : Sound s) (e : retRun vc op s = some u) : Sound u := by
  unfold retRun at e
  dsimp only at e
  split at e
  · split at e
    · exact raise_sound h e
    · refine accessed_sound (fun ps t u ht e => ?_) (frameParts_sound h) e
      split at e
      · next q =>
        have h2 := frameRead_sound (vc := vc) (i := 1) (p := q) ht
        split at e
        · next er => exact h2.error er e
        · next er => exact retRest_sound (h2.ok er) e
      · cases e
  · cases e

theorem execRet_sound {vc w1 s u} (h : Sound s) (e : execRet vc w1 s = .next u) : Sound u :=
  next_sound (instrRow_sound (fun _ _ _ h e => retRun_sound h e) h) e

/-! ### Machine/CoreSys -/

theorem sysBegins_sound {s vc run u} (hr : ∀ t u, Sound t → run t = some u → Sound u) (h : Sound s) (e : sysBegins s vc run = some u) :
    Sound u := by
  unfold sysBegins at e
  split at e
  · cases e
  · next ed =>
    have h1 := drained_sound h ed
    split at e
    · exact orElse_sound (fun _ e => hr _ _ h1 e) h1 e
    · cases e
      exact h1

theorem sysDone_sound {s vc a evs} (h : Sound s) : Sound (sysDone s vc a evs) :=
  updCore_sound (committedAlone_sound h)

theorem barrier_sound {s vc ready u} (h : Sound s) (e : barrier s vc ready = some u) : Sound u := by
  refine sysBegins_sound (fun t u ht e => ?_) h e
  split at e
  · cases e
    exact sysDone_sound ht
  · cases e

theorem syncRun_sound {vc op s u} (h : Sound s) (e : syncRun vc op s = some u) : Sound u := by
  unfold syncRun at e
  split at e
  · exact barrier_sound h e
  · cases e

theorem execSync_sound {vc w1 s u} (h : Sound s) (e : execSync vc w1 s = .next u) : Sound u :=
  next_sound (instrRow_sound (fun _ _ _ h e => syncRun_sound h e) h) e

theorem syncDRun_sound {vc op s u} (h : Sound s) (e : syncDRun vc op s = some u) : Sound u := by
  unfold syncDRun at e
  split at e
  · exact barrier_sound h e
  · cases e

theorem execSyncD_sound {vc w1 s u} (h : Sound s) (e : execSyncD vc w1 s = .next u) : Sound u :=
  next_sound (instrRow_sound (fun _ _ _ h e => syncDRun_sound h e) h) e

theorem syncTRun_sound {vc op s u} (h : Sound s) (e : syncTRun vc op s = some u) : Sound u := by
  unfold syncTRun at e
  split at e
  · exact barrier_sound h e
  · cases e

theorem execSyncT_sound {vc w1 s u} (h : Sound s) (e : execSyncT vc w1 s = .next u) : Sound u :=
  next_sound (instrRow_sound (fun _ _ _ h e => syncTRun_sound h e) h) e

theorem syncIRun_sound {vc op s u} (h : Sound s) (e : syncIRun vc op s = some u) : Sound u := by
  unfold syncIRun at e
  split at e
  · exact barrier_sound h e
  · cases e

theorem execSyncI_sound {vc w1 s u} (h : Sound s) (e : execSyncI vc w1 s = .next u) : Sound u :=
  next_sound (instrRow_sound (fun _ _ _ h e => syncIRun_sound h e) h) e

theorem suspend_sound {s vc} (h : Sound s) : Sound (suspend s vc) :=
  ite_sound (sysDone_sound h) (ite_sound (emit_sound (updCore_sound (sysDone_sound h))) (updCore_sound (sysDone_sound h)))

theorem wfeRun_sound {vc op s u} (h : Sound s) (e : wfeRun vc op s = some u) : Sound u := by
  unfold wfeRun at e
  split at e
  · obtain ⟨_, hm, rfl⟩ := Option.map_eq_some_iff.mp e
    exact suspend_sound (drained_sound h hm)
  · cases e

theorem execWfe_sound {vc w1 s u} (h : Sound s) (e : execWfe vc w1 s = .next u) : Sound u :=
  next_sound (instrRow_sound (fun _ _ _ h e => wfeRun_sound h e) h) e

theorem eretRun_sound {vc w1 op s u} (h : Sound s) (e : eretRun vc w1 op s = some u) : Sound u := by
  unfold eretRun at e
  split at e
  · split at e
    · exact raise_sound h e
    · refine sysBegins_sound (fun t u ht e => ?_) h e
      cases e
      exact advancePavs_sound (updCore_sound (committedAlone_sound ht))
  · cases e

theorem execEret_sound {vc w1 s u} (h : Sound s) (e : execEret vc w1 s = .next u) : Sound u :=
  next_sound (instrRow_sound (fun _ _ _ h e => eretRun_sound h e) h) e

theorem trapTo_sound {s vc cls code lvl u} (h : Sound s) (e : trapTo s vc cls code lvl = some u) : Sound u := by
  unfold trapTo at e
  split at e
  · cases e
  · refine sysBegins_sound (fun t u ht e => ?_) h e
    cases e
    exact advancePavs_sound (enterExc_sound (sysDone_sound (free_sound ht)))

theorem trapSRun_sound {vc w1 op s u} (h : Sound s) (e : trapSRun vc w1 op s = some u) : Sound u := by
  unfold trapSRun at e
  dsimp only at e
  split at e
  · split at e
    · exact raise_sound h e
    · exact trapTo_sound h e
  · cases e

theorem execTrapS_sound {vc w1 s u} (h : Sound s) (e : execTrapS vc w1 s = .next u) : Sound u :=
  next_sound (instrRow_sound (fun _ _ _ h e => trapSRun_sound h e) h) e

theorem trapHRun_sound {vc w1 op s u} (h : Sound s) (e : trapHRun vc w1 op s = some u) : Sound u := by
  unfold trapHRun at e
  dsimp only at e
  split at e
  · split at e
    · exact raise_sound h e
    · exact trapTo_sound h e
  · cases e

theorem execTrapH_sound {vc w1 s u} (h : Sound s) (e : execTrapH vc w1 s = .next u) : Sound u :=
  next_sound (instrRow_sound (fun _ _ _ h e => trapHRun_sound h e) h) e

theorem trapBRun_sound {vc op s u} (h : Sound s) (e : trapBRun vc op s = some u) : Sound u := by
  unfold trapBRun at e
  split at e
  · exact trapTo_sound h e
  · cases e

theorem execTrapB_sound {vc w1 s u} (h : Sound s) (e : execTrapB vc w1 s = .next u) : Sound u :=
  next_sound (instrRow_sound (fun _ _ _ h e => trapBRun_sound h e) h) e

theorem mfsRun_sound {vc w1 op s u} (h : Sound s) (e : mfsRun vc w1 op s = some u) : Sound u := by
  unfold mfsRun at e
  split at e
  · split at e
    · exact raise_sound h e
    · refine sysBegins_sound (fun t u ht e => ?_) h e
      cases e
      exact sysDone_sound (updCore_sound ht)
  · cases e

theorem execMfs_sound {vc w1 s u} (h : Sound s) (e : execMfs vc w1 s = .next u) : Sound u :=
  next_sound (instrRow_sound (fun _ _ _ h e => mfsRun_sound h e) h) e

theorem vcpuWrite_sound {s vc v} (h : Sound s) : Sound (vcpuWrite s vc v) :=
  advancePavs_sound (sysDone_sound (ite_sound (ite_sound (loadLatch_sound (spillLatch_sound h)) (updCore_sound (spillLatch_sound h))) (spillLatch_sound h)))

theorem vmidWrite_sound {s vc v} (h : Sound s) : Sound (vmidWrite s vc v) :=
  advancePavs_sound (sysDone_sound (spillLatch_sound h))

theorem sysWrite_sound {s vc n v} (h : Sound s) : Sound (sysWrite s vc n v) :=
  ite_sound (vcpuWrite_sound h) (ite_sound (vmidWrite_sound h) (sysDone_sound (updCore_sound h)))

theorem mtsOp_sound {s vc w1 ra n u} (h : Sound s) (e : mtsOp s vc w1 ra n = some u) : Sound u := by
  unfold mtsOp at e
  split at e
  · exact raise_sound h e
  · refine sysBegins_sound (fun t u ht e => ?_) h e
    cases e
    exact sysWrite_sound ht

theorem mtsRun_sound {vc w1 op s u} (h : Sound s) (e : mtsRun vc w1 op s = some u) : Sound u := by
  unfold mtsRun at e
  split at e
  · exact mtsOp_sound h e
  · cases e

theorem execMts_sound {vc w1 s u} (h : Sound s) (e : execMts vc w1 s = .next u) : Sound u :=
  next_sound (instrRow_sound (fun _ _ _ h e => mtsRun_sound h e) h) e

theorem execVcpuHWrite_sound {vc w1 s u} (h : Sound s) (e : execVcpuHWrite vc w1 s = .next u) : Sound u :=
  next_sound (instrRow_sound (fun _ _ _ h e => mtsRun_sound h e) h) e

theorem execVmidHWrite_sound {vc w1 s u} (h : Sound s) (e : execVmidHWrite vc w1 s = .next u) : Sound u :=
  next_sound (instrRow_sound (fun _ _ _ h e => mtsRun_sound h e) h) e

theorem tlbiIssue_sound {s vc x u} (h : Sound s) (e : tlbiIssue s vc x = some u) : Sound u := by
  unfold tlbiIssue at e
  refine sysBegins_sound (fun t u ht e => ?_) h e
  obtain ⟨-, e⟩ | ⟨-, e⟩ := ite_eq_iff.mp e
  · have h1 := updCore_sound (f := fun c => { c with tlbis := c.tlbis ++ [x t] }) (vc := vc) (tlbiCore_sound (t := x t) (vc := vc) ht)
    rw [← Option.some.inj e]
    exact sysDone_sound h1
  · cases e

theorem tlbiOp_sound {s vc w1 hOnly t u} (h : Sound s) (e : tlbiOp s vc w1 hOnly t = some u) : Sound u := by
  unfold tlbiOp at e
  dsimp only at e
  split at e
  · exact tlbiIssue_sound h e
  · exact raise_sound h e

theorem tlbiVaRun_sound {vc w1 op s u} (h : Sound s) (e : tlbiVaRun vc w1 op s = some u) : Sound u := by
  unfold tlbiVaRun at e
  split at e
  · exact tlbiOp_sound h e
  · cases e

theorem execTlbiVa_sound {vc w1 s u} (h : Sound s) (e : execTlbiVa vc w1 s = .next u) : Sound u :=
  next_sound (instrRow_sound (fun _ _ _ h e => tlbiVaRun_sound h e) h) e

theorem tlbiVaaRun_sound {vc w1 op s u} (h : Sound s) (e : tlbiVaaRun vc w1 op s = some u) : Sound u := by
  unfold tlbiVaaRun at e
  split at e
  · exact tlbiOp_sound h e
  · cases e

theorem execTlbiVaa_sound {vc w1 s u} (h : Sound s) (e : execTlbiVaa vc w1 s = .next u) : Sound u :=
  next_sound (instrRow_sound (fun _ _ _ h e => tlbiVaaRun_sound h e) h) e

theorem tlbiAsidRun_sound {vc w1 op s u} (h : Sound s) (e : tlbiAsidRun vc w1 op s = some u) : Sound u := by
  unfold tlbiAsidRun at e
  split at e
  · exact tlbiOp_sound h e
  · cases e

theorem execTlbiAsid_sound {vc w1 s u} (h : Sound s) (e : execTlbiAsid vc w1 s = .next u) : Sound u :=
  next_sound (instrRow_sound (fun _ _ _ h e => tlbiAsidRun_sound h e) h) e

theorem tlbiIpaRun_sound {vc w1 op s u} (h : Sound s) (e : tlbiIpaRun vc w1 op s = some u) : Sound u := by
  unfold tlbiIpaRun at e
  split at e
  · exact tlbiOp_sound h e
  · cases e

theorem execTlbiIpa_sound {vc w1 s u} (h : Sound s) (e : execTlbiIpa vc w1 s = .next u) : Sound u :=
  next_sound (instrRow_sound (fun _ _ _ h e => tlbiIpaRun_sound h e) h) e

theorem tlbiVmidRun_sound {vc w1 op s u} (h : Sound s) (e : tlbiVmidRun vc w1 op s = some u) : Sound u := by
  unfold tlbiVmidRun at e
  split at e
  · exact tlbiOp_sound h e
  · cases e

theorem execTlbiVmid_sound {vc w1 s u} (h : Sound s) (e : execTlbiVmid vc w1 s = .next u) : Sound u :=
  next_sound (instrRow_sound (fun _ _ _ h e => tlbiVmidRun_sound h e) h) e

theorem tlbiAllRun_sound {vc w1 op s u} (h : Sound s) (e : tlbiAllRun vc w1 op s = some u) : Sound u := by
  unfold tlbiAllRun at e
  split at e
  · exact tlbiOp_sound h e
  · cases e

theorem execTlbiAll_sound {vc w1 s u} (h : Sound s) (e : execTlbiAll vc w1 s = .next u) : Sound u :=
  next_sound (instrRow_sound (fun _ _ _ h e => tlbiAllRun_sound h e) h) e

/-! ### Machine/CoreCtl -/

theorem execTicketComplete_sound {vc t s u} (h : Sound s) (e : execTicketComplete vc t s = .next u) : Sound u :=
  whenTrue_sound h (updCore_sound h) e

theorem execRegionCommit_sound {vc s u} (h : Sound s) (e : execRegionCommit vc s = .next u) : Sound u := by
  unfold execRegionCommit at e
  split at e
  · split at e
    · exact next_sound (commitCore_sound h) e
    · split at e
      · exact next_sound h e
      · exact next_sound (commitAt_sound h) e
  · exact next_sound h e

theorem execBranchMispredictUndo_sound {vc s u} (h : Sound s) (e : execBranchMispredictUndo vc s = .next u) : Sound u := by
  unfold execBranchMispredictUndo at e
  split at e
  · exact next_sound h e
  · exact whenTrue_sound h (updCore_sound (discardFills_sound h)) e

theorem enterAsync_sound {s vc x kind} (h : Sound s) : Sound (enterAsync s vc x kind) :=
  advancePavs_sound (enterExc_sound (ite_sound (endSuspend_sound (commitCore_sound h)) (commitCore_sound h)))

theorem enterIrq_sound {s vc id lvl} (h : Sound s) : Sound (enterIrq s vc id lvl) := by
  unfold enterIrq
  split
  · next he => exact enterAsync_sound ((free_sound h).snd he)

theorem takePhys_sound {s vc} (h : Sound s) : Sound (takePhys s vc) := by
  unfold takePhys
  split
  · next he => exact enterIrq_sound (updCore_sound ((free_sound h).snd he))

theorem takeVirt_sound {s vc} (h : Sound s) : Sound (takeVirt s vc) := by
  unfold takeVirt
  split
  · exact h
  · exact enterIrq_sound (updCore_sound h)

theorem execInterruptEntry_sound {vc s u} (h : Sound s) (e : execInterruptEntry vc s = .next u) : Sound u := by
  unfold execInterruptEntry at e
  dsimp only at e
  split at e
  · split at e
    · exact next_sound (takePhys_sound h) e
    · split at e
      · exact next_sound (takeVirt_sound h) e
      · exact next_sound h e
  · exact next_sound h e

theorem takeNoticeH_sound {s vc n} (h : Sound s) : Sound (takeNoticeH s vc n) :=
  enterAsync_sound (updCore_sound h)

theorem takeNoticeS_sound {s vc n} (h : Sound s) : Sound (takeNoticeS s vc n) :=
  enterAsync_sound (updCore_sound h)

theorem execNoticeEntry_sound {vc s u} (h : Sound s) (e : execNoticeEntry vc s = .next u) : Sound u := by
  unfold execNoticeEntry at e
  dsimp only at e
  split at e
  · refine next_sound ?_ e
    split
    · exact ite_sound (takeNoticeH_sound (free_sound h)) (takeNoticeS_sound (free_sound h))
    · exact takeNoticeH_sound h
    · exact takeNoticeS_sound h
    · exact h
  · exact next_sound h e

theorem execWfeReturnWithoutEvent_sound {vc s u} (h : Sound s) (e : execWfeReturnWithoutEvent vc s = .next u) : Sound u :=
  whenTrue_sound h (endSuspend_sound h) e

theorem execTlbiCompletion_sound {vc s u} (h : Sound s) (e : execTlbiCompletion vc s = .next u) : Sound u := by
  unfold execTlbiCompletion at e
  split at e
  · exact next_sound h e
  · dsimp only at e
    exact whenTrue_sound h (rewalkPhase_sound (tlbiEverywhere_sound (updCore_sound (drainInbound_sound h)))) e

theorem requestFor_sound {s vc h1 w u} (h : Sound s) (e : requestFor s vc h1 = some (w, u)) : Sound u := by
  unfold requestFor at e
  dsimp only at e
  split at e
  · next he =>
      split at e
      · cases e
        exact (xlate_sound h).snd he
      · cases e
  · cases e

theorem sendRequest_sound {s vc r} (h : Sound s) : Sound (sendRequest s vc r) := by
  unfold sendRequest
  dsimp only
  split
  · exact forgetReq_sound (queueEvent_sound h)
  · exact ite_sound (updCore_sound (setCluster_sound (queueEvent_sound h))) (forgetReq_sound (queueEvent_sound h))

theorem execTranslationRequest_sound {vc s u} (h : Sound s) (e : execTranslationRequest vc s = .next u) : Sound u := by
  unfold execTranslationRequest at e
  dsimp only at e
  split at e
  · split at e
    · exact next_sound h e
    · split at e
      · exact next_sound h e
      · next he => exact next_sound (sendRequest_sound (requestFor_sound h he)) e
  · exact next_sound h e

theorem regionFor_sound {s k r w u} (h : Sound s) (e : regionFor s k r = some (w, u)) : Sound u := by
  grind [regionFor, readCode_sound, Option.map_eq_some_iff]

theorem finishRegion_sound {s vc k r} (h : Sound s) : Sound (finishRegion s vc k r) := by
  unfold finishRegion
  split
  · exact h
  · next he =>
      exact ite_sound (forgetReq_sound (setCluster_sound (regionFor_sound h he))) (updCore_sound (setCluster_sound (regionFor_sound h he)))

theorem execRegionInstall_sound {vc s u} (h : Sound s) (e : execRegionInstall vc s = .next u) : Sound u := by
  unfold execRegionInstall at e
  dsimp only at e
  split at e
  · exact next_sound h e
  · split at e
    · split at e
      · exact next_sound (ite_sound (finishRegion_sound h) h) e
      · exact next_sound (ite_sound (finishRegion_sound h) (setCluster_sound h)) e
      · exact next_sound h e
    · exact next_sound h e

theorem idlePace_sound {s vc back why} (h : Sound s) : Sound (idlePace s vc back why) := by
  unfold idlePace
  dsimp only
  split
  · exact pmuPace_sound h
  · exact pmuEvent_sound (pmuPace_sound h)

theorem overflowPace_sound {s vc n} (h : Sound s) : Sound (overflowPace s vc n) := by
  unfold overflowPace
  split
  · exact ite_sound (idlePace_sound h) (ite_sound (idlePace_sound h) (idlePace_sound h))
  · exact idlePace_sound (free_sound h)

theorem execPmuCounterOverflow_sound {vc n s u} (h : Sound s) (e : execPmuCounterOverflow vc n s = .next u) : Sound u :=
  whenTrue_sound h (overflowPace_sound h) e

theorem execIllegalInstruction_sound {vc w1 s u} (h : Sound s) (e : execIllegalInstruction vc w1 s = .next u) : Sound u :=
  next_sound (instrRow_sound (fun _ _ _ h e => raise_sound h e) h) e

/-! ### Machine/FaultMem -/

theorem enterRepair_sound {s} (h : Sound s) : Sound (enterRepair s) :=
  ite_sound (h.frame rfl rfl) h

theorem chargeWrite_sound {s c} (h : Sound s) : Sound (chargeWrite s c) :=
  ite_sound h (setQos_sound h)

theorem wbDone_sound {s l v} (h : Sound s) : Sound (wbDone s l v) := by
  unfold wbDone
  dsimp only
  split
  · exact h
  · exact ite_sound (setWbuf_sound (setHome_sound h)) h

theorem replayWrite_sound {s l v} (h : Sound s) : Sound (replayWrite s l v) := by
  unfold replayWrite
  have h1 := countWrite_sound (l := l) (v := v) (c := wbClass (s.home (s.homeNo l)) l)
    (chargeWrite_sound (c := wbClass (s.home (s.homeNo l)) l) (uncoreEvent_sound (unit := 16 + s.stopOf (homeAgent (s.homeNo l)))
      (code := 1) (cls := wbClass (s.home (s.homeNo l)) l) h))
  exact wbDone_sound (h1.setDram (writeAfter_wf h1.memory))

theorem replayBuffers_sound {s} (h : Sound s) : Sound (replayBuffers s) :=
  foldl_sound (fun _ _ h1 => foldl_sound (fun _ _ h2 => replayWrite_sound h2) h1) h

theorem loseChannel_sound {s0 c} (h : Sound s0) : Sound (loseChannel s0 c) :=
  ite_sound (enterBelvedere_sound h) (enterRepair_sound (recordFault_sound (replayBuffers_sound ((meetCommits_sound (awake_sound h)).cells rfl rfl))))

theorem lossDue_sound {s c} (h : Sound s) : Sound (lossDue s c) :=
  ite_sound (ite_sound h (h.cells rfl rfl)) (loseChannel_sound h)

theorem takeLosses_sound {s} (h : Sound s) : Sound (takeLosses s) :=
  ite_sound h (foldl_sound (fun _ _ h0 => ite_sound (loseChannel_sound h0) h0) (h.cells rfl rfl))

theorem channelFault_sound {s c} (h : Sound s) : Sound (channelFault s c) :=
  ite_sound h (loseChannel_sound h)

theorem execChannelSwitchover_sound {c s u} (h : Sound s) (e : execChannelSwitchover c s = .next u) : Sound u :=
  whenTrue_sound h (channelFault_sound h) e

theorem burstCorrected_sound {s c dev} (h : Sound s) : Sound (burstCorrected s c dev) := by
  grind [burstCorrected, uncoreEvent_sound, recordCorrected_sound, unitState_sound, lossDue_sound, sound_iff]

theorem rebuildRow_wf {d : Dram} {k r : Nat} (h : d.wf) : (rebuildRow d k r).wf := by
  unfold rebuildRow
  split
  · exact putData_wf _ _ _ h
  · exact putSlot_wf _ _ _ h

theorem rebuiltRow_sound {s k r b} (h : Sound s) : Sound { s with dram := { rebuildRow s.dram k r with bursts := b } } :=
  (h.setDram (rebuildRow_wf h.memory)).cells rfl rfl

theorem burstLost_sound {s c r} (h : Sound s) : Sound (burstLost s c r) := by
  unfold burstLost
  apply ite_sound
  · exact enterBelvedere_sound h
  · apply ite_sound
    · apply lossDue_sound
      apply recordFault_sound
      exact rebuiltRow_sound (awake_sound h)
    · apply recordFault_sound
      exact rebuiltRow_sound (awake_sound h)

theorem burstResult_sound {s own b} (h : Sound s) : Sound (burstResult s own b) := by
  unfold burstResult
  dsimp only
  split
  · exact h
  · exact burstCorrected_sound h
  · exact burstLost_sound h

theorem execMrd_sound {line burst s u} (h : Sound s) (e : execMrd line burst s = .next u) : Sound u := by
  unfold execMrd at e
  split at e
  · exact next_sound h e
  · dsimp only at e
    split at e
    · exact next_sound h e
    · exact next_sound (ite_sound (burstResult_sound h) (onMrd_sound (arrive_sound (burstResult_sound h)))) e

/-- What follows a write that its home has counted: it goes to memory, or joins its row's group. -/
theorem mwrEnd_sound {s l v} (h : Sound s) : Sound (match s.dram.mode with
    | .open_ => wbDone { s with dram := dramWrite s.dram l.toNat v } l v
    | .parity => { s with dram := { s.dram with groups := joinGroup s.dram.groups l v } }) := by
  split
  · exact wbDone_sound (h.setDram (dramWrite_wf _ _ _ h.memory))
  · exact h.cells rfl rfl

theorem execMwr_sound {line s u} (h : Sound s) (e : execMwr line s = .next u) : Sound u := by
  revert e
  unfold execMwr
  extract_lets hm
  generalize mget? hm.wbuf line.toNat = o
  cases o with
  | none => exact fun e => next_sound h e
  | some v =>
    apply ite_next_sound
    · exact fun e => next_sound h e
    · exact fun e => next_sound (mwrEnd_sound (countWrite_sound (chargeWrite_sound (uncoreEvent_sound h)))) e

theorem serveGroup_sound {s r ws} (h : Sound s) : Sound (serveGroup s r ws) := by
  have h1 := h.setDram (d := writeGroup { s.dram with groups := mdel s.dram.groups r } r (ws.map (fun w => (w.1.toNat, w.2))))
    (writeGroup_wf _ _ _ h.memory)
  simp only [serveGroup]
  apply foldl_sound (fun _ _ h => wbDone_sound h)
  exact ite_sound (uncoreEvent_sound (uncoreEvent_sound h1)) h1

theorem execParityWriteGroup_sound {g s u} (h : Sound s) (e : execParityWriteGroup g s = .next u) : Sound u := by
  unfold execParityWriteGroup at e
  dsimp only at e
  split at e
  · exact next_sound h e
  · split at e
    · exact next_sound h e
    · exact next_sound (ite_sound (ite_sound (burstResult_sound h) h) (serveGroup_sound (ite_sound (burstResult_sound h) h))) e

theorem jtagLoad_sound {s code act dr drives highz} (h : Sound s) : Sound (jtagLoad s code act dr drives highz) :=
  h.frame rfl rfl

theorem dbgRead_sound {s c r} (h : Sound s) : Sound (dbgRead s c r) := by
  unfold dbgRead
  apply jtagLoad_sound
  exact free_sound h

theorem dbgWant_sound {s c r} (h : Sound s) : Sound (dbgWant s c r) :=
  h.frame rfl rfl

theorem dbgTake_sound {s} (h : Sound s) : Sound (dbgTake s) := by
  unfold dbgTake
  split
  · exact ite_sound (dbgRead_sound h) h
  · exact h

theorem execDramFill_sound {rows s u} (h : Sound s) (e : execDramFill rows s = .next u) : Sound u := by
  unfold execDramFill at e
  dsimp only at e
  refine whenTrue_sound h ?_ e
  exact dbgTake_sound (keepPump_sound (h.cells rfl rfl))

theorem execDramRefresh_sound {c hot s u} (h : Sound s) (e : execDramRefresh c hot s = .next u) : Sound u := by
  unfold execDramRefresh at e
  dsimp only at e
  refine whenTrue_sound h ?_ e
  exact h.cells rfl rfl

theorem execDqsDriftTrack_sound {c s u} (h : Sound s) (e : execDqsDriftTrack c s = .next u) : Sound u := by
  unfold execDqsDriftTrack at e
  refine whenTrue_sound h ?_ e
  exact h.cells rfl rfl

theorem repairParity_sound {s r} (h : Sound s) : Sound (repairParity s r) := by
  have h1 := free_sound h
  unfold repairParity
  apply recordFault_sound
  exact h1.setDram (putSlot_wf _ _ _ h1.memory)

theorem execDramScrub_sound {c burst s u} (h : Sound s) (e : execDramScrub c burst s = .next u) : Sound u := by
  simp only [execDramScrub] at e
  split at e
  · refine next_sound ?_ e
    generalize mput s.dram.scrub _ _ = m
    have h1 : Sound { s with dram := { s.dram with scrub := m } } := h.cells rfl rfl
    generalize ({ s with dram := { s.dram with scrub := m } } : State) = t at h1
    have h2 := burstResult_sound (own := { c := c.toNat, r := mget s.dram.scrub c.toNat 0 }) (b := burst) h1
    exact ite_sound (repairParity_sound h2) h2
  · exact next_sound h e

theorem execChannelRetrain_sound {c ok s u} (h : Sound s) (e : execChannelRetrain c ok s = .next u) : Sound u := by
  unfold execChannelRetrain at e
  dsimp only at e
  refine whenTrue_sound h ?_ e
  exact h.cells rfl rfl

theorem execChannelRebuildRow_sound {s u} (h : Sound s) (e : execChannelRebuildRow s = .next u) : Sound u := by
  unfold execChannelRebuildRow at e
  split at e
  · next k b _ _ =>
    split at e
    · have h1 := burstResult_sound (own := { c := k.toNat, r := b }) (b := Config.rebuildBurst s.fresh)
        (show Sound { s with fresh := s.fresh + 1 } from h.frame rfl rfl)
      dsimp only at e
      generalize burstResult _ _ _ = t at e h1
      split at e
      · exact next_sound h1 e
      · have h2 : Sound { t with dram := { rebuildRow t.dram k.toNat b with rebuild := some (b + 1) } } :=
          (h1.setDram (rebuildRow_wf h1.memory)).cells rfl rfl
        exact next_sound h2 e
    · exact next_sound h e
  · exact next_sound h e

theorem execChannelRebuildEnd_sound {s u} (h : Sound s) (e : execChannelRebuildEnd s = .next u) : Sound u := by
  unfold execChannelRebuildEnd at e
  split at e
  · split at e
    · refine next_sound ?_ e
      exact logEvent_sound (h.cells rfl rfl)
    · exact next_sound h e
  · exact next_sound h e

theorem rehomeLine_sound {k s l} (h : Sound s) : Sound (rehomeLine k s l) := by
  unfold rehomeLine
  split
  · exact h
  · exact ite_sound (scPut_sound (giveUp_sound h)) (giveUp_sound h)

theorem rehomeCluster_sound {mine s k} (h : Sound s) : Sound (rehomeCluster mine s k) :=
  setCluster_sound (foldl_sound (fun _ _ h1 => scPut_sound h1) (foldl_sound (fun _ _ h1 => rehomeLine_sound h1) h))

theorem sendAgain_sound {s r} (h : Sound s) : Sound (sendAgain s r) :=
  openReq_sound (setMshr_sound h)

theorem dropCode_sound {s} (h : Sound s) : Sound (dropCode s) :=
  foldl_sound (fun _ _ h1 => setHome_sound h1) (foldl_sound (fun _ _ h1 => dropRecent_sound (dropRequests_sound h1)) (foldl_sound (fun _ _ h1 => updCore_sound (dropRegions_sound (ite_sound (rollbackCore_sound h1) h1))) h))

theorem freeCode_sound {s} (h : Sound s) : Sound (freeCode s) :=
  foldl_sound (fun _ _ h1 => foldl_sound (fun _ _ h2 => pumpHome_sound (onCodeAnswer_sound h2)) h1) h

theorem replayMirror_sound {s p m} (h : Sound s) : Sound (replayMirror s p m) := by
  unfold replayMirror
  apply Sound.setDram
  · exact setHome_sound h
  · exact foldl_wf (fun _ _ h => writeAfter_wf h) h.memory

theorem newMirror_sound {s j} (h : Sound s) : Sound (newMirror s j) :=
  setHome_sound h

theorem rebuildSlice_sound {s0 k} (h : Sound s0) : Sound (rebuildSlice s0 k) := by
  have h1 := settleAll_sound (meetCommits_sound (awake_sound h))
  unfold rebuildSlice
  extract_lets s mine p mirror hm held retry nc s1 orphans s2 f s3 s4 s5 s6 s7
  have h2 : Sound s2 := foldl_sound (fun _ _ h => newMirror_sound h) (setHome_sound (reassignHt_sound (replayMirror_sound h1)))
  have h3 : Sound s3 := h2.setFab
  have h4 : Sound s4 := foldl_sound (fun _ _ h => rehomeCluster_sound h) h3
  have h6 : Sound s6 := foldl_sound (fun _ _ h => sendAgain_sound h) (freeCode_sound (dropCode_sound h4))
  have h7 : Sound s7 := foldl_sound (fun _ _ h => openReq_sound h) h6
  exact enterRepair_sound (recordFault_sound h7)

theorem sliceFault_sound {s k} (h : Sound s) : Sound (sliceFault s k) :=
  ite_sound h (ite_sound (enterBelvedere_sound h) (rebuildSlice_sound h))

theorem execHomeSliceRebuild_sound {k s u} (h : Sound s) (e : execHomeSliceRebuild k s = .next u) : Sound u :=
  whenTrue_sound h (sliceFault_sound h) e

theorem failLink_sound {s i} (h : Sound s) : Sound (failLink s i) := by
  unfold failLink
  dsimp only
  split
  · exact enterBelvedere_sound (recordFault_sound (h.frame rfl rfl))
  · exact recordFault_sound (h.frame rfl rfl)

theorem execFabricAckTimeout_sound {link stop s u} (h : Sound s) (e : execFabricAckTimeout link stop s = .next u) : Sound u := by
  unfold execFabricAckTimeout at e
  dsimp only at e
  split at e
  · refine next_sound ?_ e
    have h0 : ∀ o : Option FabMsg, Sound (match o with
      | some p => resend s stop.toNat p
      | none => s) := by
      rintro (_ | p)
      · exact h
      · exact resend_sound h
    have h1 := fun f => uncoreEvent_sound (unit := 16 + stop.toNat) (code := 5) (cls := devClass) ((h0 (keptOver s stop.toNat link.toNat)).setFab (f := f))
    exact ite_sound (h1 _).setFab (failLink_sound (h1 _))
  · exact next_sound h e

theorem execLinkRetest_sound {link ok s u} (h : Sound s) (e : execLinkRetest link ok s = .next u) : Sound u := by
  unfold execLinkRetest at e
  dsimp only at e
  split at e
  · refine next_sound ?_ e
    exact logEvent_sound (h.frame rfl rfl)
  · exact next_sound h e

theorem endDeferral_sound {s pn} (h : Sound s) : Sound (endDeferral s pn) := by
  simp only [endDeferral]
  apply ite_sound
  · refine foldl_sound (fun t v ht => ?_) (setPav_sound h)
    apply ite_sound ht
    split
    · exact clearPend_sound (foldl_sound (fun _ _ h => latchId_sound h) ht)
    · exact doorbell_sound ht
  · exact h

theorem releaseHeld_sound {rs used s} (h : Sound s) : Sound (releaseHeld rs used s) := by
  induction rs generalizing used s with
  | nil => exact h
  | cons r t ih =>
    unfold releaseHeld
    apply ite_sound
    · exact ih h.setFab
    · exact ih (sendM_sound h)

theorem closeEpoch_sound {s p} (h : Sound s) : Sound (closeEpoch s p) :=
  setQos_sound (ite_sound (setPav_sound h) h)

theorem execQosEpochStart_sound {s u} (h : Sound s) (e : execQosEpochStart s = .next u) : Sound u := by
  unfold execQosEpochStart at e
  extract_lets s1 s2 f s3 g s4 s5 at e
  have h2 : Sound s2 := foldl_sound (fun _ _ h => closeEpoch_sound h) (reach_sound h)
  have h3 : Sound s3 := h2.setFunnel
  have h4 : Sound s4 := releaseHeld_sound h3.setFab
  have h5 : Sound s5 := foldl_sound (fun _ _ h => endDeferral_sound h) h4
  exact whenTrue_sound h h5 e

theorem closeWindow_sound {s p} (h : Sound s) : Sound (closeWindow s p) :=
  setQos_sound (ite_sound (setPav_sound h) h)

theorem execArbTenureWindowStart_sound {s u} (h : Sound s) (e : execArbTenureWindowStart s = .next u) : Sound u :=
  whenTrue_sound h (foldl_sound (fun _ _ h1 => closeWindow_sound h1) (reach_sound h)) e

/-! ### Machine/FaultDev -/

theorem resumePort_sound {s} (h : Sound s) : Sound (resumePort s) :=
  ite_sound (startThreads_sound (endUnderWay_sound h)) (endUnderWay_sound h)

theorem arborMismatch_sound {s} (h : Sound s) : Sound (arborMismatch s) :=
  ite_sound (enterBelvedere_sound (h.frame rfl rfl)) (recordFault_sound (resumePort_sound (meetCommits_sound (awake_sound (h.frame rfl rfl)))))

theorem execArborMismatchRecovery_sound {s u} (h : Sound s) (e : execArborMismatchRecovery s = .next u) : Sound u :=
  whenTrue_sound h (arborMismatch_sound h) e

theorem setPairTimes_sound {s second ts} (h : Sound s) : Sound (setPairTimes s second ts) :=
  h.frame rfl rfl

theorem lastPair_sound {s b} (h : Sound s) : Sound (lastPair s b) :=
  ite_sound ((recordFault_sound h).frame rfl rfl) h

theorem pairMismatch_sound {s b} (h : Sound s) : Sound (pairMismatch s b) :=
  ite_sound h (ite_sound (lastPair_sound (recordFault_sound (retirePair_sound (awake_sound (setPairTimes_sound h))))) (recordFault_sound (awake_sound (setPairTimes_sound h))))

theorem execBelvederePairRestart_sound {b s u} (h : Sound s) (e : execBelvederePairRestart b s = .next u) : Sound u :=
  next_sound (pairMismatch_sound h) e

theorem execBelvedereEntry_sound {cause s u} (h : Sound s) (e : execBelvedereEntry cause s = .next u) : Sound u := by
  unfold execBelvedereEntry at e
  dsimp only at e
  split at e
  · exact next_sound (enterBelvedere_sound h) e
  · exact next_sound (enterBelvedere_sound h) e
  · exact next_sound (ite_sound (enterBelvedere_sound (openUnit_sound h)) h) e

theorem execGatehouseHeartbeatTimeout_sound {s u} (h : Sound s) (e : execGatehouseHeartbeatTimeout s = .next u) : Sound u := by
  unfold execGatehouseHeartbeatTimeout at e
  split at e
  · exact next_sound h e
  · exact next_sound (enterBelvedere_sound h) e

theorem supplyFault_sound {s} (h : Sound s) : Sound (supplyFault s) := by
  unfold supplyFault
  apply ite_sound
  · split
    · next he => exact enterBelvedere_sound ((openUnit_sound h).snd he)
  · exact h

theorem railDrop_sound {s r} (h : Sound s) : Sound (railDrop s r) :=
  h.frame rfl rfl

theorem safeUnpowered_sound {s} (h : Sound s) : Sound (safeUnpowered s) :=
  ite_sound h (h.frame rfl rfl)

theorem execRailOutOfRange_sound {rail s u} (h : Sound s) (e : execRailOutOfRange rail s = .next u) : Sound u := by
  grind [execRailOutOfRange, railDrop_sound, fullReset_sound, safeUnpowered_sound, supplyFault_sound]

theorem execRefclkLoss_sound {s u} (h : Sound s) (e : execRefclkLoss s = .next u) : Sound u := by
  grind [execRefclkLoss, fullReset_sound, supplyFault_sound, sound_iff]

theorem sample_sound {s i t} (h : Sound s) : Sound (sample s i t) := by
  unfold sample
  split
  · exact h.frame rfl rfl

theorem trip_sound {s} (h : Sound s) : Sound (trip s) :=
  h.frame rfl rfl

theorem execTjSensorSample_sound {i temp s u} (h : Sound s) (e : execTjSensorSample i temp s = .next u) : Sound u := by
  unfold execTjSensorSample at e
  split at e
  · exact next_sound h e
  · dsimp only at e
    split at e
    · exact next_sound (trip_sound (sample_sound h)) e
    · split at e
      · exact next_sound (supplyFault_sound (sample_sound h)) e
      · exact next_sound (sample_sound h) e

theorem execThermalTrip_sound {i temp s u} (h : Sound s) (e : execThermalTrip i temp s = .next u) : Sound u :=
  whenTrue_sound h (trip_sound (sample_sound h)) e

theorem scrubRecord_sound {s a action} (h : Sound s) : Sound (scrubRecord s a action).2 := by
  grind [scrubRecord, openUnit_sound, free_sound]

theorem scrubCorrected_sound {s a} (h : Sound s) : Sound (scrubCorrected s a) := by
  unfold scrubCorrected
  split
  · next he => exact recordCorrected_sound ((scrubRecord_sound h).snd he)

theorem stopError_sound {s n} (h : Sound s) : Sound (stopError s n) := by
  unfold stopError
  exact recordFault_sound (uncoreEvent_sound (h.frame rfl rfl))

theorem scrubUncorrectable_sound {s0 a} (h : Sound s0) : Sound (scrubUncorrectable s0 a) := by
  grind [scrubUncorrectable.eq_def, awake_sound, l1dError_sound, l2Error_sound, scError_sound, dirError_sound, storeError_sound, dropRegions_sound, recordFault_sound, coreFault_sound, stopError_sound, arborMismatch_sound, pairMismatch_sound, gatehouseMismatch_sound, scrubRecord_sound, sound_iff]

theorem islandFault_sound {i s} (h : Sound s) : Sound (islandFault i s) := by
  unfold islandFault
  split
  · exact ite_sound (coreFault_sound (awake_sound h)) h
  · exact ite_sound h (translatorFault_sound (awake_sound h))
  · exact ite_sound h (spineFault_sound (awake_sound h))
  · exact enterBelvedere_sound h
  · exact ite_sound h (sliceFault_sound h)
  · exact ite_sound h (channelFault_sound h)
  · exact ite_sound (ite_sound h (ite_sound (channelFault_sound (sliceFault_sound h)) (sliceFault_sound h))) (enterBelvedere_sound h)
  · exact ite_sound (arborMismatch_sound h) h
  · exact pairMismatch_sound h
  · exact ite_sound h (gatehouseMismatch_sound h)
  · split
    · next he => exact recordFault_sound ((scrubRecord_sound (awake_sound h)).snd he)

theorem execHandshakeWatchdogExpiry_sound {i s u} (h : Sound s) (e : execHandshakeWatchdogExpiry i s = .next u) : Sound u :=
  whenTrue_sound h (islandFault_sound h) e

theorem execPcieLaneRetrain_sound {port link width s0 u} (h : Sound s0) (e : execPcieLaneRetrain port link width s0 = .next u) : Sound u :=
  whenTrue_sound h (recordFault_sound (setLink_sound (awake_sound h))) e

theorem execPcieUpconfig_sound {port link up s u} (h : Sound s) (e : execPcieUpconfig port link up s = .next u) : Sound u :=
  whenTrue_sound h (logEvent_sound (setLink_sound h)) e

theorem execCacheScrub_sound {arr err s u} (h : Sound s) (e : execCacheScrub arr err s = .next u) : Sound u := by
  unfold execCacheScrub at e
  split at e
  · refine next_sound ?_ e
    split
    · exact h
    · exact scrubCorrected_sound h
    · exact scrubUncorrectable_sound h
  · exact next_sound h e

/-! ### Machine/FollyRun -/

/-- A FOLLY word's work in turn leaves its state sound when each part does. -/
theorem foldl_run_sound {α : Type} {f : FRun → α → FRun} {l : List α} {r : FRun} (hf : ∀ r a, Sound r.s → Sound (f r a).s) (h : Sound r.s) :
    Sound (l.foldl f r).s := by
  induction l generalizing r with
  | nil => exact h
  | cons a l ih => exact ih (hf r a h)

theorem flyPick_sound {r v l} (h : Sound (FRun.s r)) : Sound (flyPick r v l).2.s := by
  cases l with
  | nil => exact h
  | cons x l => exact free_sound h

theorem flyReadLoc_sound {c r x} (h : Sound (FRun.s r)) : Sound (flyReadLoc c r x).2.s := by
  unfold flyReadLoc
  split
  · exact h
  · exact flyPick_sound h

theorem flyRead_sound {c r u x} (h : Sound (FRun.s r)) : Sound (flyRead c r u x).2.s := by
  unfold flyRead
  split
  iterate 4 exact h
  exact flyReadLoc_sound h

theorem flyWrite_sound {r x v} (h : Sound (FRun.s r)) : Sound (flyWrite r x v).s := by
  cases x <;> exact h

theorem flyLand_sound {c r p} (h : Sound (FRun.s r)) : Sound (flyLand c r p).s := by
  have h1 := flyPick_sound (v := p.val) (l := [flyHeld c r p.loc]) h
  unfold flyLand
  split
  · exact flyWrite_sound h1
  · exact flyWrite_sound h

theorem flySettle_sound {c r p} (h : Sound (FRun.s r)) : Sound (flySettle c r p).s :=
  foldl_run_sound (fun _ _ h => flyLand_sound h) h

theorem flyAwait1_sound {c r t} (h : Sound (FRun.s r)) : Sound (flyAwait1 c r t).s := by
  unfold flyAwait1
  split
  · exact h
  · exact flySettle_sound h
  · exact flySettle_sound (free_sound h)

theorem flyAwait_sound {c r mask} (h : Sound (FRun.s r)) : Sound (flyAwait c r mask).s :=
  foldl_run_sound (fun _ _ h => flyAwait1_sound h) h

theorem flyDrain_sound {c n r} (h : Sound (FRun.s r)) : Sound (flyDrain c n r).s := by
  induction n generalizing r with
  | zero => exact h
  | succ n ih =>
    unfold flyDrain
    split
    · exact h
    · exact ih (flySettle_sound h)

theorem flyOperands_sound {c r w} (h : Sound (FRun.s r)) : Sound (flyOperands c r w).2.s := by
  have pick {b : Bool} {r : FRun} {x : W64} {q : W64 × FRun} (hq : Sound q.2.s) (hr : Sound r.s) : Sound (if b then q else (x, r)).2.s := by
    split <;> assumption
  simp only [flyOperands]
  split
  · exact h
  · split
    · exact h
    · have h1 := fun b u => pick (b := b) (x := 0) (flyRead_sound (c := c) (u := u) (x := u.srca) h) h
      have h2 := fun b b' u => pick (b := b') (x := 0) (flyRead_sound (c := c) (u := u) (x := u.srcb) (h1 b u)) (h1 b u)
      have h3 := fun b b' b'' u => pick (b := b'') (x := 0) (flyRead_sound (c := c) (u := u) (x := u.srcc) (h2 b b' u)) (h2 b b' u)
      exact pick (flyReadLoc_sound (h3 _ _ _ _)) (h3 _ _ _ _)

theorem flyOperandsAll_sound {c l r} (h : Sound (FRun.s r)) : Sound (flyOperandsAll c l r).2.s := by
  induction l generalizing r with
  | nil => exact h
  | cons w t ih =>
    unfold flyOperandsAll
    exact ih (flyOperands_sound h)

/-- The states in which a step of a FOLLY word leaves the device are sound (06 R182). -/
def FlyLeavesSound {α : Type} (done : α → Prop) : FStep α → Prop
  | .error (.wait (some t)) => Sound t
  | .error _ => True
  | .ok a => done a

theorem FlyLeavesSound.error {α β : Type} {done : α → Prop} {more : β → Prop} {r : FStep α} {o : FStop} (h : FlyLeavesSound done r)
    (er : r = .error o) : FlyLeavesSound more (.error o) := by
  subst er
  rcases o with _ | _ | _ <;> exact h

theorem FlyLeavesSound.ok {α : Type} {done : α → Prop} {r : FStep α} {a : α} (h : FlyLeavesSound done r) (er : r = .ok a) : done a := by
  subst er
  exact h

theorem flyLoadPart_sound {c s p} (hb : Sound (FWord.base c)) (h : Sound s) : FlyLeavesSound (fun r => Sound r.2) (flyLoadPart c s p) := by
  simp only [flyLoadPart]
  split
  · exact h
  · split
    · have h1 : LeavesSound (fun r => Sound r.2)
          (if p.mt == .normalNc || inKeep s p.pa then uncachedRead s c.vc p.pa p.n else cachedRead s c.vc p.pa p.n) := by
        split
        · exact uncachedRead_sound h
        · exact cachedRead_sound h
      split
      · next o er =>
        rw [er] at h1
        cases o <;> exact h1
      · next er =>
        have h2 := h1.ok er
        exact h2
    · exact updCore_sound hb

theorem flyLoadParts_sound {c ps s} (hb : Sound (FWord.base c)) (h : Sound s) : FlyLeavesSound (fun r => Sound r.2) (flyLoadParts c ps s) := by
  induction ps generalizing s with
  | nil => exact h
  | cons p t ih =>
    have h1 := flyLoadPart_sound (p := p) hb h
    unfold flyLoadParts
    split
    · next er => exact h1.error er
    · next s1 er =>
      have hs1 : Sound s1 := h1.ok er
      have h2 := ih hs1
      split
      · next er => exact h2.error er
      · next er =>
        have h3 := h2.ok er
        exact h3

theorem flyParts_sound {c s va n acc} (h : Sound s) : FlyLeavesSound (fun r => Sound r.2) (flyParts c s va n acc) := by
  have h1 {r s1} (er : accessParts s c.vc va n acc = (r, s1)) : Sound s1 := (accessParts_sound h).snd er
  unfold flyParts
  split
  · next er =>
    split
    · exact h1 er
    · split <;> trivial
  · next er =>
    split
    · exact h1 er
    · split
      · trivial
      · exact h1 er

theorem flyLoad_sound {c r fn o} (hb : Sound (FWord.base c)) (h : Sound (FRun.s r)) : FlyLeavesSound (fun q => Sound q.2.s) (flyLoad c r fn o) := by
  simp only [flyLoad]
  have h1 := flyParts_sound (c := c) (va := flyAddr o) (n := (ldForm fn).1) (acc := .read) h
  split
  · next er => exact h1.error er
  · next ps s1 er =>
    have hs1 : Sound s1 := h1.ok er
    have h2 := flyLoadParts_sound (ps := ps) hb hs1
    split
    · next er => exact h2.error er
    · next er =>
      have h3 := h2.ok er
      exact h3

theorem flyStore_sound {c r fn o} (h : Sound (FRun.s r)) : FlyLeavesSound (fun q => Sound q.s) (flyStore c r fn o) := by
  simp only [flyStore]
  have h1 := flyParts_sound (c := c) (va := flyAddr o) (n := (stForm fn).1) (acc := .write) h
  split
  · next er => exact h1.error er
  · next er =>
    split
    · trivial
    · split
      · trivial
      · exact setCore_sound (h1.ok er)

theorem flyShort_sound {c r q o v k} (h : Sound (FRun.s r)) : Sound (flyShort c r q o v k).1.s := by
  simp only [flyShort]
  split <;> exact h

theorem flyLong_sound {c r q o v k} (h : Sound (FRun.s r)) : Sound (flyLong c r q o v k).1.s := by
  simp only [flyLong]
  split <;> exact h

theorem flyOp_sound {c r q o} (hb : Sound (FWord.base c)) (h : Sound (FRun.s r)) : FlyLeavesSound (fun p => Sound p.1.s) (flyOp c r q o) := by
  unfold flyOp
  extract_lets target
  split
  case h_6 fn _ =>
    have h1 := flyLoad_sound (fn := fn) (o := o) hb h
    split
    · next er => exact h1.error er
    · next er => exact flyLong_sound (h1.ok er)
  case h_7 fn _ =>
    have h1 := flyStore_sound (c := c) (fn := fn) (o := o) h
    split
    · next er => exact h1.error er
    · next er => exact h1.ok er
  case h_5 | h_8 | h_9 => exact flyLong_sound h
  case h_10 | h_11 => exact h
  all_goals exact flyShort_sound h

theorem flyOps_sound {c l r q} (hb : Sound (FWord.base c)) (h : Sound (FRun.s r)) : FlyLeavesSound (fun p => Sound p.1.s) (flyOps c l r q) := by
  induction l generalizing r q with
  | nil => exact h
  | cons o t ih =>
    have h1 := flyOp_sound (q := q) (o := o) hb h
    unfold flyOps
    split
    · next er => exact h1.error er
    · next er => exact ih (h1.ok er)

theorem flyShort1_sound {l r x} (h : Sound (FRun.s r)) : Sound (flyShort1 l r x).s := by
  unfold flyShort1
  split
  · exact h
  · split
    · exact flyWrite_sound h
    · exact flyWrite_sound (flyPick_sound h)

theorem flyCourseEnd_sound {r q k} (h : Sound (FRun.s r)) : Sound (flyCourseEnd r q k).s :=
  foldl_run_sound (f := flyShort1 q.short) (fun _ _ h => flyShort1_sound h) h

theorem flyUndone_sound {c x q left r} (h : Sound (FRun.s r)) : Sound (flyUndone c x q left r).s := by
  unfold flyUndone
  split
  · exact free_sound h
  · exact h

theorem flyCourse_sound {c k left x r} (hb : Sound (FWord.base c)) (h : Sound (FRun.s r)) : FlyLeavesSound (fun p => Sound p.s) (flyCourse c k left x r) := by
  have h1 := flyOps_sound (c := c) (l := (flyOperandsAll c x.slots (flyAwait c r (crAwait x))).1) (q := {})
    (r := { (flyOperandsAll c x.slots (flyAwait c r (crAwait x))).2 with
      used := (flyOperandsAll c x.slots (flyAwait c r (crAwait x))).2.used + (flyOperandsAll c x.slots (flyAwait c r (crAwait x))).1.length })
    hb (flyOperandsAll_sound (flyAwait_sound h))
  simp only [flyCourse]
  split
  · next o er =>
    rw [er] at h1
    rcases o with _ | _ | _ <;> exact h1
  · next er => exact flyCourseEnd_sound (flyUndone_sound (h1.ok er))

theorem flyCourses_sound {c l k r} (hb : Sound (FWord.base c)) (h : Sound (FRun.s r)) : FlyLeavesSound (fun p => Sound p.s) (flyCourses c l k r) := by
  induction l generalizing k r with
  | nil => exact h
  | cons x t ih =>
    unfold flyCourses
    split
    · exact ih h
    · have h1 := flyCourse_sound (k := k) (left := t.length) (x := x) hb h
      split
      · next er => exact h1.error er
      · next er => exact ih (h1.ok er)

theorem flyFinish_sound {c r} (h : Sound (FRun.s r)) : Sound (flyFinish c r) := by
  have h4 {t : State} {old new vc} (ht : Sound t) : Sound (traceCtx (commitCore t vc) vc old new) := traceCtx_sound (commitCore_sound ht)
  simp only [flyFinish]
  split
  · exact updCore_sound (h4 (updCore_sound (executed_sound (waited_sound (updCore_sound h)))))
  · exact h4 (updCore_sound (executed_sound (waited_sound (updCore_sound h))))

theorem flyMark_sound {s vc} (h : Sound s) : Sound (flyMark s vc) :=
  updCore_sound h

theorem flyCheck_sound {s vc err} (h : Sound s) : Sound (flyCheck s vc err) := by
  unfold flyCheck
  split
  · exact h
  · exact recordCorrected_sound h
  · exact storeError_sound h

theorem flyRun_sound {s vc w1 rd ra rb imm7 img u} (h : Sound s) (e : flyRun s vc w1 rd ra rb imm7 img = some u) : Sound u := by
  have h0 := free_sound h
  simp only [flyRun] at e
  split at e
  · next er =>
    cases e
    exact flyFinish_sound (flyDrain_sound ((flyCourses_sound h0 (flyMark_sound h0)).ok er))
  · exact raise_sound (updCore_sound h0) e
  · next o er =>
    cases e
    exact (flyCourses_sound h0 (flyMark_sound h0)).error (β := Unit) (more := fun _ => True) er

theorem follyRun_sound {vc w1 err op s u} (h : Sound s) (e : follyRun vc w1 err op s = some u) : Sound u := by
  unfold follyRun at e
  split at e
  · dsimp only at e
    split at e
    · exact raise_sound h e
    · split at e
      · cases e
      · next ed =>
        have h1 := flyCheck_sound (vc := vc) (err := err) (drained_sound h ed)
        split at e
        · exact flyRun_sound h1 e
        · cases e
          exact h1
  · cases e

theorem execFolly_sound {vc w1 err s u} (h : Sound s) (e : execFolly vc w1 err s = .next u) : Sound u :=
  next_sound (instrRow_sound (fun _ _ _ h e => follyRun_sound h e) h) e

/-! ### Machine/Jtag -/

theorem jtagPass_sound {s code} (h : Sound s) : Sound (jtagPass s code) :=
  jtagLoad_sound h

theorem jtagBalls_sound {s code drives highz} (h : Sound s) : Sound (jtagBalls s code drives highz) :=
  ite_sound (jtagLoad_sound h) (jtagPass_sound h)

theorem execJtagIdcode_sound {s u} (h : Sound s) (e : execJtagIdcode s = .next u) : Sound u :=
  whenTrue_sound h (jtagLoad_sound h) e

theorem execJtagSamplePreload_sound {sample preload s u} (h : Sound s) (e : execJtagSamplePreload sample preload s = .next u) : Sound u := by
  grind [execJtagSamplePreload, whenTrue, jtagLoad_sound, whenTrue_sound, sound_iff]

theorem execJtagExtest_sound {s u} (h : Sound s) (e : execJtagExtest s = .next u) : Sound u :=
  whenTrue_sound h (jtagBalls_sound h) e

theorem execJtagClamp_sound {s u} (h : Sound s) (e : execJtagClamp s = .next u) : Sound u :=
  whenTrue_sound h (jtagBalls_sound h) e

theorem execJtagHighz_sound {s u} (h : Sound s) (e : execJtagHighz s = .next u) : Sound u :=
  whenTrue_sound h (jtagBalls_sound h) e

theorem execJtagExtestPulse_sound {s u} (h : Sound s) (e : execJtagExtestPulse s = .next u) : Sound u :=
  whenTrue_sound h (jtagBalls_sound h) e

theorem execJtagExtestTrain_sound {s u} (h : Sound s) (e : execJtagExtestTrain s = .next u) : Sound u :=
  whenTrue_sound h (jtagBalls_sound h) e

theorem dbgNone_sound {s} (h : Sound s) : Sound (dbgNone s) := by
  unfold dbgNone
  split
  · next he => exact jtagLoad_sound ((free_sound h).snd he)

theorem execJtagDbgMem_sound {c r s u} (h : Sound s) (e : execJtagDbgMem c r s = .next u) : Sound u :=
  whenTrue_sound h (ite_sound (ite_sound (dbgTake_sound (dbgWant_sound h)) (dbgNone_sound h)) (jtagPass_sound h)) e

theorem execJtagBypass_sound {code s u} (h : Sound s) (e : execJtagBypass code s = .next u) : Sound u :=
  whenTrue_sound h (jtagPass_sound h) e

theorem execTestLogicReset_sound {s u} (h : Sound s) (e : execTestLogicReset s = .next u) : Sound u :=
  whenTrue_sound h (jtagLoad_sound h) e

/-! ### Machine/Idle -/

theorem endRepair_sound {s} (h : Sound s) : Sound (endRepair s) :=
  ite_sound (h.frame rfl rfl) h

theorem drainLinks_sound {s} (h : Sound s) : Sound (drainLinks s) :=
  foldl_sound (fun _ _ h1 => foldl_sound (fun _ _ h2 => drainRx_sound (deliverHeld_sound h2)) h1) h

theorem idle_sound {s} (h : Sound s) : Sound (idle s) :=
  drainLinks_sound (drainInbound_sound (moveAll_sound (takeLosses_sound (endRepair_sound (quartzTick_sound h)))))

/-! ### Machine/Step -/

theorem withFetchWord_sound {s nbits w1} (h : Sound s) : Sound (State.withFetchWord s nbits w1) := by
  unfold State.withFetchWord
  split
  · exact h
  · exact h.frame rfl rfl

/-! ### The step -/

/-- Every command keeps the map usable and the memory canonical. -/
theorem exec_sound {c s u} (h : Sound s) (e : exec c s = .next u) : Sound u := by
  cases c with
  | aluOp => exact execAluOp_sound h e
  | alu2Op => exact execAlu2Op_sound h e
  | muldivOp => exact execMuldivOp_sound h e
  | riIntegerOp => exact execRiIntegerOp_sound h e
  | load => exact execLoad_sound h e
  | store => exact execStore_sound h e
  | atomic => exact execAtomic_sound h e
  | brCompare => exact execBrCompare_sound h e
  | bri => exact execBri_sound h e
  | brFlags => exact execBrFlags_sound h e
  | j => exact execJ_sound h e
  | call => exact execCall_sound h e
  | callr => exact execCallr_sound h e
  | jr => exact execJr_sound h e
  | ret => exact execRet_sound h e
  | fpOp => exact execFpOp_sound h e
  | fmaOp => exact execFmaOp_sound h e
  | folly => exact execFolly_sound h e
  | sync => exact execSync_sound h e
  | syncD => exact execSyncD_sound h e
  | syncT => exact execSyncT_sound h e
  | syncI => exact execSyncI_sound h e
  | wfe => exact execWfe_sound h e
  | eret => exact execEret_sound h e
  | trapS => exact execTrapS_sound h e
  | trapH => exact execTrapH_sound h e
  | trapB => exact execTrapB_sound h e
  | mfs => exact execMfs_sound h e
  | mts => exact execMts_sound h e
  | vcpuHWrite => exact execVcpuHWrite_sound h e
  | vmidHWrite => exact execVmidHWrite_sound h e
  | tlbiVa => exact execTlbiVa_sound h e
  | tlbiVaa => exact execTlbiVaa_sound h e
  | tlbiAsid => exact execTlbiAsid_sound h e
  | tlbiIpa => exact execTlbiIpa_sound h e
  | tlbiVmid => exact execTlbiVmid_sound h e
  | tlbiAll => exact execTlbiAll_sound h e
  | tlbiCompletion => exact execTlbiCompletion_sound h e
  | interruptEntry => exact execInterruptEntry_sound h e
  | noticeEntry => exact execNoticeEntry_sound h e
  | ticketComplete => exact execTicketComplete_sound h e
  | regionCommit => exact execRegionCommit_sound h e
  | branchMispredictUndo => exact execBranchMispredictUndo_sound h e
  | storeDrain => exact execStoreDrain_sound h e
  | translationRequest => exact execTranslationRequest_sound h e
  | regionInstall => exact execRegionInstall_sound h e
  | handshakeWatchdogExpiry => exact execHandshakeWatchdogExpiry_sound h e
  | coreMigration => exact execCoreMigration_sound h e
  | pmuCounterOverflow => exact execPmuCounterOverflow_sound h e
  | virqPost => exact execVirqPost_sound h e
  | virqSendWrite => exact execVirqSendWrite_sound h e
  | qosEpochStart => exact execQosEpochStart_sound h e
  | arbTenureWindowStart => exact execArbTenureWindowStart_sound h e
  | deviceInfo => exact execDeviceInfo_sound h e
  | modeSet => exact execModeSet_sound h e
  | deviceReset => exact execDeviceReset_sound h e
  | deviceResetEffect => exact execDeviceResetEffect_sound h e
  | voltageSet => exact execVoltageSet_sound h e
  | coreVidStep => exact execCoreVidStep_sound h e
  | restEnter => exact execRestEnter_sound h e
  | restEntry => exact execRestEntry_sound h e
  | restWake => exact execRestWake_sound h e
  | pavCreate => exact execPavCreate_sound h e
  | pavDestroy => exact execPavDestroy_sound h e
  | pavStart => exact execPavStart_sound h e
  | pavStop => exact execPavStop_sound h e
  | pavReset => exact execPavReset_sound h e
  | pavVcpuMap => exact execPavVcpuMap_sound h e
  | pavCtlSet => exact execPavCtlSet_sound h e
  | memAssign => exact execMemAssign_sound h e
  | memRelease => exact execMemRelease_sound h e
  | memParitySet => exact execMemParitySet_sound h e
  | keepRegionSet => exact execKeepRegionSet_sound h e
  | micaSet => exact execMicaSet_sound h e
  | arbProfileLoad => exact execArbProfileLoad_sound h e
  | sessionOpen => exact execSessionOpen_sound h e
  | sessionWindowSet => exact execSessionWindowSet_sound h e
  | sessionClose => exact execSessionClose_sound h e
  | sessionReset => exact execSessionReset_sound h e
  | arbRoleSet => exact execArbRoleSet_sound h e
  | qosMemSet => exact execQosMemSet_sound h e
  | qosCacheSet => exact execQosCacheSet_sound h e
  | qosArbSet => exact execQosArbSet_sound h e
  | qosIrqRateSet => exact execQosIrqRateSet_sound h e
  | irqRouteSet => exact execIrqRouteSet_sound h e
  | irqRouteClear => exact execIrqRouteClear_sound h e
  | logRead => exact execLogRead_sound h e
  | logClear => exact execLogClear_sound h e
  | faultPolicySet => exact execFaultPolicySet_sound h e
  | unitStatus => exact execUnitStatus_sound h e
  | follyLoad => exact execFollyLoad_sound h e
  | fwUpdateStage => exact execFwUpdateStage_sound h e
  | fwActivate => exact execFwActivate_sound h e
  | slateBegin => exact execSlateBegin_sound h e
  | slateCommit => exact execSlateCommit_sound h e
  | slateCommitInstant => exact execSlateCommitInstant_sound h e
  | slateRollback => exact execSlateRollback_sound h e
  | slateStatus => exact execSlateStatus_sound h e
  | slateIdleExpiry => exact execSlateIdleExpiry_sound h e
  | qzDisciplineSet => exact execQzDisciplineSet_sound h e
  | timerAlloc => exact execTimerAlloc_sound h e
  | pcieRoleSet => exact execPcieRoleSet_sound h e
  | pcieVfAssign => exact execPcieVfAssign_sound h e
  | traceConfig => exact execTraceConfig_sound h e
  | pmuUncoreConfig => exact execPmuUncoreConfig_sound h e
  | crTailDoorbell => exact execCrTailDoorbell_sound h e
  | ringEnWrite => exact execRingEnWrite_sound h e
  | ringCommandTake => exact execRingCommandTake_sound h e
  | mbDoorbellWrite => exact execMbDoorbellWrite_sound h e
  | mbStatRead => exact execMbStatRead_sound h e
  | gatehouseRestart => exact execGatehouseRestart_sound h e
  | i3cPrivateTransfer => exact execI3cPrivateTransfer_sound h e
  | spiFrame => exact execSpiFrame_sound h e
  | i3cSetdasa => exact execI3cSetdasa_sound h e
  | i3cEntdaa => exact execI3cEntdaa_sound h e
  | i3cEnec => exact execI3cEnec_sound h e
  | arborOutboundAccess => exact execArborOutboundAccess_sound h e
  | outboundBusCycle => exact execOutboundBusCycle_sound h e
  | outboundCycleEnd => exact execOutboundCycleEnd_sound h e
  | loopbackCycle => exact execLoopbackCycle_sound h e
  | sessionCycleTimerExpiry => exact execSessionCycleTimerExpiry_sound h e
  | busTimerExpiry => exact execBusTimerExpiry_sound h e
  | sessionWedge => exact execSessionWedge_sound h e
  | busGranted => exact execBusGranted_sound h e
  | busYield => exact execBusYield_sound h e
  | busRequestArbitration => exact execBusRequestArbitration_sound h e
  | arbitrationGrantTimeout => exact execArbitrationGrantTimeout_sound h e
  | inboundAddressPhase => exact execInboundAddressPhase_sound h e
  | inboundWriteData => exact execInboundWriteData_sound h e
  | inboundReadData => exact execInboundReadData_sound h e
  | inboundRmwCycle => exact execInboundRmwCycle_sound h e
  | interruptAcknowledgeCycle => exact execInterruptAcknowledgeCycle_sound h e
  | ackCycleTimeout => exact execAckCycleTimeout_sound h e
  | vecPop => exact execVecPop_sound h e
  | iackChainPass => exact execIackChainPass_sound h e
  | bmGo => exact execBmGo_sound h e
  | sesRunWrite => exact execSesRunWrite_sound h e
  | errCodeRead => exact execErrCodeRead_sound h e
  | arstInput => exact execArstInput_sound h e
  | backplaneResetEnd => exact execBackplaneResetEnd_sound h e
  | afailInput => exact execAfailInput_sound h e
  | arborMismatchRecovery => exact execArborMismatchRecovery_sound h e
  | seqOut => exact execSeqOut_sound h e
  | seqDrv => exact execSeqDrv_sound h e
  | seqRel => exact execSeqRel_sound h e
  | seqSmp => exact execSeqSmp_sound h e
  | seqAxs => exact execSeqAxs_sound h e
  | seqDly => exact execSeqDly_sound h e
  | seqDlyExpiry => exact execSeqDlyExpiry_sound h e
  | seqWt => exact execSeqWt_sound h e
  | seqWtn => exact execSeqWtn_sound h e
  | seqWte => exact execSeqWte_sound h e
  | seqWaitComplete => exact execSeqWaitComplete_sound h e
  | seqWaitTimeout => exact execSeqWaitTimeout_sound h e
  | seqSig => exact execSeqSig_sound h e
  | seqLde => exact execSeqLde_sound h e
  | seqSte => exact execSeqSte_sound h e
  | seqOpr => exact execSeqOpr_sound h e
  | seqOpi => exact execSeqOpi_sound h e
  | seqBr => exact execSeqBr_sound h e
  | seqEnd => exact execSeqEnd_sound h e
  | rdS => exact execRdS_sound h e
  | rdCode => exact execRdCode_sound h e
  | rdX => exact execRdX_sound h e
  | upg => exact execUpg_sound h e
  | wb => exact execWb_sound h e
  | ncRd => exact execNcRd_sound h e
  | ncWr => exact execNcWr_sound h e
  | atom => exact execAtom_sound h e
  | keepRd => exact execKeepRd_sound h e
  | keepWr => exact execKeepWr_sound h e
  | keepAtom => exact execKeepAtom_sound h e
  | mrd => exact execMrd_sound h e
  | mwr => exact execMwr_sound h e
  | parityWriteGroup => exact execParityWriteGroup_sound h e
  | codeMark => exact execCodeMark_sound h e
  | codeSet => exact execCodeSet_sound h e
  | codeClr => exact execCodeClr_sound h e
  | codeQuery => exact execCodeQuery_sound h e
  | fwdS => exact execFwdS_sound h e
  | fwdX => exact execFwdX_sound h e
  | fwdRd => exact execFwdRd_sound h e
  | inv => exact execInv_sound h e
  | binv => exact execBinv_sound h e
  | drop => exact execDrop_sound h e
  | kinv => exact execKinv_sound h e
  | ack => exact execAck_sound h e
  | fwdAck => exact execFwdAck_sound h e
  | notHeld => exact execNotHeld_sound h e
  | grant => exact execGrant_sound h e
  | cmp => exact execCmp_sound h e
  | wbAck => exact execWbAck_sound h e
  | nack => exact execNack_sound h e
  | retry => exact execRetry_sound h e
  | done => exact execDone_sound h e
  | dropAck => exact execDropAck_sound h e
  | data => exact execData_sound h e
  | dataH => exact execDataH_sound h e
  | mdata => exact execMdata_sound h e
  | adata => exact execAdata_sound h e
  | fabricAckTimeout => exact execFabricAckTimeout_sound h e
  | cacheWayRetire => exact execCacheWayRetire_sound h e
  | homeSliceRebuild => exact execHomeSliceRebuild_sound h e
  | channelSwitchover => exact execChannelSwitchover_sound h e
  | channelRetrain => exact execChannelRetrain_sound h e
  | channelRebuildEnd => exact execChannelRebuildEnd_sound h e
  | belvederePairRestart => exact execBelvederePairRestart_sound h e
  | pcieLaneRetrain => exact execPcieLaneRetrain_sound h e
  | linkRetest => exact execLinkRetest_sound h e
  | pcieUpconfig => exact execPcieUpconfig_sound h e
  | belvedereEntry => exact execBelvedereEntry_sound h e
  | gatehouseHeartbeatTimeout => exact execGatehouseHeartbeatTimeout_sound h e
  | railOutOfRange => exact execRailOutOfRange_sound h e
  | refclkLoss => exact execRefclkLoss_sound h e
  | tjSensorSample => exact execTjSensorSample_sound h e
  | tjPeakRead => exact execTjPeakRead_sound h e
  | thermalTrip => exact execThermalTrip_sound h e
  | dramScrub => exact execDramScrub_sound h e
  | cacheScrub => exact execCacheScrub_sound h e
  | dramRefresh => exact execDramRefresh_sound h e
  | dqsDriftTrack => exact execDqsDriftTrack_sound h e
  | dramFill => exact execDramFill_sound h e
  | hypervisorCopy => exact execHypervisorCopy_sound h e
  | porstNAssert => exact execPorstNAssert_sound h e
  | porstNRelease => exact execPorstNRelease_sound h e
  | quartzPllLock => exact execQuartzPllLock_sound h e
  | assemblyEntry => exact execAssemblyEntry_sound h e
  | vddIo18Up => exact execVddIo18Up_sound h e
  | qzPpsInEdge => exact execQzPpsInEdge_sound h e
  | ppsHoldover => exact execPpsHoldover_sound h e
  | qzPpsOutPulse => exact execQzPpsOutPulse_sound h e
  | qzPpsOutFall => exact execQzPpsOutFall_sound h e
  | timerTick => exact execTimerTick_sound h e
  | timerWrap => exact execTimerWrap_sound h e
  | timerCompareEvent => exact execTimerCompareEvent_sound h e
  | tgGateChange => exact execTgGateChange_sound h e
  | tmrCmpWrite => exact execTmrCmpWrite_sound h e
  | tmrCntWrite => exact execTmrCntWrite_sound h e
  | tmrCtlWrite => exact execTmrCtlWrite_sound h e
  | holdRegisterRead => exact execHoldRegisterRead_sound h e
  | traceSinkWrite => exact execTraceSinkWrite_sound h e
  | tfRptrWrite => exact execTfRptrWrite_sound h e
  | tfFlush => exact execTfFlush_sound h e
  | tracePacketArrival => exact execTracePacketArrival_sound h e
  | pcieInboundWrite => exact execPcieInboundWrite_sound h e
  | pcieInboundRead => exact execPcieInboundRead_sound h e
  | pcieInboundAtomicop => exact execPcieInboundAtomicop_sound h e
  | pcieMsiMessage => exact execPcieMsiMessage_sound h e
  | pcieCompletion => exact execPcieCompletion_sound h e
  | pcieCompletionTimeout => exact execPcieCompletionTimeout_sound h e
  | msixSend => exact execMsixSend_sound h e
  | pciePerstInput => exact execPciePerstInput_sound h e
  | rootPerstRelease => exact execRootPerstRelease_sound h e
  | flrComplete => exact execFlrComplete_sound h e
  | jtagIdcode => exact execJtagIdcode_sound h e
  | jtagSamplePreload => exact execJtagSamplePreload_sound h e
  | jtagExtest => exact execJtagExtest_sound h e
  | jtagClamp => exact execJtagClamp_sound h e
  | jtagHighz => exact execJtagHighz_sound h e
  | jtagExtestPulse => exact execJtagExtestPulse_sound h e
  | jtagExtestTrain => exact execJtagExtestTrain_sound h e
  | jtagDbgMem => exact execJtagDbgMem_sound h e
  | jtagBypass => exact execJtagBypass_sound h e
  | registerWrite => exact execRegisterWrite_sound h e
  | illegalInstruction => exact execIllegalInstruction_sound h e
  | wfeReturnWithoutEvent => exact execWfeReturnWithoutEvent_sound h e
  | restEntryWaitExpiry => exact execRestEntryWaitExpiry_sound h e
  | supplyInRange => exact execSupplyInRange_sound h e
  | arstNRise => exact execArstNRise_sound h e
  | channelRebuildRow => exact execChannelRebuildRow_sound h e
  | pcieLinkUp => exact execPcieLinkUp_sound h e
  | pcieInboundConfigRequest => exact execPcieInboundConfigRequest_sound h e
  | testLogicReset => exact execTestLogicReset_sound h e
  | rcRegisterRead => exact execRcRegisterRead_sound h e

/-- The commands that wait say nothing of the map and the memory. -/
theorem Sound.setPending {s : State} (h : Sound s) {l : List Instr} : Sound { s with pending := l } := h.frame rfl rfl

theorem step_sound {s u} (h : Sound s) (e : step s = .next u) : Sound u := by
  unfold step at e
  split at e
  · exact next_sound (idle_sound h) e
  · exact exec_sound h.setPending e

/-- Settles O57: a step is an idle step or runs one command, and each of the model's operations keeps the map usable and the memory canonical. -/
theorem everyStepKeepsSound : Obligations.EveryStepKeepsSound := fun _ _ h e => step_sound h e

end Sys2Proof.Machine
end

-- ==== Outbound cycles ====
section
/-! Outbound cycles (O42): what goes onto the bus, how a cycle, its time limits and the wedge of its session end the head access, and the loop into an inbound window. -/

namespace Sys2Proof.Machine

/-! ### Lines of the port -/

theorem driveLock_frame (s : State) (on : Bool) : ∃ d, driveLock s on = { s with arb := { s.arb with drive := d } } := by
  unfold driveLock
  split
  · exact ⟨_, rfl⟩
  · exact ⟨_, rfl⟩

theorem cycleLines_frame (s : State) (kind lanes : Nat) : ∃ d, cycleLines s kind lanes = { s with arb := { s.arb with drive := d } } := by
  unfold cycleLines
  split
  · obtain ⟨d, hd⟩ := driveLock_frame (portLine s 1 24 (some (decide (lanes < 2)))) (kind == 3)
    exact ⟨d, hd⟩
  · exact ⟨_, rfl⟩

theorem timerOut_frame (s : State) (on : Bool) :
    ∃ d x, timerOut s on = { s with arb := { s.arb with drive := d, expired := x } } := by
  unfold timerOut
  split
  · exact ⟨_, _, rfl⟩
  · exact ⟨_, _, rfl⟩

/-- Line `i` of group `g` is driven low. -/
def drivenLow (s : State) (g i : Nat) : Prop :=
  (mget s.arb.drive g {}).en.getLsbD i = true ∧ (mget s.arb.drive g {}).val.getLsbD i = false

/-- A line that the port block drives low stands low. -/
theorem portLine_low (s : State) (g : Nat) {i : Nat} (hi : i < 32) : drivenLow (portLine s g i (some false)) g i := by
  simp [drivenLow, portLine, hi]

/-- The bus timer ends a cycle with BERR* under P-1014 and P-VITA1, with XACK/ under P-796 (12 R393). -/
theorem timerOut_low (s : State) :
    (s.vme = true → drivenLow (timerOut s true) 4 6) ∧ (s.profCode = 3 → drivenLow (timerOut s true) 4 0) := by
  refine ⟨fun h => ?_, fun h => ?_⟩
  · have he : expiryLine s = some (4, 6, false) := by simp [expiryLine, h]
    simp only [timerOut, he]
    exact portLine_low s 4 (by decide)
  · have hv : s.vme = false := by simp [State.vme, h]
    have he : expiryLine s = some (4, 0, false) := by simp [expiryLine, h, hv]
    simp only [timerOut, he]
    exact portLine_low s 4 (by decide)

/-- Letting LOCK/ go leaves every other line of its group as it was. -/
theorem driveLock_low {s : State} {i : Nat} (h : drivenLow s 4 i) (hi : i ≠ 3) : drivenLow (driveLock s false) 4 i := by
  unfold driveLock
  split
  · obtain ⟨he, hv⟩ := h
    have h3 : (1#32 <<< 3).getLsbD i = false := by
      rw [BitVec.getLsbD_shiftLeft, BitVec.getLsbD_one]
      simp only [Bool.and_eq_false_iff, decide_eq_false_iff_not, Bool.not_eq_false', decide_eq_true_eq]
      omega
    have hl : i < 32 := BitVec.lt_of_getLsbD he
    have hen : (mget (portLine s 4 3 none).arb.drive 4 {}).en = (mget s.arb.drive 4 {}).en &&& ~~~(1#32 <<< 3) := by simp [portLine]
    have hval : (mget (portLine s 4 3 none).arb.drive 4 {}).val = (mget s.arb.drive 4 {}).val := by simp [portLine]
    refine ⟨?_, hval.symm ▸ hv⟩
    show (mget (portLine s 4 3 none).arb.drive 4 {}).en.getLsbD i = true
    rw [hen, BitVec.getLsbD_and, BitVec.getLsbD_not, he, h3]
    simp [hl]
  · exact h

/-- None of the lines `m` of a group is driven. -/
def linesFree (s : State) (g : Nat) (m : W32) : Prop := (mget s.arb.drive g {}).en &&& m = 0

theorem releaseLines_free (s : State) (g : Nat) (m : W32) : linesFree (releaseLines s g m) g m := by
  simp [linesFree, releaseLines, BitVec.and_assoc]

/-- Releasing drives no line. -/
theorem linesFree.release {s : State} {g : Nat} {m : W32} (h : linesFree s g m) (g' : Nat) (m' : W32) :
    linesFree (releaseLines s g' m') g m := by
  by_cases hg : g = g'
  · subst hg
    have hc : ∀ a b c : W32, (a &&& b) &&& c = (a &&& c) &&& b := by
      intro a b c; rw [BitVec.and_assoc, BitVec.and_comm b, BitVec.and_assoc]
    simp only [linesFree, releaseLines, mget_mput_self] at h ⊢
    rw [hc, h]; exact BitVec.zero_and
  · simpa [linesFree, releaseLines, hg] using h

theorem linesFree.foldl {s : State} {g : Nat} {m : W32} (h : linesFree s g m) (f : Nat → W32) (l : List Nat) :
    linesFree (l.foldl (fun t k => releaseLines t k (f k)) s) g m := by
  induction l generalizing s with
  | nil => exact h
  | cons k l ih => exact ih (h.release k (f k))

/-- Groups released in turn are all released at the end. -/
theorem foldl_releaseLines_free (f : Nat → W32) {l : List Nat} {g : Nat} (hg : g ∈ l) (s : State) :
    linesFree (l.foldl (fun t k => releaseLines t k (f k)) s) g (f g) := by
  induction l generalizing s with
  | nil => simp at hg
  | cons k l ih =>
    rcases List.mem_cons.1 hg with rfl | hg
    · exact (releaseLines_free s g (f g)).foldl f l
    · exact ih hg _

theorem foldl_releaseLines_frame (f : Nat → W32) (l : List Nat) (s : State) :
    ∃ d, l.foldl (fun t k => releaseLines t k (f k)) s = { s with arb := { s.arb with drive := d } } := by
  induction l generalizing s with
  | nil => exact ⟨_, rfl⟩
  | cons k l ih =>
    obtain ⟨d, hd⟩ := ih (releaseLines s k (f k))
    exact ⟨d, hd⟩

/-- The restart of MST changes its thread, the path and the lines, and releases every line of MST (12 R394). -/
theorem restartMst_frame (s : State) :
    ∃ d th p, restartMst s = { s with arb := { s.arb with drive := d, threads := th, path := p } }
      ∧ ∀ g, g < 10 → (mget d g {}).en &&& mstLines s g = 0 := by
  obtain ⟨d, hd⟩ := foldl_releaseLines_frame (mstLines s) (List.range 10) s
  have hf (g : Nat) (hg : g < 10) := foldl_releaseLines_free (mstLines s) (List.mem_range.2 hg) s
  rw [← releaseMst] at hd hf
  rw [hd] at hf
  unfold restartMst
  rw [hd]
  exact ⟨d, _, _, rfl, hf⟩

/-- Letting LOCK/ go drives no line. -/
theorem driveLock_free {s : State} {g : Nat} {m : W32} (h : linesFree s g m) : linesFree (driveLock s false) g m := by
  unfold driveLock
  split
  · exact h.release 4 (1#32 <<< 3)
  · exact h

/-! ### The head access leaves its queue -/

/-- Parts of the state with the same sessions have the same session pages. -/
theorem ses_of_arb {s t : State} (h : t.arb.ses = s.arb.ses) (n : Ses) : t.ses n = s.ses n := by
  simp [State.ses, h]

theorem SesQuiet.transfer {s t : State} {n : Ses} (h : SesQuiet s n) (hs : t.arb.ses = s.arb.ses) (hw : t.arb.waiting = s.arb.waiting)
    (hi : t.arb.inbuf = s.arb.inbuf) : SesQuiet t n :=
  ⟨by rw [ses_of_arb hs]; exact h.wait, hw.trans h.room, hi.trans h.inbound⟩

/-- A queue whose new first access reaches the head now (11 R343). -/
def atHead (now : Nat) : List OutAcc → List OutAcc
  | [] => []
  | a :: r => { a with headAt := some now } :: r

@[simp] theorem atHead_length (now : Nat) (q : List OutAcc) : (atHead now q).length = q.length := by
  cases q <;> rfl

/-- Only the time of reaching the head is new. -/
theorem atHead_map (now : Nat) (q : List OutAcc) :
    (atHead now q).map (fun x => { x with headAt := none }) = q.map (fun x => { x with headAt := none }) := by
  cases q <;> rfl

theorem admitWaiting_none {s : State} (h : s.arb.waiting = []) : admitWaiting s = s := by
  unfold admitWaiting
  rw [h]
  show { s with arb := { s.arb with waiting := [] } } = s
  rw [← h]

/-- A session without a reset under way has none to end. -/
theorem trySes_calm {s : State} {n : Ses} (h : (s.ses n).wait = none) : trySes s n = s := by
  simp [trySes, runResets, h]

/-- Where no access waits for room, the head leaves and the next access takes its place. -/
theorem popHead_quiet {s : State} {n : Ses} {a : OutAcc} {rest : List OutAcc} (hq : (s.ses n).queue = a :: rest) (hw : s.arb.waiting = []) :
    ∃ b, popHead s n = { s with arb := { s.arb with
      ses := mput s.arb.ses n.toNat { s.ses n with queue := atHead s.qz.time rest }, beats := b } } := by
  refine ⟨if s.arb.lastSes = n then 0 else s.arb.beats, ?_⟩
  unfold popHead
  rw [admitWaiting_none (by exact hw)]
  cases rest <;> simp [hq, State.setSes, atHead]

/-! ### Errors in the session page (11 R361, R362) -/

section
variable (e : Session) (code : ArbErr) (addr : W64) (now : Nat) (d : Bool)

/-- Field by field: the count rises, and the first error since ERR_CODE was zero is captured. -/
theorem pageAfterError_eq : pageAfterError e code addr now d = { e with
    errCount := satAdd32 e.errCount 1, discards := if d then satAdd32 e.discards 1 else e.discards,
    errCode := if e.errCode = .none then code else e.errCode, errAddr := if e.errCode = .none then addr else e.errAddr,
    errTime := if e.errCode = .none then BitVec.ofNat 64 now else e.errTime } := by
  by_cases h : e.errCode = .none <;> simp [pageAfterError, h]

@[simp] theorem pageAfterError_queue : (pageAfterError e code addr now d).queue = e.queue := by rw [pageAfterError_eq]
@[simp] theorem pageAfterError_st : (pageAfterError e code addr now d).st = e.st := by rw [pageAfterError_eq]
@[simp] theorem pageAfterError_wait : (pageAfterError e code addr now d).wait = e.wait := by rw [pageAfterError_eq]
@[simp] theorem pageAfterError_errPost : (pageAfterError e code addr now d).errPost = e.errPost := by rw [pageAfterError_eq]
@[simp] theorem pageAfterError_errCount : (pageAfterError e code addr now d).errCount = satAdd32 e.errCount 1 := by rw [pageAfterError_eq]
@[simp] theorem pageAfterError_errCode : (pageAfterError e code addr now d).errCode = if e.errCode = .none then code else e.errCode := by
  rw [pageAfterError_eq]
@[simp] theorem pageAfterError_discards : (pageAfterError e code addr now d).discards = if d then satAdd32 e.discards 1 else e.discards := by
  rw [pageAfterError_eq]

/-- The error does not look at the queue. -/
theorem pageAfterError_withQueue (q : List OutAcc) :
    pageAfterError { e with queue := q } code addr now d = { pageAfterError e code addr now d with queue := q } := by
  rw [pageAfterError_eq, pageAfterError_eq]

end

/-- Recording an error in this page posts nothing: ERR_POST is 0 or an earlier error is captured (11 R362). -/
def postsNone (e : Session) : Prop := e.errPost = false ∨ e.errCode ≠ .none

theorem postsNone.afterError {e : Session} (h : postsNone e) (code : ArbErr) (addr : W64) (now : Nat) (d : Bool) :
    postsNone (pageAfterError e code addr now d) := by
  rcases h with h | h
  · exact .inl (by simpa using h)
  · exact .inr (by simp [h])

/-- The access is a single access that no core waits for. -/
structure Plain (a : OutAcc) : Prop where
  core : a.vc = none
  single : outMoves a.kind = false

theorem Plain.of_single {a : OutAcc} (hv : a.vc = none) (hk : a.kind = .load ∨ a.kind = .store) : Plain a :=
  ⟨hv, by rcases hk with h | h <;> rw [h] <;> rfl⟩

/-- An error without a post changes the session page alone. -/
theorem recordArbErr_quiet {s : State} {n : Ses} (h : postsNone (s.ses n)) (code : ArbErr) (addr : W64) :
    recordArbErr s n code addr = s.setSes n (pageAfterError (s.ses n) code addr s.qz.time false) := by
  unfold recordArbErr pageAfterError
  by_cases hc : (s.ses n).errCode = .none
  · have hp : (s.ses n).errPost = false := h.resolve_right (not_not.2 hc)
    simp [hc, hp]
  · simp [hc]

/-- The second of two pages written is all that is left. -/
theorem setSes_setSes (s : State) (n : Ses) (v w : Session) : (s.setSes n v).setSes n w = s.setSes n w := by
  simp [State.setSes, mput_mput]

/-- The requester's error of a plain access is the error in the session page; a store that has run no cycle is a discard (11 R362). -/
theorem accessError_plain {s : State} {n : Ses} {a : OutAcc} (ha : Plain a) (h : postsNone (s.ses n)) (code : ArbErr) (addr : W64) (run : Bool) :
    accessError s n a code addr run
      = s.setSes n (pageAfterError (s.ses n) code addr s.qz.time (!run && decide (a.kind = .store))) := by
  have hr := recordArbErr_quiet h code addr
  have hw (d : Bool) : { pageAfterError (s.ses n) code addr s.qz.time false with
      discards := if d then satAdd32 (s.ses n).discards 1 else (s.ses n).discards } = pageAfterError (s.ses n) code addr s.qz.time d := by
    rw [pageAfterError_eq, pageAfterError_eq]
  cases hk : a.kind with
  | load => simp [accessError, hk, ha.core, hr]
  | store => cases run <;> simp [accessError, hk, ha.core, storeEnded, hr, setSes_setSes, ← hw true]
  | atomic op => simp [accessError, hk, ha.core, hr]
  | mover toMem ipa blk => exact absurd ha.single (by simp [hk, outMoves])

/-- A head access that ends in error leaves its queue, and its page records the error. -/
theorem failHead_plain {s : State} {n : Ses} {a : OutAcc} {rest : List OutAcc} (hq : (s.ses n).queue = a :: rest) (hs : SesQuiet s n)
    (ha : Plain a) (h : postsNone (s.ses n)) (code : ArbErr) (addr : W64) :
    ∃ b, failHead s n a code addr = { s with arb := { s.arb with
      ses := mput s.arb.ses n.toNat { pageAfterError (s.ses n) code addr s.qz.time false with queue := atHead s.qz.time rest }, beats := b } } := by
  obtain ⟨b, hb⟩ := popHead_quiet hq hs.room
  have hp : (popHead s n).ses n = { s.ses n with queue := atHead s.qz.time rest } := by simp [hb, State.ses]
  have hn : postsNone ((popHead s n).ses n) := by rw [hp]; exact h
  refine ⟨b, ?_⟩
  rw [failHead, accessError_plain ha hn, trySes_calm (by simp [hp, hs.wait]), hp, pageAfterError_withQueue, hb]
  simp [State.setSes, mput_mput]

/-! ### After a cycle -/

theorem chargeTenure_frame (s : State) :
    ∃ q u k, chargeTenure s = { s with qos := q, uncore := u, arb := { s.arb with ownedAt := k } } := by
  unfold chargeTenure uncoreAdd
  dsimp only
  split
  · exact ⟨_, _, _, rfl⟩
  · exact ⟨_, _, _, rfl⟩

theorem releaseBus_frame (s : State) :
    ∃ q u k o y b, releaseBus s = { s with qos := q, uncore := u, arb := { s.arb with ownedAt := k, owned := o, yield_ := y, beats := b } } := by
  unfold releaseBus
  split
  · obtain ⟨q, u, k, h⟩ := chargeTenure_frame s
    exact ⟨q, u, k, _, _, _, by rw [h]⟩
  · exact ⟨_, _, _, _, _, _, rfl⟩

/-- What follows a cycle settles who owns the bus, and nothing else. -/
theorem afterCycle_frame (s : State) :
    ∃ q u k o y b, afterCycle s = { s with qos := q, uncore := u, arb := { s.arb with ownedAt := k, owned := o, yield_ := y, beats := b } } := by
  unfold afterCycle
  split
  · split
    · exact ⟨_, _, _, _, _, _, rfl⟩
    · split
      · exact releaseBus_frame s
      · exact ⟨_, _, _, _, _, _, rfl⟩
  · exact ⟨_, _, _, _, _, _, rfl⟩

/-! ### A cycle of the head access ends -/

/-- The state whose bus has no cycle any more, with so many beats of its burst left. -/
def cycleOff (s : State) (beats : Nat) : State :=
  { driveLock s false with arb := { (driveLock s false).arb with cycle := none, beats := beats } }

theorem cycleOff_frame (s : State) (beats : Nat) :
    ∃ d, cycleOff s beats = { s with arb := { s.arb with drive := d, cycle := none, beats := beats } } := by
  obtain ⟨d, hd⟩ := driveLock_frame s false
  exact ⟨d, by rw [cycleOff, hd]⟩

@[simp] theorem cycleOff_ses (s : State) (b : Nat) (n : Ses) : (cycleOff s b).ses n = s.ses n := by
  obtain ⟨d, h⟩ := cycleOff_frame s b
  rw [h]; rfl

@[simp] theorem cycleOff_qz (s : State) (b : Nat) : (cycleOff s b).qz = s.qz := by
  obtain ⟨d, h⟩ := cycleOff_frame s b
  rw [h]

@[simp] theorem cycleOff_caps (s : State) (b : Nat) : (cycleOff s b).caps = s.caps := by
  obtain ⟨d, h⟩ := cycleOff_frame s b
  rw [h]; rfl

theorem cycleOff_nextPart (s : State) (b : Nat) (a : OutAcc) : nextPart (cycleOff s b) a = nextPart s a := by
  obtain ⟨d, h⟩ := cycleOff_frame s b
  rw [h]; rfl

theorem SesQuiet.cycleOff {s : State} {n : Ses} (h : SesQuiet s n) (b : Nat) : SesQuiet (cycleOff s b) n := by
  obtain ⟨d, hd⟩ := cycleOff_frame s b
  rw [hd]
  exact h.transfer rfl rfl rfl

section
variable {s : State} {c : BusCycle} {a : OutAcc} {rest : List OutAcc}

theorem cycleOff_queue (hq : (s.ses c.ses).queue = a :: rest) (b : Nat) : ((cycleOff s b).ses c.ses).queue = a :: rest := by
  rw [cycleOff_ses, hq]

/-- A cycle whose session lives goes to the head access, which a time limit, a bus error and a parity error end with their codes (11 R361 to R363). -/
theorem endCycle_fails {resp : BusResp} {timeout : Bool} {code : ArbErr}
    (hx : (resp, timeout, code) ∈ [(BusResp.ack, true, ArbErr.timeout), (.busError, false, .berr), (.parityError, false, .parity)])
    (hd : c.dead = false) (hq : (s.ses c.ses).queue = a :: rest) (data : W64) :
    endCycle s c resp timeout data = afterCycle (failHead (cycleOff s 0) c.ses a code c.addr) := by
  have hq' := cycleOff_queue hq
  unfold cycleOff at hq' ⊢
  simp only [List.mem_cons, Prod.mk.injEq, List.not_mem_nil, or_false] at hx
  rcases hx with ⟨rfl, rfl, rfl⟩ | ⟨rfl, rfl, rfl⟩ | ⟨rfl, rfl, rfl⟩ <;> simp [endCycle, hd, hq']

theorem endCycle_timeout (hd : c.dead = false) (hq : (s.ses c.ses).queue = a :: rest) (data : W64) :
    endCycle s c .ack true data = afterCycle (failHead (cycleOff s 0) c.ses a .timeout c.addr) :=
  endCycle_fails (by simp) hd hq data

theorem endCycle_retry (hd : c.dead = false) (hq : (s.ses c.ses).queue = a :: rest) (data : W64) :
    endCycle s c .retry false data = afterCycle (cycleRetry (cycleOff s 0) c.ses a c.addr) := by
  have hq' := cycleOff_queue hq
  unfold cycleOff at hq' ⊢
  simp [endCycle, hd, hq']

theorem endCycle_ack (hd : c.dead = false) (hq : (s.ses c.ses).queue = a :: rest) (hi : s.arb.inbuf = []) (data : W64) :
    endCycle s c .ack false data = afterCycle (cycleDone (cycleOff s (s.arb.beats - 1)) c.ses a (nextPart s a).1 (nextPart s a).2
      c.addr c.data.toNat data.toNat) := by
  have hq' := cycleOff_queue hq
  have hf (b : Nat) : forceInbound (cycleOff s b) = cycleOff s b := by
    obtain ⟨d, h⟩ := cycleOff_frame s b
    exact forceInbound_empty (by rw [h]; exact hi)
  rw [← cycleOff_nextPart s (s.arb.beats - 1)]
  unfold cycleOff at hq' hf ⊢
  simp [endCycle, hd, hq', hf]

end

section
variable {s : State} {n : Ses} {a : OutAcc} {rest : List OutAcc} {cnt off : Nat}

/-- The last cycle of a load: the access leaves its queue, and its bytes are answered in the order of its window (11 R343, R352). -/
theorem cycleDone_load (hk : a.kind = .load) (hv : a.vc = none) (hq : (s.ses n).queue = a :: rest) (hs : SesQuiet s n)
    (he : a.done + cnt = a.size) (addr : W64) (sent data : Nat) :
    cycleDone s n a cnt off addr sent data = (popHead s n).answer (BitVec.ofNat 64 (busOrder s a.win.addrOrder a.size
      (a.got ||| BitVec.ofNat 64 (data % 256 ^ cnt * 256 ^ off)).toNat)) := by
  obtain ⟨b, hb⟩ := popHead_quiet hq hs.room
  have hp : (popHead s n).arb.ses = mput s.arb.ses n.toNat { s.ses n with queue := atHead s.qz.time rest } := by rw [hb]
  have hw (v : W64) : (((popHead s n).answer v).ses n).wait = none := by
    simpa [State.ses, hp] using hs.wait
  have hc : cycleWrites s a cnt data = false := by rw [cycleWrites, hk]
  unfold cycleDone
  rw [hc, hk]
  refine (if_neg Bool.false_ne_true).trans ((if_neg (Nat.not_lt.2 he.ge)).trans ?_)
  rw [accessDone]
  simp only [hv]
  exact trySes_calm (hw _)

/-- The last cycle of a store: the access leaves its queue, and its bytes stood on the bus. -/
theorem cycleDone_store (hk : a.kind = .store) (hv : a.vc = none) (hq : (s.ses n).queue = a :: rest) (hs : SesQuiet s n)
    (he : a.done + cnt = a.size) (addr : W64) (sent data : Nat) :
    cycleDone s n a cnt off addr sent data = popHead { s with arb := { s.arb with wrote := some (addr, cnt, BitVec.ofNat 64 sent) } } n := by
  obtain ⟨b, hb⟩ := popHead_quiet (s := { s with arb := { s.arb with wrote := some (addr, cnt, BitVec.ofNat 64 sent) } }) (n := n) hq hs.room
  have hw : ((popHead { s with arb := { s.arb with wrote := some (addr, cnt, BitVec.ofNat 64 sent) } } n).ses n).wait = none := by
    simpa [hb, State.ses] using hs.wait
  have hc : cycleWrites s a cnt data = true := by rw [cycleWrites, hk]
  unfold cycleDone
  rw [hc, hk]
  refine (if_neg Bool.false_ne_true).trans ((if_neg (Nat.not_lt.2 he.ge)).trans ?_)
  rw [accessDone]
  simp only [hv, storeEnded]
  exact trySes_calm hw

/-- A beat into memory that memory refuses is not moved, and the transfer ends (11 R344). -/
theorem cycleDone_refused {ipa : BitVec 48} {blk : Bool} {v : State} (hk : a.kind = .mover true ipa blk)
    (ht : inbTarget s n (ipa.toNat + a.done) .write = (none, v)) (addr : W64) (sent data : Nat) :
    cycleDone s n a cnt off addr sent data = failHead v n a .memory addr := by
  have hw : cycleWrites s a cnt data = false := by rw [cycleWrites, hk]
  unfold cycleDone
  rw [hw, hk]
  simp only [Bool.false_eq_true, if_false]
  rw [ht]
  exact if_pos rfl

end

/-! ### A cycle goes onto the bus (11 R344, R349; 12 R382) -/

/-- The cycle of a kind of access reads the bus. -/
def kindReads (k : OutKind) : Bool := outReturns k || (match k with | .mover true _ _ => true | _ => false)

/-- The cycle of a kind of access writes the bus. -/
def kindWrites (k : OutKind) : Bool := match k with | .load => false | .mover true _ _ => false | _ => true

/-- The head access of a session is due on the bus that Arbor owns. -/
structure BusDue (s : State) (n : Ses) (a : OutAcc) (rest : List OutAcc) : Prop where
  serves : arborServes s = true
  master : s.arb.roles.master = true
  owned : s.arb.owned = true
  cycle : s.arb.cycle = none
  ack : s.arb.ack = none
  arst : arstLow s = false
  pick : arbPick s = some n
  queue : (s.ses n).queue = a :: rest

/-- The cycle `c` of session `n` is on the bus, with `b` beats left; `next`: it is a further beat of a burst. -/
structure OnBus (s : State) (n : Ses) (c : BusCycle) (b : Nat) (next : Bool) (t : State) : Prop where
  cycle : t.arb.cycle = some c
  ses : t.arb.ses = s.arb.ses
  last : t.arb.lastSes = n
  left : t.arb.beats = b
  field : mget? t.arb.fields 6 = some (BitVec.ofNat 32 b)
  event : s.arb.running = true → t.arb.events.getLsbD (if next then 12 else 0) = true

/-- Of the engine's state only fields other than BEATS, field 6, differ. -/
def OnlyFields (s t : State) : Prop := ∃ f, t.arb = { s.arb with fields := f } ∧ mget? f 6 = mget? s.arb.fields 6

theorem OnlyFields.setField {s t : State} (h : OnlyFields s t) {i : Nat} (hi : i ≠ 6) (v : W32) : OnlyFields s (setField t i v) := by
  obtain ⟨f, hf, h6⟩ := h
  refine ⟨mput f i v, ?_, by rw [mget?_mput_ne _ _ _ _ hi.symm, h6]⟩
  rw [Machine.setField, hf]

/-- Giving MST a cycle writes its fields and raises its event. -/
theorem giveCycle_arb (s : State) (kind : Nat) (addr : W64) (attr : W32) (data : W64) (next : Bool) :
    ∃ f e, (giveCycle s kind addr attr data next).arb = { s.arb with fields := f, events := e }
      ∧ mget? f 6 = mget? s.arb.fields 6 ∧ (s.arb.running = true → e.getLsbD (if next then 12 else 0) = true) := by
  have hb (e : BitVec 16) : (e ||| (1#16 <<< (if next then 12 else 0))).getLsbD (if next then 12 else 0) = true := by
    cases next <;> simp
  have h0 : OnlyFields s s := ⟨_, rfl, rfl⟩
  obtain ⟨f, hf, h6⟩ := (((((h0.setField (i := 0) (by decide) (BitVec.ofNat 32 kind)).setField (i := 1) (by decide)
    (addr.setWidth 32)).setField (i := 2) (by decide) ((addr >>> 32).setWidth 32)).setField (i := 3) (by decide) attr).setField (i := 4)
    (by decide) (data.setWidth 32)).setField (i := 5) (by decide) ((data >>> 32).setWidth 32)
  unfold giveCycle
  dsimp only
  split
  · exact ⟨f, _, by rw [raiseEvent, hf], h6, fun _ => hb _⟩
  · next h => exact ⟨f, _, hf, h6, fun h' => absurd h' h⟩

/-- What stands on the bus once the engine has been given the cycle, and the start of a burst or of a single cycle has been counted. -/
theorem onBus_given {s s3 : State} {n : Ses} {c : BusCycle} {beats : Nat} {f : SMap W32} {x : List TlbEntry} {k : Nat}
    (h : s3.arb = { s.arb with itlb := x, ownedAt := k, cycle := some c, lastSes := n, beats := beats, fields := f })
    (h6 : mget? f 6 = some (BitVec.ofNat 32 beats)) (next : Bool) (kind lanes : Nat) (addr data : W64) (attr : W32) (cls : ClassId) :
    OnBus s n c beats next (if next then cycleLines (giveCycle s3 kind addr attr data next) kind lanes
      else uncoreEvent (cycleLines (giveCycle s3 kind addr attr data next) kind lanes) 32 1 cls) := by
  obtain ⟨f', e, hg, hf, he⟩ := giveCycle_arb s3 kind addr attr data next
  obtain ⟨d, hl⟩ := cycleLines_frame (giveCycle s3 kind addr attr data next) kind lanes
  have hu (t : State) : (uncoreEvent t 32 1 cls).arb = t.arb := by rw [uncoreEvent_frame]
  have ha : (if next then cycleLines (giveCycle s3 kind addr attr data next) kind lanes
      else uncoreEvent (cycleLines (giveCycle s3 kind addr attr data next) kind lanes) 32 1 cls).arb
        = { s3.arb with drive := d, fields := f', events := e } := by
    rw [apply_ite State.arb, hu, ite_self, hl, hg]
  have hr : s3.arb.running = s.arb.running := by rw [h]
  rw [h] at ha hf
  constructor <;> rw [ha]
  · exact hf.trans h6
  · exact fun hs => he (hr.trans hs)

/-- The next cycle of the session that is due goes onto the bus once its bytes are there. -/
theorem outboundBusCycle_onBus {s s1 : State} {n : Ses} {a : OutAcc} {rest : List OutAcc} {d : Nat} (h : BusDue s n a rest)
    (hd : cycleData s n a (nextPart s a).1 (nextPart s a).2 = some (.ok (d, s1))) (hs : s1.arb = { s.arb with itlb := s1.arb.itlb }) :
    let next := (usesBlock s a).isSome && s.arb.beats != 0 && s.arb.lastSes == n
    ∃ t, exec (.outboundBusCycle n) s = .next t ∧ OnBus s n
      { ses := n, dead := false, addr := (nextAddr s a).1, size := (nextPart s a).1, read := kindReads a.kind, write := kindWrites a.kind,
        data := BitVec.ofNat 64 d, am := (nextAddr s a).2, started := s.qz.time }
      (if !(usesBlock s a).isSome then 0 else if next then s.arb.beats else burstBeats s a) next t := by
  intro next
  have hb : s1.arb.beats = s.arb.beats := by rw [hs]
  have hl : s1.arb.lastSes = s.arb.lastSes := by rw [hs]
  have h2 : ∃ k, (if s.arb.lastSes = n then s1 else chargeTenure s1).arb = { s.arb with itlb := s1.arb.itlb, ownedAt := k } := by
    split
    · exact ⟨s.arb.ownedAt, hs⟩
    · obtain ⟨q, u, k, hc⟩ := chargeTenure_frame s1
      exact ⟨k, by rw [hc, hs]⟩
  obtain ⟨k, h2⟩ := h2
  suffices hr : ∃ t, startCycle s n = some t ∧ OnBus s n _ _ next t by
    obtain ⟨t, ht, hon⟩ := hr
    exact ⟨t, by rw [exec, execOutboundBusCycle, orStay, ht]; rfl, hon⟩
  unfold startCycle
  rw [if_pos (by simp [h.serves, h.master, h.owned, h.cycle, h.ack, h.arst, h.pick]), h.queue]
  simp only [hd, hb, hl]
  generalize (if s.arb.lastSes = n then s1 else chargeTenure s1) = s2 at h2
  exact ⟨_, rfl, onBus_given (by simp only [setField, h2]; rfl) (mget?_mput_self _ _ _) _ _ _ _ _ _ _⟩

/-! ### The ends of a cycle (11 R361 to R363; 12 R393, R394) -/

/-- The head access of `c`'s session has ended with `code`: the bus is free of its cycle, the access has left the queue, and the page `e` has recorded the error. -/
def HeadFailed (e : Session) (c : BusCycle) (rest : List OutAcc) (code : ArbErr) (t : State) : Prop :=
  t.arb.cycle = none ∧ ∃ q, q.map (fun x => { x with headAt := none }) = rest.map (fun x => { x with headAt := none })
    ∧ t.ses c.ses = { pageAfterError e code c.addr t.qz.time false with queue := q }

section
variable {s : State} {c : BusCycle} {a : OutAcc} {rest : List OutAcc}

/-- What a cycle that fails the head access of its session leaves. -/
theorem afterCycle_failHead (hq : (s.ses c.ses).queue = a :: rest) (hs : SesQuiet s c.ses) (ha : Plain a) (hp : postsNone (s.ses c.ses))
    (code : ArbErr) : HeadFailed (s.ses c.ses) c rest code (afterCycle (failHead (cycleOff s 0) c.ses a code c.addr))
      ∧ (afterCycle (failHead (cycleOff s 0) c.ses a code c.addr)).qz.time = s.qz.time
      ∧ (afterCycle (failHead (cycleOff s 0) c.ses a code c.addr)).arb.drive = (driveLock s false).arb.drive
      ∧ (afterCycle (failHead (cycleOff s 0) c.ses a code c.addr)).arb.busTimeouts = s.arb.busTimeouts := by
  have hb0 : (cycleOff s 0).arb.busTimeouts = s.arb.busTimeouts := by
    obtain ⟨d, hd⟩ := cycleOff_frame s 0
    rw [hd]
  obtain ⟨b, hb⟩ := failHead_plain (cycleOff_queue hq 0) (hs.cycleOff 0) ha
    (by rw [cycleOff_ses]; exact hp) code c.addr
  obtain ⟨q, u, k, o, y, b', h⟩ := afterCycle_frame (failHead (cycleOff s 0) c.ses a code c.addr)
  rw [cycleOff_ses, cycleOff_qz] at hb
  rw [hb] at h
  rw [hb, h]
  refine ⟨⟨rfl, atHead s.qz.time rest, atHead_map _ _, ?_⟩, ?_, rfl, hb0⟩
  · simp only [State.ses, mget_mput_self]
  · simp only

/-- The slave's answer ends the cycle on the bus (11 R361). -/
theorem exec_outboundCycleEnd (hc : s.arb.cycle = some c) (resp : BusResp) (hr : resp = .retry → s.caps.retry = true)
    (hp : resp = .parityError → c.read = true ∧ s.caps.parity ≠ 0) (data : W64) :
    exec (.outboundCycleEnd resp data) s = .next (endCycle s c resp false data) := by
  cases resp with
  | ack => simp [exec, execOutboundCycleEnd, hc, whenTrue]
  | busError => simp [exec, execOutboundCycleEnd, hc, whenTrue]
  | retry => simp [exec, execOutboundCycleEnd, hc, whenTrue, hr rfl]
  | parityError =>
    obtain ⟨hread, hpar⟩ := hp rfl
    simp [exec, execOutboundCycleEnd, hc, whenTrue, hread]
    exact fun h => absurd h hpar

/-- One retry too many ends the access, one within the limit lets its cycle run again (11 R362). -/
theorem cycleRetry_over {n : Ses} (h : (s.ses n).retryLim ≤ a.retries) (addr : W64) : cycleRetry s n a addr = failHead s n a .retry addr :=
  if_neg (Nat.not_lt.2 h)

theorem cycleRetry_within {n : Ses} (hq : (s.ses n).queue = a :: rest) (h : a.retries < (s.ses n).retryLim) (addr : W64) :
    cycleRetry s n a addr = s.setSes n { s.ses n with queue := { a with retries := a.retries + 1 } :: rest } := by
  simp only [cycleRetry, if_pos h, hq, List.drop_succ_cons, List.drop_zero]

end

/-! ### A session wedges (11 R364) -/

/-- Errors in the page of session `n` have made `t` of `s`. -/
structure ErrorsOnly (n : Ses) (s t : State) : Prop where
  frame : ∃ x, t = { s with arb := { s.arb with ses := x } }
  others : ∀ m, m ≠ n → t.ses m = s.ses m
  st : (t.ses n).st = (s.ses n).st
  queue : (t.ses n).queue = (s.ses n).queue
  posts : postsNone (s.ses n) → postsNone (t.ses n)
  code : (s.ses n).errCode ≠ .none → (t.ses n).errCode = (s.ses n).errCode

theorem ErrorsOnly.refl (n : Ses) (s : State) : ErrorsOnly n s s :=
  ⟨⟨_, rfl⟩, fun _ _ => rfl, rfl, rfl, id, fun _ => rfl⟩

theorem ErrorsOnly.trans {n : Ses} {s t u : State} (h : ErrorsOnly n s t) (k : ErrorsOnly n t u) : ErrorsOnly n s u where
  frame := by
    obtain ⟨x, hx⟩ := h.frame
    obtain ⟨y, hy⟩ := k.frame
    exact ⟨y, by rw [hy, hx]⟩
  others m hm := (k.others m hm).trans (h.others m hm)
  st := k.st.trans h.st
  queue := k.queue.trans h.queue
  posts hp := k.posts (h.posts hp)
  code hc := (k.code (by rwa [h.code hc])).trans (h.code hc)

/-- The error of one plain access. -/
theorem ErrorsOnly.one {s : State} {n : Ses} {a : OutAcc} (ha : Plain a) (h : postsNone (s.ses n)) (code : ArbErr) (addr : W64) (run : Bool) :
    ErrorsOnly n s (accessError s n a code addr run) := by
  rw [accessError_plain ha h]
  refine ⟨⟨_, rfl⟩, fun m hm => State.ses_setSes_ne s n m _ hm, by simp, by simp, fun hp => ?_, fun hc => by simp [hc]⟩
  rw [State.ses_setSes_self]
  exact hp.afterError _ _ _ _

/-- Plain accesses that complete with an error without a cycle. -/
theorem ErrorsOnly.all {n : Ses} {l : List OutAcc} (hl : ∀ a ∈ l, Plain a) (code : ArbErr) {s : State} (h : postsNone (s.ses n)) :
    ErrorsOnly n s (l.foldl (fun t a => accessError t n a code (busAddrOf a.win (a.off + a.done)) false) s) := by
  induction l generalizing s with
  | nil => exact .refl n s
  | cons a l ih =>
    have h1 := ErrorsOnly.one (hl a (by simp)) h code (busAddrOf a.win (a.off + a.done)) false
    exact h1.trans (ih (fun b hb => hl b (by simp [hb])) (h1.posts h))

/-- Where no access waits for room, the head is the first to complete with the error, with or without a cycle, and the rest of the queue follows. -/
theorem squashQueue_all {s : State} {n : Ses} {a : OutAcc} {rest : List OutAcc} (hq : (s.ses n).queue = a :: rest) (hw : s.arb.waiting = [])
    (code : ArbErr) (run : Bool) : ∃ b, (squashQueue s n code false run).1
      = rest.foldl (fun t a => accessError t n a code (busAddrOf a.win (a.off + a.done)) false)
          (accessError { s with arb := { s.arb with ses := mput s.arb.ses n.toNat { s.ses n with queue := [] }, beats := b, waiting := [] } }
            n a code (busAddrOf a.win (a.off + a.done)) run) := by
  refine ⟨if s.arb.lastSes = n then 0 else s.arb.beats, ?_⟩
  cases run <;> simp [squashQueue, hq, hw, State.setSes]

/-- The cycle on the bus, which the wedge of session `n` lets run to its end for nothing where it is the session's. -/
def killCycle (s : State) (n : Ses) : Option BusCycle := s.arb.cycle.map (fun c => if c.ses == n then { c with dead := true } else c)

/-- The session has wedged, its queue is taken from it, and none of its accesses has yet learned of it. -/
def wedgedState (s : State) (n : Ses) (beats : Nat) : State :=
  { s with arb := { s.arb with cycle := killCycle s n, ses := mput s.arb.ses n.toNat { s.ses n with st := .wedged, queue := [] },
                               beats := beats, waiting := [] } }

theorem wedgedState_ses (s : State) (n : Ses) (b : Nat) : (wedgedState s n b).ses n = { s.ses n with st := .wedged, queue := [] } :=
  mget_mput_self _ _ _ _

theorem wedgedState_ses_ne (s : State) {n m : Ses} (b : Nat) (hm : m ≠ n) : (wedgedState s n b).ses m = s.ses m :=
  State.ses_setSes_ne s n m { s.ses n with st := .wedged, queue := [] } hm

/-- A wedge with a plain head squashes the queue of the session, whose cycle is dead. -/
theorem wedgeSession_plain {s : State} {n : Ses} {a : OutAcc} {rest : List OutAcc} (hq : (s.ses n).queue = a :: rest) (ha : Plain a) :
    wedgeSession s n = afterCycle (admitWaiting (squashQueue
      { s with arb := { s.arb with cycle := killCycle s n, ses := mput s.arb.ses n.toNat { s.ses n with st := .wedged } } }
      n .wedged false (headBegun s n)).1) := by
  have hm : outMoves a.kind = false := ha.single
  cases hc : s.arb.cycle with
  | none =>
    rw [show killCycle s n = s.arb.cycle by simp [killCycle, hc]]
    simp only [wedgeSession, hc, hq, hm, Bool.false_eq_true, if_false]
    rw [← hc]
    rfl
  | some c =>
    by_cases hn : (c.ses == n) = true
    · have hs : ({ s with arb := { s.arb with cycle := some { c with dead := true } } } : State).ses n = s.ses n := rfl
      rw [show killCycle s n = some { c with dead := true } by rw [killCycle, hc, Option.map_some, if_pos hn]]
      simp only [wedgeSession, hc, if_pos hn, hs, hq, hm, Bool.false_eq_true, if_false]
      rfl
    · rw [show killCycle s n = s.arb.cycle by rw [killCycle, hc, Option.map_some, if_neg hn]]
      simp only [wedgeSession, hc, if_neg hn, hq, hm, Bool.false_eq_true, if_false]
      rw [← hc]
      rfl

/-- The accesses of a wedged session learn of it in turn, a head without a cycle as a discard. -/
theorem wedgeSession_errors {s : State} {n : Ses} {a : OutAcc} {rest : List OutAcc} (hq : (s.ses n).queue = a :: rest) (ha : Plain a)
    (hw : s.arb.waiting = []) : ∃ b, wedgeSession s n = afterCycle (admitWaiting (rest.foldl
      (fun t a => accessError t n a .wedged (busAddrOf a.win (a.off + a.done)) false)
      (accessError (wedgedState s n b) n a .wedged (busAddrOf a.win (a.off + a.done)) (headBegun s n)))) := by
  have h0 : ({ s with arb := { s.arb with cycle := killCycle s n, ses := mput s.arb.ses n.toNat { s.ses n with st := .wedged } } } : State).ses n
      = { s.ses n with st := .wedged } := mget_mput_self _ _ _ _
  obtain ⟨b, hb⟩ := squashQueue_all (n := n) (a := a) (rest := rest)
    (s := { s with arb := { s.arb with cycle := killCycle s n, ses := mput s.arb.ses n.toNat { s.ses n with st := .wedged } } })
    (by rw [h0]; exact hq) hw .wedged (headBegun s n)
  rw [h0] at hb
  dsimp only at hb
  rw [mput_mput] at hb
  exact ⟨b, by rw [wedgeSession_plain hq ha, hb]; rfl⟩

/-- The session whose head is plain and which can record errors without a post wedges: every access has left its queue, its page has recorded the first error, and nothing happens to another session. -/
theorem wedgeSession_leaves {s : State} {n : Ses} {a : OutAcc} {rest : List OutAcc} (hq : (s.ses n).queue = a :: rest)
    (hl : ∀ x ∈ a :: rest, Plain x) (hw : s.arb.waiting = []) (hp : postsNone (s.ses n)) :
    let t := wedgeSession s n
    (t.ses n).st = .wedged ∧ (t.ses n).queue = [] ∧ t.qz = s.qz
      ∧ (t.ses n).errCode = (if (s.ses n).errCode = .none then .wedged else (s.ses n).errCode)
      ∧ (rest = [] → (t.ses n).discards
          = if !headBegun s n && decide (a.kind = .store) then satAdd32 (s.ses n).discards 1 else (s.ses n).discards)
      ∧ t.arb.cycle = killCycle s n ∧ ∀ m, m ≠ n → t.ses m = s.ses m := by
  intro t
  obtain ⟨ha, hrest⟩ := List.forall_mem_cons.1 hl
  obtain ⟨b, hb⟩ := wedgeSession_errors hq ha hw
  have hp0 : postsNone ((wedgedState s n b).ses n) := by rw [wedgedState_ses]; exact hp
  have h1 := ErrorsOnly.one ha hp0 .wedged (busAddrOf a.win (a.off + a.done)) (headBegun s n)
  have hu := accessError_plain ha hp0 .wedged (busAddrOf a.win (a.off + a.done)) (headBegun s n)
  generalize accessError (wedgedState s n b) n a .wedged (busAddrOf a.win (a.off + a.done)) (headBegun s n) = u at h1 hu hb
  have h2 := ErrorsOnly.all hrest .wedged (h1.posts hp0)
  have hv : rest = [] → rest.foldl (fun t a => accessError t n a .wedged (busAddrOf a.win (a.off + a.done)) false) u = u := by
    rintro rfl; rfl
  generalize rest.foldl (fun t a => accessError t n a .wedged (busAddrOf a.win (a.off + a.done)) false) u = v at h2 hb hv
  have h := h1.trans h2
  obtain ⟨x, hx⟩ := h.frame
  obtain ⟨q, w, k, o, y, b', hafter⟩ := afterCycle_frame v
  rw [admitWaiting_none (by rw [hx]; rfl), hafter] at hb
  have hses (m : Ses) : t.ses m = v.ses m := ses_of_arb (by rw [show t = _ from hb]) m
  have hun : u.ses n = pageAfterError { s.ses n with st := .wedged, queue := [] } .wedged (busAddrOf a.win (a.off + a.done)) s.qz.time
      (!headBegun s n && decide (a.kind = .store)) := by
    rw [hu, State.ses_setSes_self, wedgedState_ses]; rfl
  refine ⟨?_, ?_, ?_, ?_, fun hr => ?_, ?_, fun m hm => ?_⟩
  · rw [hses, h.st, wedgedState_ses]
  · rw [hses, h.queue, wedgedState_ses]
  · rw [show t = _ from hb, hx]; rfl
  · have hc : (u.ses n).errCode = if (s.ses n).errCode = .none then .wedged else (s.ses n).errCode := by
      rw [hun, pageAfterError_errCode]
    have hne : (u.ses n).errCode ≠ .none := by
      rw [hc]; split
      · decide
      · assumption
    rw [hses, h2.code hne, hc]
  · rw [hses, hv hr, hun, pageAfterError_discards]
  · rw [show t = _ from hb, hx]; rfl
  · rw [hses, h.others m hm, wedgedState_ses_ne s b hm]

/-! ### Single accesses -/

section
variable {a : OutAcc} (hk : a.kind = .load ∨ a.kind = .store)
include hk

/-- A load or a store has no block cycles. -/
theorem usesBlock_single (s : State) : usesBlock s a = none := by
  rcases hk with h | h <;> rw [usesBlock, h]

/-- Its next cycle takes the bytes that its window carries at once, in ascending order. -/
theorem nextPart_single (s : State) : nextPart s a = (min (beatBytes s a.win) (a.size - a.done), a.done) := by
  rcases hk with h | h <;> rw [nextPart, usesBlock_single (by simp [h]), h] <;> rfl

/-- It has the address and the AM of its window (11 R339). -/
theorem nextAddr_single (s : State) : nextAddr s a = (busAddrOf a.win (a.off + a.done), a.win.am) := by
  rw [nextAddr, nextPart_single hk, usesBlock_single hk]; rfl

end

/-! ### The loop into an inbound window (01 R27; 11 R360) -/

/-- The next and only cycle of a load at the head of session `m` loops into window `w` of session `n`. -/
structure LoopDue (s : State) (m n : Ses) (a : OutAcc) (i : Nat) (w : InWin) : Prop where
  serves : arborServes s = true
  master : s.arb.roles.master = true
  arst : arstLow s = false
  off : offBus s m = true
  ready : readyHead s m = some a
  target : loopTarget s a = some (n, i, w)
  inbound : s.arb.inbuf = []
  load : a.kind = .load
  start : a.done = 0
  single : a.size ≤ beatBytes s a.win

section
variable {s : State} {m n : Ses} {a : OutAcc} {i : Nat} {w : InWin} (h : LoopDue s m n a i w)
include h

theorem LoopDue.part : nextPart s a = (a.size, 0) := by
  rw [nextPart_single (.inl h.load), h.start, Nat.sub_zero, Nat.min_eq_right h.single]

theorem LoopDue.addr : nextAddr s a = (busAddrOf a.win a.off, a.win.am) := by
  rw [nextAddr_single (.inl h.load), h.start, Nat.add_zero]

theorem LoopDue.data : cycleData s m a a.size 0 = some (.ok (0, s)) := by
  rw [cycleData, h.load]

/-- A window that takes the cycle reads memory at its IPA, in its own order, and the cycle is done. -/
theorem LoopDue.reads {v : Nat} {v1 : State} {x : Nat × State}
    (hm : loopMemory (uncoreEvent s 32 4 ((s.ses m).owner.setWidth 16)) n w (busAddrOf a.win a.off) true false = (some v, v1))
    (hx : arborRead v1 ((s.ses n).owner.setWidth 16) v a.size = some x) :
    exec (.loopbackCycle m) s = .next (cycleDone x.2 m a a.size 0 (busAddrOf a.win a.off) 0 (busOrder s w.addrOrder a.size x.1)) := by
  have hw (d : Nat) : cycleWrites s a a.size d = false := by rw [cycleWrites, h.load]
  simp only [exec, execLoopbackCycle, whenTrue, h.serves, h.master, h.arst, h.off, h.ready, h.target, h.part, h.addr, h.data, h.load,
    outReturns, forceInbound_empty h.inbound, Bool.true_or, hm, hx, hw, Bool.and_self, Bool.not_false,
    Bool.false_eq_true, if_true, if_false, Option.getD_some]

/-- A window without RD refuses the cycle, which ends with BERR unless it is to be retried. -/
theorem LoopDue.refused (hrd : w.rd = false) (hopen : (s.ses n).st = .open_ ∨ w.respErr = true ∨ s.caps.retry = false) :
    exec (.loopbackCycle m) s = .next (failHead (countRefusal (uncoreEvent s 32 4 ((s.ses m).owner.setWidth 16)) ((s.ses n).owner.setWidth 16))
      m a .berr (busAddrOf a.win a.off)) := by
  have hm : loopMemory (uncoreEvent s 32 4 ((s.ses m).owner.setWidth 16)) n w (busAddrOf a.win a.off) true false
      = (none, uncoreEvent s 32 4 ((s.ses m).owner.setWidth 16)) := by
    rw [loopMemory, hrd]; exact if_pos rfl
  have hrest : (s.mode == .rest) = false := by
    have := h.serves
    cases hmode : s.mode <;> simp_all [arborServes]
  have hno : (refusalOf s (s.ses n) w == .retry) = false := by
    have hg : ((((s.ses n).st != .open_ || s.mode == .rest) && !w.respErr) && s.caps.retry) = false := by
      rcases hopen with ho | ho | ho <;> simp [ho, hrest]
    rw [refusalOf, hg, if_neg Bool.false_ne_true]
    split <;> rfl
  simp only [exec, execLoopbackCycle, whenTrue, h.serves, h.master, h.arst, h.off, h.ready, h.target, h.part, h.addr, h.data, h.load,
    outReturns, forceInbound_empty h.inbound, Bool.true_or, hm, hno, Bool.and_self, Bool.not_false,
    Bool.false_eq_true, if_true, if_false, Option.getD_some]

end

/-! ### The time limits (11 R361, R363; 12 R393, R394) -/

section
variable {s : State} {c : BusCycle} {a : OutAcc} {rest : List OutAcc}

/-- T_S expires on the cycle on the bus: MST is restarted, and the head access ends with TIMEOUT. -/
theorem sessionCycleTimerExpiry_fails (hc : s.arb.cycle = some c) (hd : c.dead = false) (hq : (s.ses c.ses).queue = a :: rest)
    (hs : SesQuiet s c.ses) (ha : Plain a) (hp : postsNone (s.ses c.ses)) :
    ∃ t, exec .sessionCycleTimerExpiry s = .next t ∧ HeadFailed (s.ses c.ses) c rest .timeout t
      ∧ c.started + 1000 * 2 ^ (s.ses c.ses).tsK ≤ t.qz.time ∧ ∀ g, g < 10 → linesFree t g (mstLines s g) := by
  let u := s.reach (c.started + 1000 * 2 ^ (s.ses c.ses).tsK)
  obtain ⟨d, th, p, hr, hfree⟩ := restartMst_frame u
  have hses : (restartMst u).ses c.ses = s.ses c.ses := ses_of_arb (by rw [hr]; rfl) _
  have hq' : ((restartMst u).ses c.ses).queue = a :: rest := by rw [hses, hq]
  obtain ⟨hf, ht, hl, -⟩ := afterCycle_failHead (s := restartMst u) hq' (hs.transfer (by rw [hr]; rfl) (by rw [hr]; rfl) (by rw [hr]; rfl)) ha
    (by rw [hses]; exact hp) .timeout
  refine ⟨endCycle (restartMst u) c .ack true 0, ?_, ?_, ?_, fun g hg => ?_⟩
  · simp only [exec, execSessionCycleTimerExpiry, hc]
    rfl
  · rw [endCycle_timeout hd hq', ← hses]
    exact hf
  · rw [endCycle_timeout hd hq', ht, hr]
    exact Nat.le_max_right _ _
  · rw [endCycle_timeout hd hq', linesFree, hl]
    exact driveLock_free (by rw [linesFree, hr]; exact hfree g hg)

/-- The system bus timer counts its expiry and asserts its line. -/
def timedOut (s : State) : State := timerOut { s with arb := { s.arb with busTimeouts := satAdd32 s.arb.busTimeouts 1 } } true

theorem timedOut_frame (s : State) : ∃ d x, timedOut s
    = { s with arb := { s.arb with busTimeouts := satAdd32 s.arb.busTimeouts 1, drive := d, expired := x } } := by
  obtain ⟨d, x, h⟩ := timerOut_frame { s with arb := { s.arb with busTimeouts := satAdd32 s.arb.busTimeouts 1 } } true
  exact ⟨d, x, h⟩

theorem timedOut_low (s : State) :
    (s.vme = true → drivenLow (timedOut s) 4 6) ∧ (s.profCode = 3 → drivenLow (timedOut s) 4 0) :=
  timerOut_low { s with arb := { s.arb with busTimeouts := satAdd32 s.arb.busTimeouts 1 } }

/-- The bus timer ends the cycle on the bus, which has lasted 2^BUS_TIMER µs. -/
theorem busTimerExpiry_fails (hc : s.arb.cycle = some c) (hd : c.dead = false) (hq : (s.ses c.ses).queue = a :: rest)
    (hs : SesQuiet s c.ses) (ha : Plain a) (hp : postsNone (s.ses c.ses)) (hsys : s.arb.roles.syscon = true) (hpo : s.dev.porst = false) :
    ∃ t, exec .busTimerExpiry s = .next t ∧ HeadFailed (s.ses c.ses) c rest .timeout t
      ∧ t.arb.busTimeouts = satAdd32 s.arb.busTimeouts 1 ∧ c.started + 1000 * 2 ^ s.arb.roles.busTimer ≤ t.qz.time
      ∧ (s.vme = true → drivenLow t 4 6) ∧ (s.profCode = 3 → drivenLow t 4 0) := by
  let u := s.reach (c.started + 1000 * 2 ^ s.arb.roles.busTimer)
  obtain ⟨d, x, hr⟩ := timedOut_frame u
  obtain ⟨hvme, h796⟩ := timedOut_low u
  have hses : (timedOut u).ses c.ses = s.ses c.ses := ses_of_arb (by rw [hr]; rfl) _
  have hq' : ((timedOut u).ses c.ses).queue = a :: rest := by rw [hses, hq]
  have hcyc : (timedOut u).arb.cycle = some c := by rw [hr]; exact hc
  obtain ⟨hf, ht, hl, hb⟩ := afterCycle_failHead (s := timedOut u) hq' (hs.transfer (by rw [hr]; rfl) (by rw [hr]; rfl) (by rw [hr]; rfl)) ha
    (by rw [hses]; exact hp) .timeout
  rw [← endCycle_timeout hd hq' 0] at hf ht hl hb
  rw [hses] at hf
  have hlow (i : Nat) (h : drivenLow (timedOut u) 4 i) (hi : i ≠ 3) : drivenLow (endCycle (timedOut u) c .ack true 0) 4 i := by
    rw [drivenLow, hl]
    exact driveLock_low h hi
  refine ⟨endCycle (timedOut u) c .ack true 0, ?_, hf, ?_, ?_, fun h => hlow 6 (hvme h) (by decide), fun h => hlow 0 (h796 h) (by decide)⟩
  · have hu : timerOut { s.reach (c.started + 1000 * 2 ^ s.arb.roles.busTimer) with
        arb := { (s.reach (c.started + 1000 * 2 ^ s.arb.roles.busTimer)).arb with busTimeouts := satAdd32 s.arb.busTimeouts 1 } } true
          = timedOut u := rfl
    simp only [exec, execBusTimerExpiry, hc, whenTrue, hsys, hpo, hu, hcyc, Bool.not_false, Bool.and_self, if_true]
  · rw [hb, hr]; rfl
  · rw [ht, hr]
    exact Nat.le_max_right _ _

/-- Without a cycle of Arbor's own, the bus timer ends the acknowledge cycle, or the inbound cycle of another master. -/
theorem busTimerExpiry_other (hc : s.arb.cycle = none) (hsys : s.arb.roles.syscon = true) (hpo : s.dev.porst = false) :
    (∀ l, s.arb.ack = some l → exec .busTimerExpiry s = .next (afterCycle { timedOut s with arb := { (timedOut s).arb with ack := none } }))
    ∧ (s.arb.ack = none → exec .busTimerExpiry s = .next { timedOut s with arb := { (timedOut s).arb with phase := none } }) := by
  obtain ⟨d, x, hr⟩ := timedOut_frame s
  have hu : timerOut { s with arb := { s.arb with busTimeouts := satAdd32 s.arb.busTimeouts 1 } } true = timedOut s := rfl
  have hcyc : (timedOut s).arb.cycle = none := by rw [hr]; exact hc
  have hack : (timedOut s).arb.ack = s.arb.ack := by rw [hr]
  rw [exec, execBusTimerExpiry, hc]
  simp only [hu, hcyc, hack, whenTrue, hsys, hpo, Bool.not_false, Bool.and_self, if_true]
  exact ⟨fun l hl => by rw [hl], fun hl => by rw [hl]⟩

end

/-! ### The clauses of O42 -/

/-- A load puts nothing on the bus, a store the part of its bytes that is next, in the order of its window (11 R352). -/
theorem cycleData_single (s : State) (n : Ses) {a : OutAcc} (hk : a.kind = .load ∨ a.kind = .store) (cnt off : Nat) :
    ∃ d, cycleData s n a cnt off = some (.ok (d, s))
      ∧ (a.kind = .store → d = busOrder s a.win.addrOrder a.size a.data.toNat / 256 ^ off % 256 ^ cnt) := by
  rcases hk with h | h
  · exact ⟨0, by rw [cycleData, h], fun h' => absurd (h.symm.trans h') (by decide)⟩
  · exact ⟨_, by rw [cycleData, h], fun _ => rfl⟩

/-- A single access that is due goes onto the bus at its window's address. -/
theorem single_onBus {s : State} {n : Ses} {a : OutAcc} {rest : List OutAcc} (h : BusDue s n a rest) (hk : a.kind = .load ∨ a.kind = .store) :
    ∃ t d, exec (.outboundBusCycle n) s = .next t ∧ OnBus s n
      { ses := n, dead := false, addr := busAddrOf a.win (a.off + a.done), size := min (beatBytes s a.win) (a.size - a.done),
        read := decide (a.kind = .load), write := decide (a.kind = .store), data := BitVec.ofNat 64 d, am := a.win.am,
        started := s.qz.time } 0 false t
      ∧ (a.kind = .store →
        d = busOrder s a.win.addrOrder a.size a.data.toNat / 256 ^ a.done % 256 ^ min (beatBytes s a.win) (a.size - a.done)) := by
  obtain ⟨d, hd, hst⟩ := cycleData_single s n hk (nextPart s a).1 (nextPart s a).2
  obtain ⟨t, ht, hon⟩ := outboundBusCycle_onBus h hd rfl
  have hr : kindReads a.kind = decide (a.kind = .load) := by rcases hk with h | h <;> rw [h] <;> rfl
  have hw : kindWrites a.kind = decide (a.kind = .store) := by rcases hk with h | h <;> rw [h] <;> rfl
  rw [usesBlock_single hk, nextAddr_single hk, nextPart_single hk, hr, hw] at hon
  rw [nextPart_single hk] at hst
  exact ⟨t, d, ht, hon, hst⟩

/-- A transfer into memory that uses block cycles goes beat by beat, each of the window's width. -/
theorem nextPart_block {s : State} {a : OutAcc} {toMem blk : Bool} {ipa : BitVec 48} {am : BitVec 8} (hk : a.kind = .mover toMem ipa blk)
    (hu : usesBlock s a = some am) : nextPart s a = (min (2 ^ a.win.width.toNat) (a.size - a.done), a.done) := by
  rw [nextPart, hu, hk]; rfl

/-- A beat of a transfer into memory that uses block cycles reads the bus, where memory has a page for it. -/
theorem block_onBus {s : State} {n : Ses} {a : OutAcc} {rest : List OutAcc} {ipa : BitVec 48} {am : BitVec 8} {pa : Nat} {u : State}
    (h : BusDue s n a rest) (hk : a.kind = .mover true ipa true) (hu : usesBlock s a = some am)
    (ht : inbTarget s n (ipa.toNat + a.done) .write = (some pa, u)) (harb : u.arb = { s.arb with itlb := u.arb.itlb }) :
    ∃ t, exec (.outboundBusCycle n) s = .next t ∧ OnBus s n
      { ses := n, dead := false, addr := busAddrOf a.win (a.off + a.done), size := min (2 ^ a.win.width.toNat) (a.size - a.done),
        read := true, write := false, data := BitVec.ofNat 64 0, am := am, started := s.qz.time }
      (if s.arb.beats != 0 && s.arb.lastSes == n then s.arb.beats else burstBeats s a) (s.arb.beats != 0 && s.arb.lastSes == n) t := by
  have hd : cycleData s n a (nextPart s a).1 (nextPart s a).2 = some (.ok (0, u)) := by
    simp only [cycleData, hk, if_true, ht]
  obtain ⟨t, he, hon⟩ := outboundBusCycle_onBus h hd harb
  have haddr : nextAddr s a = (busAddrOf a.win (a.off + a.done), am) := by rw [nextAddr, nextPart_block hk hu, hu]; rfl
  rw [haddr, nextPart_block hk hu, hu, hk] at hon
  exact ⟨t, he, hon⟩

/-- The byte order is the profile's. -/
theorem busOrder_of_prof {s t : State} (h : t.arb.prof = s.arb.prof) (o : Bool) (n v : Nat) : busOrder t o n v = busOrder s o n v := by
  rw [busOrder, busOrder, State.caps, State.caps, h]

theorem cycleOff_busOrder (s : State) (b : Nat) (o : Bool) (n v : Nat) : busOrder (cycleOff s b) o n v = busOrder s o n v := by
  rw [busOrder, busOrder, cycleOff_caps]

/-- The transfer of a block mover that memory refuses leaves its queue with MEMORY, the beat not moved (11 R344). -/
theorem failHead_mover {v : State} {n : Ses} {a : OutAcc} {rest : List OutAcc} {toMem blk : Bool} {ipa : BitVec 48}
    (hk : a.kind = .mover toMem ipa blk) (hq : (v.ses n).queue = a :: rest) (hw : v.arb.waiting = []) (addr : W64) :
    ∃ x, failHead v n a .memory addr = trySes (sesPost x n 9) n ∧ (x.ses n).bmBusy = false ∧ (x.ses n).bmDone = true
      ∧ (x.ses n).bmErr = .memory ∧ (x.ses n).bmMoved = BitVec.ofNat 24 a.done ∧ (x.ses n).queue.length = rest.length := by
  obtain ⟨b, hb⟩ := popHead_quiet hq hw
  have hp : ((popHead v n).ses n).queue = atHead v.qz.time rest := by simp [hb, State.ses]
  refine ⟨(popHead v n).setSes n { (popHead v n).ses n with bmBusy := false, bmDone := true, bmErr := .memory, bmMoved := BitVec.ofNat 24 a.done },
    ?_, ?_⟩
  · rw [failHead, accessError, hk]; rfl
  · simp only [State.ses_setSes_self, hp, atHead_length, and_self]

section
variable {s : State} {c : BusCycle} {a : OutAcc} {rest : List OutAcc}

theorem outboundCycleEnd_moverRefused {ipa : BitVec 48} {blk : Bool} {data : W64} {v : State} (hc : s.arb.cycle = some c) (hd : c.dead = false)
    (hq : (s.ses c.ses).queue = a :: rest) (hs : SesQuiet s c.ses) (hk : a.kind = .mover true ipa blk)
    (ht : inbTarget (cycleOff s (s.arb.beats - 1)) c.ses (ipa.toNat + a.done) .write = (none, v))
    (harb : v.arb = { (cycleOff s (s.arb.beats - 1)).arb with itlb := v.arb.itlb }) :
    ∃ x, exec (.outboundCycleEnd .ack data) s = .next (afterCycle (trySes (sesPost x c.ses 9) c.ses)) ∧ (x.ses c.ses).bmBusy = false
      ∧ (x.ses c.ses).bmDone = true ∧ (x.ses c.ses).bmErr = .memory ∧ (x.ses c.ses).bmMoved = BitVec.ofNat 24 a.done
      ∧ (x.ses c.ses).queue.length = rest.length := by
  have hses : v.ses c.ses = s.ses c.ses := (ses_of_arb (by rw [harb]) _).trans (cycleOff_ses s _ _)
  have hwait : v.arb.waiting = [] := by rw [harb]; exact (hs.cycleOff (s.arb.beats - 1)).room
  obtain ⟨x, hx, hpage⟩ := failHead_mover hk (by rw [hses, hq]) hwait c.addr
  refine ⟨x, ?_, hpage⟩
  rw [exec_outboundCycleEnd hc .ack nofun nofun, endCycle_ack hd hq hs.inbound, cycleDone_refused hk ht, hx]

/-- The last cycle of a load answers its bytes in the order of its window. -/
theorem outboundCycleEnd_load (data : W64) (hc : s.arb.cycle = some c) (hd : c.dead = false) (hq : (s.ses c.ses).queue = a :: rest)
    (hs : SesQuiet s c.ses) (hv : a.vc = none) (hk : a.kind = .load)
    (he : a.done + min (beatBytes s a.win) (a.size - a.done) = a.size) :
    ∃ t, exec (.outboundCycleEnd .ack data) s = .next t ∧ t.arb.cycle = none ∧ (t.ses c.ses).queue.length = rest.length
      ∧ t.out = BitVec.ofNat 64 (busOrder s a.win.addrOrder a.size
          (a.got ||| BitVec.ofNat 64 (data.toNat % 256 ^ min (beatBytes s a.win) (a.size - a.done) * 256 ^ a.done)).toNat) := by
  have hq' := cycleOff_queue hq (s.arb.beats - 1)
  have hs' := hs.cycleOff (s.arb.beats - 1)
  refine ⟨_, exec_outboundCycleEnd hc .ack nofun nofun data, ?_⟩
  rw [endCycle_ack hd hq hs.inbound, nextPart_single (.inl hk), cycleDone_load hk hv hq' hs' he, cycleOff_busOrder]
  obtain ⟨b, hb⟩ := popHead_quiet hq' hs'.room
  obtain ⟨q, u, k, o, y, b', h⟩ := afterCycle_frame ((popHead (cycleOff s (s.arb.beats - 1)) c.ses).answer (BitVec.ofNat 64
    (busOrder s a.win.addrOrder a.size
      (a.got ||| BitVec.ofNat 64 (data.toNat % 256 ^ min (beatBytes s a.win) (a.size - a.done) * 256 ^ a.done)).toNat)))
  rw [h]
  refine ⟨?_, ?_, rfl⟩
  · simp only [State.answer_arb, hb]
    rfl
  · simp only [State.ses, State.answer_arb, hb, mget_mput_self, atHead_length]

/-- The last cycle of a store: its bytes stood on the bus at the cycle's address. -/
theorem outboundCycleEnd_store (data : W64) (hc : s.arb.cycle = some c) (hd : c.dead = false) (hq : (s.ses c.ses).queue = a :: rest)
    (hs : SesQuiet s c.ses) (hv : a.vc = none) (hk : a.kind = .store)
    (he : a.done + min (beatBytes s a.win) (a.size - a.done) = a.size) :
    ∃ t, exec (.outboundCycleEnd .ack data) s = .next t ∧ t.arb.cycle = none ∧ (t.ses c.ses).queue.length = rest.length
      ∧ t.arb.wrote = some (c.addr, min (beatBytes s a.win) (a.size - a.done), BitVec.ofNat 64 c.data.toNat) := by
  have hq' := cycleOff_queue hq (s.arb.beats - 1)
  have hs' := hs.cycleOff (s.arb.beats - 1)
  refine ⟨_, exec_outboundCycleEnd hc .ack nofun nofun data, ?_⟩
  rw [endCycle_ack hd hq hs.inbound, nextPart_single (.inr hk), cycleDone_store hk hv hq' hs' he]
  have hcyc : (cycleOff s (s.arb.beats - 1)).arb.cycle = none := rfl
  generalize cycleOff s (s.arb.beats - 1) = u0 at hq' hs' hcyc
  obtain ⟨b, hb⟩ := popHead_quiet (s := { u0 with arb := { u0.arb with
    wrote := some (c.addr, min (beatBytes s a.win) (a.size - a.done), BitVec.ofNat 64 c.data.toNat) } }) (n := c.ses) hq' hs'.room
  rw [hb]
  obtain ⟨q, u, k, o, y, b', h⟩ := afterCycle_frame { u0 with arb := { u0.arb with
    wrote := some (c.addr, min (beatBytes s a.win) (a.size - a.done), BitVec.ofNat 64 c.data.toNat),
    ses := mput u0.arb.ses c.ses.toNat { u0.ses c.ses with queue := atHead u0.qz.time rest }, beats := b } }
  refine ⟨?_, ?_, ?_⟩
  · exact (congrArg (·.arb.cycle) h).trans hcyc
  · refine (congrArg (fun t : State => (t.ses c.ses).queue.length) h).trans ?_
    simp only [State.ses, mget_mput_self, atHead_length]
  · exact congrArg (·.arb.wrote) h

/-- A retry within the limit leaves the access at the head. -/
theorem outboundCycleEnd_retryAgain (data : W64) (hc : s.arb.cycle = some c) (hd : c.dead = false) (hq : (s.ses c.ses).queue = a :: rest)
    (hcap : s.caps.retry = true) (hr : a.retries < (s.ses c.ses).retryLim) :
    ∃ t, exec (.outboundCycleEnd .retry data) s = .next t ∧ t.arb.cycle = none
      ∧ (t.ses c.ses).queue = { a with retries := a.retries + 1 } :: rest := by
  refine ⟨_, exec_outboundCycleEnd hc .retry (fun _ => hcap) nofun data, ?_⟩
  rw [endCycle_retry hd hq, cycleRetry_within (cycleOff_queue hq 0) (by rw [cycleOff_ses]; exact hr)]
  have hcyc : (cycleOff s 0).arb.cycle = none := rfl
  generalize cycleOff s 0 = u0 at hcyc
  obtain ⟨q, u, k, o, y, b', h⟩ := afterCycle_frame (u0.setSes c.ses { u0.ses c.ses with queue := { a with retries := a.retries + 1 } :: rest })
  rw [h]
  exact ⟨hcyc, by simp only [State.ses, State.setSes, mget_mput_self]⟩

/-- The slave's errors end the head access with their codes. -/
theorem outboundCycleEnd_fails (data : W64) (hc : s.arb.cycle = some c) (hd : c.dead = false) (hq : (s.ses c.ses).queue = a :: rest)
    (hs : SesQuiet s c.ses) (ha : Plain a) (hp : postsNone (s.ses c.ses)) :
    (∃ t, exec (.outboundCycleEnd .busError data) s = .next t ∧ HeadFailed (s.ses c.ses) c rest .berr t)
    ∧ (c.read = true → s.caps.parity ≠ 0 →
        ∃ t, exec (.outboundCycleEnd .parityError data) s = .next t ∧ HeadFailed (s.ses c.ses) c rest .parity t)
    ∧ (s.caps.retry = true → (s.ses c.ses).retryLim ≤ a.retries →
        ∃ t, exec (.outboundCycleEnd .retry data) s = .next t ∧ HeadFailed (s.ses c.ses) c rest .retry t) := by
  have hfail (code : ArbErr) := (afterCycle_failHead hq hs ha hp code).1
  refine ⟨⟨_, exec_outboundCycleEnd hc .busError nofun nofun data, ?_⟩,
    fun hr hpar => ⟨_, exec_outboundCycleEnd hc .parityError nofun (fun _ => ⟨hr, hpar⟩) data, ?_⟩,
    fun hcap hlim => ⟨_, exec_outboundCycleEnd hc .retry (fun _ => hcap) nofun data, ?_⟩⟩
  · rw [endCycle_fails (code := .berr) (by simp) hd hq]
    exact hfail .berr
  · rw [endCycle_fails (code := .parity) (by simp) hd hq]
    exact hfail .parity
  · rw [endCycle_retry hd hq, cycleRetry_over (by rw [cycleOff_ses]; exact hlim)]
    exact hfail .retry

end

/-- The bus timer with no cycle of Arbor's own on the bus: it is counted and asserts its line, and the acknowledge cycle or the inbound cycle is over. -/
theorem busTimerExpiry_leaves {s : State} (hc : s.arb.cycle = none) (hsys : s.arb.roles.syscon = true) (hpo : s.dev.porst = false) :
    ∃ t, exec .busTimerExpiry s = .next t ∧ t.arb.busTimeouts = satAdd32 s.arb.busTimeouts 1 ∧ t.arb.ses = s.arb.ses ∧ t.arb.ack = none
      ∧ t.arb.phase = (if s.arb.ack = none then none else s.arb.phase) ∧ (s.vme = true → drivenLow t 4 6)
      ∧ (s.arb.ack = none → t = { s with arb := { s.arb with
          busTimeouts := t.arb.busTimeouts, phase := none, drive := t.arb.drive, expired := t.arb.expired } }) := by
  obtain ⟨hack, hnone⟩ := busTimerExpiry_other hc hsys hpo
  obtain ⟨d, x, hr⟩ := timedOut_frame s
  have hlow := (timedOut_low s).1
  rw [hr] at hack hnone hlow
  cases ha : s.arb.ack with
  | none => exact ⟨_, hnone ha, rfl, rfl, ha, by simp, hlow, fun _ => rfl⟩
  | some l =>
    obtain ⟨q, u, k, o, y, b', h⟩ := afterCycle_frame { s with arb := { s.arb with
      busTimeouts := satAdd32 s.arb.busTimeouts 1, drive := d, expired := x, ack := none } }
    refine ⟨_, hack l ha, ?_⟩
    dsimp only
    rw [h]
    exact ⟨rfl, rfl, rfl, by simp, hlow, fun h' => absurd h' (by simp)⟩

/-- SESSION_WEDGE at the end of WEDGE_LIMIT. -/
theorem exec_sessionWedge {s : State} {n : Ses} {a : OutAcc} {rest : List OutAcc} (hq : (s.ses n).queue = a :: rest) (ho : (s.ses n).st = .open_)
    (hserv : arborServes s = true) :
    exec (.sessionWedge n) s = .next (wedgeSession (s.reach (a.headAt.getD s.qz.time + 1000000 * (s.ses n).wedgeMs)) n) := by
  simp only [exec, execSessionWedge, hq, whenTrue, ho, hserv]
  rfl

/-- A looped load whose window reads memory answers the bytes, each of the two windows in its own order, and the bus is left alone. -/
theorem loopbackCycle_reads {s : State} {m n : Ses} {a : OutAcc} {rest : List OutAcc} {i : Nat} {w : InWin} (h : LoopDue s m n a i w)
    (hq : (s.ses m).queue = a :: rest) (hs : SesQuiet s m) (hv : a.vc = none) (hg : a.got = 0) {v : Nat} {v1 : State} {x : Nat × State}
    (hm : loopMemory (uncoreEvent s 32 4 ((s.ses m).owner.setWidth 16)) n w (busAddrOf a.win a.off) true false = (some v, v1))
    (hv1 : v1.arb = { s.arb with itlb := v1.arb.itlb }) (hx : arborRead v1 ((s.ses n).owner.setWidth 16) v a.size = some x)
    (hxa : x.2.arb = v1.arb) :
    ∃ t, exec (.loopbackCycle m) s = .next t ∧ (t.ses m).queue.length = rest.length ∧ t.arb.cycle = s.arb.cycle
      ∧ t.out = BitVec.ofNat 64 (busOrder s a.win.addrOrder a.size
          (BitVec.ofNat 64 (busOrder s w.addrOrder a.size x.1 % 256 ^ a.size)).toNat) := by
  have harb : x.2.arb = { s.arb with itlb := v1.arb.itlb } := hxa.trans hv1
  have hses : x.2.ses m = s.ses m := ses_of_arb (by rw [harb]) m
  have hq' : (x.2.ses m).queue = a :: rest := by rw [hses, hq]
  have hs' : SesQuiet x.2 m := hs.transfer (by rw [harb]) (by rw [harb]) (by rw [harb])
  obtain ⟨b, hb⟩ := popHead_quiet hq' hs'.room
  have hgot (y : W64) : a.got ||| y = y := by rw [hg]; exact BitVec.zero_or
  refine ⟨_, h.reads hm hx, ?_⟩
  rw [cycleDone_load h.load hv hq' hs' (by rw [h.start, Nat.zero_add]), busOrder_of_prof (s := s) (by rw [harb]), hgot, pow_zero, mul_one]
  refine ⟨?_, ?_, rfl⟩
  · simp only [State.ses, State.answer_arb, hb, mget_mput_self, atHead_length]
  · simp only [State.answer_arb, hb, harb]

/-- A looped load that its window refuses ends with BERR, and the refusal is counted. -/
theorem loopbackCycle_refused {s : State} {m n : Ses} {a : OutAcc} {rest : List OutAcc} {i : Nat} {w : InWin} (h : LoopDue s m n a i w)
    (hq : (s.ses m).queue = a :: rest) (hs : SesQuiet s m) (hv : a.vc = none) (hrd : w.rd = false)
    (hopen : (s.ses n).st = .open_ ∨ w.respErr = true ∨ s.caps.retry = false) (hp : postsNone (s.ses m)) :
    ∃ t, exec (.loopbackCycle m) s = .next t ∧ (t.ses m).queue.length = rest.length ∧ t.arb.inbRefused = satAdd32 s.arb.inbRefused 1
      ∧ (t.ses m).errCount = satAdd32 (s.ses m).errCount 1
      ∧ (t.ses m).errCode = if (s.ses m).errCode = .none then .berr else (s.ses m).errCode := by
  refine ⟨_, h.refused hrd hopen, ?_⟩
  have harb : (countRefusal (uncoreEvent s 32 4 ((s.ses m).owner.setWidth 16)) ((s.ses n).owner.setWidth 16)).arb
      = { s.arb with inbRefused := satAdd32 s.arb.inbRefused 1 } := by
    rw [countRefusal, uncoreEvent_frame, uncoreEvent_frame s]
  generalize countRefusal (uncoreEvent s 32 4 ((s.ses m).owner.setWidth 16)) ((s.ses n).owner.setWidth 16) = u at harb
  have hses : u.ses m = s.ses m := ses_of_arb (by rw [harb]) m
  obtain ⟨b, hb⟩ := failHead_plain (s := u) (by rw [hses, hq]) (hs.transfer (by rw [harb]) (by rw [harb]) (by rw [harb]))
    (Plain.of_single hv (.inl h.load)) (by rw [hses]; exact hp) .berr (busAddrOf a.win a.off)
  have hpage : (failHead u m a .berr (busAddrOf a.win a.off)).ses m
      = { pageAfterError (s.ses m) .berr (busAddrOf a.win a.off) u.qz.time false with queue := atHead u.qz.time rest } := by
    rw [hb, hses]
    exact mget_mput_self _ _ _ _
  rw [hpage]
  exact ⟨atHead_length _ _, by rw [hb, harb], pageAfterError_errCount _ _ _ _ _, pageAfterError_errCode _ _ _ _ _⟩

/-- Settles O42: a cycle that is due is given to the bus with the part of its access that is next, each end of it leaves the head access completed, retried or failed as its rule says, and a looped cycle reads the other session's memory instead. -/
theorem outboundCycles : Obligations.OutboundCycles := by
  refine ⟨⟨?single, ?block, ?refused, ?ends, ?timer, ?wedge⟩, ?loop⟩
  case single =>
    intro s n a rest hserv hmaster howned hcycle hack harst hpick hq hk
    obtain ⟨t, d, ht, hon, hd⟩ := single_onBus ⟨hserv, hmaster, howned, hcycle, hack, harst, hpick, hq⟩ hk
    exact ⟨t, _, ht, hon.cycle, rfl, rfl, rfl, rfl, rfl, rfl, rfl, rfl, fun h => by rw [hd h], hon.ses, hon.last, hon.left, hon.event⟩
  case block =>
    intro s n a rest ipa am pa u hserv hmaster howned hcycle hack harst hpick hq hk hu ht harb next
    obtain ⟨t, he, hon⟩ := block_onBus ⟨hserv, hmaster, howned, hcycle, hack, harst, hpick, hq⟩ hk hu ht harb
    have hnext : (s.arb.beats != 0 && s.arb.lastSes == n) = decide next := by simp [next, bne, Bool.beq_eq_decide_eq]
    refine ⟨t, _, he, hon.cycle, rfl, rfl, rfl, rfl, rfl, rfl, fun hn => ?_, fun hn => ?_⟩
    · have hn' := hnext.trans (decide_eq_true hn)
      exact ⟨by rw [hon.left, if_pos hn'], fun hr => by simpa [hn'] using hon.event hr⟩
    · have hn' := hnext.trans (decide_eq_false hn)
      exact ⟨by simp [hon.left, hn'], by simp [hon.field, hn'], fun hr => by simpa [hn'] using hon.event hr⟩
  case refused =>
    intro s c a rest ipa blk data v hc hd hq hs hk u ht harb
    exact outboundCycleEnd_moverRefused hc hd hq hs hk ht harb
  case ends =>
    intro s c a rest data hc hd hq hs hv hk e cnt failed
    have ha := Plain.of_single hv hk
    refine ⟨fun hl he => outboundCycleEnd_load data hc hd hq hs hv hl he, fun hst he => outboundCycleEnd_store data hc hd hq hs hv hst he,
      fun hp => ?_, fun hcap hr => outboundCycleEnd_retryAgain data hc hd hq hcap hr⟩
    obtain ⟨hberr, hpar, hretry⟩ := outboundCycleEnd_fails data hc hd hq hs ha hp
    exact ⟨hberr, hpar, hretry, sessionCycleTimerExpiry_fails hc hd hq hs ha hp, fun hsys hpo => busTimerExpiry_fails hc hd hq hs ha hp hsys hpo⟩
  case timer =>
    intro s hc hsys hpo
    obtain ⟨t, ht, hcount, hses, hack, hphase, hlow, hframe⟩ := busTimerExpiry_leaves hc hsys hpo
    exact ⟨t, ht, hcount, hses, hack, hphase, hlow, hframe⟩
  case wedge =>
    intro s n a rest hq ho hserv hl hw hp
    obtain ⟨hst, hqueue, hqz, hcode, hdis, hcyc, hothers⟩ := wedgeSession_leaves
      (s := s.reach (a.headAt.getD s.qz.time + 1000000 * (s.ses n).wedgeMs)) hq (fun x hx => ⟨(hl x hx).1, (hl x hx).2⟩) hw hp
    refine ⟨_, exec_sessionWedge hq ho hserv, hst, hqueue, ?_, hcode, fun hr hk => ?_, fun c hc hn => ?_, hothers⟩
    · rw [hqz]
      exact Nat.le_max_right _ _
    · refine (hdis hr).trans ?_
      rw [hk]
      show (if !headBegun s n && true then _ else _) = _
      cases headBegun s n <;> rfl
    · exact ⟨{ c with dead := true }, by rw [hcyc, killCycle, State.reach_arb, hc]; simp [hn], rfl⟩
  case loop =>
    intro s m n a rest i w hserv hmaster harst hoff hready hq htarget hs hk hv hdone hgot hsize u tcls addr
    have hdue : LoopDue s m n a i w := ⟨hserv, hmaster, harst, hoff, hready, htarget, hs.inbound, hk, hdone, hsize⟩
    refine ⟨fun v v1 x hm hv1 hx hxa => ?_, fun hrd hopen hp => loopbackCycle_refused hdue hq hs hv hrd hopen hp⟩
    have hu : u.arb = s.arb := by rw [show u = _ from uncoreEvent_frame _ _ _ _]
    exact loopbackCycle_reads hdue hq hs hv hgot hm (by rw [← hu]; exact hv1) hx hxa

end Sys2Proof.Machine
end

-- ==== Register file ====
section
/-! The register file (O3): what a g or an f register reads after a write. -/

namespace Sys2Proof.Machine

/-! ### The register file (02 R30, R31) -/

theorem spRead_spWrite (a : Arch) (v : W64) : spRead (spWrite a v) = v := by
  unfold spRead spWrite
  cases h : a.level <;> simp only

theorem gRead_gWrite_same (a : Arch) {r : Reg} (v : W64) (h : r ≠ 0#5) : gRead (gWrite a r v) r = v := by
  unfold gRead gWrite
  rw [if_neg h, if_neg h]
  split
  · exact spRead_spWrite a v
  · exact mget_mput_self ..

/-- A register of the map, g1 to g30, does not depend on the stack pointers. -/
theorem gRead_spWrite (a : Arch) {q : Reg} (v : W64) (h : q ≠ 31#5) : gRead (spWrite a v) q = gRead a q := by
  unfold gRead spWrite
  rw [if_neg h, if_neg h]
  cases a.level <;> rfl

theorem gRead_gWrite_other (a : Arch) {r q : Reg} (v : W64) (h : q ≠ r) : gRead (gWrite a r v) q = gRead a q := by
  unfold gWrite
  split
  · rfl
  · split
    · next hr => exact gRead_spWrite a v (hr ▸ h)
    · have hn : q.toNat ≠ r.toNat := fun e => h (BitVec.eq_of_toNat_eq e)
      simp only [gRead, spRead, mget_mput_ne _ _ _ _ _ hn]

theorem fRead_fWrite_other (a : Arch) {r q : Reg} (v : W64) (h : q ≠ r) : fRead (fWrite a r v) q = fRead a q :=
  mget_mput_ne _ _ _ _ _ fun e => h (BitVec.eq_of_toNat_eq e)

/-- The f registers stand apart from the g registers. -/
@[simp] theorem gWrite_f (a : Arch) (r : Reg) (v : W64) : (gWrite a r v).f = a.f := by
  unfold gWrite spWrite; repeat' split
  all_goals rfl

/-- Settles O3: a case split on which of g0, g31 and the map the register number names. -/
theorem registerFile : Obligations.RegisterFile := fun a v =>
  ⟨rfl, rfl,
    fun h => by simp [gRead, gWrite, spRead, spWrite, h],
    fun h => by simp [gRead, gWrite, spRead, spWrite, h],
    fun h => by simp [gRead, gWrite, spRead, spWrite, h],
    fun _ h => gRead_gWrite_same a v h, fun _ _ h => gRead_gWrite_other a v h,
    fun _ => mget_mput_self .., fun _ _ h => fRead_fWrite_other a v h,
    fun r q => ⟨by rw [fRead, gWrite_f, fRead], rfl⟩⟩

end Sys2Proof.Machine
end

-- ==== Commits and exceptions ====
section
/-! What a core does at a commit, at the entry of an exception and in an instruction of the SYS group, with its counters and its encoder off. -/

namespace Sys2Proof.Machine

/-! ### Quiet instruments: what a commit, an exception and a SYS instruction do (05 R144; 17 R506, R517) -/

theorem onlyCore_updCore (s : State) (vc : Vc) (f : Core → Core) : OnlyCore vc s (s.updCore vc f) := onlyCore_setCore ..

/-- A core that changes keeps its instruments off where the two control registers stay. -/
theorem InstrumentsOff.of_core {s t : State} {vc : Vc} (h : InstrumentsOff s vc) (hp : (t.core vc).pmu.ctl = (s.core vc).pmu.ctl)
    (ht : (t.core vc).trc.ctl = (s.core vc).trc.ctl) : InstrumentsOff t vc := ⟨hp ▸ h.pmu, ht ▸ h.trc⟩

/-- A fold over steps that each leave the state leaves it. -/
theorem foldl_fixed {α β : Type} {f : β → α → β} {b : β} (l : List α) (h : ∀ a, f b a = b) : l.foldl f b = b := by
  induction l with
  | nil => rfl
  | cons a l ih => rw [List.foldl_cons, h, ih]

section
variable {s : State} {vc : Vc}

theorem pmuRuns_off (h : InstrumentsOff s vc) : pmuRuns (s.core vc).pmu = false := by rw [pmuRuns, h.pmu, Bool.false_and]

theorem pmuEvent_off (h : InstrumentsOff s vc) (ev : BitVec 8) (l : Level) (pc : W64) (x : Bool) : pmuEvent s vc ev l pc x = s :=
  foldl_fixed _ fun n => by simp [pmuRuns_off h]

theorem pmuEvents_off (h : InstrumentsOff s vc) (evs : List (BitVec 8)) (l : Level) (pc : W64) (x : Bool) : pmuEvents s vc evs l pc x = s :=
  foldl_fixed _ fun e => pmuEvent_off h e l pc x

theorem pmuPace_off (h : InstrumentsOff s vc) (l : Level) (pc : W64) (n : Nat) (r : BitVec 8) : pmuPace s vc l pc n r = s := by
  simp [pmuPace, pmuRuns_off h, pmuEvents_off h]

theorem pmuCourses_off (h : InstrumentsOff s vc) (l : Level) (pc : W64) (n used : Nat) : pmuCourses s vc l pc n used = s := by
  induction n generalizing used with
  | zero => rfl
  | succ n ih => rw [pmuCourses, pmuPace_off h, ih]

theorem pmuWasted_off (h : InstrumentsOff s vc) (pc : W64) (ls : List Level) : pmuWasted s vc pc ls = s :=
  foldl_fixed _ fun l => pmuPace_off h l pc 0 0x21

theorem pmuQueued_off (h : InstrumentsOff s vc) (pc : W64) (q : List (BitVec 8 × Level)) : pmuQueued s vc pc q = s :=
  foldl_fixed _ fun e => pmuEvent_off h e.1 e.2 pc false

theorem traceOn_off (h : InstrumentsOff s vc) (a : Arch) : traceOn s vc a = false := by simp only [traceOn, h.trc, Bool.and_false, Bool.false_and]

/-- The encoder notes that it is not active. -/
def traceIdle (c : Core) : Core := { c with trc := { c.trc with active := false } }

theorem traceEnter_off (h : InstrumentsOff s vc) (a : Arch) (pc : W64) : traceEnter s vc a pc = s.updCore vc traceIdle := by
  simp [traceEnter, traceOn_off h, State.updCore, traceIdle]

theorem InstrumentsOff.idle (h : InstrumentsOff s vc) : InstrumentsOff (s.updCore vc traceIdle) vc :=
  h.of_core (by simp [traceIdle]) (by simp [traceIdle])

theorem traceRetire_off (h : InstrumentsOff s vc) (a : Arch) (r : Retire) : traceRetire s vc a r = s.updCore vc traceIdle := by
  simp only [traceRetire, traceEnter_off h, traceOn_off h.idle, Bool.false_eq_true, if_false]

theorem traceCtx_off (h : InstrumentsOff s vc) (old new : Arch) : traceCtx s vc old new = s := by
  simp [traceCtx, traceOn_off h]

theorem traceExc_off (h : InstrumentsOff s vc) (old new : Arch) (c : BitVec 6) (l : Level) (epc : W64) :
    traceExc s vc old new c l epc = s.updCore vc traceIdle := by
  simp only [traceExc, traceEnter_off h, traceOn_off h.idle, Bool.false_eq_true, if_false]

end

/-- A core without what a commit trains beside its registers: direction counters, hot table, the encoder's note. -/
def untrained (c : Core) : Core :=
  { c with trc := { c.trc with active := false }, micro := { c.micro with pred := [], hot := [] } }

/-- From `s` to `t` core `vc` has trained its predictor and its hot table, and nothing else has changed. -/
structure Trains (vc : Vc) (s t : State) : Prop where
  core : untrained (t.core vc) = untrained (s.core vc)
  outside : OnlyCore vc s t

theorem Trains.refl (vc : Vc) (s : State) : Trains vc s s := ⟨rfl, .refl ..⟩

theorem Trains.trans {vc : Vc} {s t u : State} (h : Trains vc s t) (k : Trains vc t u) : Trains vc s u :=
  ⟨k.core.trans h.core, h.outside.trans k.outside⟩

theorem Trains.upd {vc : Vc} {s t : State} (h : Trains vc s t) {f : Core → Core} (hf : ∀ c, untrained (f c) = untrained c) :
    Trains vc s (t.updCore vc f) :=
  h.trans ⟨by rw [State.core_updCore_self, hf], onlyCore_updCore ..⟩

theorem Trains.off {vc : Vc} {s t : State} (h : Trains vc s t) (ho : InstrumentsOff s vc) : InstrumentsOff t vc :=
  ho.of_core (congrArg (·.pmu.ctl) h.core) (congrArg (·.trc.ctl) h.core)

theorem countHot_trains (s : State) (vc : Vc) (a : Arch) (va : W64) (pa : BitVec 48) : Trains vc s (countHot s vc a va pa) :=
  ⟨by simp only [countHot, State.core_setCore_self]; rfl, onlyCore_setCore ..⟩

/-- With the instruments off the commit of one instruction trains the predictors alone. -/
theorem commitOne_trains {s : State} {vc : Vc} (h : InstrumentsOff s vc) (a : Arch) (r : Retire) : Trains vc s (commitOne vc a s r) := by
  have h0 : Trains vc s (s.updCore vc traceIdle) := (Trains.refl vc s).upd fun _ => rfl
  simp only [commitOne, pmuEvents_off h, pmuCourses_off h, traceRetire_off h]
  have h1 : Trains vc s (match r.cond with
      | some (i, b) => (s.updCore vc traceIdle).updCore vc fun c =>
          { c with micro := { c.micro with pred := trainCounter c.micro.pred i.toNat b } }
      | none => s.updCore vc traceIdle) := by
    split
    · exact h0.upd fun _ => rfl
    · exact h0
  split
  · exact h1.trans (countHot_trains ..)
  · exact h1

theorem commitMany_trains {s : State} {vc : Vc} (h : InstrumentsOff s vc) (a : Arch) (rs : List Retire) :
    Trains vc s (rs.foldl (commitOne vc a) s) := by
  induction rs generalizing s with
  | nil => exact .refl ..
  | cons r rs ih => exact (commitOne_trains h a r).trans (ih ((commitOne_trains h a r).off h))

/-- With the instruments off a commit adopts the registers and trains the predictors. -/
theorem commitWith_trains {s : State} {vc : Vc} (h : InstrumentsOff s vc) (adopt : Core → Core) (rs : List Retire)
    (hp : ∀ c, (adopt c).pmu.ctl = c.pmu.ctl) (ht : ∀ c, (adopt c).trc.ctl = c.trc.ctl) :
    Trains vc (s.setCore vc (adopt { s.core vc with evq := [], wasted := [] })) (commitWith s vc adopt rs) := by
  have h1 : InstrumentsOff (s.setCore vc (adopt { s.core vc with evq := [], wasted := [] })) vc :=
    h.of_core (by simp [hp]) (by simp [ht])
  simp only [commitWith, pmuQueued_off h1, pmuWasted_off h1]
  exact commitMany_trains h1 _ rs

/-- The core that a commit of everything leaves, its predictors aside. -/
theorem commitCore_core {s : State} {vc : Vc} (h : InstrumentsOff s vc) :
    untrained ((commitCore s vc).core vc) = untrained (adoptSpec { s.core vc with evq := [], wasted := [] }) := by
  have k := (commitWith_trains h adoptSpec (s.core vc).retire (fun _ => rfl) (fun _ => rfl)).core
  rwa [State.core_setCore_self] at k

theorem commitCore_onlyCore {s : State} {vc : Vc} (h : InstrumentsOff s vc) : OnlyCore vc s (commitCore s vc) :=
  (onlyCore_setCore ..).trans (commitWith_trains h adoptSpec (s.core vc).retire (fun _ => rfl) (fun _ => rfl)).outside

theorem commitCore_off {s : State} {vc : Vc} (h : InstrumentsOff s vc) : InstrumentsOff (commitCore s vc) vc :=
  h.of_core (congrArg (·.pmu.ctl) (commitCore_core h)) (congrArg (·.trc.ctl) (commitCore_core h))

theorem commitCore_settled {s : State} {vc : Vc} (h : InstrumentsOff s vc) : Settled (commitCore s vc) vc (s.core vc).spec :=
  ⟨congrArg (·.arch) (commitCore_core h), congrArg (·.spec) (commitCore_core h)⟩

/-! ### Taking an exception (02 R51) -/

theorem OnlyCore.fStyleOf {vc : Vc} {s t : State} (h : OnlyCore vc s t) (a : Arch) : t.fStyleOf a = s.fStyleOf a := by
  rw [h.device]; rfl

theorem OnlyCore.noPavWait {vc : Vc} {s t : State} (h : OnlyCore vc s t) (hn : noPavWait s) : noPavWait t := by
  rw [h.device]; exact hn

/-- Where no PAV_STOP or PAV_RESET waits, none goes on. -/
theorem advancePavs_quiet {s : State} (h : noPavWait s) : advancePavs s = s := by
  have hf : s.pavs.filter (fun p => p.2.wait.isSome || !p.2.stops.isEmpty) = [] :=
    List.filter_eq_nil_iff.2 fun p hp => by simp [(h p hp).1, (h p hp).2]
  simp [advancePavs, hf]

theorem vectorOffset_eq (old new : Level) (irq : Bool) : vectorOffset old new (if irq then 1 else 0) = vectorTable old new irq := by
  cases irq <;> rfl

/-- Class and detail stand apart in a syndrome. -/
theorem esyn_fields (c : BitVec 6) (d : BitVec 26) : (c.setWidth 64 ||| d.setWidth 64 <<< 6).extractLsb' 0 6 = c
    ∧ (c.setWidth 64 ||| d.setWidth 64 <<< 6).extractLsb' 6 26 = d := by
  constructor
  · ext i hi
    simp [hi, show i < 64 by omega]
  · ext i hi
    simp [show 6 + i < 64 by omega, BitVec.getLsbD_eq_getElem hi]

/-- PPL, PIE and PCF stand apart in a saved status. -/
theorem estat_fields (l : BitVec 2) (ie : Bool) (f : BitVec 4) :
    let e : W64 := l.setWidth 64 ||| (if ie then 4 else 0) ||| f.setWidth 64 <<< 4
    e.extractLsb' 0 2 = l ∧ e.getLsbD 2 = ie ∧ e.extractLsb' 4 4 = f := by
  refine ⟨?_, ?_, ?_⟩
  · ext i hi
    have : i = 0 ∨ i = 1 := by omega
    rcases this with rfl | rfl <;> cases ie <;> simp
  · cases ie <;> simp
  · ext i hi
    have : i = 0 ∨ i = 1 ∨ i = 2 ∨ i = 3 := by omega
    rcases this with rfl | rfl | rfl | rfl <;> cases ie <;> simp

/-- The bank of the level that takes an exception. -/
theorem bankAt_excEntry (a : Arch) (fs : Bool) (x : Exc) (epc : W64) (kind : Nat) :
    bankAt (excEntry a fs x epc kind) x.lvl = { bankAt a x.lvl with
      epc := epc &&& ~~~ 3#64
      estat := (levelCode a.level).setWidth 64 ||| (if ieAt a x.lvl then 4 else 0) ||| (if fs then a.cf else 0).setWidth 64 <<< 4
      esyn := x.cls.setWidth 64 ||| x.detail.setWidth 64 <<< 6, eaddr := x.addr } := by
  unfold bankAt excEntry ieAt
  by_cases hl : x.lvl = .h
  · simp only [hl, if_true]
  · simp only [hl, if_false]

/-- The registers that an exception leaves are those that the rule gives. -/
theorem excEntry_takenAs (a : Arch) (fs : Bool) (x : Exc) (epc : W64) (kind : Nat) :
    TakenAs a (excEntry a fs x epc kind) fs x.cls x.detail x.addr epc x.lvl (vectorOffset a.level x.lvl kind) := by
  have hb := bankAt_excEntry a fs x epc kind
  obtain ⟨hcls, hdet⟩ := esyn_fields x.cls x.detail
  obtain ⟨hppl, hpie, hpcf⟩ := estat_fields (levelCode a.level) (ieAt a x.lvl) (if fs then a.cf else 0)
  exact {
    esynClass := hb ▸ hcls, esynDetail := hb ▸ hdet, eaddr := hb ▸ rfl, epc := hb ▸ rfl
    ppl := hb ▸ hppl, pie := hb ▸ hpie, pcf := hb ▸ hpcf
    ie := by unfold ieAt excEntry; split <;> rfl
    level := rfl
    pc := by unfold bankAt excEntry; split <;> rfl
    bank := hb ▸ ⟨rfl, rfl⟩
    other := by unfold excEntry; split <;> exact ⟨rfl, rfl⟩
    rest := by unfold excEntry; split <;> exact ⟨rfl, rfl, rfl, rfl, rfl, rfl, rfl, rfl, rfl, rfl, rfl⟩ }

/-- The core that an exception enters with the registers `a`, before the instruments note it. -/
def enteredCore (c : Core) (a : Arch) : Core :=
  startBlock (setArch { c with wfe := false, wait := none, frame := [], owait := false } a)

/-- Core `vc` has entered an exception from `s` to `t` and stands there with the registers `a`; nothing outside it has changed. -/
structure Enters (vc : Vc) (s t : State) (a : Arch) : Prop where
  core : ∃ n, untrained (t.core vc) = untrained { enteredCore (s.core vc) a with irqAge := n }
  outside : OnlyCore vc s t

theorem Enters.settled {vc : Vc} {s t : State} {a : Arch} (h : Enters vc s t a) : Settled t vc a := by
  obtain ⟨n, hc⟩ := h.core
  exact ⟨congrArg (·.arch) hc, congrArg (·.spec) hc⟩

/-- With the instruments off an exception sets the registers and nothing else of the device. -/
theorem enterExc_enters {s : State} {vc : Vc} (h : InstrumentsOff s vc) (x : Exc) (epc : W64) (kind : Nat) :
    Enters vc s (enterExc s vc x epc kind) (excEntry (s.core vc).arch (s.fStyleOf (s.core vc).arch) x epc kind) := by
  let a := excEntry (s.core vc).arch (s.fStyleOf (s.core vc).arch) x epc kind
  let s0 := s.setCore vc (enteredCore (s.core vc) a)
  let s1 := if irqDue s0 (s0.core vc) then s0 else s0.updCore vc (fun d => { d with irqAge := 0 })
  have hs1 : OnlyCore vc s s1 ∧ ∃ n, s1.core vc = { enteredCore (s.core vc) a with irqAge := n } := by
    dsimp only [s1]
    split
    · exact ⟨onlyCore_setCore .., _, State.core_setCore_self ..⟩
    · exact ⟨(onlyCore_setCore ..).trans (onlyCore_updCore ..), 0, by simp [s0]⟩
  obtain ⟨ho, n, hn⟩ := hs1
  have h1 : InstrumentsOff s1 vc := h.of_core (by rw [hn]; rfl) (by rw [hn]; rfl)
  have he : enterExc s vc x epc kind = s1.updCore vc traceIdle := by
    show traceExc (pmuEvent s1 vc _ _ _ false) vc _ _ _ _ _ = _
    rw [pmuEvent_off h1, traceExc_off h1]
  rw [he]
  exact ⟨⟨n, by rw [State.core_updCore_self, hn]; rfl⟩, ho.trans (onlyCore_updCore ..)⟩

/-- From `s` to `t` core `vc` has taken the exception `x` at its PC as the rule gives; it holds nothing uncommitted and is in no region. -/
structure Raises (vc : Vc) (s t : State) (x : Exc) : Prop where
  taken : ∃ b, Settled t vc b ∧ TakenAs (s.core vc).spec b (s.fStyleOf (s.core vc).spec) x.cls x.detail x.addr
    (if x.next then (s.core vc).spec.pc + 4 else (s.core vc).spec.pc) x.lvl (vectorTable (s.core vc).spec.level x.lvl false)
  outside : OnlyCore vc s t
  retire : (t.core vc).retire = []
  region : (t.core vc).region = none

/-- In step mode, with everything older complete and no interrupt due, an exception is taken at once (02 R56, R58). -/
theorem raise_raises {s : State} {vc : Vc} (ho : InstrumentsOff s vc) (hr : (s.core vc).region = none) (hc : canCommit (s.core vc) = true)
    (hi : irqFirst s vc = false) (x : Exc) : ∃ t, raise s vc x = some t ∧ Raises vc s t x := by
  obtain ⟨ha, -⟩ := commitCore_settled ho
  let pc := (s.core vc).spec.pc
  have he := enterExc_enters (commitCore_off ho) x (if x.next then pc + 4 else pc) 0
  rw [ha, (commitCore_onlyCore ho).fStyleOf] at he
  obtain ⟨n, hcore⟩ := he.core
  refine ⟨enterExc (commitCore s vc) vc x (if x.next then pc + 4 else pc) 0, ?_, ⟨_, he.settled, excEntry_takenAs ..⟩,
    (commitCore_onlyCore ho).trans he.outside, (congrArg (·.retire) hcore).trans (congrArg (·.retire) (commitCore_core ho)),
    congrArg (·.region) hcore⟩
  simp [raise, hr, hc, hi, ha, pc]

/-- A core that holds nothing uncommitted and is in no region has no entry to mark. -/
theorem noteEntry_quiet {s : State} {vc : Vc} (hr : (s.core vc).retire = []) (hg : (s.core vc).region = none) (n : Nat) :
    noteEntry s vc n = s := by simp [noteEntry, hr, hg]

section
variable {s : State} {vc : Vc} {w : W32} {op : CoreOp} {s1 t : State} {en : Bool} {mine : CoreOp → Bool} {run : CoreOp → State → Option State}

/-- A row whose word leaves nothing uncommitted ends in its result. -/
theorem instrRow_alone (h : Ready s vc w op s1 en) (hm : mine op = true) (hrun : run op s1 = some t) (hr : (t.core vc).retire = [])
    (hg : (t.core vc).region = none) : instrRow s vc w mine run = t := by
  rw [instrRow_ready h hm hrun, noteEntry_quiet hr hg, ite_self]

/-- A row whose word raises an exception ends in its entry. -/
theorem instrRow_raises (h : Ready s vc w op s1 en) (hm : mine op = true) {x : Exc} (hrun : run op s1 = raise s1 vc x)
    (ho : InstrumentsOff s1 vc) (hr : (s1.core vc).region = none) (hc : canCommit (s1.core vc) = true) (hi : irqFirst s1 vc = false) :
    Raises vc s1 (instrRow s vc w mine run) x := by
  obtain ⟨t, ht, hx⟩ := raise_raises ho hr hc hi x
  rwa [instrRow_alone h hm (hrun.trans ht) hx.retire hx.region]

/-- So does a row whose word is illegal by its encoding. -/
theorem instrRow_illegal_raises (h : ReadyIllegal s vc w s1 en) (ho : InstrumentsOff s1 vc) (hr : (s1.core vc).region = none)
    (hc : canCommit (s1.core vc) = true) (hi : irqFirst s1 vc = false) :
    Raises vc s1 (instrRow s vc w mine run) (excIllegal (s1.core vc).spec w) := by
  obtain ⟨t, ht, hx⟩ := raise_raises ho hr hc hi (excIllegal (s1.core vc).spec w)
  rwa [instrRow_illegal h, ht]

end

/-! ### The SYS group (03 R97) -/

section
variable {s : State} {vc : Vc}

/-- What a SYS instruction finds when it begins: everything older committed. -/
theorem SysReady.begun (h : SysReady s vc) : SysReady (commitCore s vc) vc := by
  have hc := commitCore_core h.off
  have hcc := h.complete
  have hsb : ((commitCore s vc).core vc).sb = [] := (congrArg (·.sb) hc).trans (by simp [adoptSpec, untrained, h.stores])
  have hret : ((commitCore s vc).core vc).retire = [] := congrArg (·.retire) hc
  have htk : ((commitCore s vc).core vc).tickets = (s.core vc).tickets := congrArg (·.tickets) hc
  have hck : ((commitCore s vc).core vc).ckpts = (s.core vc).ckpts := congrArg (·.ckpts) hc
  refine ⟨?_, hsb, commitCore_off h.off, (congrArg (·.region) hc).trans h.step⟩
  simp only [canCommit, Bool.and_eq_true, atPoint, hret, htk, hck] at hcc ⊢
  exact ⟨hcc.1, rfl⟩

theorem commitCore_retire (h : InstrumentsOff s vc) : ((commitCore s vc).core vc).retire = [] := congrArg (·.retire) (commitCore_core h)

/-- A SYS instruction begins at once where everything is ready; where it cannot complete it leaves older work committed. -/
theorem sysBegins_ready (h : SysReady s vc) (run : State → Option State) :
    sysBegins s vc run = some ((run (commitCore s vc)).getD (commitCore s vc)) := by
  have hd : drained s vc = some (commitCore s vc) := by simp [drained, h.complete]
  have hsb : ((commitCore s vc).core vc).sb = [] := h.begun.stores
  simp only [sysBegins, hd, hsb, List.isEmpty_nil, if_true]
  cases run (commitCore s vc) <;> rfl

end

/-- An instruction that commits alone has done so from `s` to `t`: the registers of core `vc` are `a`, nothing of it is uncommitted, and nothing outside it has changed (03 R97). -/
structure Completes (vc : Vc) (s t : State) (a : Arch) : Prop where
  settled : Settled t vc a
  outside : OnlyCore vc s t
  off : InstrumentsOff t vc
  retire : (t.core vc).retire = []
  wfe : (t.core vc).wfe = (s.core vc).wfe

theorem Completes.upd {vc : Vc} {s t : State} {a b : Arch} (h : Completes vc s t a) {f : Core → Core}
    (ha : ∀ c, c.arch = a → c.spec = a → (f c).arch = b ∧ (f c).spec = b) (hp : ∀ c, (f c).pmu.ctl = c.pmu.ctl)
    (ht : ∀ c, (f c).trc.ctl = c.trc.ctl) (hr : ∀ c, (f c).retire = c.retire) (hw : ∀ c, (f c).wfe = c.wfe) :
    Completes vc s (t.updCore vc f) b where
  settled := by simpa only [Settled, State.core_updCore_self] using ha _ h.settled.1 h.settled.2
  outside := h.outside.trans (onlyCore_updCore ..)
  off := h.off.of_core (by rw [State.core_updCore_self, hp]) (by rw [State.core_updCore_self, ht])
  retire := by rw [State.core_updCore_self, hr, h.retire]
  wfe := by rw [State.core_updCore_self, hw, h.wfe]

section
variable {s : State} {vc : Vc}

theorem commitCore_completes (h : InstrumentsOff s vc) : Completes vc s (commitCore s vc) (s.core vc).spec :=
  ⟨commitCore_settled h, commitCore_onlyCore h, commitCore_off h, congrArg (·.retire) (commitCore_core h), congrArg (·.wfe) (commitCore_core h)⟩

theorem committedAlone_completes (h : InstrumentsOff s vc) (a : Arch) (evs : List (BitVec 8)) (ends taken : Bool) (ind : Option W64) :
    Completes vc s (committedAlone s vc a evs ends taken ind) a := by
  let u := executed s vc a evs ends taken none ind
  have hu : InstrumentsOff u vc := h.of_core (by simp [u, executed, coreAfter]) (by simp [u, executed, coreAfter])
  have hc := commitCore_completes hu
  have hx := executed_executes s vc a evs ends taken none ind
  rw [hx.regs] at hc
  rw [committedAlone, traceCtx_off (commitCore_off hu)]
  exact ⟨hc.settled, hx.outside.trans hc.outside, hc.off, hc.retire, hc.wfe.trans (congrArg (·.wfe) hx.rest : _)⟩

theorem sysDone_completes (h : InstrumentsOff s vc) (a : Arch) (evs : List (BitVec 8)) : Completes vc s (sysDone s vc a evs) (nextPc a) :=
  (committedAlone_completes h (nextPc a) evs true false none).upd (fun _ h1 h2 => ⟨h1, h2⟩) (fun _ => rfl) (fun _ => rfl) (fun _ => rfl) fun _ => rfl

theorem sysDone_region (s : State) (vc : Vc) (a : Arch) (evs : List (BitVec 8)) : ((sysDone s vc a evs).core vc).region = none := by
  rw [sysDone, State.core_updCore_self]; rfl

end

/-- A SYS row begins at once where its core is ready, and ends in what its instruction does; where that cannot complete, older work has committed. -/
theorem instrRow_sys {s : State} {vc : Vc} {w : W32} {op : CoreOp} {s1 : State} {en : Bool} {mine : CoreOp → Bool}
    {run : CoreOp → State → Option State} {f : State → Option State} {u : State} (h : Ready s vc w op s1 en) (hm : mine op = true)
    (hs : SysReady s1 vc) (hrun : run op s1 = sysBegins s1 vc f) (hu : (f (commitCore s1 vc)).getD (commitCore s1 vc) = u)
    (hr : (u.core vc).retire = []) (hg : (u.core vc).region = none) : instrRow s vc w mine run = u :=
  instrRow_alone h hm (by rw [hrun, sysBegins_ready hs, hu]) hr hg

end Sys2Proof.Machine
end

-- ==== Illegal words and traps ====
section
/-! Illegal words and trap instructions (O12). -/

namespace Sys2Proof.Machine

/-! ### Illegal words and traps (02 R48; 03 R96, R98) -/

theorem free_off {s : State} {vc : Vc} (h : InstrumentsOff s vc) : InstrumentsOff s.free.2 vc := ⟨h.pmu, h.trc⟩

/-- The state in which a trap has completed and its exception is entered, from a state with nothing uncommitted. -/
def trapEntered (s : State) (vc : Vc) (cls : BitVec 6) (code : BitVec 16) (l : Level) : State :=
  let t := sysDone s.free.2 vc (s.core vc).spec []
  advancePavs (enterExc t vc { cls := cls, detail := code.setWidth 26 <<< 10, addr := s.free.1, lvl := l } (t.core vc).arch.pc 0)

theorem trapEntered_taken {s : State} {vc : Vc} (h : InstrumentsOff s vc) (hn : noPavWait s) (cls : BitVec 6) (code : BitVec 16) (l : Level) :
    let a := (s.core vc).spec
    let t := trapEntered s vc cls code l
    (∃ b, Settled t vc b
      ∧ TakenAs { a with pc := a.pc + 4 } b (s.fStyleOf a) cls (code.setWidth 26 <<< 10) (Config.freeBits s.fresh) (a.pc + 4) l
          (vectorTable a.level l false)) ∧ (t.core vc).retire = [] ∧ (t.core vc).region = none := by
  intro a
  have hd := sysDone_completes (free_off h) a []
  let x : Exc := { cls := cls, detail := code.setWidth 26 <<< 10, addr := s.free.1, lvl := l }
  have he := enterExc_enters hd.off x (a.pc + 4) 0
  obtain ⟨n, hcore⟩ := he.core
  have harch : ((sysDone s.free.2 vc a []).core vc).arch = { a with pc := a.pc + 4 } := hd.settled.1
  have ht : trapEntered s vc cls code l = enterExc (sysDone s.free.2 vc a []) vc x (a.pc + 4) 0 := by
    have hq : noPavWait (enterExc (sysDone s.free.2 vc a []) vc x (a.pc + 4) 0) := (hd.outside.trans he.outside).noPavWait hn
    rw [← advancePavs_quiet hq]
    show advancePavs (enterExc _ vc x ((sysDone s.free.2 vc a []).core vc).arch.pc 0) = _
    rw [harch]
  dsimp only
  rw [ht]
  rw [harch, hd.outside.fStyleOf] at he
  exact ⟨⟨_, he.settled, excEntry_takenAs ..⟩, (congrArg (·.retire) hcore).trans hd.retire, congrArg (·.region) hcore⟩

theorem instrRow_trap {s : State} {vc : Vc} {w : W32} {s1 : State} {en : Bool} {op : CoreOp} {mine : CoreOp → Bool} {run : CoreOp → State → Option State}
    {cls : BitVec 6} {code : BitVec 16} {l : Level} (h : Ready s vc w op s1 en) (hm : mine op = true) (hs : SysReady s1 vc) (hn : noPavWait s1)
    (hi : irqFirst s1 vc = false) (hrun : run op s1 = trapTo s1 vc cls code l) :
    let a := (s1.core vc).spec
    ∃ b, Settled (instrRow s vc w mine run) vc b
      ∧ TakenAs { a with pc := a.pc + 4 } b (s1.fStyleOf a) cls (code.setWidth 26 <<< 10) (Config.freeBits s1.fresh) (a.pc + 4) l
          (vectorTable a.level l false) := by
  intro a
  have hc := commitCore_completes hs.off
  obtain ⟨hb, hret, hreg⟩ := trapEntered_taken hc.off (hc.outside.noPavWait hn) cls code l
  have hfresh : (commitCore s1 vc).fresh = s1.fresh := by rw [hc.outside.device]
  rw [hc.settled.2, hc.outside.fStyleOf, hfresh] at hb
  have hrun' : run op s1 = sysBegins s1 vc (fun t => some (trapEntered t vc cls code l)) := by
    rw [hrun, trapTo, hi]; rfl
  rwa [instrRow_sys h hm hs hrun' rfl hret hreg]

/-- Settles O12: every core row answers an illegal word by the same exception, and a trap instruction completes before its exception is entered. -/
theorem exceptionsAreTaken : Obligations.ExceptionsAreTaken := by
  refine ⟨fun s vc w s1 en h hr hc ho hi c hmem => ?_, fun s vc w s1 en code => ?_⟩
  · have row (mine : CoreOp → Bool) (run : CoreOp → State → Option State) (hx : exec c s = .next (instrRow s vc w mine run)) :
        ∃ t b, exec c s = .next t ∧ Settled t vc b ∧ OnlyCore vc s1 t
          ∧ TakenAs (s1.core vc).spec b (s1.fStyleOf (s1.core vc).spec) 0x01 0 (w.setWidth 64) (s1.core vc).spec.pc
              (ownLevel (s1.core vc).spec.level) (vectorTable (s1.core vc).spec.level (ownLevel (s1.core vc).spec.level) false) := by
      obtain ⟨⟨b, hb, ht⟩, ho, -, -⟩ := instrRow_illegal_raises (mine := mine) (run := run) h ho hr hc hi
      exact ⟨_, b, hx, hb, ho, ht⟩
    simp only [List.mem_cons, List.not_mem_nil, or_false] at hmem
    rcases hmem with rfl | rfl | rfl | rfl | rfl | rfl | rfl | rfl | rfl | rfl | rfl | rfl | rfl | rfl | rfl | rfl | rfl | rfl | rfl | rfl | rfl
    all_goals exact row _ _ rfl
  · intro a taken hs hn hi
    refine ⟨fun h hl => ?_, fun h hl => ?_, fun h => ?_⟩
    · exact ⟨_, _, rfl, (instrRow_trap h rfl hs hn hi (if_neg hl)).choose_spec⟩
    · exact ⟨_, _, rfl, (instrRow_trap h rfl hs hn hi (if_neg hl)).choose_spec⟩
    · exact ⟨_, _, rfl, (instrRow_trap h rfl hs hn hi rfl).choose_spec⟩

end Sys2Proof.Machine
end

-- ==== Exception return ====
section
/-! ERET (O13): what it restores, and why it may not run. -/

namespace Sys2Proof.Machine

theorem levelCode_toNat (l : Level) : (levelCode l).toNat = levelNum l := by cases l <;> rfl

theorem levelOf_levelCode (l : Level) : levelOf (levelCode l) = some l := by cases l <;> rfl

theorem eq_levelCode {c : BitVec 2} {l : Level} (h : levelOf c = some l) : c = levelCode l := by
  have hc : ∀ c : BitVec 2, levelOf c = none ∨ c = levelCode ((levelOf c).getD .u) := by decide
  obtain hn | hs := hc c
  · rw [hn] at h; cases h
  · rw [h] at hs; exact hs

/-- 0b11 is the only code that names no level. -/
theorem eq_levelCode_or_three (c : BitVec 2) : (∃ l, c = levelCode l) ∨ c = 3#2 := by
  have h : ∀ c : BitVec 2, c = levelCode .u ∨ c = levelCode .s ∨ c = levelCode .h ∨ c = 3#2 := by decide
  rcases h c with h | h | h | h
  · exact .inl ⟨_, h⟩
  · exact .inl ⟨_, h⟩
  · exact .inl ⟨_, h⟩
  · exact .inr h

/-! ### Why ERET may not run (02 R53) -/

section
variable {a : Arch} (w : W32) {p : Level}

/-- Above U, with a PPL that names a level, the level and the target decide. -/
theorem eretDenied_level (hl : a.level ≠ .u) (hp : (bankAt a a.level).estat.extractLsb' 0 2 = levelCode p) :
    eretDenied a w = if levelNum a.level < levelNum p then some (excIllegal a w)
      else if !canonical (bankAt a a.level).epc then some (excNonCanonical a (bankAt a a.level).epc) else none := by
  unfold eretDenied
  rw [if_neg hl]
  show (match levelOf ((bankAt a a.level).estat.extractLsb' 0 2) with | none => _ | some p => _) = _
  rw [hp, levelOf_levelCode]
  rfl

theorem eretDenied_illegal (h : a.level = .u ∨ (bankAt a a.level).estat.extractLsb' 0 2 = 3#2
    ∨ (levelCode a.level).toNat < ((bankAt a a.level).estat.extractLsb' 0 2).toNat) : eretDenied a w = some (excIllegal a w) := by
  by_cases hl : a.level = .u
  · exact if_pos hl
  obtain ⟨p, hp⟩ | h3 := eq_levelCode_or_three ((bankAt a a.level).estat.extractLsb' 0 2)
  · rw [eretDenied_level w hl hp, if_pos]
    rw [hp, levelCode_toNat, levelCode_toNat] at h
    obtain h | h | h := h
    · exact absurd h hl
    · cases p <;> exact absurd h (by decide)
    · exact h
  · unfold eretDenied
    rw [if_neg hl]
    show (match levelOf ((bankAt a a.level).estat.extractLsb' 0 2) with | none => _ | some p => _) = _
    rw [h3]
    rfl

theorem eretDenied_target (hl : a.level ≠ .u) (hp : ((bankAt a a.level).estat.extractLsb' 0 2).toNat ≤ (levelCode a.level).toNat)
    (hc : canonical (bankAt a a.level).epc = false) : eretDenied a w = some (excNonCanonical a (bankAt a a.level).epc) := by
  obtain ⟨p, he⟩ | h3 := eq_levelCode_or_three ((bankAt a a.level).estat.extractLsb' 0 2)
  · rw [he, levelCode_toNat, levelCode_toNat] at hp
    rw [eretDenied_level w hl he, if_neg (Nat.not_lt.2 hp), hc]
    rfl
  · rw [h3, levelCode_toNat] at hp
    cases hk : a.level <;> rw [hk] at hp <;> exact absurd hp (by decide)

end

/-! ### What ERET restores -/

/-- ERET leaves its core at a block entry. -/
theorem Completes.startBlock {vc : Vc} {s t : State} {a : Arch} (h : Completes vc s t a) : Completes vc s (t.updCore vc startBlock) a :=
  h.upd (fun _ h1 h2 => ⟨h1, h2⟩) (fun _ => rfl) (fun _ => rfl) (fun _ => rfl) fun _ => rfl

/-- The state that an ERET which may run leaves, from a state with nothing uncommitted. -/
def eretDone (s : State) (vc : Vc) : State :=
  let a := eretArch s (s.core vc).spec
  advancePavs ((committedAlone s vc a [] true true (some a.pc)).updCore vc startBlock)

theorem eretDone_completes {s : State} {vc : Vc} (h : InstrumentsOff s vc) (hn : noPavWait s) :
    Completes vc s (eretDone s vc) (eretArch s (s.core vc).spec) ∧ ((eretDone s vc).core vc).region = none := by
  let a := eretArch s (s.core vc).spec
  have hc := (committedAlone_completes h a [] true true (some a.pc)).startBlock
  have he : eretDone s vc = (committedAlone s vc a [] true true (some a.pc)).updCore vc Machine.startBlock :=
    advancePavs_quiet (hc.outside.noPavWait hn)
  rw [he]
  exact ⟨hc, by rw [State.core_updCore_self]; rfl⟩

/-- The registers after an ERET to the level `p`. -/
theorem eretArch_eq (s : State) {a : Arch} {p : Level} (hp : levelOf ((bankAt a a.level).estat.extractLsb' 0 2) = some p) :
    eretArch s a = excReturn a p (s.fStyleOf { a with level := p }) := by
  have h : (levelOf ((if a.level = .h then a.excH else a.excS).estat.extractLsb' 0 2)).getD .u = p := by
    show (levelOf ((bankAt a a.level).estat.extractLsb' 0 2)).getD .u = p
    rw [hp]; rfl
  simp only [eretArch, h]

/-- Settles O13: an ERET that may run begins at once and restores the registers of its bank; one that may not raises its exception. -/
theorem eretRestoresOrIsDenied : Obligations.EretRestoresOrIsDenied := by
  refine ⟨?_, ?_⟩
  · intro s vc w s1 en p a b h hs hn hl hp hle hc cf
    have hd := commitCore_completes hs.off
    obtain ⟨ht, hg⟩ := eretDone_completes hd.off (hd.outside.noPavWait hn)
    have hrun : eretRun vc w .eret s1 = sysBegins s1 vc (fun t => some (eretDone t vc)) := by
      show (match eretDenied a w with | some x => raise s1 vc x | none => _) = _
      rw [eretDenied_level w hl (eq_levelCode hp), if_neg (Nat.not_lt.2 hle), hc]
      rfl
    have ha : eretArch (commitCore s1 vc) a = excReturn a p (s1.fStyleOf { a with level := p }) := by
      rw [eretArch_eq _ hp, hd.outside.fStyleOf]
    have hset := ht.settled
    rw [hd.settled.2, ha] at hset
    refine ⟨eretDone (commitCore s1 vc) vc, congrArg _ (instrRow_sys h rfl hs hrun rfl ht.retire hg), fun hh => ?_, fun hh => ?_⟩
    · have he : excReturn a p (s1.fStyleOf { a with level := p }) = { a with ieH := b.estat.getLsbD 2, cf := cf, level := p, pc := b.epc } := by
        simp only [excReturn, b, cf, bankAt, hh, if_true]
      exact he ▸ hset
    · have he : excReturn a p (s1.fStyleOf { a with level := p }) = { a with ieS := b.estat.getLsbD 2, cf := cf, level := p, pc := b.epc } := by
        simp only [excReturn, b, cf, bankAt, hh, reduceCtorEq, if_false]
      exact he ▸ hset
  · intro s vc w s1 en a l ppl h hs hi
    have row (x : Exc) (hx : eretDenied a w = some x) (hx0 : x.next = false) :
        ∃ t b, exec (.eret vc w) s = .next t ∧ Settled t vc b
          ∧ TakenAs a b (s1.fStyleOf a) x.cls x.detail x.addr a.pc x.lvl (vectorTable a.level x.lvl false) := by
      have hrun : eretRun vc w .eret s1 = raise s1 vc x := by
        show (match eretDenied a w with | some x => raise s1 vc x | none => _) = _
        rw [hx]
      obtain ⟨⟨b, hb, ht⟩, -, -, -⟩ := instrRow_raises (mine := (· == .eret)) h rfl hrun hs.off hs.step hs.complete hi
      rw [hx0] at ht
      exact ⟨_, b, rfl, hb, ht⟩
    refine ⟨fun hill => row _ (eretDenied_illegal w hill) rfl, fun hl hp hc => ?_⟩
    obtain ⟨t, b, ht, hb, hk⟩ := row _ (eretDenied_target w hl hp hc) rfl
    have hlvl : (excNonCanonical a (bankAt a a.level).epc).lvl = l := by
      show (if (false || a.level == .h) = true then Level.h else .s) = if a.level = .h then .h else .s
      simp
    exact ⟨t, b, _, ht, hb, hlvl ▸ hk⟩

end Sys2Proof.Machine
end

-- ==== What traffic leaves alone ====
section
/-! What the fabric, the posts, the counters and the encoder leave alone: the architectural registers of every core, its notices, whether it is suspended, and the state of every pavilion. Its shadow registers stay, or go back to the architectural ones. -/

namespace Sys2Proof.Machine

/-! ### The relation -/

/-- What no message, post or counter touches of a core. -/
def keptOf (c : Core) : Arch × Bool × Option Notice × Option Notice := (c.arch, c.wfe, c.noticeS, c.noticeH)

/-- A change of a core that keeps those, and whose shadow registers stay or are undone. -/
structure Mild (c d : Core) : Prop where
  kept : keptOf d = keptOf c
  spec : d.spec = c.spec ∨ d.spec = c.arch

/-- From `s` to `t` every core has changed mildly, no pavilion has changed its state or its controls, and no PAV_STOP or PAV_RESET has begun to wait. -/
structure Steady (s t : State) : Prop where
  core : ∀ v, Mild (s.core v) (t.core v)
  pav : ∀ p, (t.pav p).st = (s.pav p).st ∧ (t.pav p).ctl = (s.pav p).ctl
  calm : noPavWait s → noPavWait t

theorem Mild.refl (c : Core) : Mild c c := ⟨rfl, .inl rfl⟩

theorem Mild.trans {c d e : Core} (h : Mild c d) (k : Mild d e) : Mild c e where
  kept := k.kept.trans h.kept
  spec := by
    have ha : d.arch = c.arch := congrArg (·.1) h.kept
    obtain hk | hk := k.spec
    · exact hk ▸ h.spec
    · exact .inr (hk.trans ha)

theorem Steady.refl (s : State) : Steady s s := ⟨fun _ => .refl _, fun _ => ⟨rfl, rfl⟩, id⟩

theorem Steady.trans {s t u : State} (h : Steady s t) (k : Steady t u) : Steady s u where
  core v := (h.core v).trans (k.core v)
  pav p := ⟨(k.pav p).1.trans (h.pav p).1, (k.pav p).2.trans (h.pav p).2⟩
  calm := k.calm ∘ h.calm

section
variable {z : State}

/-- Cores and pavilions are all that the relation speaks of. -/
theorem Steady.frame {s t : State} (h : Steady z s) (hc : t.cores = s.cores) (hp : t.pavs = s.pavs) : Steady z t := by
  have hcore (v : Vc) : t.core v = s.core v := by rw [State.core, hc, State.core]
  have hpav (p : Pav) : t.pav p = s.pav p := by rw [State.pav, hp, State.pav]
  exact h.trans ⟨fun v => hcore v ▸ .refl _, fun p => by rw [hpav]; exact ⟨rfl, rfl⟩, fun hn => by rw [noPavWait, hp]; exact hn⟩

theorem setCore_steady {s : State} {vc : Vc} {c : Core} (h : Steady z s) (hc : Mild (s.core vc) c) :
    Steady z (s.setCore vc c) := by
  refine h.trans ⟨fun v => ?_, fun _ => ⟨rfl, rfl⟩, id⟩
  by_cases hv : v = vc
  · rw [hv, State.core_setCore_self]; exact hc
  · rw [State.core_setCore_ne _ _ _ _ hv]; exact .refl _

theorem updCore_steady {s : State} {vc : Vc} {f : Core → Core} (h : Steady z s) (hf : Mild (s.core vc) (f (s.core vc))) :
    Steady z (s.updCore vc f) := setCore_steady h hf

theorem updCore_mild_steady {s : State} {vc : Vc} {f : Core → Core} (hf : ∀ c, Mild c (f c)) (h : Steady z s) : Steady z (s.updCore vc f) :=
  updCore_steady h (hf _)

theorem mem_of_mget? {α : Type} {m : SMap α} {i : Nat} {v : α} (h : mget? m i = some v) : (i, v) ∈ m := by
  induction m with
  | nil => cases h
  | cons p m ih =>
    obtain ⟨k, w⟩ := p
    by_cases hk : k = i
    · simp_all [mget?]
    · simp only [mget?, hk, if_false] at h
      exact List.mem_cons_of_mem _ (ih h)

theorem noPavWait.pav {s : State} (h : noPavWait s) (p : Pav) : (s.pav p).wait = none ∧ (s.pav p).stops = [] := by
  cases hp : mget? s.pavs p.toNat with
  | none => simp [State.pav, mget, hp]
  | some v => simpa [State.pav, mget, hp] using h _ (mem_of_mget? hp)

theorem setPav_steady {s : State} {p : Pav} {v : Pavilion} (h : Steady z s) (hv : v.st = (s.pav p).st ∧ v.ctl = (s.pav p).ctl)
    (hw : (s.pav p).wait = none → v.wait = none) (hs : v.stops = (s.pav p).stops) : Steady z (s.setPav p v) := by
  refine h.trans ⟨fun _ => .refl _, fun q => ?_, fun hn => ?_⟩
  · by_cases hq : q = p
    · rw [hq, State.pav_setPav_self]; exact hv
    · rw [State.pav_setPav_ne _ _ _ _ hq]; exact ⟨rfl, rfl⟩
  · intro x hx
    obtain rfl | hx := (mem_minsert _ _ _ _).1 hx
    · obtain ⟨hwait, hstops⟩ := hn.pav p
      exact ⟨hw hwait, hs.trans hstops⟩
    · exact hn x (List.mem_of_mem_filter hx)

/-- The entries of the translation caches and the fetch buffer are no registers. -/
theorem fetchTake_mild (c : Core) (l : LineNo) : Mild c (fetchTake c l) := ⟨rfl, .inl rfl⟩

theorem tlbInstall_mild (c : Core) (fetch : Bool) (e : TlbEntry) : Mild c (tlbInstall c fetch e) := by
  unfold tlbInstall
  split <;> exact ⟨rfl, .inl rfl⟩

theorem walksInstall_mild (c : Core) (ws : List WalkEntry) : Mild c (walksInstall c ws) := by
  exact List.foldlRecOn (motive := Mild c) ws _ (.refl c) fun d hd w _ => hd.trans ⟨rfl, .inl rfl⟩

theorem keepFills_mild (strict : Bool) (old : List Fill) (c : Core) : Mild c (keepFills strict old c) := by
  unfold keepFills
  split
  · exact .refl c
  · exact ⟨rfl, .inl rfl⟩

theorem stepAt_mild (c : Core) (atEntry : Bool) (pa : Nat) : Mild c (stepAt c atEntry pa) := by
  unfold stepAt
  dsimp only
  split <;> exact ⟨rfl, .inl rfl⟩

theorem fetchTake_steady {s : State} {vc : Vc} {l : LineNo} (h : Steady z s) : Steady z (s.updCore vc (fun c => fetchTake c l)) :=
  updCore_steady h (fetchTake_mild _ l)

theorem tlbInstall_steady {s : State} {vc : Vc} {strict fetch : Bool} {old : List Fill} {e : TlbEntry} (h : Steady z s) :
    Steady z (s.setCore vc (keepFills strict old (tlbInstall (s.core vc) fetch e))) :=
  setCore_steady h ((tlbInstall_mild ..).trans (keepFills_mild ..))

theorem ite_steady {c : Prop} [Decidable c] {s t : State} (hs : Steady z s) (ht : Steady z t) : Steady z (if c then s else t) := by
  split <;> assumption

theorem foldl_steady {α : Type} {f : State → α → State} {l : List α} {s : State} (hf : ∀ t a, Steady z t → Steady z (f t a)) (h : Steady z s) :
    Steady z (l.foldl f s) := by
  induction l generalizing s with
  | nil => exact h
  | cons a l ih => exact ih (hf s a h)

theorem Steady.setFab {s : State} (h : Steady z s) {f : Fabric} : Steady z { s with fab := f } := h.frame rfl rfl
theorem Steady.setFunnel {s : State} (h : Steady z s) {f : Funnel} : Steady z { s with funnel := f } := h.frame rfl rfl
theorem Steady.setFresh {s : State} (h : Steady z s) {n : Nat} : Steady z { s with fresh := n } := h.frame rfl rfl
theorem Steady.setDram {s : State} (h : Steady z s) {d : Dram} : Steady z { s with dram := d } := h.frame rfl rfl

/-- The state of a pair that is known by its parts. -/
theorem Steady.snd {α : Type} {p : α × State} {a : α} {t : State} (h : Steady z p.2) (e : p = (a, t)) : Steady z t := by
  subst e; exact h

theorem snd_ite_steady {α : Type} {c : Prop} [Decidable c] {p q : α × State} (hp : Steady z p.2) (hq : Steady z q.2) : Steady z (if c then p else q).2 := by
  split <;> assumption

theorem setQos_steady {s c q} (h : Steady z s) : Steady z (State.setQos s c q) :=
  h.frame rfl rfl

theorem setCluster_steady {s k v} (h : Steady z s) : Steady z (State.setCluster s k v) :=
  h.frame rfl rfl

theorem setHome_steady {s k v} (h : Steady z s) : Steady z (State.setHome s k v) :=
  h.frame rfl rfl

theorem setL2_steady {s k l v} (h : Steady z s) : Steady z (State.setL2 s k l v) :=
  setCluster_steady h

theorem setMshr_steady {s k l v} (h : Steady z s) : Steady z (State.setMshr s k l v) :=
  setCluster_steady h

theorem setTxn_steady {s k l v} (h : Steady z s) : Steady z (State.setTxn s k l v) :=
  setHome_steady h

theorem setDir_steady {s k l v} (h : Steady z s) : Steady z (State.setDir s k l v) :=
  setHome_steady h

theorem setWbuf_steady {s k l v} (h : Steady z s) : Steady z (setWbuf s k l v) :=
  setHome_steady (setHome_steady h)

theorem scPut_steady {s k l d dirty c} (h : Steady z s) : Steady z (scPut s k l d dirty c) := by
  grind [scPut, setHome_steady, setWbuf_steady]

theorem uncoreEvent_steady {s unit code cls} (h : Steady z s) : Steady z (uncoreEvent s unit code cls) := by
  rw [uncoreEvent_frame]
  exact h.frame rfl rfl

theorem newTag_steady {s a} (h : Steady z s) : Steady z (State.newTag s a).2 :=
  h.frame rfl rfl

theorem sendT_steady {s src cls tag m} (h : Steady z s) : Steady z (sendT s src cls tag m) := by
  unfold sendT
  exact uncoreEvent_steady (h.frame rfl rfl)

theorem sendM_steady {s src cls m} (h : Steady z s) : Steady z (sendM s src cls m) :=
  sendT_steady h

theorem sendAll_steady {s src cls m ks} (h : Steady z s) : Steady z (sendAll s src cls m ks) :=
  foldl_steady (fun _ _ h1 => sendM_steady h1) h

theorem arrive_steady {s p rest} (h : Steady z s) : Steady z (arrive s p rest) :=
  h.frame rfl rfl

theorem dropPacket_steady {s vc} (h : Steady z s) : Steady z (dropPacket s vc) := by
  unfold dropPacket
  dsimp only
  apply uncoreEvent_steady
  apply Steady.setFunnel
  exact setCore_steady h ⟨rfl, .inl rfl⟩

theorem pushPacket_steady {s vc bs} (h : Steady z s) : Steady z (pushPacket s vc bs) := by
  unfold pushPacket
  apply ite_steady
  · dsimp only
    apply Steady.setFunnel
    exact setCore_steady h ⟨rfl, .inl rfl⟩
  · exact dropPacket_steady h

theorem emitRaw_steady {s vc a p} (h : Steady z s) : Steady z (emitRaw s vc a p) :=
  pushPacket_steady (setCore_steady h ⟨rfl, .inl rfl⟩)

theorem emitHeld_steady {s vc a} (h : Steady z s) : Steady z (emitHeld s vc a) :=
  ite_steady h (ite_steady (dropPacket_steady (setCore_steady h ⟨rfl, .inl rfl⟩)) (emitRaw_steady h))

theorem emitSync_steady {s vc a pc} (h : Steady z s) : Steady z (emitSync s vc a pc) :=
  ite_steady (pushPacket_steady (setCore_steady h ⟨rfl, .inl rfl⟩)) h

theorem emitTs_steady {s vc a} (h : Steady z s) : Steady z (emitTs s vc a) :=
  ite_steady (emitRaw_steady h) h

theorem emit_steady {s vc a pc p} (h : Steady z s) : Steady z (emit s vc a pc p) :=
  emitRaw_steady (emitTs_steady (emitSync_steady (emitHeld_steady h)))

theorem traceEnter_steady {s vc a pc} (h : Steady z s) : Steady z (traceEnter s vc a pc) :=
  ite_steady (ite_steady h (emitSync_steady (setCore_steady h ⟨rfl, .inl rfl⟩))) (setCore_steady h ⟨rfl, .inl rfl⟩)

theorem traceRetire_steady {s vc a r} (h : Steady z s) : Steady z (traceRetire s vc a r) := by
  unfold traceRetire
  extract_lets s0 s1 c _ s2
  have h0 : Steady z s0 := traceEnter_steady h
  have h1 : Steady z s1 := ite_steady (emitSync_steady h0) h0
  have h2 : Steady z s2 := by
    unfold s2
    split
    · exact h1
    · extract_lets s'
      have hs : Steady z s' := setCore_steady h1 ⟨rfl, .inl rfl⟩
      exact ite_steady (emitTs_steady (emitHeld_steady hs)) hs
  refine ite_steady ?_ h0
  split
  · exact h2
  · exact emit_steady h2

theorem traceCtx_steady {s vc old new} (h : Steady z s) : Steady z (traceCtx s vc old new) :=
  ite_steady (emit_steady h) h

theorem traceExc_steady {s vc old new cls l epc} (h : Steady z s) : Steady z (traceExc s vc old new cls l epc) :=
  ite_steady (traceCtx_steady (emit_steady (traceEnter_steady h))) (traceEnter_steady h)

theorem sendWb_steady {s k l x} (h : Steady z s) : Steady z (sendWb s k l x) := by
  grind [sendWb, newTag_steady, sendT_steady, setCluster_steady]

theorem discardFill_steady {vc s f} (h : Steady z s) : Steady z (discardFill vc s f) := by
  unfold discardFill
  dsimp only
  split
  · split
    · exact h
    · exact setL2_steady h
  · split
    · exact h
    · exact ite_steady (ite_steady (sendWb_steady (setL2_steady h)) (setL2_steady h)) h
  · exact updCore_steady h ⟨rfl, .inl rfl⟩
  · exact updCore_steady h ⟨rfl, .inl rfl⟩
  · exact updCore_steady h ⟨rfl, .inl rfl⟩
  · exact h

theorem discardFills_steady {s vc n} (h : Steady z s) : Steady z (discardFills s vc n) :=
  foldl_steady (fun _ _ h1 => discardFill_steady h1) (updCore_steady h ⟨rfl, .inl rfl⟩)

theorem rollbackCore_steady {s vc} (h : Steady z s) : Steady z (rollbackCore s vc) :=
  setCore_steady (discardFills_steady h) ⟨rfl, .inr rfl⟩

theorem queueEvent_steady {s vc ev} (h : Steady z s) : Steady z (queueEvent s vc ev) :=
  updCore_steady h ⟨rfl, .inl rfl⟩

theorem specRollback_steady {s vc} (h : Steady z s) : Steady z (specRollback s vc) :=
  queueEvent_steady (rollbackCore_steady h)

theorem rollbackReaders_steady {s k l except} (h : Steady z s) : Steady z (rollbackReaders s k l except) :=
  foldl_steady (fun _ _ h1 => ite_steady (specRollback_steady h1) h1) h

theorem dropRegions_steady {s vc f} (h : Steady z s) : Steady z (dropRegions s vc f) :=
  ite_steady h (ite_steady (setCore_steady h ⟨rfl, .inl rfl⟩)
    (ite_steady (setCore_steady h ⟨rfl, .inl rfl⟩) (rollbackCore_steady (setCore_steady h ⟨rfl, .inl rfl⟩))))

theorem forgetReq_steady {s r} (h : Steady z s) : Steady z (forgetReq s r) :=
  updCore_steady h ⟨rfl, .inl rfl⟩

theorem dropRequests_steady {s k f} (h : Steady z s) : Steady z (dropRequests s k f) :=
  foldl_steady (fun _ _ h1 => forgetReq_steady h1) (setCluster_steady h)

theorem dropRecent_steady {s k f} (h : Steady z s) : Steady z (dropRecent s k f) :=
  setCluster_steady h

theorem dropPage_steady {s k p} (h : Steady z s) : Steady z (dropPage s k p) :=
  dropRecent_steady (dropRequests_steady (foldl_steady (fun _ _ h1 =>
    updCore_mild_steady (fun _ => ⟨rfl, .inl rfl⟩) (dropRegions_steady (ite_steady (rollbackCore_steady h1) h1))) h))

theorem updTxn_steady {s k l f} (h : Steady z s) : Steady z (updTxn s k l f) := by
  grind [updTxn, setTxn_steady]

theorem fillTxn_steady {s k l t} (h : Steady z s) : Steady z (fillTxn s k l t) := by
  grind [fillTxn, Steady.setFab, sendM_steady, setHome_steady, setTxn_steady, uncoreEvent_steady]

theorem closeTxn_steady {s k l} (h : Steady z s) : Steady z (closeTxn s k l) :=
  setTxn_steady h

theorem grantShared_steady {s k l t d} (h : Steady z s) : Steady z (grantShared s k l t d) :=
  sendM_steady (setTxn_steady (setDir_steady h))

theorem grantOwned_steady {s k l t d} (h : Steady z s) : Steady z (grantOwned s k l t d) :=
  sendM_steady (setTxn_steady (setDir_steady h))

theorem performNc_steady {s k l t d} (h : Steady z s) : Steady z (performNc s k l t d) := by
  grind [performNc, closeTxn_steady, scPut_steady, sendT_steady, setDir_steady]

theorem finishTxn_steady {s k l} (h : Steady z s) : Steady z (finishTxn s k l) := by
  grind [finishTxn, closeTxn_steady, grantOwned_steady, grantShared_steady, performNc_steady, scPut_steady, sendM_steady, setDir_steady, setTxn_steady]

theorem claimOwned_steady {s k l t} (h : Steady z s) : Steady z (claimOwned s k l t) := by
  grind [claimOwned, fillTxn_steady, sendAll_steady, sendM_steady, setDir_steady, setTxn_steady]

theorem collectLine_steady {s k l t} (h : Steady z s) : Steady z (collectLine s k l t) := by
  grind [collectLine, fillTxn_steady, sendAll_steady, sendM_steady, setTxn_steady]

theorem proceedTxn_steady {s k l t} (h : Steady z s) : Steady z (proceedTxn s k l t) := by
  grind [proceedTxn, claimOwned_steady, closeTxn_steady, collectLine_steady, fillTxn_steady, sendAll_steady, sendM_steady, setTxn_steady]

theorem startTxn_steady {s k r} (h : Steady z s) : Steady z (startTxn s k r) :=
  ite_steady (sendM_steady (setTxn_steady h)) (ite_steady (sendM_steady (setTxn_steady h)) (finishTxn_steady (proceedTxn_steady (setTxn_steady h))))

theorem startVictim_steady {s k v e1 c} (h : Steady z s) : Steady z (startVictim s k v e1 c) :=
  finishTxn_steady (sendAll_steady (uncoreEvent_steady (setTxn_steady (newTag_steady h))))

theorem queueReq_steady {s k r} (h : Steady z s) : Steady z (queueReq s k r) := by
  unfold queueReq
  exact uncoreEvent_steady (setHome_steady h)

theorem nackReq_steady {s k r} (h : Steady z s) : Steady z (nackReq s k r) := by
  unfold nackReq
  exact sendT_steady (uncoreEvent_steady ((ite_steady (setHome_steady h) h).frame rfl rfl))

theorem pumpQueue_steady {s k} (h : Steady z s) : Steady z (pumpQueue s k) :=
  foldl_steady (fun _ _ h1 => ite_steady h1 (startTxn_steady (setHome_steady h1))) h

theorem pumpVictim_steady {s k} (h : Steady z s) : Steady z (pumpVictim s k) := by
  unfold pumpVictim
  refine foldl_steady (fun t a ht => ?_) ?_
  · dsimp only
    apply ite_steady ht
    split
    · exact startVictim_steady ht
    · exact ht
  · exact h

theorem pumpTokens_steady {s k} (h : Steady z s) : Steady z (pumpTokens s k) := by
  unfold pumpTokens
  refine foldl_steady (fun t a ht => ?_) ?_
  · dsimp only
    split
    · exact ht
    · exact ite_steady ht (sendT_steady ht)
  · exact h

theorem placeReqAs_steady {s r sure} (h : Steady z s) : Steady z (placeReqAs s r sure) := by
  grind [placeReqAs, nackReq_steady, queueReq_steady, startTxn_steady, startVictim_steady]

theorem placeReq_steady {s r} (h : Steady z s) : Steady z (placeReq s r) :=
  placeReqAs_steady h

theorem startDown_steady {s k l owner} (h : Steady z s) : Steady z (startDown s k l owner) := by
  grind [startDown, newTag_steady, sendM_steady, setTxn_steady]

theorem noteDown_steady {s k p l} (h : Steady z s) : Steady z (noteDown s k p l) :=
  setHome_steady h

theorem pumpSet_steady {s k p} (h : Steady z s) : Steady z (pumpSet s k p) := by
  unfold pumpSet
  extract_lets s1
  have h1 : Steady z s1 := foldl_steady (fun _ _ h => startDown_steady (noteDown_steady h)) h
  exact ite_steady h1 (sendM_steady (setHome_steady h1))

theorem pumpSets_steady {s k} (h : Steady z s) : Steady z (pumpSets s k) :=
  foldl_steady (fun _ _ h1 => pumpSet_steady h1) h

theorem pumpLeft_steady {s k} (h : Steady z s) : Steady z (pumpLeft s k) :=
  foldl_steady (fun _ _ h1 => ite_steady h1 (placeReq_steady (h1.frame rfl rfl))) h

theorem pumpHome_steady {s k} (h : Steady z s) : Steady z (pumpHome s k) :=
  pumpTokens_steady (pumpQueue_steady (pumpVictim_steady (pumpQueue_steady (pumpSets_steady (pumpLeft_steady h)))))

theorem openReq_steady {s r} (h : Steady z s) : Steady z (openReq s r) :=
  pumpHome_steady (placeReq_steady h)

theorem sendCmp_steady {s k l c} (h : Steady z s) : Steady z (sendCmp s k l c) :=
  sendM_steady (foldl_steady (fun _ _ h1 => updCore_steady h1 ⟨rfl, .inl rfl⟩) (by grind [setMshr_steady, setL2_steady]))

theorem tryCmp_steady {s k l} (h : Steady z s) : Steady z (tryCmp s k l) := by
  grind [tryCmp, sendCmp_steady]

theorem tryCmpAll_steady {s k n} (h : Steady z s) : Steady z (tryCmpAll s k n) := by
  induction n generalizing s with
  | zero => exact h
  | succ n ih =>
    have ht := foldl_steady (l := mkeys (s.cluster k).mshr) (fun _ l => tryCmp_steady (k := k) (l := BitVec.ofNat 42 l)) h
    exact ite_steady (ih ht) ht

theorem evictLine_steady {s k l} (h : Steady z s) : Steady z (evictLine s k l) := by
  grind [evictLine, rollbackReaders_steady, sendWb_steady, setL2_steady]

theorem l2Room_steady {s k l} (h : Steady z s) : Steady z (l2Room s k l) := by
  grind [l2Room, evictLine_steady]

theorem takeData_steady {s0 k l d granted n dirty} (h : Steady z s0) : Steady z (takeData s0 k l d granted n dirty) := by
  unfold takeData
  split
  · exact h
  next m _ =>
  dsimp only
  have hroom := l2Room_steady (k := k) (l := l) h
  have hline : Steady z (match (l2Room s0 k l).l2 k l with
      | some x => if m.kind == .rdX || m.kind == .upg
          then (l2Room s0 k l).setL2 k l (some { x with st := if dirty then .m else granted, data := d, cls := m.cls }) else l2Room s0 k l
      | none => (l2Room s0 k l).setL2 k l (some { st := if dirty then .m else granted, data := d, pres := [], cls := m.cls })) := by
    split
    · exact ite_steady (setL2_steady hroom) hroom
    · exact setL2_steady hroom
  have hfetch (t : State) (ht : Steady z t) : Steady z (match m.kind, m.core with
      | .rdCode, some v => t.updCore v (fun c => fetchTake c l)
      | _, _ => t) := by
    split
    · exact fetchTake_steady ht
    · exact ht
  split
  · exact tryCmpAll_steady (setMshr_steady (hfetch _ hline))
  · exact tryCmpAll_steady (setMshr_steady (hfetch _ hline))
  · exact sendCmp_steady (hfetch _ hline)

theorem takeGrant_steady {s k l n} (h : Steady z s) : Steady z (takeGrant s k l n) := by
  grind [takeGrant, setL2_steady, tryCmpAll_steady, setMshr_steady]

theorem giveUp_steady {s k l} (h : Steady z s) : Steady z (giveUp s k l) :=
  setL2_steady (rollbackReaders_steady h)

theorem fromWb_steady {s k l e1 req st n} (h : Steady z s) : Steady z (fromWb s k l e1 req st n) :=
  sendM_steady (ite_steady (sendM_steady h) h)

theorem onFwdS_steady {s k l req} (h : Steady z s) : Steady z (onFwdS s k l req) := by
  grind [onFwdS, fromWb_steady, sendM_steady, setL2_steady]

theorem onFwdX_steady {s k l req n} (h : Steady z s) : Steady z (onFwdX s k l req n) := by
  grind [onFwdX, fromWb_steady, giveUp_steady, sendM_steady]

theorem onFwdRd_steady {s k l} (h : Steady z s) : Steady z (onFwdRd s k l) := by
  grind [onFwdRd, fromWb_steady, sendM_steady, setL2_steady]

theorem onInv_steady {s k l coll} (h : Steady z s) : Steady z (onInv s k l coll) :=
  sendM_steady (giveUp_steady h)

theorem onBinv_steady {s k l} (h : Steady z s) : Steady z (onBinv s k l) := by
  grind [onBinv, fromWb_steady, giveUp_steady, sendM_steady]

theorem wbEntry_steady {s h1 l} (h : Steady z s) : Steady z (wbEntry s h1 l) := by
  grind [wbEntry, setDir_steady]

theorem dropHolder_steady {s h1 l k} (h : Steady z s) : Steady z (dropHolder s h1 l k) := by
  grind [dropHolder, setDir_steady]

theorem refill_steady {s h1 l} (h : Steady z s) : Steady z (refill s h1 l) := by
  grind [refill, fillTxn_steady, finishTxn_steady, setTxn_steady]

theorem endPre_steady {s h1 l t} (h : Steady z s) : Steady z (endPre s h1 l t) :=
  ite_steady (setTxn_steady h) (finishTxn_steady (proceedTxn_steady (setTxn_steady h)))

theorem onNotHeld_steady {s h1 l k} (h : Steady z s) : Steady z (onNotHeld s h1 l k) := by
  grind [onNotHeld, closeTxn_steady, dropHolder_steady, endPre_steady, refill_steady]

theorem endForward_steady {s h1 l t} (h : Steady z s) : Steady z (endForward s h1 l t) :=
  ite_steady (endPre_steady h) (ite_steady (closeTxn_steady h) (setTxn_steady h))

theorem onFwdAck3_steady {s h1 l k t} (h : Steady z s) : Steady z (onFwdAck3 s h1 l k t) := by
  grind [onFwdAck3, closeTxn_steady, endForward_steady, endPre_steady, fillTxn_steady, finishTxn_steady, setDir_steady, setTxn_steady]

theorem onFwdAck_steady {s h1 l k info tag} (h : Steady z s) : Steady z (onFwdAck s h1 l k info tag) := by
  grind [onFwdAck, endForward_steady, onFwdAck3_steady, setDir_steady]

theorem wbForTxn_steady {s0 h1 l k d c owner t} (h : Steady z s0) : Steady z (wbForTxn s0 h1 l k d c owner t) := by
  unfold wbForTxn
  extract_lets s
  have hs : Steady z s := ite_steady (wbEntry_steady h) h
  refine ite_steady ?_ (ite_steady (setTxn_steady hs) hs)
  exact ite_steady (finishTxn_steady (setTxn_steady hs)) (ite_steady (closeTxn_steady hs) (ite_steady (endPre_steady hs)
    (ite_steady (endForward_steady hs) (finishTxn_steady (fillTxn_steady (setTxn_steady hs))))))

theorem onWb_steady {s h1 l k d c} (h : Steady z s) : Steady z (onWb s h1 l k d c) := by
  grind [onWb, uncoreEvent_steady, scPut_steady, wbForTxn_steady, wbEntry_steady, sendM_steady]

theorem onDataH_steady {s h1 l d dirty c} (h : Steady z s) : Steady z (onDataH s h1 l d dirty c) :=
  finishTxn_steady (updTxn_steady h)

theorem onHomeAck_steady {s h1 l} (h : Steady z s) : Steady z (onHomeAck s h1 l) :=
  finishTxn_steady (updTxn_steady h)

theorem onClusterAck_steady {s k l} (h : Steady z s) : Steady z (onClusterAck s k l) := by
  grind [onClusterAck, setMshr_steady, tryCmpAll_steady]

theorem onMdata_steady {s h1 l d} (h : Steady z s) : Steady z (onMdata s h1 l d) := by
  grind [onMdata, finishTxn_steady, scPut_steady, setTxn_steady]

theorem onCodeAnswer_steady {s h1 l} (h : Steady z s) : Steady z (onCodeAnswer s h1 l) := by
  grind [onCodeAnswer, finishTxn_steady, proceedTxn_steady, setTxn_steady]

theorem onCmp_steady {s h1 l} (h : Steady z s) : Steady z (onCmp s h1 l) := by
  grind [onCmp, closeTxn_steady, setTxn_steady]

theorem onCodeSet_steady {s k p} (h : Steady z s) : Steady z (onCodeSet s k p) :=
  pumpSet_steady (setHome_steady h)

theorem lowerCount_steady {s k p} (h : Steady z s) : Steady z (lowerCount s k p) :=
  setHome_steady h

theorem onCodeClr_steady {s k p} (h : Steady z s) : Steady z (onCodeClr s k p) :=
  sendM_steady (lowerCount_steady h)

theorem startDrop_steady {s h1 p} (h : Steady z s) : Steady z (startDrop s h1 p) :=
  sendAll_steady (uncoreEvent_steady (setHome_steady h))

theorem startMark_steady {s h1 p} (h : Steady z s) : Steady z (startMark s h1 p) :=
  sendAll_steady (setHome_steady h)

theorem answerLines_steady {s h1 p ls} (h : Steady z s) : Steady z (answerLines s h1 p ls) :=
  foldl_steady (fun _ _ h1 => sendM_steady h1) (setHome_steady h)

theorem codeStep_steady {s h1 p} (h : Steady z s) : Steady z (codeStep s h1 p) := by
  grind [codeStep, answerLines_steady, startDrop_steady, startMark_steady]

theorem codeStepAll_steady {s h1} (h : Steady z s) : Steady z (codeStepAll s h1) :=
  foldl_steady (fun _ _ h1 => codeStep_steady h1) h

theorem onCodeAsk_steady {s p l} (h : Steady z s) : Steady z (onCodeAsk s p l) :=
  codeStep_steady (setHome_steady h)

theorem onDropAck_steady {s h1 p k} (h : Steady z s) : Steady z (onDropAck s h1 p k) := by
  grind [onDropAck, sendAll_steady, setHome_steady]

theorem onCodeDone_steady {s k h1 p} (h : Steady z s) : Steady z (onCodeDone s k h1 p) := by
  grind [onCodeDone, codeStepAll_steady, codeStep_steady, setHome_steady]

theorem onRetry_steady {s a l} (h : Steady z s) : Steady z (onRetry s a l) := by
  grind [onRetry, Steady.setFab, placeReqAs_steady, pumpHome_steady, setHome_steady]

theorem onAdata_steady {s a l v} (h : Steady z s) : Steady z (onAdata s a l v) :=
  h.frame rfl rfl

theorem tagUse_steady {s sl dirty c} (h : Steady z s) : Steady z (tagUse s sl dirty c) :=
  ite_steady (h.frame rfl rfl) (uncoreEvent_steady (h.frame rfl rfl))

theorem countWrite_steady {s l v c} (h : Steady z s) : Steady z (countWrite s l v c) :=
  ite_steady (uncoreEvent_steady (uncoreEvent_steady h)) (tagUse_steady (uncoreEvent_steady (uncoreEvent_steady h)))

theorem readSlot_steady {s l c} (h : Steady z s) : Steady z (readSlot s l c).2 := by
  have h1 {u code} : Steady z (uncoreEvent (uncoreEvent s u 1 c) u code c) := uncoreEvent_steady (uncoreEvent_steady h)
  have h2 {b : Bool} {u code sl} : Steady z (if b then uncoreEvent (uncoreEvent s u 1 c) u code c
      else tagUse (uncoreEvent (uncoreEvent s u 1 c) u code c) sl false c) := ite_steady h1 (tagUse_steady h1)
  exact ite_steady h2 (setQos_steady h2)

theorem onMrd_steady {s l} (h : Steady z s) : Steady z (onMrd s l) :=
  sendM_steady (readSlot_steady h)

theorem keepRecord_steady {s l w1} (h : Steady z s) : Steady z (keepRecord s l w1) :=
  h.frame rfl rfl

theorem setKeep_steady {s l v} (h : Steady z s) : Steady z (setKeep s l v) :=
  h.frame rfl rfl

theorem blvTake_steady {s l d} (h : Steady z s) : Steady z (blvTake s l d) :=
  h.frame rfl rfl

theorem blvAgain_steady {s l d} (h : Steady z s) : Steady z (blvAgain s l d) :=
  ite_steady (uncoreEvent_steady (blvTake_steady h)) h

theorem keepStore_steady {s l d} (h : Steady z s) : Steady z (keepStore s l d) := by
  have h1 := countWrite_steady (l := l) (v := d) (c := devClass)
    (uncoreEvent_steady (unit := 16 + s.stopOf 30) (code := 1) (cls := devClass) (keepRecord_steady (l := l) (w1 := some d) h))
  exact blvAgain_steady (h1.setDram)

theorem keepWrite_steady {s r} (h : Steady z s) : Steady z (keepWrite s r) := by
  unfold keepWrite
  exact sendT_steady (uncoreEvent_steady (keepStore_steady (setKeep_steady h)))

theorem keepServe_steady {s r} (h : Steady z s) : Steady z (keepServe s r) :=
  ite_steady (ite_steady (keepWrite_steady h) (setKeep_steady h)) (sendM_steady (setKeep_steady h))

theorem keepStart_steady {s r} (h : Steady z s) : Steady z (keepStart s r) :=
  ite_steady (sendM_steady (uncoreEvent_steady (setKeep_steady (keepRecord_steady h)))) (keepServe_steady (keepRecord_steady h))

theorem keepAccept_steady {s r} (h : Steady z s) : Steady z (keepAccept s r) :=
  ite_steady (h.frame rfl rfl) (keepStart_steady h)

theorem keepNext_steady {s l} (h : Steady z s) : Steady z (keepNext s l) :=
  foldl_steady (fun _ _ h1 => ite_steady h1 (keepStart_steady (h1.frame rfl rfl))) h

theorem onSpineData_steady {s l d} (h : Steady z s) : Steady z (onSpineData s l d) := by
  grind [onSpineData, blvTake_steady, keepNext_steady, keepStore_steady, sendT_steady, setKeep_steady, uncoreEvent_steady]

theorem onKinv_steady {s l} (h : Steady z s) : Steady z (onKinv s l) :=
  sendM_steady (h.frame rfl rfl)

theorem onSpineAck_steady {s l} (h : Steady z s) : Steady z (onSpineAck s l) := by
  grind [onSpineAck, keepNext_steady, keepServe_steady]

theorem keepPump_steady {s} (h : Steady z s) : Steady z (keepPump s) :=
  foldl_steady (fun _ _ h1 => by grind [keepNext_steady, keepWrite_steady]) h

theorem deliver_steady {s p u} (h : Steady z s) (e : deliver s p = some u) : Steady z u := by
  grind [deliver, onFwdS_steady, onFwdX_steady, onFwdRd_steady, onInv_steady, onBinv_steady, sendM_steady, dropPage_steady, onKinv_steady,
    onClusterAck_steady, pumpHome_steady, onHomeAck_steady, onSpineAck_steady, onFwdAck_steady, onNotHeld_steady, takeGrant_steady, onCmp_steady,
    onWb_steady, setCluster_steady, onRetry_steady, onCodeAnswer_steady, onDropAck_steady, takeData_steady, onDataH_steady, onMrd_steady,
    onSpineData_steady, onMdata_steady, onAdata_steady, onCodeAsk_steady, onCodeSet_steady, onCodeClr_steady, onCodeDone_steady, Steady.setFresh]

theorem deliverFirst_steady {s f u} (h : Steady z s) (e : deliverFirst s f = some u) : Steady z u := by
  unfold deliverFirst at e
  split at e
  · cases e
  · exact deliver_steady (arrive_steady h) e

theorem settle_steady {l n s} (h : Steady z s) : Steady z (settle l n s) := by
  induction n generalizing s with
  | zero => exact h
  | succ n ih =>
    unfold settle
    split
    · exact h
    · next e => exact ih (deliverFirst_steady h e)

theorem runNc_steady {s r u} (h : Steady z s) (e : runNc s r = some u) : Steady z u := by
  grind [runNc, settle_steady, newTag_steady, uncoreEvent_steady, openReq_steady]

theorem raisePhys_steady {s vc id} (h : Steady z s) : Steady z (raisePhys s vc id) :=
  updCore_steady h ⟨rfl, .inl rfl⟩

theorem dropNow_steady {s p} (h : Steady z s) : Steady z (dropNow s p) := by
  have h1 : Steady z ((List.range 8).foldl (fun t k => dropPage t k p) s) := foldl_steady (fun _ _ h => dropPage_steady h) h
  exact ite_steady (ite_steady h1 (foldl_steady (fun _ _ h => lowerCount_steady h) (uncoreEvent_steady (setHome_steady h1)))) h

theorem pokeLine_steady {s c l f} (h : Steady z s) : Steady z (pokeLine s c l f) := by
  unfold pokeLine
  apply scPut_steady
  apply updTxn_steady
  apply Steady.setFab
  exact foldl_steady (fun _ _ h1 => by grind [setL2_steady, rollbackReaders_steady]) (dropNow_steady h)

theorem deviceNc_steady {s r} (h : Steady z s) : Steady z (deviceNc s r) := by
  unfold deviceNc
  split
  · next he => exact runNc_steady h he
  · split
    · next he2 =>
        exact ite_steady (openReq_steady ((newTag_steady (uncoreEvent_steady h)).snd he2)) (((newTag_steady (uncoreEvent_steady h)).snd he2).frame rfl rfl)

theorem homeAtomic_steady {s a pa fn v} (h : Steady z s) : Steady z (homeAtomic s a pa fn v) :=
  deviceNc_steady h

theorem setPend_steady {s p v i} (h : Steady z s) : Steady z (setPend s p v i) :=
  homeAtomic_steady h

theorem latchId_steady {s vc i} (h : Steady z s) : Steady z (latchId s vc i) :=
  updCore_steady h ⟨rfl, .inl rfl⟩

theorem doorbell_steady {s pn v} (h : Steady z s) : Steady z (doorbell s pn v) :=
  ite_steady (raisePhys_steady (homeAtomic_steady h)) h

theorem postVirq_steady {s pn i} (h : Steady z s) : Steady z (postVirq s pn i) := by
  unfold postVirq
  dsimp only
  apply ite_steady h
  refine ite_steady (setPav_steady h ⟨rfl, rfl⟩ (fun hw => ?_) rfl) ?_
  · simp [hw]
  apply ite_steady
  · refine ite_steady (setPend_steady (setPav_steady (setQos_steady h) ⟨?_, ?_⟩ ?_ ?_)) ?_
    · rfl
    · rfl
    · exact id
    · rfl
    split
    · exact latchId_steady (setQos_steady h)
    · exact doorbell_steady (setPend_steady (setQos_steady h))
  · exact h

theorem askHome_steady {s k l kind core c} (h : Steady z s) : Steady z (askHome s k l kind core c) := by
  grind [askHome, newTag_steady, openReq_steady, setMshr_steady, uncoreEvent_steady]

theorem askKeep_steady {s r} (h : Steady z s) : Steady z (askKeep s r) := by
  grind [askKeep, keepAccept_steady, newTag_steady, uncoreEvent_steady]

theorem runKeep_steady {s r w u} (h : Steady z s) (e : runKeep s r = some (w, u)) : Steady z u := by
  unfold runKeep at e
  dsimp only at e
  split at e
  · split at e
    · cases e
      exact settle_steady (askKeep_steady (settle_steady h))
    · cases e
  · cases e

theorem agentRead_steady {s a c pa n w u} (h : Steady z s) (e : agentRead s a c pa n = some (w, u)) : Steady z u := by
  simp only [agentRead] at e
  split at e
  · obtain ⟨⟨v, t⟩, hr, e⟩ := Option.map_eq_some_iff.1 e
    cases e
    exact runKeep_steady h hr
  · obtain ⟨t, hr, e⟩ := Option.map_eq_some_iff.1 e
    cases e
    exact runNc_steady h hr

theorem noteFills_steady {s vc fs} (h : Steady z s) : Steady z (noteFills s vc fs) :=
  ite_steady (updCore_steady h ⟨rfl, .inl rfl⟩) h

theorem bringShared_steady {s vc l u} (h : Steady z s) (e : bringShared s vc l = some u) : Steady z u := by
  grind [bringShared, settle_steady, askHome_steady, noteFills_steady]

theorem l1dEvict_steady {s vc l} (h : Steady z s) : Steady z (l1dEvict s vc l) := by
  grind [l1dEvict, setL2_steady, specRollback_steady]

theorem l1dRoom_steady {s vc l} (h : Steady z s) : Steady z (l1dRoom s vc l) := by
  grind [l1dRoom, l1dEvict_steady]

theorem fillL1_steady {s0 vc l} (h : Steady z s0) : Steady z (fillL1 s0 vc l) := by
  grind [fillL1, l1dRoom_steady, noteFills_steady, setL2_steady]

theorem keepTouch_steady {s vc pa u} (h : Steady z s) (e : keepTouch s vc pa = some u) : Steady z u := by
  obtain ⟨⟨v, t⟩, hr, rfl⟩ := Option.map_eq_some_iff.1 e
  exact agentRead_steady h hr

theorem readCode_steady {s k l core c u} (h : Steady z s) (e : readCode s k l core c = some u) : Steady z u := by
  unfold readCode at e
  dsimp only at e
  split at e
  · cases e
    split
    · exact fetchTake_steady (settle_steady h)
    · exact settle_steady h
  · split at e
    · split at e
      · cases e
        split
        · apply ite_steady
          · apply noteFills_steady
            split
            · exact fetchTake_steady (settle_steady (askHome_steady (settle_steady h)))
            · exact settle_steady (askHome_steady (settle_steady h))
          · split
            · exact fetchTake_steady (settle_steady (askHome_steady (settle_steady h)))
            · exact settle_steady (askHome_steady (settle_steady h))
        · split
          · exact fetchTake_steady (settle_steady (askHome_steady (settle_steady h)))
          · exact settle_steady (askHome_steady (settle_steady h))
      · cases e
    · cases e

theorem pmuOverflow_steady {s vc n pc exact} (h : Steady z s) : Steady z (pmuOverflow s vc n pc exact) :=
  ite_steady (ite_steady (ite_steady (postVirq_steady (setCore_steady h ⟨rfl, .inl rfl⟩)) (setCore_steady h ⟨rfl, .inl rfl⟩))
    (raisePhys_steady (setCore_steady h ⟨rfl, .inl rfl⟩))) (setCore_steady h ⟨rfl, .inl rfl⟩)

theorem pmuBump_steady {s vc pc exact f n} (h : Steady z s) : Steady z (pmuBump s vc pc exact f n) := by
  induction f generalizing s n with
  | zero => exact h
  | succ f ih =>
    exact ite_steady (pmuOverflow_steady (ite_steady (ih (setCore_steady h ⟨rfl, .inl rfl⟩)) (setCore_steady h ⟨rfl, .inl rfl⟩)))
      (setCore_steady h ⟨rfl, .inl rfl⟩)

theorem pmuEvent_steady {s vc ev l pc exact} (h : Steady z s) : Steady z (pmuEvent s vc ev l pc exact) :=
  foldl_steady (fun _ _ h1 => ite_steady (pmuBump_steady h1) h1) h

theorem pmuEvents_steady {s vc evs l pc exact} (h : Steady z s) : Steady z (pmuEvents s vc evs l pc exact) :=
  foldl_steady (fun _ _ h1 => pmuEvent_steady h1) h

theorem pmuPace_steady {s vc l pc used rest} (h : Steady z s) : Steady z (pmuPace s vc l pc used rest) :=
  pmuEvents_steady (ite_steady (pmuBump_steady h) h)

theorem pmuCourses_steady {s vc l pc n used} (h : Steady z s) : Steady z (pmuCourses s vc l pc n used) := by
  induction n generalizing s used with
  | zero => exact h
  | succ n ih => exact ih (pmuPace_steady h)

theorem pmuWasted_steady {s vc pc ls} (h : Steady z s) : Steady z (pmuWasted s vc pc ls) :=
  foldl_steady (fun _ _ h1 => pmuPace_steady h1) h

theorem pmuQueued_steady {s vc pc q} (h : Steady z s) : Steady z (pmuQueued s vc pc q) :=
  foldl_steady (fun _ _ h1 => pmuEvent_steady h1) h

theorem walkRead1_steady {s vc pa u} (h : Steady z s) (e : walkRead1 s vc pa = some u) : Steady z u := by
  unfold walkRead1 at e
  split at e
  · exact keepTouch_steady h e
  · obtain ⟨_, hm, rfl⟩ := Option.map_eq_some_iff.mp e
    exact ite_steady (bringShared_steady h hm) (fillL1_steady (bringShared_steady h hm))

theorem walkTouch_steady {vc l s u} (h : Steady z s) (e : walkTouch vc l s = some u) : Steady z u := by
  unfold walkTouch at e
  split at e
  · cases e
    exact h
  · split at e
    · cases e
    · next he =>
        split at e
        · cases e
          exact walkRead1_steady h he
        · exact walkTouch_steady (walkRead1_steady h he) e

theorem freshXlat_steady {s vc va acc fetch fromMem} (h : Steady z s) : Steady z (freshXlat s vc va acc fetch fromMem).2 := by
  simp only [freshXlat]
  split
  · exact h
  · next he _ => exact walkTouch_steady h he
  · next he _ =>
      split
      · exact walkTouch_steady h he
      · exact setCore_steady (walkTouch_steady h he)
          (((tlbInstall_mild ..).trans (walksInstall_mild ..)).trans (keepFills_mild ..))

theorem xlate_steady {s vc va acc fetch} (h : Steady z s) : Steady z (xlate s vc va acc fetch).2 := by
  simp only [xlate]
  apply snd_ite_steady
  · exact h
  · apply snd_ite_steady
    · exact h
    · apply snd_ite_steady
      · split
        · exact h
        · exact h
      · split
        · apply snd_ite_steady
          · exact freshXlat_steady (updCore_steady h ⟨rfl, .inl rfl⟩)
          · split
            · exact freshXlat_steady (updCore_steady (tlbInstall_steady h) ⟨rfl, .inl rfl⟩)
            · exact tlbInstall_steady h
            · exact tlbInstall_steady h
        · split
          · next he => exact snd_ite_steady ((freshXlat_steady h).snd he) (freshXlat_steady (updCore_steady ((freshXlat_steady h).snd he) ⟨rfl, .inl rfl⟩))
          · exact freshXlat_steady h

theorem countHot_steady {s vc a va pa} (h : Steady z s) : Steady z (countHot s vc a va pa) :=
  setCore_steady h ⟨rfl, .inl rfl⟩

theorem commitOne_steady {vc a s r} (h : Steady z s) : Steady z (commitOne vc a s r) := by
  unfold commitOne
  dsimp only
  split
  · apply countHot_steady
    split
    · exact updCore_steady (traceRetire_steady (pmuCourses_steady (pmuEvents_steady h))) ⟨rfl, .inl rfl⟩
    · exact traceRetire_steady (pmuCourses_steady (pmuEvents_steady h))
  · split
    · exact updCore_steady (traceRetire_steady (pmuCourses_steady (pmuEvents_steady h))) ⟨rfl, .inl rfl⟩
    · exact traceRetire_steady (pmuCourses_steady (pmuEvents_steady h))

theorem fetchLine_steady {s vc l u} (h : Steady z s) (e : fetchLine s vc l = some u) : Steady z u := by
  unfold fetchLine at e
  split at e
  · cases e
    exact h
  · exact readCode_steady h e

theorem fetchAt_steady {s vc} (h : Steady z s) : Steady z (fetchAt s vc).state := by
  unfold fetchAt
  dsimp only
  split
  · exact h
  split
  · exact setCore_steady h ⟨rfl, .inl rfl⟩
  split
  next e => exact ite_steady (c := undone s _ vc) ((xlate_steady h).snd e) h
  next e =>
    have h1 := (xlate_steady h).snd e
    split
    · exact h1
    · simpa only [Fetched.state] using updCore_steady h1 ⟨rfl, .inl rfl⟩
  next x s1 e =>
    have h1 := (xlate_steady h).snd e
    split
    · exact h1
    split
    · exact h
    split
    · exact h
    next e2 =>
      have h2 := fetchLine_steady h1 e2
      split
      · exact h2
      · exact updCore_steady (f := fun d => stepAt d _ x.pa) h2 (stepAt_mild ..)

end

end Sys2Proof.Machine
end

-- ==== Barriers and waits ====
section
/-! SYNC, SYNC.D, SYNC.T, SYNC.I and WFE (O14). -/

namespace Sys2Proof.Machine

/-! ### Barriers (02 R66 to R69) -/

/-- A commit of everything leaves the condition of SYNC as it was. -/
theorem syncReady_commitCore {s : State} {vc : Vc} (h : SysReady s vc) : syncReady (commitCore s vc) vc = syncReady s vc := by
  have hc := commitCore_core h.off
  have hm : ((commitCore s vc).core vc).micro.syncMarks = (s.core vc).micro.syncMarks := congrArg (·.micro.syncMarks) hc
  have hsb : ((commitCore s vc).core vc).sb = (s.core vc).sb := h.begun.stores.trans h.stores.symm
  have ho := (commitCore_onlyCore h.off).device
  have harb : (commitCore s vc).arb = s.arb := by rw [ho]
  have hk (k : Nat) : (commitCore s vc).cluster k = s.cluster k := by rw [ho]; rfl
  have hv : (commitCore s vc).clusterOf vc = s.clusterOf vc := by rw [ho]; rfl
  simp only [syncReady, syncDone, storesDone, hm, hsb, harb, hk, hv]

/-- A barrier completes where its condition holds once everything older has committed; until then it waits. -/
theorem instrRow_barrier {s : State} {vc : Vc} {w : W32} {op : CoreOp} {s1 : State} {en : Bool} {mine : CoreOp → Bool}
    {run : CoreOp → State → Option State} {ready : State → Bool} {b : Bool} (h : Ready s vc w op s1 en) (hm : mine op = true)
    (hs : SysReady s1 vc) (hrun : run op s1 = barrier s1 vc ready) (hb : ready (commitCore s1 vc) = b) :
    let a := (s1.core vc).spec
    Settled (instrRow s vc w mine run) vc (if b then nextPc a else a) ∧ OnlyCore vc s1 (instrRow s vc w mine run) := by
  intro a
  have hc := commitCore_completes hs.off
  cases b with
  | false =>
    have hu : (if ready (commitCore s1 vc) then some (sysDone (commitCore s1 vc) vc ((commitCore s1 vc).regs vc) []) else none).getD
        (commitCore s1 vc) = commitCore s1 vc := by rw [hb]; rfl
    rw [instrRow_sys h hm hs hrun hu hc.retire hs.begun.step]
    exact ⟨hc.settled, hc.outside⟩
  | true =>
    have hd := sysDone_completes hc.off a []
    have ha : (commitCore s1 vc).regs vc = a := hc.settled.2
    have hu : (if ready (commitCore s1 vc) then some (sysDone (commitCore s1 vc) vc ((commitCore s1 vc).regs vc) []) else none).getD
        (commitCore s1 vc) = sysDone (commitCore s1 vc) vc a [] := by rw [hb, ha]; rfl
    rw [instrRow_sys h hm hs hrun hu hd.retire (sysDone_region ..)]
    exact ⟨hd.settled, hc.outside.trans hd.outside⟩

/-! ### WFE (02 R60) -/

/-- A word that may execute finds its core awake. -/
theorem Ready.stillAwake {s : State} {vc : Vc} {w : W32} {op : CoreOp} {s1 : State} {en : Bool} (h : Ready s vc w op s1 en) :
    (s1.core vc).wfe = false := by
  have hs := fetchAt_steady (vc := vc) (Steady.refl s)
  rw [h.fetched] at hs
  exact (congrArg (·.2.1) (hs.core vc).kept).trans h.awake

/-- A commit leaves the pending interrupts, where it does not move the core to another pavilion. -/
theorem physPending_commitCore {s : State} {vc : Vc} (h : InstrumentsOff s vc) (htr : (s.core vc).spec.tr = (s.core vc).arch.tr) :
    physPending (commitCore s vc) ((commitCore s vc).core vc) = physPending s (s.core vc) := by
  have hc := commitCore_core h
  have ha : ((commitCore s vc).core vc).arch.tr = (s.core vc).arch.tr := (congrArg (·.arch.tr) hc).trans htr
  have hp : ((commitCore s vc).core vc).phys = (s.core vc).phys := congrArg (·.phys) hc
  have hv (p : Pav) : (commitCore s vc).pav p = s.pav p := by rw [(commitCore_onlyCore h).device]; rfl
  simp only [physPending, stopIrq, ha, hp, hv]

/-- The core suspends after WFE where nothing is pending for it; it goes on where something is. -/
theorem suspend_completes {s : State} {vc : Vc} (h : InstrumentsOff s vc) (hw : (s.core vc).wfe = false) :
    let t := suspend s vc
    Settled t vc (nextPc (s.core vc).spec) ∧ OnlyCore vc s t ∧ (t.core vc).retire = [] ∧ (t.core vc).region = none
      ∧ (t.core vc).wfe = ((physPending s (s.core vc)).isEmpty && (s.core vc).latch.isEmpty) := by
  intro t
  by_cases hp : (!(physPending s (s.core vc)).isEmpty || !(s.core vc).latch.isEmpty) = true
  · have hd := sysDone_completes h (s.core vc).spec []
    have ht : t = sysDone s vc (s.core vc).spec [] := if_pos hp
    rw [ht]
    refine ⟨hd.settled, hd.outside, hd.retire, sysDone_region .., ?_⟩
    rw [hd.wfe, hw]
    rw [← Bool.not_and, Bool.not_eq_true'] at hp
    exact hp.symm
  · have hd := sysDone_completes h (s.core vc).spec [0x27]
    let u := (sysDone s vc (s.core vc).spec [0x27]).updCore vc (fun d => { d with wfe := true, wfeEvent := false })
    have hu : InstrumentsOff u vc := hd.off.of_core (by simp [u]) (by simp [u])
    have ht : t = u := by
      show (if _ then _ else if traceOn u vc _ then _ else u) = u
      rw [if_neg hp, traceOn_off hu]
      rfl
    have hcore : u.core vc = { (sysDone s vc (s.core vc).spec [0x27]).core vc with wfe := true, wfeEvent := false } :=
      State.core_updCore_self ..
    rw [ht]
    refine ⟨?_, hd.outside.trans (onlyCore_updCore ..), ?_, ?_, ?_⟩
    · rw [Settled, hcore]; exact hd.settled
    · rw [hcore]; exact hd.retire
    · rw [hcore]; exact sysDone_region ..
    · rw [hcore]
      rw [← Bool.not_and, Bool.not_eq_true', Bool.not_eq_false] at hp
      exact hp.symm

/-- With the instruments off the vCPU resumes, and nothing else changes. -/
theorem endSuspend_off {s : State} {vc : Vc} (h : InstrumentsOff s vc) :
    endSuspend s vc = (s.updCore vc (fun c => { c with wfe := false, wfeEvent := false })).updCore vc traceIdle := by
  let s1 := s.updCore vc (fun c => { c with wfe := false, wfeEvent := false })
  have h1 : InstrumentsOff s1 vc := h.of_core (by simp [s1]) (by simp [s1])
  show (let s2 := traceEnter s1 vc _ _; if traceOn s2 vc _ then _ else s2) = _
  rw [traceEnter_off h1]
  exact if_neg (by rw [traceOn_off h1.idle]; decide)

/-- Settles O14: a SYS row of a ready core ends in its barrier's completion or wait; WFE suspends the core unless something is pending. -/
theorem barriersAndWaits : Obligations.BarriersAndWaits := by
  refine ⟨?_, ?_, ?_⟩
  · intro s vc w s1 en a goes waits first hs
    have row {c : Instr} {op : CoreOp} {mine : CoreOp → Bool} {run : CoreOp → State → Option State} (ready : State → Bool) (b : Bool)
        (hx : exec c s = .next (instrRow s vc w mine run)) (hm : mine op = true) (hrun : run op s1 = barrier s1 vc ready)
        (hb : ready (commitCore s1 vc) = b) (h : Ready s vc w op s1 en) : if b then goes c else waits c := by
      obtain ⟨hset, hout⟩ := instrRow_barrier h hm hs hrun hb
      cases b
      · exact ⟨_, hx, hset, hout⟩
      · exact ⟨_, hx, hset, hout⟩
    have hc := commitCore_core hs.off
    have hdev : ((commitCore s1 vc).core vc).devStores = (s1.core vc).devStores := congrArg (·.devStores) hc
    have htlb : ((commitCore s1 vc).core vc).tlbis = (s1.core vc).tlbis := congrArg (·.tlbis) hc
    have hsync := syncReady_commitCore hs
    refine ⟨row _ first rfl rfl rfl hsync, row _ _ rfl rfl rfl ?_, row _ _ rfl rfl rfl ?_, row (fun _ => true) true rfl rfl rfl rfl⟩
    · simp only [hsync, hdev, first]
    · simp only [hsync, htlb, first]
  · intro s vc w s1 en h hc ho htr
    have hk := commitCore_completes ho
    obtain ⟨hset, hout, hret, hreg, hwfe⟩ := suspend_completes hk.off (hk.wfe.trans h.stillAwake)
    have hrun : wfeRun vc .wfe s1 = some (suspend (commitCore s1 vc) vc) := by simp [wfeRun, drained, hc]
    have hlatch : ((commitCore s1 vc).core vc).latch = (s1.core vc).latch := congrArg (·.latch) (commitCore_core ho)
    rw [hk.settled.2] at hset
    rw [physPending_commitCore ho htr, hlatch] at hwfe
    refine ⟨suspend (commitCore s1 vc) vc, congrArg Host.Outcome.next (instrRow_alone (mine := (· == .wfe)) h rfl hrun hret hreg), hset, hwfe, hk.outside.trans hout⟩
  · intro s vc hon hw ho
    refine ⟨endSuspend s vc, by simp [exec, execWfeReturnWithoutEvent, whenTrue, hon, hw], ?_⟩
    rw [endSuspend_off ho]
    exact ⟨by simp [traceIdle], by simp [traceIdle], by simp [traceIdle], (onlyCore_updCore ..).trans (onlyCore_updCore ..)⟩

end Sys2Proof.Machine
end

-- ==== System registers ====
section
/-! MFS, MTS, VMID_H and VCPU_H (O15): which registers a level may reach, what a write leaves to be read. -/

namespace Sys2Proof.Machine

/-! ### Reach (02 R34; 03 R101) -/

section
variable {a : Arch} (w : W32) {n : BitVec 12}

theorem sysDenied_illegal (h : (a.level = .u ∧ 0x100 ≤ n.toNat) ∨ 0x800 ≤ n.toNat
    ∨ (sysAssigned n.toNat = false ∧ ¬ (a.level = .s ∧ 0x400 ≤ n.toNat))) : sysDenied a w n = some (excIllegal a w) := by
  unfold sysDenied
  dsimp only
  by_cases h8 : 0x800 ≤ n.toNat
  · exact if_pos h8
  have hs : ¬ (0x400 ≤ n.toNat ∧ a.level = .s) := by
    rintro ⟨h4, hl⟩
    simp [hl, h4, h8] at h
  have hd : (0x100 ≤ n.toNat ∧ a.level = .u) ∨ sysAssigned n.toNat = false := by
    obtain h | h | h := h
    · exact .inl h.symm
    · exact absurd h h8
    · exact .inr h.1
  rw [if_neg h8, if_neg hs, if_pos hd]

theorem sysDenied_hypervisor (hl : a.level = .s) (h4 : 0x400 ≤ n.toNat) (h8 : n.toNat < 0x800) :
    sysDenied a w n = some { cls := 0x0B, addr := zext w, lvl := .h } := by
  unfold sysDenied
  dsimp only
  rw [if_neg (Nat.not_le.2 h8), if_pos ⟨h4, hl⟩]

end

/-! ### Reads and writes in reach (02 R34, R35) -/

@[simp] theorem archWrite_pc (a : Arch) (fs : Bool) (n : Nat) (v : W64) : (archWrite a fs n v).pc = a.pc := by
  unfold archWrite
  repeat' split
  all_goals rfl

section
variable {s : State} {vc : Vc} {w : W32} {s1 : State} {en : Bool} {r : Reg} {n : BitVec 12}

theorem instrRow_mfs (h : Ready s vc w (.mfs r n) s1 en) (hs : SysReady s1 vc) (hd : sysDenied (s1.core vc).spec w n = none) :
    Settled (instrRow s vc w isMfs (mfsRun vc w)) vc
      { gWrite (s1.core vc).spec r (sysRead (commitCore s1 vc) vc n.toNat) with pc := (s1.core vc).spec.pc + 4 } := by
  let s2 := commitCore s1 vc
  have hc := commitCore_completes hs.off
  let s3 := s2.updCore vc (fun c => sysReadEffect c n.toNat)
  have h3 : InstrumentsOff s3 vc := by
    refine hc.off.of_core ?_ ?_
    all_goals
      rw [State.core_updCore_self]
      unfold sysReadEffect
      split <;> rfl
  have hx := sysDone_completes h3 (gWrite (s1.core vc).spec r (sysRead s2 vc n.toNat)) []
  have hrun : mfsRun vc w (.mfs r n) s1 = sysBegins s1 vc (fun t =>
      some (sysDone (t.updCore vc (fun c => sysReadEffect c n.toNat)) vc (gWrite (t.regs vc) r (sysRead t vc n.toNat)) [])) := by
    show (match sysDenied (s1.core vc).spec w n with | some x => _ | none => _) = _
    rw [hd]
  have hu : (some (sysDone s3 vc (gWrite (s2.regs vc) r (sysRead s2 vc n.toNat)) [])).getD s2
      = sysDone s3 vc (gWrite (s1.core vc).spec r (sysRead s2 vc n.toNat)) [] := by
    rw [show s2.regs vc = (s1.core vc).spec from hc.settled.2]
    rfl
  rw [instrRow_sys h rfl hs hrun hu hx.retire (sysDone_region ..)]
  simpa only [nextPc, gWrite_pc] using hx.settled

/-- An MTS in reach is a write of its operand, once everything older has committed. -/
theorem instrRow_mts {mine : CoreOp → Bool} {u : State} (h : Ready s vc w (.mts r n) s1 en) (hm : mine (.mts r n) = true) (hs : SysReady s1 vc)
    (hd : sysDenied (s1.core vc).spec w n = none)
    (hu : sysWrite (commitCore s1 vc) vc n.toNat (gRead (s1.core vc).spec r) = u) (hr : (u.core vc).retire = [])
    (hg : (u.core vc).region = none) : instrRow s vc w mine (mtsRun vc w) = u := by
  have hrun : mtsRun vc w (.mts r n) s1 = sysBegins s1 vc (fun t => some (sysWrite t vc n.toNat (gRead (t.regs vc) r))) := by
    show (match sysDenied (s1.core vc).spec w n with | some x => _ | none => _) = _
    rw [hd]
  refine instrRow_sys h hm hs hrun ?_ hr hg
  rw [show (commitCore s1 vc).regs vc = (s1.core vc).spec from (commitCore_settled hs.off).2, hu]
  rfl

end

/-! ### What a write leaves to be read (02, system register numbers; 07 R199) -/

/-- The registers of the vCPU and the hypervisor that are read as written, each with the mask of its writable bits. -/
def maskedNos : List (Nat × W64) := [
  (0x110, 0xFFFFFFFFFFFFFFFF), (0x410, 0xFFFFFFFFFFFFFFFF),
  (0x101, 0xFFFFFFFFFFFFFFFC), (0x102, 0xF7), (0x104, 0xFFFFFFFF), (0x105, 0xFFFFFFFFFFFFFFFF), (0x106, 0xFFFFFFFFFFFFF000), (0x107, 0xFFFFFFFFFFFFFFFF),
  (0x401, 0xFFFFFFFFFFFFFFFC), (0x402, 0xF7), (0x404, 0xFFFFFFFF), (0x405, 0xFFFFFFFFFFFFFFFF), (0x406, 0xFFFFFFFFFFFFF000), (0x407, 0xFFFFFFFFFFFFFFFF),
  (0x120, 0x0000FFFFFFFFF000), (0x121, 0x0000FFFFFFFFF000), (0x122, 0xFFFF), (0x123, 0x7),
  (0x422, 0x0000FFFFFFFFF000), (0x423, 0x0000FFFFFFFFF000), (0x424, 0xFFFF), (0x425, 0xF)]

/-- Their values, in the same order. -/
def maskedRegs (a : Arch) : List W64 := [
  a.spU, a.spS,
  a.excS.epc, a.excS.estat, a.excS.esyn, a.excS.eaddr, a.excS.evb, a.excS.scratch,
  a.excH.epc, a.excH.estat, a.excH.esyn, a.excH.eaddr, a.excH.evb, a.excH.scratch,
  a.tr.tb0, a.tr.tb1, a.tr.asid.setWidth 64, a.tr.tctl.setWidth 64,
  a.tr.htb0, a.tr.htb1, a.tr.hasid.setWidth 64, a.tr.htctl.setWidth 64]

/-- MFS reads them. -/
theorem sysRead_masked (s : State) (vc : Vc) :
    maskedNos.map (fun p => sysRead s vc p.1) = maskedRegs (s.regs vc) := rfl

/-- A register of `k` bits reads back the lowest `k` bits that are written. -/
theorem setWidth_setWidth_mask (v : W64) (k : Nat) : (v.setWidth k).setWidth 64 = v &&& BitVec.ofNat 64 (2 ^ k - 1) := by
  refine BitVec.eq_of_getLsbD_eq fun i hi => ?_
  rw [BitVec.getLsbD_and, BitVec.getLsbD_setWidth, BitVec.getLsbD_setWidth, BitVec.getLsbD_ofNat, Nat.testBit_two_pow_sub_one]
  simp [hi, Bool.and_comm]

/-- A write of one of them changes its writable bits alone. -/
theorem maskedRegs_archWrite (a : Arch) (fs : Bool) (v : W64) : ∀ p ∈ maskedNos.zipIdx,
    maskedRegs (archWrite a fs p.1.1 v) = (maskedRegs a).set p.2 (v &&& p.1.2) := by
  have hall : v &&& (0xFFFFFFFFFFFFFFFF : W64) = v := BitVec.and_allOnes
  have h16 : (v.setWidth 16).setWidth 64 = v &&& (0xFFFF : W64) := setWidth_setWidth_mask v 16
  have h4 : (v.setWidth 4).setWidth 64 = v &&& (0xF : W64) := setWidth_setWidth_mask v 4
  have h3 : (v.setWidth 3).setWidth 64 = v &&& (0x7 : W64) := setWidth_setWidth_mask v 3
  simp only [maskedNos, List.zipIdx_cons, List.zipIdx_nil, List.forall_mem_cons, hall, ← h16, ← h4, ← h3]
  refine ⟨rfl, rfl, rfl, rfl, rfl, rfl, rfl, rfl, rfl, rfl, rfl, rfl, rfl, rfl, rfl, rfl, rfl, rfl, rfl, rfl, rfl, rfl, ?_⟩
  exact fun _ h => nomatch h

theorem maskedRegs_getElem? {s : State} {vc : Vc} {k : Nat} {m : W64} {i : Nat} (h : maskedNos[i]? = some (k, m)) :
    (maskedRegs (s.regs vc))[i]? = some (sysRead s vc k) := by
  rw [← sysRead_masked, List.getElem?_map, h]
  rfl

section
variable (s : State) (vc : Vc) (c : Core) (fs : Bool) (v : W64) {n : Nat} {m : W64}

/-- The core after the write of a register, as the state holds it. -/
theorem maskedRegs_written {i : Nat} (h : maskedNos[i]? = some (n, m)) :
    maskedRegs ((s.setCore vc { c with spec := archWrite c.spec fs n v }).regs vc) = (maskedRegs c.spec).set i (v &&& m) := by
  have hr : (s.setCore vc { c with spec := archWrite c.spec fs n v }).regs vc = archWrite c.spec fs n v := by
    rw [State.regs, State.core_setCore_self]
  rw [hr]
  exact maskedRegs_archWrite c.spec fs v ((n, m), i) (List.mk_mem_zipIdx_iff_getElem?.2 h)

theorem sysRead_archWrite_same (h : (n, m) ∈ maskedNos) :
    sysRead (s.setCore vc { c with spec := archWrite c.spec fs n v }) vc n = v &&& m := by
  obtain ⟨i, hi⟩ := List.mem_iff_getElem?.1 h
  have hlt : i < (maskedRegs c.spec).length := (List.getElem?_eq_some_iff.1 hi).1
  have hr := maskedRegs_getElem? (s := s.setCore vc { c with spec := archWrite c.spec fs n v }) (vc := vc) hi
  rw [maskedRegs_written s vc c fs v hi, List.getElem?_set_self hlt] at hr
  exact (Option.some.inj hr).symm

theorem sysRead_archWrite_other {k : Nat} {m' : W64} (h : (n, m) ∈ maskedNos) (hk : (k, m') ∈ maskedNos) (hne : k ≠ n) :
    sysRead (s.setCore vc { c with spec := archWrite c.spec fs n v }) vc k = sysRead (s.setCore vc c) vc k := by
  obtain ⟨i, hi⟩ := List.mem_iff_getElem?.1 h
  obtain ⟨j, hj⟩ := List.mem_iff_getElem?.1 hk
  have hij : i ≠ j := by
    rintro rfl
    exact hne (congrArg Prod.fst (Option.some.inj (hj.symm.trans hi)))
  have hr := maskedRegs_getElem? (s := s.setCore vc { c with spec := archWrite c.spec fs n v }) (vc := vc) hj
  have h0 := maskedRegs_getElem? (s := s.setCore vc c) (vc := vc) hj
  rw [State.regs, State.core_setCore_self] at h0
  rw [maskedRegs_written s vc c fs v hi, List.getElem?_set_ne hij, h0] at hr
  exact (Option.some.inj hr).symm

end

/-- FCSR keeps RM where 0b101 to 0b111 is written, and takes the flags always (02 R37). -/
theorem fcsrWrite_fields (old : BitVec 8) (v : W64) :
    ((fcsrWrite old v).setWidth 64).extractLsb' 0 5 = v.extractLsb' 0 5
    ∧ ((fcsrWrite old v).setWidth 64).extractLsb' 5 3 = if (v.extractLsb' 5 3).toNat < 5 then v.extractLsb' 5 3 else old.extractLsb' 5 3 := by
  have happ (x : BitVec 3) (y : BitVec 5) : ((x ++ y).setWidth 64).extractLsb' 0 5 = y ∧ ((x ++ y).setWidth 64).extractLsb' 5 3 = x := by
    have hbit (i : Nat) : ((x ++ y).setWidth 64).getLsbD i = (decide (i < 64) && if i < 5 then y.getLsbD i else x.getLsbD (i - 5)) := by
      rw [BitVec.getLsbD_setWidth, BitVec.getLsbD_append]
    constructor
    all_goals
      refine BitVec.eq_of_getLsbD_eq fun i hi => ?_
      rw [BitVec.getLsbD_extractLsb', hbit]
    · simp [hi, show i < 64 by omega]
    · simp [hi, show 5 + i < 64 by omega]
  refine ⟨(happ _ _).1, (happ _ _).2.trans ?_⟩
  by_cases h : (v.extractLsb' 5 3).toNat < 5
  · rw [if_pos h, if_neg (by rw [BitVec.le_def]; exact Nat.not_le.2 h)]
  · rw [if_neg h, if_pos (by rw [BitVec.le_def]; exact Nat.not_lt.1 h)]

/-! ### VMID_H and VCPU_H with no vCPU loaded (07 R199; 10 R305, R306) -/

theorem spillLatch_idle {s : State} {vc : Vc} (h : (s.core vc).arch.run = false) : spillLatch s vc = s := if_neg (by rw [h]; exact Bool.false_ne_true)

theorem canLoad_stopped {s : State} {p : Pav} (h : (s.pav p).st ≠ .running) (n : Nat) : canLoad s p n = false := by
  simp [canLoad, h]

/-- A SYS instruction that completes with the new registers and leaves no command of the Gatehouse to go on. -/
theorem advancePavs_sysDone {s : State} {vc : Vc} (ho : InstrumentsOff s vc) (hn : noPavWait s) (a : Arch) :
    advancePavs (sysDone s vc a []) = sysDone s vc a [] :=
  advancePavs_quiet ((sysDone_completes ho a []).outside.noPavWait hn)

section
variable {s : State} {vc : Vc} {a : Arch} (v : W64)

theorem vmidWrite_idle (ha : Settled s vc a) (ho : InstrumentsOff s vc) (hn : noPavWait s) (hrun : a.run = false) :
    vmidWrite s vc v = sysDone s vc { a with tr := { a.tr with
      vmid := v.setWidth 8, vtb := if (s.pav (v.setWidth 8)).st = .none then 0 else (s.pav (v.setWidth 8)).vtb.setWidth 64 &&& 0xFFFFFFFFF000#64 } } [] := by
  have hs : spillLatch s vc = s := spillLatch_idle (by rw [ha.1, hrun])
  have hr : s.regs vc = a := ha.2
  simp only [vmidWrite, hs, hr]
  exact advancePavs_sysDone ho hn _

theorem vcpuWrite_unloaded (ha : Settled s vc a) (ho : InstrumentsOff s vc) (hn : noPavWait s) (hrun : a.run = false) (hv : v.getLsbD 16 = false) :
    vcpuWrite s vc v = sysDone s vc { a with vcpu := v.setWidth 16 } [] := by
  have hs : spillLatch s vc = s := spillLatch_idle (by rw [ha.1, hrun])
  have hr : s.regs vc = a := ha.2
  simp only [vcpuWrite, hs, hv, Bool.false_eq_true, if_false, hr]
  exact advancePavs_sysDone ho hn _

/-- A core whose load was refused (10 R306). -/
def refusedCore (c : Core) : Core := { c with arch := { c.arch with refused := true }, spec := { c.spec with refused := true } }

theorem vcpuWrite_refused (ha : Settled s vc a) (ho : InstrumentsOff s vc) (hn : noPavWait s) (hrun : a.run = false) (hv : v.getLsbD 16 = true)
    (hp : (s.pav a.tr.vmid).st ≠ .running) :
    vcpuWrite s vc v = sysDone (s.updCore vc refusedCore) vc { a with vcpu := v.setWidth 16, refused := true } [] := by
  have hs : spillLatch s vc = s := spillLatch_idle (by rw [ha.1, hrun])
  have hr : s.regs vc = a := ha.2
  have hr2 : (s.updCore vc refusedCore).regs vc = { a with refused := true } := by
    rw [State.regs, State.core_updCore_self, ← hr]; rfl
  simp only [vcpuWrite, hs, hr, hv, if_true, canLoad_stopped hp, Bool.false_eq_true, if_false]
  show advancePavs (sysDone (s.updCore vc refusedCore) vc { (s.updCore vc refusedCore).regs vc with vcpu := v.setWidth 16 } []) = _
  rw [hr2]
  exact advancePavs_sysDone (ho.of_core (by rw [State.core_updCore_self]; rfl) (by rw [State.core_updCore_self]; rfl))
    ((onlyCore_updCore ..).noPavWait hn) _

end

/-- A write that changes no register leaves every read. -/
theorem archWrite_readOnly (a : Arch) (fs : Bool) (v : W64) :
    ∀ n ∈ [0x010, 0x103, 0x200, 0x201, 0x202, 0x204, 0x408, 0x440], archWrite a fs n v = a := by
  simp only [List.forall_mem_cons]
  exact ⟨rfl, rfl, rfl, rfl, rfl, rfl, rfl, rfl, fun _ h => nomatch h⟩

/-- Settles O15: reach by the level's range; a write and its read-back register by register; VMID_H and VCPU_H with no vCPU loaded. -/
theorem systemRegisters : Obligations.SystemRegisters := by
  refine ⟨?_, ?_, ?_, ?_⟩
  · intro s vc w s1 en r n wr a c ill h hs hi
    have row (x : Exc) (hx : sysDenied a w n = some x) (hn : x.next = false) :
        ∃ t b, exec c s = .next t ∧ Settled t vc b
          ∧ TakenAs a b (s1.fStyleOf a) x.cls x.detail x.addr a.pc x.lvl (vectorTable a.level x.lvl false) := by
      have hmfs : mfsRun vc w (.mfs r n) s1 = raise s1 vc x := by
        show (match sysDenied a w n with | some x => raise s1 vc x | none => _) = _
        rw [hx]
      have hmts : mtsRun vc w (.mts r n) s1 = raise s1 vc x := by
        show (match sysDenied a w n with | some x => raise s1 vc x | none => _) = _
        rw [hx]
      cases wr
      case false =>
        obtain ⟨⟨b, hb, ht⟩, -, -, -⟩ := instrRow_raises (mine := isMfs) h rfl hmfs hs.off hs.step hs.complete hi
        rw [hn] at ht
        exact ⟨_, b, rfl, hb, ht⟩
      case true =>
        obtain ⟨⟨b, hb, ht⟩, -, -, -⟩ := instrRow_raises (mine := isMts) h rfl hmts hs.off hs.step hs.complete hi
        rw [hn] at ht
        exact ⟨_, b, rfl, hb, ht⟩
    refine ⟨fun hill => ?_, fun hl h4 h8 => ?_⟩
    · exact row _ (sysDenied_illegal w hill) rfl
    · have hv : vectorTable a.level .h false = 0x200 := by rw [hl]; rfl
      exact hv ▸ row _ (sysDenied_hypervisor w hl h4 h8) rfl
  · intro s vc w s1 en r n a s2 hs hd
    refine ⟨fun h => ⟨_, rfl, instrRow_mfs h hs hd⟩, fun h hvcpu hvmid ho => ?_⟩
    have hc := commitCore_completes hs.off
    have hregs : s2.regs vc = a := hc.settled.2
    have hu : sysWrite s2 vc n.toNat (gRead a r)
        = sysDone (s2.updCore vc (fun c => unitWrite c n.toNat (gRead a r))) vc (archWrite a (s1.fStyleOf a) n.toNat (gRead a r)) [] := by
      have hfs : s2.fStyleOf a = s1.fStyleOf a := hc.outside.fStyleOf a
      have h26 : n.toNat ≠ 0x426 := fun e => hvcpu (BitVec.eq_of_toNat_eq e)
      have h21 : n.toNat ≠ 0x421 := fun e => hvmid (BitVec.eq_of_toNat_eq e)
      rw [sysWrite, if_neg h26, if_neg h21, hregs, ← hfs]
    have hx := sysDone_completes ho (archWrite a (s1.fStyleOf a) n.toNat (gRead a r)) []
    refine ⟨_, congrArg Host.Outcome.next (instrRow_mts h rfl hs hd hu hx.retire (sysDone_region ..)), ?_,
      (hc.outside.trans (onlyCore_updCore ..)).trans hx.outside⟩
    simpa only [nextPc, archWrite_pc] using hx.settled
  · intro s vc c v fs a rd mask
    have hmask {n : Nat} {m : W64} (h : mask n = some m) : (n, m) ∈ maskedNos := by
      dsimp only [mask] at h
      split at h
      case h_23 => exact nomatch h
      all_goals
        obtain rfl := Option.some.inj h
        decide
    have hfcsr : rd 0x002 0x002 = (fcsrWrite a.fcsr v).setWidth 64 := by
      show ((s.setCore vc { c with spec := archWrite c.spec fs 0x002 v }).regs vc).fcsr.setWidth 64 = _
      rw [State.regs, State.core_setCore_self]
      rfl
    refine ⟨fun n m h => sysRead_archWrite_same s vc c fs v (hmask h), fun n m k h hk hs => ?_, ?_, ?_, fun n hn k _ => ?_⟩
    · obtain ⟨m', hm'⟩ := Option.isSome_iff_exists.1 hs
      exact sysRead_archWrite_other s vc c fs v (hmask h) (hmask hm') hk
    · rw [hfcsr]
      exact (fcsrWrite_fields a.fcsr v).1
    · rw [hfcsr]
      exact (fcsrWrite_fields a.fcsr v).2
    · show sysRead (s.setCore vc { c with spec := archWrite c.spec fs n v }) vc k = _
      rw [archWrite_readOnly c.spec fs v n hn]
  · intro s vc w s1 en r a v hs hl hrun hn
    have hc := commitCore_completes hs.off
    have hn2 : noPavWait (commitCore s1 vc) := hc.outside.noPavWait hn
    have hd21 : sysDenied a w 0x421#12 = none := by simp [sysDenied, hl, sysAssigned]
    have hd26 : sysDenied a w 0x426#12 = none := by simp [sysDenied, hl, sysAssigned]
    have hpav (p : Pav) : (commitCore s1 vc).pav p = s1.pav p := by
      rw [hc.outside.device]; rfl
    refine ⟨fun h => ?_, fun h hv => ?_, fun h hv hst => ?_⟩
    · have hx := sysDone_completes hc.off { a with tr := { a.tr with
        vmid := v.setWidth 8, vtb := if (s1.pav (v.setWidth 8)).st = .none then 0 else (s1.pav (v.setWidth 8)).vtb.setWidth 64 &&& 0xFFFFFFFFF000#64 } } []
      have hu : sysWrite (commitCore s1 vc) vc 0x421 v = _ := vmidWrite_idle v hc.settled hc.off hn2 hrun
      rw [hpav] at hu
      exact ⟨_, congrArg Host.Outcome.next (instrRow_mts h rfl hs hd21 hu hx.retire (sysDone_region ..)), hc.outside.trans hx.outside, hx.settled⟩
    · have hx := sysDone_completes hc.off { a with vcpu := v.setWidth 16 } []
      have hu : sysWrite (commitCore s1 vc) vc 0x426 v = _ := vcpuWrite_unloaded v hc.settled hc.off hn2 hrun hv
      exact ⟨_, congrArg Host.Outcome.next (instrRow_mts h rfl hs hd26 hu hx.retire (sysDone_region ..)), hx.settled, hc.outside.trans hx.outside⟩
    · have hor : InstrumentsOff ((commitCore s1 vc).updCore vc refusedCore) vc :=
        hc.off.of_core (by rw [State.core_updCore_self]; rfl) (by rw [State.core_updCore_self]; rfl)
      have hx := sysDone_completes hor { a with vcpu := v.setWidth 16, refused := true } []
      have hu : sysWrite (commitCore s1 vc) vc 0x426 v = _ := vcpuWrite_refused v hc.settled hc.off hn2 hrun hv (by rwa [hpav])
      refine ⟨_, congrArg Host.Outcome.next (instrRow_mts h rfl hs hd26 hu hx.retire (sysDone_region ..)),
        (hc.outside.trans (onlyCore_updCore ..)).trans hx.outside, ?_⟩
      rw [← hrun]
      exact hx.settled

end Sys2Proof.Machine
end

-- ==== Control transfers ====
section
/-! Branches, jumps and the undo of a wrong prediction (O7). -/

namespace Sys2Proof.Machine

/-! ### The conditions (02 R41, R42; 03 R89) -/

theorem ccHolds_eq (cc : BitVec 3) (x y : W64) : ccHolds cc x y = condTable cc x y := by
  have hle (b : Bool) (p : Prop) [Decidable p] (h : b = decide p) : (!b) = decide ¬ p := by rw [h, decide_not]
  unfold ccHolds condTable
  split
  · rfl
  · exact hle _ _ rfl
  · rfl
  · exact (hle _ _ rfl).trans (by simp only [Int.not_lt])
  · rfl
  · exact (hle _ _ rfl).trans (by simp only [Nat.not_lt])
  · rfl
  · rfl

/-- Bit 3 of a flag condition inverts the condition of the other bits; 0b1111 would invert "always" and is no condition. -/
theorem fccHolds_eq : ∀ cc f : BitVec 4, cc ≠ 15#4 → fccHolds cc f = flagCondTable cc f := by decide

theorem decodeCore_wf {fs : Bool} {w : W32} {op : CoreOp} (h : decodeCore fs w = some op) : op.wf fs = true := by
  unfold decodeCore at h
  split at h
  · split at h
    next hwf => exact Option.some.inj h ▸ hwf
    next => cases h
  · cases h

/-! ### Transfers that a predictor may have sent elsewhere (05 R145, R149, R151) -/

/-- A core without what a transfer changes of it beside the registers: the branches to undo, the history and the return stack. -/
def unpredicted (c : Core) : Core := { c with ckpts := [], micro := { c.micro with ghist := 0, ras := [] } }

theorem aside_unpredicted {c d : Core} (h : aside c = aside d) : aside (unpredicted c) = aside (unpredicted d) := congrArg unpredicted h

theorem Transfers.noted {vc : Vc} {s t : State} {a : Arch} (h : Transfers vc s t a) (en : Bool) (n : Nat) :
    Transfers vc s (if en then noteEntry t vc n else t) a := by
  cases en
  · exact h
  · obtain ⟨hout, haside, hspec⟩ := noteEntry_frame t vc n
    have hck : ((noteEntry t vc n).core vc).ckpts = (t.core vc).ckpts := (congrArg Core.ckpts haside : (aside _).ckpts = (aside _).ckpts)
    refine ⟨?_, (aside_unpredicted haside).trans h.rest, h.outside.trans hout⟩
    show ((noteEntry t vc n).core vc).spec = a ∧ ((noteEntry t vc n).core vc).ckpts = _
      ∨ (∃ p, ((noteEntry t vc n).core vc).spec = _) ∧ ∃ k, _ ∧ ((noteEntry t vc n).core vc).ckpts = _
    rw [hspec, hck]
    exact h.goes

/-- From `s` to `t` the predictor of core `vc` has moved, and nothing else. -/
structure Predicts (vc : Vc) (s t : State) : Prop where
  rest : unpredicted (t.core vc) = unpredicted (s.core vc)
  ckpts : (t.core vc).ckpts = (s.core vc).ckpts
  outside : OnlyCore vc s t

theorem Predicts.refl (vc : Vc) (s : State) : Predicts vc s s := ⟨rfl, rfl, .refl ..⟩

theorem updCore_predicts {vc : Vc} {s : State} {f : Core → Core} (hf : ∀ c, unpredicted (f c) = unpredicted c) (hc : ∀ c, (f c).ckpts = c.ckpts) :
    Predicts vc s (s.updCore vc f) :=
  ⟨by rw [State.core_updCore_self, hf], by rw [State.core_updCore_self, hc], onlyCore_updCore ..⟩

section
variable {vc : Vc} {s u t : State} {a b : Arch} (hp : Predicts vc s u)
include hp

/-- An instruction that executes after the predictor has moved is a transfer. -/
theorem Executes.transfers (h : Executes vc u t a) : Transfers vc s t a := by
  have hck : (t.core vc).ckpts = (u.core vc).ckpts := (congrArg Core.ckpts h.rest : (aside _).ckpts = (aside _).ckpts)
  exact ⟨.inl ⟨h.regs, hck.trans hp.ckpts⟩, (aside_unpredicted h.rest).trans (congrArg aside hp.rest), hp.outside.trans h.outside⟩

/-- One that goes on along a wrong path waits for its undo, which brings the registers `a`. -/
theorem Executes.mispredicted (h : Executes vc u t b) {p : W64} (hb : b = { a with pc := p }) {k : Ckpt} (hk : k.actual = a) :
    Transfers vc s (t.updCore vc (fun c => mispredict c k)) a := by
  have hck : (t.core vc).ckpts = (u.core vc).ckpts := (congrArg Core.ckpts h.rest : (aside _).ckpts = (aside _).ckpts)
  refine ⟨.inr ⟨⟨p, ?_⟩, k, hk, ?_⟩, ?_, (hp.outside.trans h.outside).trans (onlyCore_updCore ..)⟩
  all_goals rw [State.core_updCore_self]
  · exact h.regs.trans hb
  · exact congrArg (· ++ [k]) (hck.trans hp.ckpts)
  · exact (aside_unpredicted h.rest).trans (congrArg aside hp.rest)

end

theorem branchExec_transfers (s : State) (vc : Vc) (taken : Bool) (target : W64) :
    Transfers vc s (branchExec s vc taken target) (branchOut (s.core vc).spec taken target) := by
  have hp (g : BitVec 15) : Predicts vc s (s.updCore vc (fun d => withHist d g)) := updCore_predicts (fun _ => rfl) fun _ => rfl
  have go (g : BitVec 15) (b : Bool) (evs : List (BitVec 8)) (cond : Option (BitVec 15 × Bool)) :=
    executed_executes (s.updCore vc (fun d => withHist d g)) vc (branchOut (s.core vc).spec b target) evs true b cond none
  unfold branchExec
  dsimp only
  split
  · exact (go ..).transfers (hp _)
  · split
    · exact (go ..).transfers (hp _)
    · exact Executes.mispredicted (a := branchOut (s.core vc).spec taken target) (hp _) (go ..) rfl rfl

theorem instrRow_branch {s : State} {vc : Vc} {w : W32} {op : CoreOp} {s1 : State} {en : Bool} {mine : CoreOp → Bool}
    {run : CoreOp → State → Option State} {taken : Bool} {target : W64} (h : Ready s vc w op s1 en) (hm : mine op = true)
    (hrun : run op s1 = branchTo s1 vc taken target) (hc : taken = true → canonical target = true) :
    Transfers vc s1 (instrRow s vc w mine run) (branchOut (s1.core vc).spec taken target) := by
  have hb : branchTo s1 vc taken target = some (branchExec s1 vc taken target) := by
    unfold branchTo
    refine if_neg ?_
    cases taken
    · exact Bool.false_ne_true
    · simp [hc rfl]
  rw [instrRow_ready h hm (hrun.trans hb)]
  exact (branchExec_transfers ..).noted en _

/-! ### The undo of a wrong prediction (05 R145, R156) -/

/-- A core without its fills and its own caches and predictors. -/
def unfilled (c : Core) : Core := { c with fills := [], micro := {} }

/-- From `s` to `t` fills of core `vc` were discarded: of the core its list of fills and its own caches may have changed, and no other core and no memory (05 R156). -/
structure Discards (vc : Vc) (s t : State) : Prop where
  own : unfilled (t.core vc) = unfilled (s.core vc)
  others : ∀ v, v ≠ vc → t.core v = s.core v
  dram : t.dram = s.dram

theorem Discards.trans {vc : Vc} {s t u : State} (h : Discards vc s t) (k : Discards vc t u) : Discards vc s u :=
  ⟨k.own.trans h.own, fun v hv => (k.others v hv).trans (h.others v hv), k.dram.trans h.dram⟩

section
variable {vc : Vc} {s t : State}

theorem Discards.of_cores (hc : t.cores = s.cores) (hd : t.dram = s.dram) : Discards vc s t := by
  have h (v : Vc) : t.core v = s.core v := by simp only [State.core, hc]
  exact ⟨congrArg unfilled (h vc), fun v _ => h v, hd⟩

theorem updCore_discards (f : Core → Core) (hf : ∀ c, unfilled (f c) = unfilled c) : Discards vc s (s.updCore vc f) :=
  ⟨by rw [State.core_updCore_self, hf], (onlyCore_updCore ..).others, rfl⟩

theorem sendWb_discards (k : Nat) (l : LineNo) (x : L2Line) : Discards vc s (sendWb s k l x) := by
  unfold sendWb
  dsimp only
  obtain ⟨f, u, e⟩ := sendT_frame ((s.newTag (clusterAgent k)).2.setCluster k { (s.newTag (clusterAgent k)).2.cluster k with
    wb := mput ((s.newTag (clusterAgent k)).2.cluster k).wb l.toNat { data := x.data, cls := x.cls, tag := (s.newTag (clusterAgent k)).1 } })
    (clusterAgent k) x.cls (s.newTag (clusterAgent k)).1 (.wb (BitVec.ofNat 3 k) l x.data x.cls)
  rw [e]
  exact .of_cores rfl rfl

theorem discardFill_discards (f : Fill) : Discards vc s (discardFill vc s f) := by
  have same : Discards vc s s := .of_cores rfl rfl
  have set (l : LineNo) (v : Option L2Line) : Discards vc s (s.setL2 (s.clusterOf vc) l v) := .of_cores rfl rfl
  cases f with
  | l1d l =>
    unfold discardFill
    dsimp only
    split
    · exact same
    · exact set ..
  | l2 l =>
    unfold discardFill
    dsimp only
    split
    · exact same
    · split
      · split
        · exact (set ..).trans (sendWb_discards ..)
        · exact set ..
      · exact same
  | dtlb | l2tlb | walk => 
    unfold discardFill
    exact updCore_discards _ fun _ => rfl
  | kept => exact same

theorem discardFills_discards (n : Nat) : Discards vc s (discardFills s vc n) := by
  have fold (fs : List Fill) (u : State) (hu : Discards vc s u) : Discards vc s (fs.foldl (discardFill vc) u) := by
    induction fs generalizing u with
    | nil => exact hu
    | cons f fs ih => exact ih _ (hu.trans (discardFill_discards f))
  exact fold _ _ (updCore_discards _ fun _ => rfl)

end

/-- Uncommitted stores follow the committed ones, and an undo keeps the older of them (05 R142, R145). -/
theorem undoBranch_stores (c : Core) (k : Ckpt) : (undoBranch c k).sb.filter (·.committed) = c.sb.filter (·.committed)
    ∧ (undoBranch c k).sb.filter (fun e => !e.committed) = (c.sb.filter (fun e => !e.committed)).take k.sbLen := by
  let old := c.sb.filter (·.committed)
  let new := (c.sb.filter (fun e => !e.committed)).take k.sbLen
  have hold : ∀ e ∈ old, e.committed = true := fun e he => (List.mem_filter.1 he).2
  have hnew : ∀ e ∈ new, e.committed = false := fun e he => by simpa using (List.mem_filter.1 (List.mem_of_mem_take he)).2
  have h1 : old.filter (·.committed) = old := List.filter_eq_self.2 hold
  have h2 : new.filter (·.committed) = [] := List.filter_eq_nil_iff.2 fun e he => by simp [hnew e he]
  have h3 : old.filter (fun e => !e.committed) = [] := List.filter_eq_nil_iff.2 fun e he => by simp [hold e he]
  have h4 : new.filter (fun e => !e.committed) = new := List.filter_eq_self.2 fun e he => by simp [hnew e he]
  show (old ++ new).filter _ = old ∧ (old ++ new).filter _ = new
  rw [List.filter_append, List.filter_append, h1, h2, h3, h4]
  exact ⟨List.append_nil _, rfl⟩

/-- Settles O7: the rows of branches and jumps by their conditions, the undo by what it keeps. -/
theorem controlTransfers : Obligations.ControlTransfers := by
  refine ⟨?_, ?_, ?_⟩
  · intro s vc w s1 en a
    refine ⟨fun cc ra rb off h => ?_, fun cc ra imm off h => ?_, fun cc off h => ?_⟩
    all_goals
      intro taken target hc
    · exact ⟨_, rfl, instrRow_branch h rfl (by rw [show taken = _ from (ccHolds_eq ..).symm]; rfl) hc⟩
    · exact ⟨_, rfl, instrRow_branch h rfl (by rw [show taken = _ from (ccHolds_eq ..).symm]; rfl) hc⟩
    · have hcc : cc ≠ 15#4 := by
        have hwf := decodeCore_wf h.decoded
        simp only [CoreOp.wf, Bool.and_eq_true, bne_iff_ne] at hwf
        exact hwf.2
      exact ⟨_, rfl, instrRow_branch h rfl (by rw [show taken = _ from (fccHolds_eq cc a.cf hcc).symm]; rfl) hc⟩
  · intro s vc w s1 en a
    refine ⟨fun off h hc => ⟨_, rfl, ?_⟩, fun ra h h4 hc => ⟨_, rfl, ?_⟩⟩
    · rw [instrRow_ready h rfl (if_pos hc)]
      exact (executed_executes ..).noted en _
    · have hbad : badTarget a (gRead a ra) = none := by simp [badTarget, h4, hc]
      have hrun : jrRun vc (.jr ra) s1 = some (executed s1 vc { a with pc := gRead a ra } [] true true none (some (gRead a ra))) := by
        show (match badTarget a (gRead a ra) with | some x => raise s1 vc x | none => _) = _
        rw [hbad]
        rfl
      rw [instrRow_ready h rfl hrun]
      exact (executed_executes ..).noted en _
  · intro s vc k rest hon hk
    have hd := discardFills_discards (vc := vc) (s := s) k.fillLen
    let u := discardFills s vc k.fillLen
    have hx : exec (.branchMispredictUndo vc) s = .next (u.updCore vc (fun c => undoBranch c k)) := by
      show execBranchMispredictUndo vc s = _
      simp only [execBranchMispredictUndo, hk, whenTrue, hon, if_true]
      rfl
    obtain ⟨hold, hnew⟩ := undoBranch_stores (u.core vc) k
    have harch : (u.core vc).arch = (s.core vc).arch := (congrArg Core.arch hd.own : (unfilled _).arch = (unfilled _).arch)
    have hsb : (u.core vc).sb = (s.core vc).sb := (congrArg Core.sb hd.own : (unfilled _).sb = (unfilled _).sb)
    have hret : (u.core vc).retire = (s.core vc).retire := (congrArg Core.retire hd.own : (unfilled _).retire = (unfilled _).retire)
    refine ⟨_, hx, ?_⟩
    rw [State.core_updCore_self, hold, hnew, hsb, ← hret]
    exact ⟨rfl, rfl, harch, rfl, rfl, rfl, rfl, rfl, fun v hv => ((onlyCore_updCore ..).others v hv).trans (hd.others v hv), hd.dram⟩

end Sys2Proof.Machine
end

-- ==== Calls and returns ====
section
/-! CALL, CALLR and RET (O8): the frame that is pushed, and what a return restores. -/

namespace Sys2Proof.Machine

/-! ### Stores that enter the buffer with their instruction (05 R142) -/

/-- A core without its store buffer and its return stack. -/
def unbuffered (c : Core) : Core := { c with sb := [], micro := { c.micro with ras := [] } }

theorem aside_unbuffered {c d : Core} (h : aside c = aside d) : aside (unbuffered c) = aside (unbuffered d) := congrArg unbuffered h

theorem Stores.noted {vc : Vc} {s t : State} {a : Arch} {es : List SbEntry} (h : Stores vc s t a es) (en : Bool) (n : Nat) :
    Stores vc s (if en then noteEntry t vc n else t) a es := by
  cases en
  · exact h
  · obtain ⟨hout, haside, hspec⟩ := noteEntry_frame t vc n
    have hsb : ((noteEntry t vc n).core vc).sb = (t.core vc).sb := (congrArg Core.sb haside : (aside _).sb = (aside _).sb)
    exact ⟨hspec.trans h.regs, hsb.trans h.buffer, (aside_unbuffered haside).trans h.rest, h.outside.trans hout⟩

/-- An instruction that executes once its stores stand in the buffer. -/
theorem Executes.stores {vc : Vc} {s u t : State} {a : Arch} {es : List SbEntry} (h : Executes vc u t a) (ho : OnlyCore vc s u)
    (hsb : (u.core vc).sb = (s.core vc).sb ++ es) (hr : unbuffered (u.core vc) = unbuffered (s.core vc)) : Stores vc s t a es := by
  have hb : (t.core vc).sb = (u.core vc).sb := (congrArg Core.sb h.rest : (aside _).sb = (aside _).sb)
  exact ⟨h.regs, hb.trans hsb, (aside_unbuffered h.rest).trans (congrArg aside hr), ho.trans h.outside⟩

/-! ### Frames (02 R45, R46) -/

section
variable {s t : State} {vc : Vc} {sp : W64} {first n : Nat} {acc : Acc} {ps : List APart}

theorem FrameTranslates.accessed (h : FrameTranslates s vc sp first n acc ps t) (f : List APart → State → Option State) :
    accessed s vc (frameParts vc acc (wordAddrs sp first n) s) f = f ps t := by
  rw [h.parts, Machine.accessed, h.stays]
  rfl

theorem FrameTranslates.no_device (h : FrameTranslates s vc sp first n acc ps t) : ps.any (fun p => p.mt == .device) = false := by
  simpa using h.memory

end

/-- The frame's stores go into the buffer, and the return address onto the return stack. -/
def framePushed (s : State) (vc : Vc) (es : List SbEntry) (ra : W64) : State :=
  callPush (s.setCore vc { s.core vc with sb := (s.core vc).sb ++ es }) vc ra

theorem framePushed_frame (s : State) (vc : Vc) (es : List SbEntry) (ra : W64) :
    OnlyCore vc s (framePushed s vc es ra) ∧ ((framePushed s vc es ra).core vc).sb = (s.core vc).sb ++ es
      ∧ unbuffered ((framePushed s vc es ra).core vc) = unbuffered (s.core vc) := by
  unfold framePushed callPush
  split
  · rw [State.core_setCore_self]
    exact ⟨onlyCore_setCore .., rfl, rfl⟩
  · rw [State.core_updCore_self, State.core_setCore_self]
    exact ⟨(onlyCore_setCore ..).trans (onlyCore_updCore ..), rfl, rfl⟩

/-- A call to a good target with its stack aligned, a frame that translates and room for it. -/
theorem callOp_stores {s s2 : State} {vc : Vc} {pm : BitVec 8} {target : W64} {ind : Option W64} {ps : List APart}
    (hsp : (spRead (s.core vc).spec).extractLsb' 0 4 = 0#4)
    (hf : FrameTranslates s vc (spRead (s.core vc).spec - frameSize pm) 0
      (frameWords (s.core vc).spec ((s.core vc).spec.pc + 4) pm).length .write ps s2) (hcode : codeParts s2 ps = false)
    (hroom : (s2.core vc).sb.length + (frameEntries s2 vc ps (frameWords (s.core vc).spec ((s.core vc).spec.pc + 4) pm)).length ≤ 48) :
    ∃ t, callOp s vc pm target none ind = some t
      ∧ Stores vc s2 t { spWrite (s.core vc).spec (spRead (s.core vc).spec - frameSize pm) with pc := target }
          (frameEntries s2 vc ps (frameWords (s.core vc).spec ((s.core vc).spec.pc + 4) pm)) := by
  let a := (s.core vc).spec
  let es := frameEntries s2 vc ps (frameWords a (a.pc + 4) pm)
  let evs := ps.map (fun _ => 0x0B#8) ++ ps.flatMap (fun p => partEvents [p] ++ storeMisses s2 vc [p])
  obtain ⟨ho, hsb, hrest⟩ := framePushed_frame s2 vc es (a.pc + 4)
  have hx := executed_executes (framePushed s2 vc es (a.pc + 4)) vc { spWrite a (spRead a - frameSize pm) with pc := target } evs true true none ind
  refine ⟨_, ?_, hx.stores ho hsb hrest⟩
  have hal : ((spRead a).extractLsb' 0 4 != 0#4) = false := by rw [hsp]; rfl
  show (if (spRead a).extractLsb' 0 4 != 0#4 then _ else _) = _
  rw [hal, if_neg Bool.false_ne_true]
  refine (hf.accessed _).trans ?_
  simp only [State.regs, hf.no_device, hcode, Bool.false_eq_true, if_false, Bool.false_and, pushStores, hroom, if_true, Option.map_some, storeExecuted]
  rfl

/-! ### RET (02 R46) -/

theorem retExec_transfers (s : State) (vc : Vc) (a : Arch) (evs : List (BitVec 8)) : Transfers vc s (retExec s vc a evs) a := by
  unfold retExec
  dsimp only
  split
  · exact (executed_executes ..).transfers (.refl ..)
  · split
    · exact (executed_executes ..).transfers (.refl ..)
    · next p rest _ =>
      have hp : Predicts vc s (s.updCore vc (fun d => { d with micro := { d.micro with ras := rest } })) :=
        updCore_predicts (fun _ => rfl) fun _ => rfl
      split
      · exact (executed_executes ..).transfers hp
      · exact Executes.mispredicted (a := a) hp (executed_executes ..) rfl rfl

theorem badTarget_good {a : Arch} {t : W64} (h4 : t.extractLsb' 0 2 = 0#2) (hc : canonical t = true) : badTarget a t = none := by
  simp [badTarget, h4, hc]

/-- A return whose frame reads as the mask `m`, the address `ra` and the doublewords `vs`. -/
theorem retRun_transfers {s s2 : State} {vc : Vc} {m ra : W64} {vs : List W64} {e : List (BitVec 8)}
    (hsp : (spRead (s.core vc).spec).extractLsb' 0 4 = 0#4) (hf : FrameReads s vc m ra vs e s2) (hw : (s2.core vc).owait = false)
    (h4 : ra.extractLsb' 0 2 = 0#2) (hc : canonical ra = true) :
    ∃ t, retRun vc .ret s = some t ∧ Transfers vc s2 t (retArch (s.core vc).spec (m.setWidth 8) ra vs) := by
  obtain ⟨p, q, ps, t2, t3, t4, e1, e2, hhead, hmask, hspec3, htail, hreads, hspec, -⟩ := hf
  refine ⟨_, ?_, retExec_transfers s2 vc _ (e1 ++ e2 ++ [])⟩
  have hdev : ([p, q] ++ ps).any (fun p => p.mt == .device) = false := by
    rw [List.any_append, hhead.no_device, htail.no_device]; rfl
  rw [← hspec3] at htail
  have hrest : retRest t3 vc [p, q] (m.setWidth 8) e1 = some (retExec s2 vc (retArch (s2.core vc).spec (m.setWidth 8) ra vs) (e1 ++ e2 ++ [])) := by
    unfold retRest
    dsimp only
    refine (htail.accessed _).trans ?_
    simp only [List.take_succ_cons, List.take_zero, List.cons_append, List.nil_append] at hdev ⊢
    simp only [hreads, List.headD_cons, badTarget_good h4 hc, waited, hw, Bool.false_eq_true, if_false, hdev]
    rfl
  have hal : ((spRead (s.core vc).spec).extractLsb' 0 4 != 0#4) = false := by rw [hsp]; rfl
  show (if (spRead (s.core vc).spec).extractLsb' 0 4 != 0#4 then _ else _) = _
  rw [hal, if_neg Bool.false_ne_true]
  refine (hhead.accessed _).trans ?_
  dsimp only
  rw [hmask, ← hspec]
  exact hrest

/-! ### What RET restores (02 R46) -/

@[simp] theorem spWrite_cf (a : Arch) (v : W64) : (spWrite a v).cf = a.cf := by unfold spWrite; split <;> rfl
@[simp] theorem spWrite_level (a : Arch) (v : W64) : (spWrite a v).level = a.level := by unfold spWrite; split <;> rfl
@[simp] theorem spWrite_f (a : Arch) (v : W64) : (spWrite a v).f = a.f := by unfold spWrite; split <;> rfl

theorem restorePairs_rest (a : Arch) (l : List Nat) (vs : List W64) :
    (restorePairs a l vs).cf = a.cf ∧ (restorePairs a l vs).level = a.level ∧ (restorePairs a l vs).f = a.f := by
  induction a, l, vs using restorePairs.induct with
  | case1 a i t x y vs ih => simpa only [restorePairs, gWrite_cf, gWrite_level, gWrite_f] using ih
  | case2 l a vs h => rw [restorePairs.eq_2 a l vs h]; exact ⟨rfl, rfl, rfl⟩

theorem regNo_ne {i j : Nat} (hi : i < 32) (hj : j < 32) (h : i ≠ j) : regNo i ≠ regNo j := fun e => by
  have := congrArg BitVec.toNat e
  simp only [regNo, BitVec.toNat_ofNat] at this
  omega

/-- A register of no pair that is named keeps its value. -/
theorem gRead_restorePairs_other {r : Reg} {a : Arch} {l : List Nat} {vs : List W64}
    (h : ∀ i ∈ l, r ≠ regNo (16 + 2 * i) ∧ r ≠ regNo (17 + 2 * i)) : gRead (restorePairs a l vs) r = gRead a r := by
  induction a, l, vs using restorePairs.induct with
  | case1 a i t x y vs ih =>
    obtain ⟨hx, hy⟩ := h i (List.mem_cons_self ..)
    rw [restorePairs, ih fun j hj => h j (List.mem_cons_of_mem _ hj), gRead_gWrite_other _ _ hy, gRead_gWrite_other _ _ hx]
  | case2 l a vs hn => rw [restorePairs.eq_2 a l vs hn]

/-- The registers of different pairs differ. -/
theorem regNo_pair_ne {i k : Nat} (hi : i < 8) (hk : k < 8) (hne : i ≠ k) :
    (regNo (16 + 2 * i) ≠ regNo (16 + 2 * k) ∧ regNo (16 + 2 * i) ≠ regNo (17 + 2 * k))
      ∧ (regNo (17 + 2 * i) ≠ regNo (16 + 2 * k) ∧ regNo (17 + 2 * i) ≠ regNo (17 + 2 * k)) :=
  ⟨⟨regNo_ne (by omega) (by omega) (by omega), regNo_ne (by omega) (by omega) (by omega)⟩,
    regNo_ne (by omega) (by omega) (by omega), regNo_ne (by omega) (by omega) (by omega)⟩

/-- A pair that is named takes its two doublewords. -/
theorem gRead_restorePairs {a : Arch} {l : List Nat} {vs : List W64} (hd : l.Nodup) (h8 : ∀ i ∈ l, i < 8) (hlen : vs.length = 2 * l.length)
    {i j : Nat} (hj : l[j]? = some i) : gRead (restorePairs a l vs) (regNo (16 + 2 * i)) = (vs[2 * j]?).getD 0
      ∧ gRead (restorePairs a l vs) (regNo (17 + 2 * i)) = (vs[2 * j + 1]?).getD 0 := by
  induction a, l, vs using restorePairs.induct generalizing j with
  | case1 a k t x y vs ih =>
    obtain ⟨hk, ht⟩ := List.nodup_cons.1 hd
    have hk8 : k < 8 := h8 k (List.mem_cons_self ..)
    have ht8 : ∀ i ∈ t, i < 8 := fun i hi => h8 i (List.mem_cons_of_mem _ hi)
    rw [restorePairs]
    cases j with
    | zero =>
      obtain rfl : k = i := Option.some.inj hj
      have hne : ∀ j ∈ t, k ≠ j := fun j hj => fun e => hk (e ▸ hj)
      rw [gRead_restorePairs_other fun j hj => (regNo_pair_ne hk8 (ht8 j hj) (hne j hj)).1,
        gRead_restorePairs_other fun j hj => (regNo_pair_ne hk8 (ht8 j hj) (hne j hj)).2,
        gRead_gWrite_other _ _ (regNo_ne (by omega) (by omega) (by omega)), gRead_gWrite_same _ _ (regNo_ne (j := 0) (by omega) (by omega) (by omega)),
        gRead_gWrite_same _ _ (regNo_ne (j := 0) (by omega) (by omega) (by omega))]
      exact ⟨rfl, rfl⟩
    | succ j => exact ih ht ht8 (by simpa [Nat.mul_add] using hlen) hj
  | case2 l a vs hn =>
    obtain _ | ⟨k, t⟩ := l
    · cases hj
    · obtain _ | ⟨x, _ | ⟨y, vs⟩⟩ := vs
      · simp at hlen
      · simp only [List.length_cons, List.length_nil] at hlen; omega
      · exact absurd rfl (hn k t x y vs rfl)

/-- What RET does beside the pairs: it moves g31 past the frame unless the mask restores it, and takes RA. -/
theorem gRead_retArch (a : Arch) (pm : BitVec 8) (ra : W64) (vs : List W64) {r : Reg} (h : pm.getLsbD 7 = true ∨ r ≠ 31#5) :
    gRead (retArch a pm ra vs) r = gRead (restorePairs a (pairsOf pm) vs) r := by
  show gRead (if pm.getLsbD 7 then _ else _) r = _
  split
  · rfl
  · next h7 => exact gRead_spWrite _ _ (h.resolve_left h7)

theorem pairsOf_nodup (pm : BitVec 8) : (pairsOf pm).Nodup := List.nodup_range.filter _

theorem mem_pairsOf {pm : BitVec 8} {i : Nat} : i ∈ pairsOf pm ↔ i < 8 ∧ pm.getLsbD i = true := by
  rw [pairsOf, List.mem_filter, List.mem_range]

/-- Pair 7 comes last where it is named. -/
theorem pairsOf_seven {pm : BitVec 8} (h : pm.getLsbD 7 = true) : (pairsOf pm)[(pairsOf pm).length - 1]? = some 7 := by
  have hsplit : pairsOf pm = (List.range 7).filter (fun i => pm.getLsbD i) ++ [7] := by
    rw [pairsOf, show List.range 8 = List.range 7 ++ [7] from rfl, List.filter_append]
    simp [h]
  rw [hsplit, List.length_append]
  exact List.getElem?_concat_length ..

theorem gRead_thirtyOne (a : Arch) : gRead a 31#5 = spRead a := by simp [gRead]

/-- Settles O8: a call and a return follow the frame that translates or reads; what a return restores, by induction on the pairs. -/
theorem callsAndReturns : Obligations.CallsAndReturns := by
  refine ⟨?_, ?_, ?_⟩
  · intro s vc w s1 en pm ps s2 a n base words hsp hf hcode hroom
    refine ⟨?_, fun ra h h4 hc => ?_⟩
    · intro off h target hc
      obtain ⟨t, ht, hx⟩ := callOp_stores (target := target) (ind := none) hsp hf hcode hroom
      have hrun : callRun vc (.call pm off) s1 = some t := by
        show callOp s1 vc pm target (if canonical target then none else some (excNonCanonical a target)) none = _
        rw [hc]
        exact ht
      exact ⟨_, congrArg Host.Outcome.next (instrRow_ready h rfl hrun), hx.noted en _⟩
    · obtain ⟨t, ht, hx⟩ := callOp_stores (target := gRead a ra) (ind := some (gRead a ra)) hsp hf hcode hroom
      have hrun : callrRun vc (.callr ra pm) s1 = some t := by
        show callOp s1 vc pm (gRead a ra) (badTarget a (gRead a ra)) (some (gRead a ra)) = _
        rw [badTarget_good h4 hc]
        exact ht
      exact ⟨_, congrArg Host.Outcome.next (instrRow_ready h rfl hrun), hx.noted en _⟩
  · intro s vc w s1 s2 en m ra vs e a h hsp hf hw h4 hc
    obtain ⟨t, ht, hx⟩ := retRun_transfers hsp hf hw h4 hc
    exact ⟨_, congrArg Host.Outcome.next (instrRow_ready h rfl ht), hx.noted en _⟩
  · intro a pm ra vs l hlen b
    have h8 : ∀ i ∈ pairsOf pm, i < 8 := fun i hi => (mem_pairsOf.1 hi).1
    obtain ⟨hcf, hlevel, hfr⟩ := restorePairs_rest a (pairsOf pm) vs
    have named {i j : Nat} (hj : l[j]? = some i) := gRead_restorePairs (a := a) (pairsOf_nodup pm) h8 hlen hj
    have hstay : (retArch a pm ra vs).cf = a.cf ∧ (retArch a pm ra vs).level = a.level ∧ (retArch a pm ra vs).f = a.f := by
      unfold retArch
      dsimp only
      split
      · exact ⟨hcf, hlevel, hfr⟩
      · simpa only [spWrite_cf, spWrite_level, spWrite_f] using ⟨hcf, hlevel, hfr⟩
    refine ⟨rfl, hstay.1, hstay.2.1, hstay.2.2, fun i j hj hi => ?_, fun r hr => ?_, fun i hi hp => ?_, fun h7 => ?_, fun h7 => ?_⟩
    · have hx : regNo (16 + 2 * i) ≠ 31#5 := regNo_ne (j := 31) (by omega) (by omega) (by omega)
      have hy : regNo (17 + 2 * i) ≠ 31#5 := regNo_ne (j := 31) (by omega) (by omega) (by omega)
      exact ⟨(gRead_retArch a pm ra vs (.inr hx)).trans (named hj).1, (gRead_retArch a pm ra vs (.inr hy)).trans (named hj).2⟩
    · have hlow (k : Nat) (hk : 16 ≤ k ∧ k < 32) : r ≠ regNo k := fun e => by
        have := congrArg BitVec.toNat e
        simp only [regNo, BitVec.toNat_ofNat] at this
        omega
      exact (gRead_retArch a pm ra vs (.inr (hlow 31 (by omega)))).trans (gRead_restorePairs_other fun k hk =>
        have := h8 k hk
        ⟨hlow _ (by omega), hlow _ (by omega)⟩)
    · have hne : ∀ k ∈ pairsOf pm, i ≠ k := fun k hk e => by
        rw [← e, mem_pairsOf, hp] at hk
        exact Bool.false_ne_true hk.2
      have hx : regNo (16 + 2 * i) ≠ 31#5 := regNo_ne (j := 31) (by omega) (by omega) (by omega)
      have hy : regNo (17 + 2 * i) ≠ 31#5 := regNo_ne (j := 31) (by omega) (by omega) (by omega)
      exact ⟨(gRead_retArch a pm ra vs (.inr hx)).trans (gRead_restorePairs_other fun k hk => (regNo_pair_ne (by omega) (h8 k hk) (hne k hk)).1),
        (gRead_retArch a pm ra vs (.inr hy)).trans (gRead_restorePairs_other fun k hk => (regNo_pair_ne (by omega) (h8 k hk) (hne k hk)).2)⟩
    · have hb : spRead b = spRead (spWrite (restorePairs a (pairsOf pm) vs) (spRead a + frameSize pm)) := by
        show spRead (if pm.getLsbD 7 then _ else _) = _
        rw [h7]; rfl
      exact hb.trans (spRead_spWrite ..)
    · have hlast := pairsOf_seven h7
      have hpos : 0 < (pairsOf pm).length := List.length_pos_of_mem (mem_pairsOf.2 ⟨by omega, h7⟩)
      have hidx : 2 * ((pairsOf pm).length - 1) + 1 = 2 * l.length - 1 := by
        show _ = 2 * (pairsOf pm).length - 1
        omega
      rw [← gRead_thirtyOne, ← hidx]
      exact (gRead_retArch a pm ra vs (.inl h7)).trans (named hlast).2

end Sys2Proof.Machine
end

-- ==== Interrupts and notices ====
section
/-! INTERRUPT_ENTRY and NOTICE_ENTRY (O17). The instruments may be on: what they do leaves the registers alone. -/

namespace Sys2Proof.Machine

/-! ### A core with its work committed -/

/-- From `s` to `t` the work of core `vc` has become architectural, with the registers `a`; its notices and every pavilion are as they were. -/
structure Stands (vc : Vc) (s t : State) (a : Arch) : Prop where
  settled : Settled t vc a
  noticeS : (t.core vc).noticeS = (s.core vc).noticeS
  noticeH : (t.core vc).noticeH = (s.core vc).noticeH
  pav : ∀ p, (t.pav p).st = (s.pav p).st ∧ (t.pav p).ctl = (s.pav p).ctl
  calm : noPavWait s → noPavWait t

theorem Steady.wfe {s t : State} (h : Steady s t) (v : Vc) : (t.core v).wfe = (s.core v).wfe := congrArg (·.2.1) (h.core v).kept

section
variable {vc : Vc} {s t u : State} {a : Arch}

/-- Fabric, posts, counters and the encoder disturb none of this. -/
theorem Stands.steady (h : Stands vc s t a) (k : Steady t u) : Stands vc s u a where
  settled := by
    obtain ⟨ha, hs⟩ := h.settled
    have ha' : (u.core vc).arch = a := (congrArg (·.1) (k.core vc).kept).trans ha
    exact ⟨ha', (k.core vc).spec.elim (·.trans hs) (·.trans ha)⟩
  noticeS := (congrArg (·.2.2.1) (k.core vc).kept).trans h.noticeS
  noticeH := (congrArg (·.2.2.2) (k.core vc).kept).trans h.noticeH
  pav p := ⟨(k.pav p).1.trans (h.pav p).1, (k.pav p).2.trans (h.pav p).2⟩
  calm := k.calm ∘ h.calm

theorem Stands.setCore (h : Stands vc s t a) {c : Core} {b : Arch} (ha : c.arch = b ∧ c.spec = b) (hS : c.noticeS = (t.core vc).noticeS)
    (hH : c.noticeH = (t.core vc).noticeH) : Stands vc s (t.setCore vc c) b where
  settled := by rw [Settled, State.core_setCore_self]; exact ha
  noticeS := by rw [State.core_setCore_self, hS, h.noticeS]
  noticeH := by rw [State.core_setCore_self, hH, h.noticeH]
  pav := h.pav
  calm := h.calm

theorem Stands.fStyleOf (h : Stands vc s t a) (b : Arch) : t.fStyleOf b = s.fStyleOf b := by
  obtain ⟨hst, hctl⟩ := h.pav b.tr.vmid
  simp only [State.fStyleOf, hst, hctl]

end

section
variable (s : State) (vc : Vc)

theorem commitCore_stands : Stands vc s (commitCore s vc) (s.core vc).spec := by
  let s0 := s.setCore vc (adoptSpec { s.core vc with evq := [], wasted := [] })
  have h0 : Stands vc s s0 (s.core vc).spec :=
    ⟨by rw [Settled, State.core_setCore_self]; exact ⟨rfl, rfl⟩, by rw [State.core_setCore_self]; rfl, by rw [State.core_setCore_self]; rfl,
      fun _ => ⟨rfl, rfl⟩, id⟩
  exact h0.steady (foldl_steady (fun _ _ h => commitOne_steady h) (pmuWasted_steady (pmuQueued_steady (.refl s0))))

/-- The core resumes where it was suspended. -/
def resumed : State := if (s.core vc).wfe then endSuspend s vc else s

end

theorem Stands.resumed {vc : Vc} {s t : State} {a : Arch} (h : Stands vc s t a) : Stands vc s (resumed t vc) a := by
  unfold Machine.resumed
  split
  · have h1 : Stands vc s (t.updCore vc (fun c => { c with wfe := false, wfeEvent := false })) a := h.setCore h.settled rfl rfl
    exact h1.steady (ite_steady (emit_steady (traceEnter_steady (.refl _))) (traceEnter_steady (.refl _)))
  · exact h

/-- An exception entry of a core whose work is committed. -/
theorem Stands.enterExc {vc : Vc} {s t : State} {a : Arch} (h : Stands vc s t a) (x : Exc) (epc : W64) (kind : Nat) :
    Stands vc s (enterExc t vc x epc kind) (excEntry a (s.fStyleOf a) x epc kind) ∧ ((enterExc t vc x epc kind).core vc).wfe = false := by
  obtain ⟨ha, -⟩ := h.settled
  have hnew : excEntry (t.core vc).arch (t.fStyleOf (t.core vc).arch) x epc kind = excEntry a (s.fStyleOf a) x epc kind := by
    rw [ha, h.fStyleOf]
  let s0 := t.setCore vc (enteredCore (t.core vc) (excEntry (t.core vc).arch (t.fStyleOf (t.core vc).arch) x epc kind))
  have h0 : Stands vc s s0 (excEntry a (s.fStyleOf a) x epc kind) := h.setCore ⟨hnew, hnew⟩ rfl rfl
  have hk : Steady s0 (Machine.enterExc t vc x epc kind) :=
    traceExc_steady (pmuEvent_steady (ite_steady (.refl s0) (updCore_steady (.refl s0) ⟨rfl, .inl rfl⟩)))
  refine ⟨h0.steady hk, (hk.wfe vc).trans ?_⟩
  rw [State.core_setCore_self]
  rfl

/-! ### The entry of an interrupt or a notice (02 R51, R52) -/

section
variable {s : State} {vc : Vc}

theorem enterAsync_eq (hn : noPavWait s) (x : Exc) (kind : Nat) :
    enterAsync s vc x kind = enterExc (resumed (commitCore s vc) vc) vc x (s.core vc).spec.pc kind := by
  have hr := (commitCore_stands s vc).resumed
  have he := (hr.enterExc x (s.core vc).spec.pc kind).1
  rw [← advancePavs_quiet (he.calm hn)]
  show advancePavs (enterExc _ vc x ((resumed (commitCore s vc) vc).core vc).arch.pc kind) = _
  rw [hr.settled.1]
  rfl

/-- What executed commits, the vCPU resumes, and the entry is taken from its registers. -/
theorem enterAsync_enters (hn : noPavWait s) (x : Exc) (kind : Nat) :
    let a := (s.core vc).spec
    let t := enterAsync s vc x kind
    ∃ b, Settled t vc b
      ∧ TakenAs a b (s.fStyleOf a) x.cls x.detail x.addr a.pc x.lvl (vectorOffset a.level x.lvl kind)
      ∧ (t.core vc).wfe = false ∧ (t.core vc).noticeS = (s.core vc).noticeS ∧ (t.core vc).noticeH = (s.core vc).noticeH := by
  intro a t
  obtain ⟨he, hw⟩ := (commitCore_stands s vc).resumed.enterExc x a.pc kind
  rw [← enterAsync_eq hn] at he hw
  exact ⟨_, he.settled, excEntry_takenAs .., hw, he.noticeS, he.noticeH⟩

/-- With the instruments off no interrupt becomes pending by it, and none goes. -/
theorem enterAsync_off (hn : noPavWait s) (h : InstrumentsOff s vc) (x : Exc) (kind : Nat) :
    ((enterAsync s vc x kind).core vc).phys = (s.core vc).phys ∧ ((enterAsync s vc x kind).core vc).latch = (s.core vc).latch := by
  have hc := commitCore_core h
  have hr : InstrumentsOff (resumed (commitCore s vc) vc) vc ∧ ((resumed (commitCore s vc) vc).core vc).phys = (s.core vc).phys
      ∧ ((resumed (commitCore s vc) vc).core vc).latch = (s.core vc).latch := by
    have hphys : ((commitCore s vc).core vc).phys = (s.core vc).phys := congrArg (·.phys) hc
    have hlatch : ((commitCore s vc).core vc).latch = (s.core vc).latch := congrArg (·.latch) hc
    unfold resumed
    split
    · rw [endSuspend_off (commitCore_off h)]
      refine ⟨(commitCore_off h).of_core ?_ ?_, ?_, ?_⟩
      all_goals rw [State.core_updCore_self, State.core_updCore_self]
      · rfl
      · rfl
      · exact hphys
      · exact hlatch
    · exact ⟨commitCore_off h, hphys, hlatch⟩
  obtain ⟨ho, hphys, hlatch⟩ := hr
  obtain ⟨n, he⟩ := (enterExc_enters ho x (s.core vc).spec.pc kind).core
  rw [enterAsync_eq hn]
  exact ⟨(congrArg (·.phys) he : (untrained _).phys = (untrained _).phys).trans hphys,
    (congrArg (·.latch) he : (untrained _).latch = (untrained _).latch).trans hlatch⟩

end

/-! ### Which entry is due (02 R54, R58) -/

theorem pickOf_mem (f : W64) {l : List Nat} (h : l ≠ []) : pickOf f l ∈ l := by
  have hlt : f.toNat % l.length < l.length := Nat.mod_lt _ (List.length_pos_iff.2 h)
  rw [pickOf, List.getElem?_eq_getElem hlt]
  exact List.getElem_mem hlt

theorem physTakes_iff {s : State} {c : Core} : physTakes s c = true ↔ physPending s c ≠ [] ∧ (c.spec.level ≠ .h ∨ c.spec.ieH = true) := by
  simp [physTakes]

theorem virtTakes_iff {c : Core} : virtTakes c = true ↔ c.latch ≠ [] ∧ (c.spec.level = .u ∨ (c.spec.level = .s ∧ c.spec.ieS = true)) := by
  cases h : c.spec.level <;> simp [virtTakes, h]

theorem noticeHTakes_iff {c : Core} : noticeHTakes c = true ↔ c.noticeH.isSome = true ∧ (c.spec.level ≠ .h ∨ c.spec.ieH = true) := by
  simp [noticeHTakes]

theorem noticeSTakes_iff {c : Core} :
    noticeSTakes c = true ↔ c.noticeS.isSome = true ∧ (c.spec.level = .u ∨ (c.spec.level = .s ∧ c.spec.ieS = true)) := by
  cases h : c.spec.level <;> simp [noticeSTakes, h]

section
variable {s : State} {vc : Vc}

/-- The interrupt that is entered has its ID in the syndrome, and EADDR is the next free value. -/
theorem enterIrq_enters (hn : noPavWait s) (id : Nat) (l : Level) :
    let a := (s.core vc).spec
    let t := enterIrq s vc id l
    ∃ b, Settled t vc b ∧ (t.core vc).wfe = false
      ∧ TakenAs a b (s.fStyleOf a) 0x20 (BitVec.ofNat 26 (id * 1024)) (Config.freeBits s.fresh) a.pc l (vectorTable a.level l true)
      ∧ (InstrumentsOff s vc → (t.core vc).phys = (s.core vc).phys ∧ (t.core vc).latch = (s.core vc).latch) := by
  intro a t
  obtain ⟨b, hb, ht, hw, -, -⟩ := enterAsync_enters (s := s.free.2) (vc := vc) hn
    { cls := 0x20, detail := BitVec.ofNat 26 (id * 1024), addr := s.free.1, lvl := l } 1
  exact ⟨b, hb, hw, (vectorOffset_eq a.level l true) ▸ ht, fun h => enterAsync_off (s := s.free.2) hn (free_off h) _ 1⟩

theorem takePhys_enters (hn : noPavWait s) (hp : physPending s (s.core vc) ≠ []) :
    let c := s.core vc
    let t := takePhys s vc
    ∃ b id, id ∈ physPending s c ∧ Settled t vc b ∧ (t.core vc).wfe = false
      ∧ TakenAs c.spec b (s.fStyleOf c.spec) 0x20 (BitVec.ofNat 26 (id * 1024)) (Config.freeBits (s.fresh + 1)) c.spec.pc .h
          (vectorTable c.spec.level .h true)
      ∧ (InstrumentsOff s vc → (t.core vc).phys = c.phys.filter (· != id) ∧ (t.core vc).latch = c.latch) := by
  intro c t
  let id := pickOf s.free.1 (physPending s c)
  let u := s.free.2.updCore vc (fun c => { c with phys := c.phys.filter (· != id) })
  have hu : u.core vc = { c with phys := c.phys.filter (· != id) } := State.core_updCore_self ..
  obtain ⟨b, hb, hw, ht, ho⟩ := enterIrq_enters (s := u) (vc := vc) hn id .h
  rw [hu] at ht ho
  exact ⟨b, id, pickOf_mem _ hp, hb, hw, ht, fun h => ho (h.of_core (by rw [hu]) (by rw [hu]))⟩

theorem takeVirt_enters (hn : noPavWait s) {id : Nat} {rest : List Nat} (hl : (s.core vc).latch = id :: rest) :
    let c := s.core vc
    let t := takeVirt s vc
    ∃ b, Settled t vc b ∧ (t.core vc).wfe = false
      ∧ TakenAs c.spec b (s.fStyleOf c.spec) 0x20 (BitVec.ofNat 26 (id * 1024)) (Config.freeBits s.fresh) c.spec.pc .s
          (vectorTable c.spec.level .s true)
      ∧ (InstrumentsOff s vc → (t.core vc).latch = rest ∧ (t.core vc).phys = c.phys) := by
  intro c t
  let u := s.updCore vc (fun c => { c with latch := rest })
  have hu : u.core vc = { c with latch := rest } := State.core_updCore_self ..
  have htu : t = enterIrq u vc id .s := by
    show (match (s.core vc).latch with | [] => s | id :: t => _) = _
    rw [hl]
  obtain ⟨b, hb, hw, ht, ho⟩ := enterIrq_enters (s := u) (vc := vc) hn id .s
  rw [← htu] at hb hw ho
  rw [hu] at ht ho
  exact ⟨b, hb, hw, ht, fun h => (ho (h.of_core (by rw [hu]) (by rw [hu]))).symm⟩

/-- A notice is entered at its level, and the other stays. -/
theorem takeNoticeH_enters (hn : noPavWait s) (n : Notice) :
    let c := s.core vc
    let t := takeNoticeH s vc n
    ∃ b, Settled t vc b ∧ (t.core vc).noticeH = none ∧ (t.core vc).noticeS = c.noticeS ∧ (t.core vc).wfe = false
      ∧ TakenAs c.spec b (s.fStyleOf c.spec) 0x21 (noticeExc n .h).detail 0 c.spec.pc .h 0x400 := by
  intro c t
  let u := s.updCore vc (fun c => { c with noticeH := none })
  have hu : u.core vc = { c with noticeH := none } := State.core_updCore_self ..
  obtain ⟨b, hb, ht, hw, hS, hH⟩ := enterAsync_enters (s := u) (vc := vc) hn (noticeExc n .h) 2
  rw [hu] at ht hS hH
  exact ⟨b, hb, hH, hS, hw, ht⟩

theorem takeNoticeS_enters (hn : noPavWait s) (n : Notice) :
    let c := s.core vc
    let t := takeNoticeS s vc n
    ∃ b, Settled t vc b ∧ (t.core vc).noticeS = none ∧ (t.core vc).noticeH = c.noticeH ∧ (t.core vc).wfe = false
      ∧ TakenAs c.spec b (s.fStyleOf c.spec) 0x21 (noticeExc n .s).detail 0 c.spec.pc .s 0x400 := by
  intro c t
  let u := s.updCore vc (fun c => { c with noticeS := none })
  have hu : u.core vc = { c with noticeS := none } := State.core_updCore_self ..
  obtain ⟨b, hb, ht, hw, hS, hH⟩ := enterAsync_enters (s := u) (vc := vc) hn (noticeExc n .s) 2
  rw [hu] at ht hS hH
  exact ⟨b, hb, hS, hH, hw, ht⟩

/-- Which notice is entered, by what each level can take. -/
theorem execNoticeEntry_eq (hb : atBoundary s vc = true) (hp : physTakes s (s.core vc) = false) (hv : virtTakes (s.core vc) = false) :
    execNoticeEntry vc s = .next (match (if noticeHTakes (s.core vc) then (s.core vc).noticeH else none),
        (if noticeSTakes (s.core vc) then (s.core vc).noticeS else none) with
      | some n, some m => if (Config.freeBits s.fresh).getLsbD 0 then takeNoticeH s.free.2 vc n else takeNoticeS s.free.2 vc m
      | some n, none => takeNoticeH s vc n
      | none, some m => takeNoticeS s vc m
      | none, none => s) := by
  unfold execNoticeEntry
  simp only [hb, hp, hv, Bool.not_false, Bool.and_self, if_true]
  rfl

end

/-- Settles O17: which entry is due by the masks of its level, and its registers by the entry of an exception on a core whose work has committed. -/
theorem interruptsAndNotices : Obligations.InterruptsAndNotices := by
  refine ⟨?_, ?_⟩
  · intro s vc c hb hn
    have hx : exec (.interruptEntry vc) s = if physTakes s c then .next (takePhys s vc) else if virtTakes c then .next (takeVirt s vc) else .next s :=
      if_pos hb
    refine ⟨fun hp hl => ?_, fun id rest hp hl hlv => ?_, fun hp hv => ?_⟩
    · obtain ⟨b, id, hid, hset, hw, ht, ho⟩ := takePhys_enters hn hp
      exact ⟨_, b, id, by rw [hx, if_pos (physTakes_iff.2 ⟨hp, hl⟩)], hid, hset, hw, ht, ho⟩
    · obtain ⟨b, hset, hw, ht, ho⟩ := takeVirt_enters hn hl
      have hpn : physTakes s c = false := by
        rw [← Bool.not_eq_true, physTakes_iff]
        rintro ⟨h1, h2⟩
        obtain hp | ⟨h3, h4⟩ := hp
        · exact h1 hp
        · simp [h3, h4] at h2
      have hvt : virtTakes c = true := virtTakes_iff.2 ⟨by rw [hl]; exact List.cons_ne_nil _ _, hlv⟩
      exact ⟨_, b, by rw [hx, hpn, hvt]; rfl, hset, hw, ht, ho⟩
    · rw [hx, hp, hv]
      rfl
  · intro s vc n m c hb hn hp hv d opensH opensS entersH entersS
    have hx : exec (.noticeEntry vc) s = _ := execNoticeEntry_eq hb hp hv
    have takesH {n : Notice} (h : c.noticeH = some n) (ho : opensH) : noticeHTakes c = true := noticeHTakes_iff.2 ⟨by rw [h]; rfl, ho⟩
    have takesS {m : Notice} (h : c.noticeS = some m) (ho : opensS) : noticeSTakes c = true := noticeSTakes_iff.2 ⟨by rw [h]; rfl, ho⟩
    have closedH (h : c.noticeH = none ∨ ¬ opensH) : noticeHTakes c = false := by
      rw [← Bool.not_eq_true, noticeHTakes_iff]
      rintro ⟨h1, h2⟩
      obtain h | h := h
      · rw [h] at h1; cases h1
      · exact h h2
    have closedS (h : c.noticeS = none ∨ ¬ opensS) : noticeSTakes c = false := by
      rw [← Bool.not_eq_true, noticeSTakes_iff]
      rintro ⟨h1, h2⟩
      obtain h | h := h
      · rw [h] at h1; cases h1
      · exact h h2
    refine ⟨fun hH oH hS => ?_, fun hS oS hH => ?_, fun hH hS oH oS => ?_, fun hH hS => ?_⟩
    · obtain ⟨b, hrest⟩ := takeNoticeH_enters (vc := vc) hn n
      exact ⟨_, b, by rw [hx, takesH hH oH, closedS hS, hH]; rfl, hrest⟩
    · obtain ⟨b, hrest⟩ := takeNoticeS_enters (vc := vc) hn m
      exact ⟨_, b, by rw [hx, closedH hH, takesS hS oS, hS]; rfl, hrest⟩
    · rw [takesH hH oH, takesS hS oS, hH, hS] at hx
      split
      · next hf =>
        obtain ⟨b, hrest⟩ := takeNoticeH_enters (s := s.free.2) (vc := vc) hn n
        exact ⟨_, b, hx.trans (congrArg Host.Outcome.next (if_pos hf)), hrest⟩
      · next hf =>
        obtain ⟨b, hrest⟩ := takeNoticeS_enters (s := s.free.2) (vc := vc) hn m
        exact ⟨_, b, hx.trans (congrArg Host.Outcome.next (if_neg hf)), hrest⟩
    · rw [hx, hH, hS]
      rfl

end Sys2Proof.Machine
end

-- ==== Words of instructions ====
section
/-! Words of instructions (O54, O55): the fields of a word, the codes of the groups, and what the encoder writes the decoder reads. -/

namespace Sys2Proof.Machine

/-! ### Fields of a concatenation -/

/-- A field above the low part of a concatenation is one of the high part. -/
@[simp] theorem extractLsb'_append_high {v w s n : Nat} (x : BitVec v) (y : BitVec w) (h : w ≤ s) :
    BitVec.extractLsb' (n := no_index (v + w)) s n (HAppend.hAppend (γ := BitVec (no_index (v + w))) x y) = x.extractLsb' (s - w) n :=
  BitVec.extractLsb'_append_eq_of_le h

/-- A field within the low part of a concatenation is one of the low part. -/
@[simp] theorem extractLsb'_append_low {v w s n : Nat} (x : BitVec v) (y : BitVec w) (h : s + n ≤ w) :
    BitVec.extractLsb' (n := no_index (v + w)) s n (HAppend.hAppend (γ := BitVec (no_index (v + w))) x y) = y.extractLsb' s n :=
  BitVec.extractLsb'_append_eq_of_add_le h

/-- Neighbouring fields of a word make one field. -/
theorem extractLsb'_join {z a s m n : Nat} (w : BitVec z) (h : a = s + m) :
    HAppend.hAppend (γ := BitVec (no_index (n + m))) (w.extractLsb' a n) (w.extractLsb' s m) = w.extractLsb' s (n + m) :=
  BitVec.extractLsb'_append_extractLsb'_eq_extractLsb' h

@[simp] theorem encBit_eq_one (b : Bool) : (encBit b == 1#1) = b := by cases b <;> rfl

theorem encBit_getLsbD {n : Nat} (w : BitVec n) (i : Nat) : encBit (w.getLsbD i) = w.extractLsb' i 1 := by
  ext j hj
  obtain rfl : j = 0 := by omega
  simp [encBit]

/-! ### Codes of the groups (03 R79 to R92) -/

@[simp] theorem aluOf_aluCode (fn : AluFn) : aluOf (aluCode fn) = some fn := by cases fn <;> rfl
@[simp] theorem aluOf_shCode (fn : ShFn) : aluOf (shCode fn) = none := by cases fn <;> rfl
@[simp] theorem shOf_shCode (fn : ShFn) : shOf (shCode fn) = some fn := by cases fn <;> rfl
@[simp] theorem alu2Of_alu2Code (fn : Alu2Fn) : alu2Of (alu2Code fn) = some fn := by cases fn <;> rfl
@[simp] theorem alu2Of_unCode (fn : UnFn) : alu2Of (unCode fn) = none := by cases fn <;> rfl
@[simp] theorem unOf_unCode (fn : UnFn) : unOf (unCode fn) = some fn := by cases fn <;> rfl
@[simp] theorem mdOf_mdCode (fn : MdFn) : mdOf (mdCode fn) = some fn := by cases fn <;> rfl
@[simp] theorem ldxOf_ldxCode (fn : LdFn) : ldxOf (ldxCode fn) = some fn := by cases fn <;> rfl
@[simp] theorem ldxOf_stxCode (fn : StFn) : ldxOf (stxCode fn) = none := by cases fn <;> rfl
@[simp] theorem stxOf_stxCode (fn : StFn) : stxOf (stxCode fn) = some fn := by cases fn <;> rfl
@[simp] theorem atomOf_atomCode (fn : AtomFn) : atomOf (atomCode fn) = some fn := by cases fn <;> rfl
@[simp] theorem fpOf_fpCode (fn : FpFn) : fpOf (fpCode fn) = some fn := by cases fn <;> rfl

theorem aluCode_of_aluOf : ∀ (k : BitVec 4) (fn), aluOf k = some fn → aluCode fn = k := by decide
theorem shCode_of_shOf : ∀ (k : BitVec 4) (fn), shOf k = some fn → shCode fn = k := by decide
theorem alu2Code_of_alu2Of : ∀ (k : BitVec 4) (fn), alu2Of k = some fn → alu2Code fn = k := by decide
theorem unCode_of_unOf : ∀ (k : BitVec 4) (fn), unOf k = some fn → unCode fn = k := by decide
theorem mdCode_of_mdOf : ∀ (k : BitVec 4) (fn), mdOf k = some fn → mdCode fn = k := by decide
theorem ldxCode_of_ldxOf : ∀ (k : BitVec 4) (fn), ldxOf k = some fn → ldxCode fn = k := by decide
theorem stxCode_of_stxOf : ∀ (k : BitVec 4) (fn), stxOf k = some fn → stxCode fn = k := by decide
theorem atomCode_of_atomOf : ∀ (k : BitVec 4) (fn), atomOf k = some fn → atomCode fn = k := by decide
theorem fpCode_of_fpOf : ∀ (k : BitVec 6) (fn), fpOf k = some fn → fpCode fn = k := by decide

/-! ### From an instruction to its word and back -/

/-- The decoder reads the fields that the encoder writes. -/
theorem decRaw_encodeCore {fs : Bool} {op : CoreOp} (h : op.wf fs = true) : decRaw fs (encodeCore op) = some op := by
  have bit (w : W32) (i : Nat) : w.getLsbD i = (w.extractLsb' i 1 == 1#1) := BitVec.getLsbD_eq_extractLsb' ..
  cases op with
  | alu | shi => simp [decRaw, decAlu, encodeCore, encRR, fOp, fRd, fRa, fRb, fS, fSel, fLow, bit, -BitVec.getLsbD_eq_getElem]
  | alu2 | un => simp [decRaw, decAlu2, encodeCore, encRR, fOp, fRd, fRa, fRb, fS, fSel, fLow, bit, -BitVec.getLsbD_eq_getElem]
  | muldiv => simp [decRaw, decMd, encodeCore, encRR, fOp, fRd, fRa, fRb, fS, fSel, fLow, bit, -BitVec.getLsbD_eq_getElem]
  | ri fn => cases fn <;> simp [decRaw, encodeCore, encRI, riCode, fOp, fRd, fRa, fImm]
  | addpc | insh => simp [decRaw, encodeCore, encRI, fOp, fRd, fRa, fImm]
  | ld fn => cases fn <;> simp [decRaw, encodeCore, encRI, ldCode, fOp, fRd, fRa, fImm]
  | st fn => cases fn <;> simp [decRaw, encodeCore, encRI, stCode, fOp, fRd, fRa, fImm]
  | ldx | stx => simp [decRaw, decLsx, encodeCore, encRR, fOp, fRd, fRa, fRb, fS, fSel, bit, -BitVec.getLsbD_eq_getElem]
  | atom => simp [decRaw, decAtom, encodeCore, encRR, fOp, fRd, fRa, fRb, fS, fSel, bit, -BitVec.getLsbD_eq_getElem]
  | br | fb =>
    simp only [CoreOp.wf, Bool.not_eq_true', Bool.and_eq_true] at h
    simp [decRaw, decBr, encodeCore, fOp, fRd, fRa, h]
  | bri | j | call | callr | folly => simp [decRaw, encodeCore, fOp, fRd, fRa]
  | jr | ret => simp [decRaw, decInd, encodeCore, encRR, fOp, fRd, fRa, fRb]
  | fp => simp [decRaw, decFp, encodeCore, encRR, fOp, fRd, fRa, fRb, fS, bit, -BitVec.getLsbD_eq_getElem]
  | fma => simp [decRaw, decFma, encodeCore, encRR, fOp, fRd, fRa, fRb, fS, bit, -BitVec.getLsbD_eq_getElem]
  | _ => simp [decRaw, decSys, encodeCore, encRI, fOp, fRd, fRa, fImm]

/-- The zero of a bit that the decoder requires to be zero. -/
theorem encBit_of_false {b : Bool} (h : b = false) : encBit b = 0#1 := h ▸ rfl

section
variable {w : W32} {op : CoreOp} {k : BitVec 6}

theorem encRR_fields (ho : (fOp w).toNat = k.toNat) : encRR k (fRd w) (fRa w) (fRb w) (w.extractLsb' 0 11) = w := by
  obtain rfl : fOp w = k := BitVec.eq_of_toNat_eq ho
  simp [encRR, fOp, fRd, fRa, fRb, extractLsb'_join]

theorem encRI_fields (ho : (fOp w).toNat = k.toNat) : encRI k (fRd w) (fRa w) (fImm w) = w := by
  obtain rfl : fOp w = k := BitVec.eq_of_toNat_eq ho
  simp [encRI, fOp, fRd, fRa, fImm, extractLsb'_join]

/-- A word of the integer groups from its fields: the S bit, the code and the low part make fn. -/
theorem encRR_fnFields (ho : (fOp w).toNat = k.toNat) :
    encRR k (fRd w) (fRa w) (fRb w) (encBit (fS w) ++ fSel w ++ fLow w) = w := by
  have hfn : encBit (fS w) ++ fSel w ++ fLow w = w.extractLsb' 0 11 := by
    rw [fS, encBit_getLsbD]
    simp [fSel, fLow, extractLsb'_join]
  rw [hfn, encRR_fields ho]

theorem encodeCore_decAlu (ho : (fOp w).toNat = 0x01) (h : decAlu w = some op) : encodeCore op = w := by
  unfold decAlu at h
  split at h
  · next fn hf =>
    simp only [Option.ite_none_right_eq_some, Option.some.injEq] at h
    obtain ⟨hl, rfl⟩ := h
    rw [encodeCore, aluCode_of_aluOf _ _ hf, ← hl, encRR_fnFields ho]
  · split at h
    · next fn hf =>
      simp only [Option.ite_none_right_eq_some, Option.some.injEq] at h
      obtain ⟨hb, rfl⟩ := h
      rw [encodeCore, shCode_of_shOf _ _ hf, ← hb, encRR_fnFields ho]
    · cases h

theorem encodeCore_decAlu2 (ho : (fOp w).toNat = 0x03) (h : decAlu2 w = some op) : encodeCore op = w := by
  rw [decAlu2, Option.ite_none_right_eq_some] at h
  obtain ⟨hl, h⟩ := h
  split at h
  · next fn hf =>
    cases h
    rw [encodeCore, alu2Code_of_alu2Of _ _ hf, ← hl, encRR_fnFields ho]
  · split at h
    · next fn hf =>
      simp only [Option.ite_none_right_eq_some, Option.some.injEq] at h
      obtain ⟨hb, rfl⟩ := h
      rw [encodeCore, unCode_of_unOf _ _ hf, ← hl, ← hb, encRR_fnFields ho]
    · cases h

theorem encodeCore_decMd (ho : (fOp w).toNat = 0x02) (h : decMd w = some op) : encodeCore op = w := by
  rw [decMd, Option.ite_none_right_eq_some] at h
  obtain ⟨hl, h⟩ := h
  split at h
  · next fn hf =>
    cases h
    rw [encodeCore, mdCode_of_mdOf _ _ hf, ← hl, encRR_fnFields ho]
  · cases h

theorem encodeCore_decAtom (ho : (fOp w).toNat = 0x04) (h : decAtom w = some op) : encodeCore op = w := by
  rw [decAtom, Option.ite_none_right_eq_some] at h
  obtain ⟨⟨hs, hl⟩, h⟩ := h
  split at h
  · next fn hf =>
    cases h
    have hfn : encBit (fS w) ++ fSel w ++ w.extractLsb' 4 2 ++ encBit (w.getLsbD 3) ++ w.extractLsb' 0 3 = w.extractLsb' 0 11 := by
      rw [fS, encBit_getLsbD, encBit_getLsbD]
      simp [fSel, extractLsb'_join]
    rw [encodeCore, atomCode_of_atomOf _ _ hf, ← hl, ← encBit_of_false hs, hfn, encRR_fields ho]
  · cases h

theorem encodeCore_decLsx (ho : (fOp w).toNat = 0x05) (h : decLsx w = some op) : encodeCore op = w := by
  rw [decLsx, Option.ite_none_right_eq_some] at h
  obtain ⟨⟨hs, hl⟩, h⟩ := h
  have hfn : encBit (fS w) ++ fSel w ++ w.extractLsb' 2 4 ++ w.extractLsb' 0 2 = w.extractLsb' 0 11 := by
    rw [fS, encBit_getLsbD]
    simp [fSel, extractLsb'_join]
  rw [encBit_of_false hs, hl] at hfn
  split at h
  · next fn hf =>
    cases h
    rw [encodeCore, ldxCode_of_ldxOf _ _ hf, hfn, encRR_fields ho]
  · split at h
    · next fn hf =>
      cases h
      rw [encodeCore, stxCode_of_stxOf _ _ hf, hfn, encRR_fields ho]
    · cases h

theorem encodeCore_decInd (ho : (fOp w).toNat = 0x23) (h : decInd w = some op) : encodeCore op = w := by
  have hw : encRR 0x23#6 (fRd w) (fRa w) (fRb w) (w.extractLsb' 0 11) = w := encRR_fields ho
  unfold decInd at h
  split at h
  · next hz =>
    obtain ⟨hl, hd, hb⟩ := hz
    cases h
    rwa [hl, hd, hb] at hw
  · simp only [Option.ite_none_right_eq_some, Option.some.injEq] at h
    obtain ⟨⟨hl, hd, ha, hb⟩, rfl⟩ := h
    rwa [hl, hd, ha, hb] at hw

theorem encodeCore_decFp (ho : (fOp w).toNat = 0x28) (h : decFp w = some op) : encodeCore op = w := by
  unfold decFp at h
  split at h
  · next fn hf =>
    cases h
    have hfn : encBit (fS w) ++ encBit (w.getLsbD 9) ++ w.extractLsb' 3 6 ++ w.extractLsb' 0 3 = w.extractLsb' 0 11 := by
      rw [fS, encBit_getLsbD, encBit_getLsbD]
      simp [extractLsb'_join]
    rw [encodeCore, fpCode_of_fpOf _ _ hf, hfn, encRR_fields ho]
  · cases h

theorem encodeCore_decFma (ho : (fOp w).toNat = 0x29) (h : decFma w = some op) : encodeCore op = w := by
  simp only [decFma, Option.ite_none_right_eq_some, Option.some.injEq] at h
  obtain ⟨⟨hs, hl⟩, rfl⟩ := h
  have hfn : encBit (fS w) ++ w.extractLsb' 5 5 ++ encBit (w.getLsbD 4) ++ w.extractLsb' 2 2 ++ w.extractLsb' 0 2 = w.extractLsb' 0 11 := by
    rw [fS, encBit_getLsbD, encBit_getLsbD]
    simp [extractLsb'_join]
  rw [encodeCore, ← hl, ← encBit_of_false hs, hfn, encRR_fields ho]

theorem encodeCore_decBr {fs : Bool} (ho : (fOp w).toNat = 0x30) : encodeCore (decBr fs w) = w := by
  have hop : 0x30#6 = fOp w := BitVec.eq_of_toNat_eq ho.symm
  unfold decBr
  split
  · simp [encodeCore, hop, fOp, extractLsb'_join]
  · simp [encodeCore, hop, fOp, fRd, fRa, extractLsb'_join]

/-- A word of the SYS group from its fields. -/
theorem encSys_fields {r : Reg} (ho : (fOp w).toNat = 0x3F) (hr : (fRd w).toNat = r.toNat) : encRI 0x3F#6 r (fRa w) (fImm w) = w := by
  obtain rfl : fRd w = r := BitVec.eq_of_toNat_eq hr
  exact encRI_fields ho

theorem encodeCore_decSys (ho : (fOp w).toNat = 0x3F) (h : decSys w = some op) : encodeCore op = w := by
  have bare {r : Reg} {x : CoreOp} (h : (if fRa w = 0#5 ∧ fImm w = 0#16 then some x else none) = some op)
      (hx : encodeCore x = encRI 0x3F#6 r 0#5 0#16) (hr : (fRd w).toNat = r.toNat) : encodeCore op = w := by
    simp only [Option.ite_none_right_eq_some, Option.some.injEq] at h
    obtain ⟨⟨ha, hi⟩, rfl⟩ := h
    rw [hx, ← ha, ← hi, encSys_fields ho hr]
  have code {r : Reg} {x : CoreOp} (h : (if fRa w = 0#5 then some x else none) = some op)
      (hx : encodeCore x = encRI 0x3F#6 r 0#5 (fImm w)) (hr : (fRd w).toNat = r.toNat) : encodeCore op = w := by
    simp only [Option.ite_none_right_eq_some, Option.some.injEq] at h
    obtain ⟨ha, rfl⟩ := h
    rw [hx, ← ha, encSys_fields ho hr]
  have sysReg {r : Reg} {x : CoreOp} (h : (if w.extractLsb' 12 4 = 0#4 then some x else none) = some op)
      (hx : encodeCore x = encRI 0x3F#6 r (fRa w) (0#4 ++ w.extractLsb' 0 12)) (hr : (fRd w).toNat = r.toNat) : encodeCore op = w := by
    simp only [Option.ite_none_right_eq_some, Option.some.injEq] at h
    obtain ⟨hz, rfl⟩ := h
    have hi : w.extractLsb' 12 4 ++ w.extractLsb' 0 12 = fImm w := by simp [fImm, extractLsb'_join]
    rw [hx, ← hz, hi, encSys_fields ho hr]
  have addr {r : Reg} {x : CoreOp} (h : (if fImm w = 0#16 then some x else none) = some op)
      (hx : encodeCore x = encRI 0x3F#6 r (fRa w) 0#16) (hr : (fRd w).toNat = r.toNat) : encodeCore op = w := by
    simp only [Option.ite_none_right_eq_some, Option.some.injEq] at h
    obtain ⟨hi, rfl⟩ := h
    rw [hx, ← hi, encSys_fields ho hr]
  dsimp only [decSys] at h
  split at h
  case h_1 hr | h_2 hr | h_3 hr | h_4 hr | h_5 hr | h_6 hr | h_17 hr => exact bare h rfl hr
  case h_7 hr | h_8 hr | h_9 hr => exact code h rfl hr
  case h_10 hr | h_11 hr => exact sysReg h rfl hr
  case h_12 hr | h_13 hr | h_14 hr | h_15 hr | h_16 hr => exact addr h rfl hr
  case h_18 => cases h

/-- The encoder writes back the word that the decoder has read. -/
theorem encodeCore_decRaw {fs : Bool} (h : decRaw fs w = some op) : encodeCore op = w := by
  have imm {k : BitVec 6} {x : CoreOp} (h : some x = some op) (hx : encodeCore x = encRI k (fRd w) (fRa w) (fImm w))
      (ho : (fOp w).toNat = k.toNat) : encodeCore op = w := by
    cases h
    rw [hx, encRI_fields ho]
  have word (k : BitVec 6) (ho : (fOp w).toNat = k.toNat) : w.extractLsb' 26 6 = k := BitVec.eq_of_toNat_eq ho
  unfold decRaw at h
  split at h
  case h_1 ho => exact encodeCore_decAlu ho h
  case h_2 ho => exact encodeCore_decMd ho h
  case h_3 ho => exact encodeCore_decAlu2 ho h
  case h_4 ho => exact encodeCore_decAtom ho h
  case h_5 ho => exact encodeCore_decLsx ho h
  case h_6 ho | h_7 ho | h_8 ho | h_9 ho | h_10 ho | h_11 ho | h_14 ho | h_15 ho | h_16 ho | h_17 ho | h_18 ho | h_19 ho | h_20 ho
      | h_21 ho | h_22 ho | h_23 ho | h_24 ho | h_25 ho | h_26 ho | h_27 ho | h_28 ho => exact imm h rfl ho
  case h_12 ho =>
    simp only [Option.ite_none_right_eq_some, Option.some.injEq] at h
    obtain ⟨ha, rfl⟩ := h
    rw [encodeCore, ← ha, encRI_fields ho]
  case h_13 ho =>
    simp only [Option.ite_none_right_eq_some, Option.some.injEq] at h
    obtain ⟨hz, rfl⟩ := h
    have ha : w.extractLsb' 18 3 ++ w.extractLsb' 16 2 = fRa w := by simp [fRa, extractLsb'_join]
    rw [encodeCore, ← hz, ha, encRI_fields ho]
  case h_29 ho =>
    cases h
    simp [encodeCore, ← word 0x20#6 ho, extractLsb'_join]
  case h_30 ho =>
    cases h
    simp [encodeCore, ← word 0x21#6 ho, extractLsb'_join]
  case h_31 ho =>
    simp only [Option.ite_none_right_eq_some, Option.some.injEq] at h
    obtain ⟨hz, rfl⟩ := h
    simp [encodeCore, ← word 0x22#6 ho, ← hz, fRd, extractLsb'_join]
  case h_32 ho => exact encodeCore_decInd ho h
  case h_33 ho => exact encodeCore_decFp ho h
  case h_34 ho => exact encodeCore_decFma ho h
  case h_35 ho =>
    cases h
    exact encodeCore_decBr ho
  case h_36 ho =>
    cases h
    simp [encodeCore, ← word 0x31#6 ho, fRd, fRa, extractLsb'_join]
  case h_37 ho =>
    cases h
    simp [encodeCore, ← word 0x3E#6 ho, extractLsb'_join]
  case h_38 ho => exact encodeCore_decSys ho h
  case h_39 => cases h

end

theorem decodeCore_eq_some {fs : Bool} {w : W32} {op : CoreOp} :
    decodeCore fs w = some op ↔ decRaw fs w = some op ∧ op.wf fs = true := by
  unfold decodeCore
  cases decRaw fs w with
  | none => simp
  | some o =>
    simp only [Option.ite_none_right_eq_some, Option.some.injEq]
    exact ⟨fun ⟨h, e⟩ => ⟨e, e ▸ h⟩, fun ⟨e, h⟩ => ⟨e ▸ h, e⟩⟩

/-- Settles O55: the decoder reads each field where the encoder writes it, and a word whose required zeros hold is made of its fields. -/
theorem coreRoundTrip : Obligations.CoreRoundTrip := fun _ =>
  ⟨fun _ h => decodeCore_eq_some.2 ⟨decRaw_encodeCore h, h⟩, fun _ _ h =>
    have ⟨hd, hw⟩ := decodeCore_eq_some.1 h
    ⟨encodeCore_decRaw hd, hw⟩⟩

/-- Settles O54: each word is decoded by evaluation. -/
theorem coreWordsDecode : Obligations.CoreWordsDecode := by
  unfold Obligations.CoreWordsDecode
  decide

end Sys2Proof.Machine
end

-- ==== Integer operations ====
section
/-! Integer operations (O4): values and flags of the ALU, ALU2 and RI groups. -/

namespace Sys2Proof.Machine

/-! ### Sums and their flags (03 R82) -/

theorem addC_eq (x y : W64) (c : Bool) : addC x y c = BitVec.ofNat 64 (x.toNat + y.toNat + c.toNat) := by
  apply BitVec.eq_of_toNat_eq
  cases c <;> simp [addC, BitVec.toNat_add]

theorem cfAdd_eq (x y : W64) (c : Bool) : cfAdd x y c
    = cfMk ((addC x y c).getLsbD 63) (addC x y c == 0) (decide (2 ^ 64 ≤ x.toNat + y.toNat + c.toNat)) (outOfRange (x.toInt + y.toInt + c.toNat)) := by
  rw [cfAdd, BitVec.msb_eq_getLsbD_last]
  rfl

theorem cfNZ_eq (r : W64) (old : BitVec 4) : cfNZ r old = cfMk (r.getLsbD 63) (r == 0) (cfC old) (cfV old) := by
  rw [cfNZ, BitVec.msb_eq_getLsbD_last]

theorem addC_false (x y : W64) : addC x y false = x + y := by simp [addC]

theorem addC_not_true (x y : W64) : addC x (~~~ y) true = x - y := by
  rw [addC, BitVec.sub_eq_add_neg, BitVec.neg_eq_not_add, ← BitVec.add_assoc]
  rfl

theorem toInt_complement (y : W64) : (~~~ y).toInt = - y.toInt - 1 := by
  rw [BitVec.toInt_eq_toNat_cond, BitVec.toInt_eq_toNat_cond, BitVec.toNat_not]
  split <;> split <;> omega

theorem cfAdd_false (x y : W64) : cfAdd x y false
    = cfMk ((x + y).getLsbD 63) (x + y == 0) (decide (2 ^ 64 ≤ x.toNat + y.toNat)) (outOfRange (x.toInt + y.toInt)) := by
  rw [cfAdd_eq, addC_false]
  simp

/-- A difference is the sum with the complement and a carry. -/
theorem cfAdd_not_true (x y : W64) : cfAdd x (~~~ y) true
    = cfMk ((x - y).getLsbD 63) (x - y == 0) (decide (y.toNat ≤ x.toNat)) (outOfRange (x.toInt - y.toInt)) := by
  have hy := y.isLt
  have hc : 2 ^ 64 ≤ x.toNat + (~~~ y).toNat + true.toNat ↔ y.toNat ≤ x.toNat := by
    rw [BitVec.toNat_not, Bool.toNat_true]
    omega
  have hv : x.toInt + (~~~ y).toInt + (true.toNat : Int) = x.toInt - y.toInt := by
    rw [toInt_complement, Bool.toNat_true]
    omega
  rw [cfAdd_eq, addC_not_true, hv, decide_eq_decide.2 hc]

/-! ### The ALU group (03 R79) -/

theorem aluVal_eq_table (fn : AluFn) (x y : W64) : aluVal fn x y = aluTable fn x y := by
  cases fn
  case slt | sltu => simp only [aluVal, aluTable, BitVec.slt, BitVec.ult, decide_eq_true_eq]
  all_goals rfl

theorem aluCf_eq_table (fn : AluFn) (x y : W64) (old : BitVec 4) : aluCf fn x y old = aluFlagTable fn x y old := by
  have hr := aluVal_eq_table fn x y
  cases fn
  case add => rw [aluCf, cfAdd_false]; rfl
  case sub => rw [aluCf, cfAdd_not_true]; rfl
  case sll => simp only [aluCf, cfShift, aluFlagTable, hr, outLeft, BitVec.msb_eq_getLsbD_last]
  case srl | sra => simp only [aluCf, cfShift, aluFlagTable, hr, outRight, BitVec.msb_eq_getLsbD_last]
  case ror => simp only [aluCf, cfShift, aluFlagTable, hr, BitVec.msb_eq_getLsbD_last]
  all_goals simp only [aluCf, cfNZ, aluFlagTable, hr, BitVec.msb_eq_getLsbD_last]

/-! ### The single-operand forms (03 R80) -/

theorem clzFrom_spec (x : W64) (n : Nat) : clzFrom x n ≤ n ∧ (∀ i, i < clzFrom x n → x.getLsbD (n - 1 - i) = false)
    ∧ (clzFrom x n < n → x.getLsbD (n - 1 - clzFrom x n) = true) := by
  induction n with
  | zero => simp [clzFrom]
  | succ n ih =>
    obtain ⟨hle, hz, ho⟩ := ih
    unfold clzFrom
    split
    · next h => exact ⟨by omega, fun i hi => by omega, fun _ => h⟩
    · next h =>
      refine ⟨by omega, fun i hi => ?_, fun hlt => ?_⟩
      · cases i with
        | zero => simpa using h
        | succ i =>
          have := hz i (by omega)
          rwa [show n + 1 - 1 - (i + 1) = n - 1 - i by omega]
      · rw [show n + 1 - 1 - (1 + clzFrom x n) = n - 1 - clzFrom x n by omega]
        exact ho (by omega)

theorem ctzFrom_spec (x : W64) (n : Nat) (hn : n ≤ 64) : ctzFrom x n ≤ n ∧ (∀ i, i < ctzFrom x n → x.getLsbD (64 - n + i) = false)
    ∧ (ctzFrom x n < n → x.getLsbD (64 - n + ctzFrom x n) = true) := by
  induction n with
  | zero => simp [ctzFrom]
  | succ n ih =>
    obtain ⟨hle, hz, ho⟩ := ih (by omega)
    unfold ctzFrom
    split
    · next h => exact ⟨by omega, fun i hi => by omega, fun _ => by rwa [show 64 - (n + 1) + 0 = 63 - n by omega]⟩
    · next h =>
      refine ⟨by omega, fun i hi => ?_, fun hlt => ?_⟩
      · cases i with
        | zero => rw [show 64 - (n + 1) + 0 = 63 - n by omega]; simpa using h
        | succ i =>
          rw [show 64 - (n + 1) + (i + 1) = 64 - n + i by omega]
          exact hz i (by omega)
      · rw [show 64 - (n + 1) + (1 + ctzFrom x n) = 64 - n + ctzFrom x n by omega]
        exact ho (by omega)

theorem popCount_eq (x : W64) (n : Nat) : popCount x n = ((List.range n).filter (fun i => x.getLsbD i)).length := by
  induction n with
  | zero => rfl
  | succ n ih => cases h : x.getLsbD n <;> simp [popCount, List.range_succ, List.filter_append, ih, h]

theorem bswap64_bytes (x : W64) {i : Nat} (hi : i < 8) : (bswap64 x).extractLsb' (8 * i) 8 = x.extractLsb' (8 * (7 - i)) 8 := by
  interval_cases i <;> simp [bswap64, byteOf]

theorem bswap32_bytes (x : W64) {i : Nat} (hi : i < 4) : (bswap32 x).extractLsb' (8 * i) 8 = x.extractLsb' (8 * (3 - i)) 8 := by
  interval_cases i <;> simp [bswap32, byteOf]

theorem bswap32_high (x : W64) : (bswap32 x).extractLsb' 32 32 = 0 := by simp [bswap32]

/-! ### INSH (03 R83) -/

theorem getLsbD_ones16 : ∀ j < 64, (0xFFFF#64).getLsbD j = decide (j < 16) := by decide

/-- INSH replaces one of the four halfwords. -/
theorem inshVal_fields (x : W64) (h : BitVec 2) (imm : BitVec 16) {i : Nat} (hi : i < 4) :
    (inshVal x h imm).extractLsb' (16 * i) 16 = if i = h.toNat then imm else x.extractLsb' (16 * i) 16 := by
  have hh := h.isLt
  ext j hj
  simp only [inshVal, zext, BitVec.getElem_extractLsb', BitVec.getLsbD_or, BitVec.getLsbD_and, BitVec.getLsbD_not, BitVec.getLsbD_shiftLeft,
    BitVec.getLsbD_setWidth]
  rw [getLsbD_ones16 _ (by omega)]
  rcases lt_trichotomy i h.toNat with hlt | rfl | hgt
  · simp [show i ≠ h.toNat by omega, show 16 * i + j < 64 by omega, show 16 * i + j < 16 * h.toNat by omega]
  · simp [show 16 * h.toNat + j < 64 by omega, hj, show j < 64 by omega]
  · simp [show i ≠ h.toNat by omega, show 16 * i + j < 64 by omega, show ¬ 16 * i + j < 16 * h.toNat by omega,
      show ¬ 16 * i + j - 16 * h.toNat < 16 by omega, BitVec.getLsbD_of_ge imm (16 * i + j - 16 * h.toNat) (by omega)]

/-! ### The rows -/

theorem sext_toInt (imm : BitVec 16) : (sext imm).toInt = imm.toInt := BitVec.toInt_signExtend_of_le (by decide)

section
variable {s : State} {vc : Vc} {w : W32} {op : CoreOp} {s1 : State} {en : Bool} {mine : CoreOp → Bool} {run : CoreOp → State → Option State}

/-- A short operation whose S form writes CF, with its value and its flags as a table gives them. -/
theorem instrRow_shortCf {rd : Reg} {sf : Bool} {v v' : W64} {f f' : BitVec 4} (h : Ready s vc w op s1 en) (hm : mine op = true)
    (hr : run op s1 = some (shortOp s1 vc rd v (if sf then some f else none))) (hv : v = v') (hf : f = f') :
    Executes vc s1 (instrRow s vc w mine run)
      { gWrite (s1.core vc).spec rd v' with pc := (s1.core vc).spec.pc + 4, cf := if sf then f' else (s1.core vc).spec.cf } := by
  subst hv hf
  have k := instrRow_short h hm hr
  cases sf <;> exact k

/-- A short operation that leaves CF. -/
theorem instrRow_shortNoCf {rd : Reg} {v v' : W64} (h : Ready s vc w op s1 en) (hm : mine op = true)
    (hr : run op s1 = some (shortOp s1 vc rd v none)) (hv : v = v') :
    Executes vc s1 (instrRow s vc w mine run) { gWrite (s1.core vc).spec rd v' with pc := (s1.core vc).spec.pc + 4 } := by
  subst hv
  have k := instrRow_short h hm hr
  rwa [Option.getD_none, ← gWrite_cf _ rd v] at k

end

/-- What each single-operand form computes (03 R80). -/
theorem unVal_spec (fn : UnFn) (x : W64) : let r := unVal fn x
    (fn = .clz → r.toNat ≤ 64 ∧ (∀ i, i < r.toNat → x.getLsbD (63 - i) = false) ∧ (r.toNat < 64 → x.getLsbD (63 - r.toNat) = true))
    ∧ (fn = .ctz → r.toNat ≤ 64 ∧ (∀ i, i < r.toNat → x.getLsbD i = false) ∧ (r.toNat < 64 → x.getLsbD r.toNat = true))
    ∧ (fn = .popc → r.toNat = ((List.range 64).filter (fun i => x.getLsbD i)).length)
    ∧ (fn = .bswap → ∀ i, i < 8 → r.extractLsb' (8 * i) 8 = x.extractLsb' (8 * (7 - i)) 8)
    ∧ (fn = .bswapw → r.extractLsb' 32 32 = 0 ∧ ∀ i, i < 4 → r.extractLsb' (8 * i) 8 = x.extractLsb' (8 * (3 - i)) 8)
    ∧ (fn = .sextb → r = (x.extractLsb' 0 8).signExtend 64) ∧ (fn = .sexth → r = (x.extractLsb' 0 16).signExtend 64)
    ∧ (fn = .sextw → r = (x.extractLsb' 0 32).signExtend 64) ∧ (fn = .zextw → r = (x.extractLsb' 0 32).setWidth 64) := by
  have small {k : Nat} (h : k ≤ 64) : (BitVec.ofNat 64 k).toNat = k := by simp; omega
  refine ⟨?_, ?_, ?_, ?_, ?_, ?_, ?_, ?_, ?_⟩
  · rintro rfl
    have k := clzFrom_spec x 64
    simpa only [unVal, small k.1] using k
  · rintro rfl
    have k := ctzFrom_spec x 64 le_rfl
    simpa only [unVal, small k.1, Nat.sub_self, Nat.zero_add] using k
  · rintro rfl
    have k := popCount_eq x 64
    have hle : popCount x 64 ≤ 64 := by rw [k]; exact (List.length_filter_le ..).trans_eq (List.length_range ..)
    simpa only [unVal, small hle] using k
  · rintro rfl i hi
    exact bswap64_bytes x hi
  · rintro rfl
    exact ⟨bswap32_high x, fun i hi => bswap32_bytes x hi⟩
  all_goals
    rintro rfl
    rw [← BitVec.setWidth_eq_extractLsb' (by decide)]
    rfl

/-- Settles O4: each operation is a short operation whose value and flags are those of the tables. -/
theorem integerResults : Obligations.IntegerResults := by
  refine ⟨?_, ?_, ?_⟩
  · intro s vc w s1 en a
    refine ⟨fun sf fn rd ra rb h => ?_, fun sf fn rd ra sh f h hf => ?_⟩
    · exact ⟨_, rfl, instrRow_shortCf h rfl rfl (aluVal_eq_table ..) (aluCf_eq_table ..)⟩
    · obtain rfl : f = shAlu fn := by cases fn <;> simp_all [shAlu]
      exact ⟨_, rfl, instrRow_shortCf h rfl rfl (aluVal_eq_table ..) (aluCf_eq_table ..)⟩
  · intro s vc w s1 en
    refine ⟨?_, ?_⟩
    · intro sf fn rd ra rb h a x y k r c v
      have hr : alu2Val fn x y (cfC a.cf) = r := by
        cases fn
        case adc | sbc => exact addC_eq ..
        all_goals simp only [alu2Val, BitVec.slt, BitVec.ult, decide_eq_true_eq, r]
      have hf : alu2Cf fn x y a.cf = cfMk (r.getLsbD 63) (r == 0) c v := by
        rw [← hr]
        cases fn
        case adc | sbc => exact cfAdd_eq ..
        all_goals exact cfNZ_eq ..
      exact ⟨_, rfl, instrRow_shortCf h rfl rfl hr hf⟩
    · intro sf fn rd ra h a x
      exact ⟨_, unVal fn x, rfl, instrRow_shortCf h rfl rfl rfl (cfNZ_eq ..), unVal_spec fn x⟩
  · intro s vc w s1 en a
    refine ⟨?_, ?_, ?_⟩
    · intro fn rd ra imm h x r
      have hr : riVal fn x imm = r := by
        cases fn
        case slti => simp only [riVal, BitVec.slt, decide_eq_true_eq, sext_toInt, r]
        case sltui => simp only [riVal, BitVec.ult, decide_eq_true_eq, r]; rfl
        all_goals rfl
      exact ⟨_, rfl, instrRow_shortNoCf h rfl rfl hr⟩
    · intro rd imm h
      exact ⟨_, rfl, instrRow_shortNoCf h rfl rfl rfl⟩
    · intro rd k imm h
      exact ⟨_, _, rfl, instrRow_shortNoCf h rfl rfl rfl, fun i hi => inshVal_fields _ k imm hi⟩

end Sys2Proof.Machine
end

-- ==== Completion of a TLBI ====
section
/-! TLBI_COMPLETION (O16): the inbound cycle that is under way when a TLBI completes is translated again, and its new translation stands in the cache. -/

namespace Sys2Proof.Machine

/-- The TLBI.VMID of pavilion 1. -/
def vmidTlbi : Tlbi := { op := .vmid, ctx := 1, asid := 0, page := 0 }

/-- Core 0 waits for its TLBI of pavilion 1 to complete, and a read of another board in session 0, which pavilion 1 owns, stands past its address phase at IPA 0x1000. The stage-2 tables of pavilion 1 are one page at address 0: entry 0 names that page for every level above, entry 1 is the leaf of the IPA. -/
def inboundPending : State where
  dev := { State.reset.dev with mode := .service }
  cores := [(0, { started := true, tlbis := [vmidTlbi] })]
  pavs := [(1, { st := .running })]
  dram := { cells := [(64, 0x03), (72, 0x0D), (73, 0x10)] }
  arb := {
    ses := [(0, { st := .open_, owner := 1 })]
    phase := some {
      ses := 0, win := 0, answer := .accept, busAddr := 0, pa := 0x1000, write := false, cls := 1, ahead := []
      w := { space := 0, amMatch := 0, amMask := 0, busBase := 0, logSize := 12, ipaBase := 0x1000, rd := true, wr := true,
             addrOrder := false, post := false, respErr := false } } }

/-- Once the TLBI has completed, the inbound cache holds a translation in its reach: the walk that the cycle has made since. -/
theorem inboundPending_rewalked : ∃ t, exec (.tlbiCompletion 0) inboundPending = .next t ∧ t.arb.itlb.any (tlbHit vmidTlbi) = true := by
  refine ⟨rewalkPhase (tlbiEverywhere (inboundPending.updCore 0 (fun c => { c with tlbis := [] })) vmidTlbi) (tlbiReach vmidTlbi), ?_, ?_⟩
  · have hs : (coreOn inboundPending 0 && storesOut inboundPending) = true := by decide +kernel
    exact congrArg Host.Outcome.next (if_pos hs)
  · decide +kernel

/-- Refutes O16: an inbound cycle past its address phase begins its translation again as the TLBI completes (07 R220), and the entry that its walk installs is of the context that the TLBI names. -/
theorem not_invalidationsReachEveryCore : ¬ Obligations.InvalidationsReachEveryCore := by
  rintro ⟨-, h⟩
  obtain ⟨t, ht, hhit⟩ := inboundPending_rewalked
  obtain ⟨u, hu, -, -, hclear⟩ := h inboundPending 0 vmidTlbi [] (by decide) (by decide +kernel) rfl
  obtain rfl : t = u := Host.Outcome.next.inj (ht.symm.trans hu)
  obtain ⟨harb, -⟩ := hclear (.inr (.inl rfl))
  obtain ⟨e, he, hx⟩ := List.any_eq_true.1 hhit
  rw [harb e he] at hx
  cases hx

end Sys2Proof.Machine
end

-- ==== Lines of a core's L1D ====
section
/-! What a core's read and its write of a line do to the line, to the core and to everything beside them (08 R236 to R238, R267): the layer under LOAD, STORE_DRAIN and ATOMIC. -/

namespace Sys2Proof.Machine

/-! ### The lines of a cluster -/

/-- A write of a line leaves every other line of the cluster. -/
theorem State.l2_setL2_ne (s : State) (k : Nat) {l m : LineNo} (v : Option L2Line) (h : m ≠ l) : (s.setL2 k l v).l2 k m = s.l2 k m := by
  have hm : m.toNat ≠ l.toNat := fun e => h (BitVec.eq_of_toNat_eq e)
  simp [State.l2, State.setL2, hm]

@[simp] theorem State.core_setL2 (s : State) (k : Nat) (l : LineNo) (v : Option L2Line) (n : Vc) : (s.setL2 k l v).core n = s.core n := rfl
@[simp] theorem State.clusterOf_setL2 (s : State) (k : Nat) (l : LineNo) (v : Option L2Line) (n : Vc) :
    (s.setL2 k l v).clusterOf n = s.clusterOf n := rfl
@[simp] theorem State.clusterOf_updCore (s : State) (vc n : Vc) (f : Core → Core) : (s.updCore vc f).clusterOf n = s.clusterOf n := rfl
@[simp] theorem State.cluster_updCore (s : State) (vc : Vc) (f : Core → Core) (k : Nat) : (s.updCore vc f).cluster k = s.cluster k := rfl
@[simp] theorem State.l2_updCore (s : State) (vc : Vc) (f : Core → Core) (k : Nat) (l : LineNo) : (s.updCore vc f).l2 k l = s.l2 k l := rfl
@[simp] theorem State.cluster_setL2_mshr (s : State) (k : Nat) (l : LineNo) (v : Option L2Line) :
    ((s.setL2 k l v).cluster k).mshr = (s.cluster k).mshr := by simp [State.setL2]
@[simp] theorem State.setL2_net (s : State) (k : Nat) (l : LineNo) (v : Option L2Line) : (s.setL2 k l v).fab.net = s.fab.net := rfl

/-- A cluster with no request open has none open on a line. -/
theorem mshrOf_none {s : State} {k : Nat} (h : (s.cluster k).mshr = []) (l : LineNo) : s.mshrOf k l = none := by
  simp [State.mshrOf, h, mget?]

/-- A core whose registers, executed instructions and region stand has not been undone. -/
theorem undone_false {s t : State} {vc : Vc} (hs : (t.core vc).spec = (s.core vc).spec) (hr : (t.core vc).retire = (s.core vc).retire)
    (hg : (t.core vc).region = (s.core vc).region) : undone s t vc = false := by
  simp [undone, hs, hr, hg]

@[simp] theorem undone_self (s : State) (vc : Vc) : undone s s vc = false := undone_false rfl rfl rfl

/-- Where the set of the L1D has room, nothing leaves it. -/
theorem l1dRoom_fits {s : State} {vc : Vc} {l : LineNo} (h : L1dFits s vc l) : l1dRoom s vc l = s := by
  have hc : ((l1dSet s vc l).contains l || decide ((l1dSet s vc l).length < 4)) = true := by
    rw [Bool.or_eq_true, decide_eq_true_eq]; exact h
  simp only [l1dRoom, hc, if_true]

/-! ### Reading a line -/

/-- Core `vc` has read line `l`, which its cluster held as `x`, from `s` to `t`: its L1D holds the line, whose data and state stand, and nothing else changes but the core's own marks and notes of fills. -/
structure LineRead (vc : Vc) (l : LineNo) (x : L2Line) (s t : State) : Prop where
  line : ∃ y, t.l2 (s.clusterOf vc) l = some y ∧ y.data = x.data ∧ y.st = x.st ∧ vc ∈ y.pres
  lines : ∀ m, m ≠ l → t.l2 (s.clusterOf vc) m = s.l2 (s.clusterOf vc) m
  dram : t.dram = s.dram
  spec : (t.core vc).spec = (s.core vc).spec
  sb : (t.core vc).sb = (s.core vc).sb
  retire : (t.core vc).retire = (s.core vc).retire
  region : (t.core vc).region = (s.core vc).region
  cores : ∀ v, v ≠ vc → t.core v = s.core v

section
variable {s t : State} {vc : Vc} {l : LineNo} {x : L2Line}

theorem LineRead.stays (h : LineRead vc l x s t) : undone s t vc = false := undone_false h.spec h.retire h.region

/-- A change of the core's marks leaves the line read. -/
theorem LineRead.upd (h : LineRead vc l x s t) {f : Core → Core} (hp : ∀ c, (f c).spec = c.spec) (hb : ∀ c, (f c).sb = c.sb)
    (hr : ∀ c, (f c).retire = c.retire) (hg : ∀ c, (f c).region = c.region) : LineRead vc l x s (t.updCore vc f) where
  line := h.line
  lines := h.lines
  dram := h.dram
  spec := by rw [State.core_updCore_self, hp, h.spec]
  sb := by rw [State.core_updCore_self, hb, h.sb]
  retire := by rw [State.core_updCore_self, hr, h.retire]
  region := by rw [State.core_updCore_self, hg, h.region]
  cores v hv := by rw [State.core_updCore_ne _ _ _ _ hv, h.cores v hv]

theorem LineRead.noteFills (h : LineRead vc l x s t) (fs : List Fill) : LineRead vc l x s (noteFills t vc fs) := by
  unfold Machine.noteFills
  split
  · exact h.upd (fun _ => rfl) (fun _ => rfl) (fun _ => rfl) (fun _ => rfl)
  · exact h

/-- The L1D takes a line that it has room for. -/
theorem fillL1_read (hl : s.l2 (s.clusterOf vc) l = some x) (hf : L1dFits s vc l) : LineRead vc l x s (fillL1 s vc l) := by
  simp only [fillL1, l1dRoom_fits hf, hl]
  split
  next hin => exact ⟨⟨x, hl, rfl, rfl, by simpa using hin⟩, fun _ _ => rfl, rfl, rfl, rfl, rfl, rfl, fun _ _ => rfl⟩
  next =>
    have hset : LineRead vc l x s (s.setL2 (s.clusterOf vc) l (some { x with pres := vc :: x.pres, dirtyIn := none })) :=
      ⟨⟨_, State.l2_setL2_self .., rfl, rfl, List.mem_cons_self ..⟩, fun _ hm => State.l2_setL2_ne _ _ _ hm, rfl, rfl, rfl, rfl, rfl,
        fun _ _ => rfl⟩
    exact hset.noteFills _

theorem readLine_read (hl : s.l2 (s.clusterOf vc) l = some x) (hf : L1dFits s vc l) : LineRead vc l x s (readLine s vc l x) :=
  (fillL1_read hl hf).upd (fun _ => rfl) (fun _ => rfl) (fun _ => rfl) (fun _ => rfl)

/-! ### Writing a line -/

/-- Where no other core has marked the line, no core rolls back. -/
theorem rollbackReaders_unread (h : ∀ v, v ≠ vc → (s.core v).micro.readMarks.contains l = false) (k : Nat) :
    rollbackReaders s k l (some vc) = s := by
  refine foldl_fixed _ fun v => if_neg ?_
  by_cases hv : v = vc
  · simp [hv]
  · rw [h v hv, Bool.and_false]
    exact Bool.false_ne_true

/-- A line as its core's write leaves it, with no request open. -/
def written (vc : Vc) (x : L2Line) (off n v : Nat) : L2Line :=
  { x with st := .m, data := linePut x.data off n v, pres := [vc], unperf := none, dirtyIn := some vc }

/-- A write of a line that no other core has marked, with room in the L1D and no request open. -/
theorem writeLine_eq (hl : s.l2 (s.clusterOf vc) l = some x) (hf : L1dFits s vc l) (hm : (s.cluster (s.clusterOf vc)).mshr = [])
    (hr : ∀ v, v ≠ vc → (s.core v).micro.readMarks.contains l = false) (off n v : Nat) :
    writeLine s vc l off n v
      = (s.updCore vc (fun c => usedLine c l)).setL2 (s.clusterOf vc) l (some (written vc x off n v)) := by
  have hq : (s.updCore vc (fun c => usedLine c l)).mshrOf (s.clusterOf vc) l = none := mshrOf_none hm l
  simp only [writeLine, rollbackReaders_unread hr, l1dRoom_fits hf, State.clusterOf_updCore, State.l2_updCore, hl, hq]
  rfl

end

end Sys2Proof.Machine
end

-- ==== Loads ====
section
/-! LOAD (O9): the ticket that a load takes, and what a part of it reads. -/

namespace Sys2Proof.Machine

/-! ### An access that translates (02 R71) -/

section
variable {s t : State} {vc : Vc} {va : W64} {n : Nat} {acc : Acc} {ps : List APart} {p : APart}

/-- An access that translates goes on with its parts. -/
theorem Translates.accessed (h : Translates s vc va n acc ps t) (f : List APart → State → Option State) :
    accessed s vc (accessParts s vc va n acc) f = f ps t := by
  rw [h.parts, Machine.accessed, h.stays]
  rfl

/-- Its first part does not lie at a device. -/
theorem Translates.no_device (h : Translates s vc va n acc (p :: ps) t) : p.mt ≠ .device := h.memory p (List.mem_cons_self ..)

end

/-! ### The ticket of a load (03 R84) -/

/-- The table of the loads: the value that the register takes from the bytes read (03 R84). -/
def loadValue (fn : LdFn) (v : Nat) : W64 :=
  match fn with
  | .ldb => (BitVec.ofNat 8 v).signExtend 64 | .ldh => (BitVec.ofNat 16 v).signExtend 64 | .ldw => (BitVec.ofNat 32 v).signExtend 64
  | .ldbu => (BitVec.ofNat 8 v).setWidth 64 | .ldhu => (BitVec.ofNat 16 v).setWidth 64
  | .ldwu | .flds => (BitVec.ofNat 32 v).setWidth 64 | .ldd | .fldd => BitVec.ofNat 64 v

/-- A load extends the bytes read as the table says. -/
theorem extendVal_ldForm (fn : LdFn) (v : Nat) : extendVal (ldForm fn).1 (ldForm fn).2.1 (BitVec.ofNat 64 v) = loadValue fn v := by
  cases fn <;> simp [extendVal, ldForm, loadValue]

/-- The ticket of a load of the bytes `v`. -/
def loadTicket (fn : LdFn) (rd : Reg) (v : Nat) : Ticket :=
  { dest := if (ldForm fn).2.2 then .f rd else .g rd, val := loadValue fn v, flags := 0, cf := none }

/-- A load whose access translates, whose line checks clean and whose bytes are read takes its ticket. -/
theorem loadOp_takes {s1 s2 s3 : State} {vc : Vc} {fn : LdFn} {va : W64} {p : APart} {ps : List APart} {v : Nat} {e : List (BitVec 8)}
    (w : W32) (rd : Reg) (ht : Translates s1 vc va (ldForm fn).1 .read (p :: ps) s2) (hmode : s2.mode = .service)
    (hread : loadParts vc (p :: ps) s2 = .ok ((v, e), s3)) (hfree : ticketFree (s3.core vc)) (hwait : (s3.core vc).owait = false) :
    ∃ t, loadOp s1 vc w fn rd va .clean = some t ∧ TakesTicket vc s3 t (loadTicket fn rd v) := by
  obtain ⟨t, hlong, htake⟩ := longOp_takes hfree (loadTicket fn rd v) (0x0A#8 :: partEvents (p :: ps) ++ e)
  refine ⟨t, ?_, htake⟩
  have hcheck : checkLine s2 vc p .clean = s2 := by simp [checkLine]
  simpa [loadTicket, loadOp, ht.accessed, ht.no_device, hcheck, hmode, hread, waited, hwait, extendVal_ldForm] using hlong

/-- So does the row of its word. -/
theorem execLoad_takes {s s1 s2 s3 : State} {vc : Vc} {w : W32} {op : CoreOp} {en : Bool} {fn : LdFn} {rd : Reg} {va : W64} {p : APart}
    {ps : List APart} {v : Nat} {e : List (BitVec 8)} (h : Ready s vc w op s1 en) (hm : isLoad op = true)
    (hrun : loadRun vc w .clean op s1 = loadOp s1 vc w fn rd va .clean) (ht : Translates s1 vc va (ldForm fn).1 .read (p :: ps) s2)
    (hmode : s2.mode = .service) (hread : loadParts vc (p :: ps) s2 = .ok ((v, e), s3)) (hfree : ticketFree (s3.core vc))
    (hwait : (s3.core vc).owait = false) :
    ∃ t, exec (.load vc w .clean) s = .next t ∧ TakesTicket vc s3 t (loadTicket fn rd v) := by
  obtain ⟨u, hu, htake⟩ := loadOp_takes w rd ht hmode hread hfree hwait
  exact ⟨_, congrArg Host.Outcome.next (instrRow_ready h hm (hrun.trans hu)), htake.noted en _⟩

/-! ### What a part reads (02 R64; 05 R157; 08 R236) -/

section
variable {s : State} {vc : Vc} {p : APart}

/-- Bytes that the store buffer writes, each of them, come from it. -/
theorem loadPart_forwarded (ho : sbOverlaps (s.core vc).sb p.pa p.n ≠ []) (hc : sbCovered (s.core vc).sb p.pa p.n = true) :
    loadPart s vc p = .ok ((overlay (s.core vc).sb p.pa p.n 0, []), s) := by
  simp [loadPart, forward, ho, hc]

/-- Bytes of which the store buffer writes some wait for it outside a region. -/
theorem loadPart_waits (ho : sbOverlaps (s.core vc).sb p.pa p.n ≠ []) (hc : sbCovered (s.core vc).sb p.pa p.n = false)
    (hg : (s.core vc).region = none) :
    loadPart s vc p = .error (some (s.setCore vc { s.core vc with owait := true })) := by
  simp [loadPart, forward, ho, hc, hg]

/-- Bytes of which the store buffer writes none come from the line that the cluster holds. -/
theorem loadPart_line {x : L2Line} (ho : sbOverlaps (s.core vc).sb p.pa p.n = []) (hmt : p.mt = .normal) (hk : inKeep s p.pa = false)
    (hset : settle (lineOf p.pa) settleFuel s = s) (hf : L1dFits s vc (lineOf p.pa))
    (hl : s.l2 (s.clusterOf vc) (lineOf p.pa) = some x) :
    loadPart s vc p = .ok ((lineGet x.data (p.pa % 64) p.n, missEvents s vc (lineOf p.pa)), readLine s vc (lineOf p.pa) x) := by
  have hforward : forward s vc p.pa p.n = .ok none := by simp [forward, ho]
  have hbring : bringShared s vc (lineOf p.pa) = some s := by simp [bringShared, hset, hl]
  simp [loadPart, hforward, hmt, hk, cachedRead, hbring, hl, (readLine_read hl hf).stays]

end

/-- Settles O9: a row of LOAD by its ticket, a part by what the store buffer holds of its bytes. -/
theorem loadsReadTheirBytes : Obligations.LoadsReadTheirBytes := by
  unfold Obligations.LoadsReadTheirBytes
  refine ⟨?_, fun s vc p => ⟨loadPart_forwarded, ?_, fun ho hc hg => ⟨_, loadPart_waits ho hc hg, by simp⟩⟩⟩
  · intro s vc w s1 s2 s3 en fn rd ra rb imm sh ix p ps v e a va n fp r h ht hmode hread hfree hwait
    have hn : n = (ldForm fn).1 := by cases fn <;> rfl
    have hx : ({ dest := if fp then .f rd else .g rd, val := r, flags := 0, cf := none } : Ticket) = loadTicket fn rd v := by
      cases fn <;> rfl
    rw [hn] at ht
    rw [hx]
    cases ix with
    | false => exact execLoad_takes h rfl rfl ht hmode hread hfree hwait
    | true => exact execLoad_takes h rfl rfl ht hmode hread hfree hwait
  · intro x ho hmt hk hset hf hl
    have hread := readLine_read hl hf
    exact ⟨_, _, loadPart_line ho hmt hk hset hf hl, hread.line, hread.dram, hread.spec, hread.sb, hread.cores⟩

end Sys2Proof.Machine
end

-- ==== Stores ====
section
/-! STORE and STORE_DRAIN (O10): a store enters the buffer of its core, and the oldest one reaches its line. -/

namespace Sys2Proof.Machine

/-! ### Into the buffer (03 R84; 05 R142) -/

/-- The register that a store writes to memory (03 R84). -/
def storeValue (fn : StFn) (a : Arch) (rd : Reg) : W64 := if (stForm fn).2 then fRead a rd else gRead a rd

/-- A store whose access translates, beside code, with room in the buffer. -/
theorem storeOp_stores {s1 s2 : State} {vc : Vc} {fn : StFn} {rd : Reg} {va : W64} {p : APart} {ps : List APart}
    (ht : Translates s1 vc va (stForm fn).1 .write (p :: ps) s2) (hcode : codeParts s2 (p :: ps) = false)
    (hroom : (s2.core vc).sb.length + (sbEntries s2 vc (p :: ps) (storeValue fn (s1.core vc).spec rd).toNat).length ≤ 48) :
    ∃ t, storeOp s1 vc fn rd va = some t
      ∧ Stores vc s2 t { (s1.core vc).spec with pc := (s1.core vc).spec.pc + 4 }
          (sbEntries s2 vc (p :: ps) (storeValue fn (s1.core vc).spec rd).toNat) := by
  let a := (s1.core vc).spec
  let es := sbEntries s2 vc (p :: ps) (storeValue fn a rd).toNat
  let u := s2.setCore vc { s2.core vc with sb := (s2.core vc).sb ++ es }
  have hx := executed_executes u vc (nextPc a) (0x0B#8 :: partEvents (p :: ps) ++ storeMisses s2 vc (p :: ps)) false false none none
  have hu : u.core vc = { s2.core vc with sb := (s2.core vc).sb ++ es } := State.core_setCore_self ..
  have hbuf : (u.core vc).sb = (s2.core vc).sb ++ es := by rw [hu]
  have hrest : unbuffered (u.core vc) = unbuffered (s2.core vc) := by rw [hu]; rfl
  refine ⟨_, ?_, hx.stores (onlyCore_setCore ..) hbuf hrest⟩
  have hpush : pushStores (s2.core vc) es = some { s2.core vc with sb := (s2.core vc).sb ++ es } := if_pos hroom
  have hval : (if (stForm fn).2 then fRead a rd else gRead a rd) = storeValue fn a rd := rfl
  simp [storeOp, ht.accessed, ht.no_device, State.regs, ht.regs, hcode, storeExecuted, a, es, u, hval, hpush]

/-- So does the row of its word. -/
theorem execStore_stores {s s1 s2 : State} {vc : Vc} {w : W32} {op : CoreOp} {en : Bool} {fn : StFn} {rd : Reg} {va : W64} {p : APart}
    {ps : List APart} (h : Ready s vc w op s1 en) (hm : isStore op = true) (hrun : storeRun vc op s1 = storeOp s1 vc fn rd va)
    (ht : Translates s1 vc va (stForm fn).1 .write (p :: ps) s2) (hcode : codeParts s2 (p :: ps) = false)
    (hroom : (s2.core vc).sb.length + (sbEntries s2 vc (p :: ps) (storeValue fn (s1.core vc).spec rd).toNat).length ≤ 48) :
    ∃ t, exec (.store vc w) s = .next t
      ∧ Stores vc s2 t { (s1.core vc).spec with pc := (s1.core vc).spec.pc + 4 }
          (sbEntries s2 vc (p :: ps) (storeValue fn (s1.core vc).spec rd).toNat) := by
  obtain ⟨u, hu, hstores⟩ := storeOp_stores ht hcode hroom
  exact ⟨_, congrArg Host.Outcome.next (instrRow_ready h hm (hrun.trans hu)), hstores.noted en _⟩

/-! ### Out of the buffer (08 R266, R267) -/

/-- With no request open, none is tried for CMP. -/
theorem tryCmpAll_closed {s : State} {k : Nat} (h : (s.cluster k).mshr = []) (n : Nat) : tryCmpAll s k n = s := by
  cases n <;> simp [tryCmpAll, h, mkeys]

section
variable {s : State} {vc : Vc} {e : SbEntry} {rest : List SbEntry} {x : L2Line}

/-- The state in which the oldest store has reached its line. -/
def drainedTo (s : State) (vc : Vc) (e : SbEntry) (x : L2Line) : State :=
  popStore ((s.updCore vc (fun c => usedLine c (lineOf e.pa.toNat))).setL2 (s.clusterOf vc) (lineOf e.pa.toNat)
    (some (written vc x (e.pa.toNat % 64) e.size e.data.toNat))) vc

/-- The oldest store is written to the line that the cluster holds in M or E. -/
theorem drainStore_eq (hnc : e.nc = false) (hl : s.l2 (s.clusterOf vc) (lineOf e.pa.toNat) = some x) (hst : x.st = .m ∨ x.st = .e)
    (hopen : (s.cluster (s.clusterOf vc)).l2.any (fun p => p.2.unperf == some vc) = false) (hu : x.unperf = none)
    (hm : (s.cluster (s.clusterOf vc)).mshr = []) (hf : L1dFits s vc (lineOf e.pa.toNat))
    (hr : ∀ v, v ≠ vc → (s.core v).micro.readMarks.contains (lineOf e.pa.toNat) = false) :
    drainStore s vc e = some (drainedTo s vc e x) := by
  have hown : ((x.st == .m || x.st == .e) && x.unperf.isNone) = true := by
    rcases hst with hst | hst <;> simp [hst, hu]
  have hclosed : ((drainedTo s vc e x).cluster (s.clusterOf vc)).mshr = [] := by simp [drainedTo, popStore, hm]
  simp only [drainStore, hopen, hnc, hl, hown, Bool.false_eq_true, if_false, if_true, writeLine_eq hl hf hm hr]
  exact congrArg some (tryCmpAll_closed hclosed 64)

/-- The core as the drain leaves it. -/
theorem drainedTo_core : (drainedTo s vc e x).core vc
    = { usedLine (s.core vc) (lineOf e.pa.toNat) with sb := (s.core vc).sb.drop 1 } := by
  simp [drainedTo, popStore, usedLine]

theorem drainedTo_core_ne {v : Vc} (hv : v ≠ vc) : (drainedTo s vc e x).core v = s.core v := by
  simp [drainedTo, popStore, State.core_updCore_ne _ _ _ _ hv]

/-- STORE_DRAIN writes the oldest store. -/
theorem execStoreDrain_next {t : State} (hnow : drainsNow s vc = true) (hsb : (s.core vc).sb = e :: rest) (hc : e.committed = true)
    (hd : drainStore s vc e = some t) (hn : noPavWait t) : exec (.storeDrain vc) s = .next t := by
  show execStoreDrain vc s = _
  simp [execStoreDrain, hsb, hnow, hc, hd, advancePavs_quiet hn]

end

/-- Settles O10: a row of STORE by the entries pushed, the drain by what the write of its line changes. -/
theorem storesReachTheirLine : Obligations.StoresReachTheirLine := by
  unfold Obligations.StoresReachTheirLine
  constructor
  · intro s vc w s1 s2 en fn rd ra rb imm sh ix p ps a va n v h ht hcode hroom
    have hn : n = (stForm fn).1 := by cases fn <;> rfl
    have hv : v = storeValue fn a rd := by cases fn <;> rfl
    rw [hn] at ht
    rw [hv] at hroom ⊢
    cases ix with
    | false => exact execStore_stores h rfl rfl ht hcode hroom
    | true => exact execStore_stores h rfl rfl ht hcode hroom
  · intro s vc e rest x k l hnow hsb hc hnc hl hst hopen hu hm hpav hf hr
    have hd := drainStore_eq hnc hl hst hopen hu hm hf hr
    have hcore : (drainedTo s vc e x).core vc = { usedLine (s.core vc) l with sb := rest } := by
      rw [drainedTo_core, hsb]; rfl
    have hline : (drainedTo s vc e x).l2 k l = some (written vc x (e.pa.toNat % 64) e.size e.data.toNat) := State.l2_setL2_self ..
    refine ⟨drainedTo s vc e x, execStoreDrain_next hnow hsb hc hd hpav, hline, fun m hne => State.l2_setL2_ne _ _ _ hne, ?_, ?_,
      fun v hv => drainedTo_core_ne hv, rfl, rfl⟩
    · rw [hcore]; rfl
    · rw [hcore]; simp [usedLine]

end Sys2Proof.Machine
end

-- ==== Atomics ====
section
/-! ATOMIC (O11): the row on NORMAL memory, and what an atomic does to a line that its cluster owns. -/

namespace Sys2Proof.Machine

/-! ### Values of n bytes (03 R86) -/

/-- The mask of n bytes takes a value modulo their number of values. -/
theorem toNat_and_byteMask {n : Nat} (hn : n ≤ 8) (v : W64) : (v &&& BitVec.ofNat 64 (2 ^ (8 * n) - 1)).toNat = v.toNat % 2 ^ (8 * n) := by
  have hlt : 2 ^ (8 * n) - 1 < 2 ^ 64 := by
    have : 2 ^ (8 * n) ≤ 2 ^ 64 := Nat.pow_le_pow_right (by decide) (by omega)
    omega
  rw [BitVec.toNat_and, BitVec.toNat_ofNat, Nat.mod_eq_of_lt hlt, Nat.and_two_pow_sub_one_eq_mod]

/-- A zero-extended value of 1, 2, 4 or 8 bytes is the value under their mask. -/
theorem extendVal_atomSize (z : BitVec 2) (v : W64) : extendVal (2 ^ z.toNat) false v = v &&& BitVec.ofNat 64 (2 ^ (8 * 2 ^ z.toNat) - 1) := by
  have hz : z.toNat = 0 ∨ z.toNat = 1 ∨ z.toNat = 2 ∨ z.toNat = 3 := by have := z.isLt; omega
  apply BitVec.eq_of_toNat_eq
  rw [toNat_and_byteMask (by rcases hz with h | h | h | h <;> simp [h])]
  have := v.isLt
  rcases hz with h | h | h | h <;> simp [h, extendVal] <;> omega

/-- A number below 2^(8n), read as signed. -/
def signedOf (n u : Nat) : Int := if u < 2 ^ (8 * n - 1) then u else (u : Int) - 2 ^ (8 * n)

/-- The low n bytes of a word as `atomVal` reads them signed. -/
def signedLow (n : Nat) (v : W64) : Int :=
  ((v &&& BitVec.ofNat 64 (2 ^ (8 * n) - 1)).toNat : Int)
    - (if (v &&& BitVec.ofNat 64 (2 ^ (8 * n) - 1)).toNat < 2 ^ (8 * n - 1) then 0 else 2 ^ (8 * n))

/-- A word that is no wider than n bytes reads signed as its number does. -/
theorem signedLow_masked {n : Nat} {v : W64} (h : v &&& BitVec.ofNat 64 (2 ^ (8 * n) - 1) = v) : signedLow n v = signedOf n v.toNat := by
  rw [signedLow, signedOf, h]
  split
  · exact Int.sub_zero _
  · rfl

/-- The table of the atomics on numbers below 2^(8n) (03 R86). -/
def atomTable (fn : AtomFn) (n old o : Nat) : Nat :=
  match fn with
  | .swap => o | .add => (old + o) % 2 ^ (8 * n) | .and => old &&& o | .or => old ||| o | .xor => old ^^^ o
  | .min => if signedOf n o < signedOf n old then o else old | .max => if signedOf n old < signedOf n o then o else old
  | .minu => if o < old then o else old | .maxu => if old < o then o else old
  | .cas => o

/-- An atomic computes the table's result; CAS does so where it matches. -/
theorem atomVal_toNat (fn : AtomFn) {n old : Nat} (opnd cmpv : W64) (hn : n ≤ 8) (hold : old < 2 ^ (8 * n))
    (hc : fn = .cas → old = cmpv.toNat % 2 ^ (8 * n)) :
    (atomVal fn n (BitVec.ofNat 64 old) opnd cmpv).toNat = atomTable fn n old (opnd.toNat % 2 ^ (8 * n)) := by
  let m : W64 := BitVec.ofNat 64 (2 ^ (8 * n) - 1)
  let d : W64 := BitVec.ofNat 64 old &&& m
  let o : W64 := opnd &&& m
  have hmask (v : W64) : (v &&& m).toNat = v.toNat % 2 ^ (8 * n) := toNat_and_byteMask hn v
  have hdvd : 2 ^ (8 * n) ∣ 2 ^ 64 := pow_dvd_pow 2 (by omega)
  have hd : d.toNat = old := by rw [hmask, BitVec.toNat_ofNat, Nat.mod_mod_of_dvd _ hdvd, Nat.mod_eq_of_lt hold]
  have ho : o.toNat = opnd.toNat % 2 ^ (8 * n) := hmask opnd
  have hlt : opnd.toNat % 2 ^ (8 * n) < 2 ^ (8 * n) := Nat.mod_lt _ (Nat.two_pow_pos _)
  have hdm : d &&& m = d := by rw [BitVec.and_assoc, BitVec.and_self]
  have hom : o &&& m = o := by rw [BitVec.and_assoc, BitVec.and_self]
  have hpick (c : Prop) [Decidable c] : ((if c then o else d) &&& m).toNat = if c then opnd.toNat % 2 ^ (8 * n) else old := by
    split
    · rw [hom, ho]
    · rw [hdm, hd]
  have hso : signedLow n o = signedOf n (opnd.toNat % 2 ^ (8 * n)) := (signedLow_masked hom).trans (congrArg _ ho)
  have hsd : signedLow n d = signedOf n old := (signedLow_masked hdm).trans (congrArg _ hd)
  cases fn with
  | swap => exact (congrArg BitVec.toNat hom).trans ho
  | add =>
    show ((d + o) &&& m).toNat = (old + opnd.toNat % 2 ^ (8 * n)) % 2 ^ (8 * n)
    rw [hmask, BitVec.toNat_add, hd, ho, Nat.mod_mod_of_dvd _ hdvd]
  | and =>
    show ((d &&& o) &&& m).toNat = old &&& opnd.toNat % 2 ^ (8 * n)
    rw [hmask, BitVec.toNat_and, hd, ho, Nat.mod_eq_of_lt (Nat.and_lt_two_pow _ hlt)]
  | or =>
    show ((d ||| o) &&& m).toNat = old ||| opnd.toNat % 2 ^ (8 * n)
    rw [hmask, BitVec.toNat_or, hd, ho, Nat.mod_eq_of_lt (Nat.or_lt_two_pow hold hlt)]
  | xor =>
    show ((d ^^^ o) &&& m).toNat = old ^^^ opnd.toNat % 2 ^ (8 * n)
    rw [hmask, BitVec.toNat_xor, hd, ho, Nat.mod_eq_of_lt (Nat.xor_lt_two_pow hold hlt)]
  | min => exact (hpick (signedLow n o < signedLow n d)).trans (by rw [hso, hsd]; rfl)
  | max => exact (hpick (signedLow n d < signedLow n o)).trans (by rw [hso, hsd]; rfl)
  | minu => exact (hpick _).trans (by rw [ho, hd]; rfl)
  | maxu => exact (hpick _).trans (by rw [ho, hd]; rfl)
  | cas =>
    have hmatch : d = cmpv &&& m := BitVec.eq_of_toNat_eq (by rw [hd, hmask, hc rfl])
    exact (hpick (d = cmpv &&& m)).trans (if_pos hmatch)

/-! ### A line that the cluster owns (03 R88) -/

section
variable {s : State} {vc : Vc} {x : L2Line} {pa : Nat}

/-- A line in M or E with no request open needs no bringing. -/
theorem bringOwned_owned {l : LineNo} (hset : settle l settleFuel s = s) (hl : s.l2 (s.clusterOf vc) l = some x) (hst : x.st = .m ∨ x.st = .e)
    (hm : (s.cluster (s.clusterOf vc)).mshr = []) : bringOwned s vc l = some s := by
  have hown : (x.st == .m || x.st == .e) = true := by rcases hst with hst | hst <;> simp [hst]
  simp [bringOwned, hset, hl, hown, mshrOf_none hm]

/-- What the atomic finds before it writes. -/
def oldBytes (x : L2Line) (pa n : Nat) : Nat := lineGet x.data (pa % 64) n

theorem oldBytes_lt (x : L2Line) (pa n : Nat) : oldBytes x pa n < 2 ^ (8 * n) := Nat.mod_lt _ (Nat.two_pow_pos _)

/-- The old bytes match the operand of CAS exactly where their numbers agree. -/
theorem casMatches_iff {n old : Nat} (hn : n ≤ 8) (ho : old < 2 ^ (8 * n)) (cmpv : W64) :
    BitVec.ofNat 64 old = cmpv &&& BitVec.ofNat 64 (2 ^ (8 * n) - 1) ↔ old = cmpv.toNat % 2 ^ (8 * n) := by
  have hold : old < 2 ^ 64 := lt_of_lt_of_le ho (Nat.pow_le_pow_right (by decide) (by omega))
  rw [← BitVec.toNat_inj, toNat_and_byteMask hn, BitVec.toNat_ofNat, Nat.mod_eq_of_lt hold]

/-- CAS that does not match reads the line. -/
theorem atomCached_mismatch {n : Nat} {opnd cmpv : W64} (hb : bringOwned s vc (lineOf pa) = some s)
    (hl : s.l2 (s.clusterOf vc) (lineOf pa) = some x) (hn : n ≤ 8) (hne : oldBytes x pa n ≠ cmpv.toNat % 2 ^ (8 * n)) :
    atomCached s vc .cas n pa opnd cmpv = some (BitVec.ofNat 64 (oldBytes x pa n), readLine s vc (lineOf pa) x) := by
  have hdiff : (BitVec.ofNat 64 (oldBytes x pa n) != cmpv &&& BitVec.ofNat 64 (2 ^ (8 * n) - 1)) = true := by
    rw [bne_iff_ne]; exact fun h => hne ((casMatches_iff hn (oldBytes_lt x pa n) cmpv).1 h)
  simp only [atomCached, hb, hl]
  exact if_pos hdiff

/-- Every other atomic writes the table's result. -/
theorem atomCached_writes {fn : AtomFn} {n : Nat} {opnd cmpv : W64} (hb : bringOwned s vc (lineOf pa) = some s)
    (hl : s.l2 (s.clusterOf vc) (lineOf pa) = some x) (hn : n ≤ 8) (hc : fn = .cas → oldBytes x pa n = cmpv.toNat % 2 ^ (8 * n)) :
    atomCached s vc fn n pa opnd cmpv = some (BitVec.ofNat 64 (oldBytes x pa n),
      writeLine s vc (lineOf pa) (pa % 64) n (atomTable fn n (oldBytes x pa n) (opnd.toNat % 2 ^ (8 * n)))) := by
  have hgo : (fn == .cas && BitVec.ofNat 64 (oldBytes x pa n) != cmpv &&& BitVec.ofNat 64 (2 ^ (8 * n) - 1)) = false := by
    by_cases hf : fn = .cas
    · rw [(casMatches_iff hn (oldBytes_lt x pa n) cmpv).2 (hc hf)]; simp
    · simp [hf]
  have hval := atomVal_toNat fn opnd cmpv hn (oldBytes_lt x pa n) hc
  simp only [atomCached, hb, hl]
  refine (if_neg (by rw [← oldBytes, hgo]; exact Bool.false_ne_true)).trans ?_
  rw [← oldBytes, hval]

end

/-! ### The row of an atomic (03 R86, R87) -/

/-- The next instruction after a register write: PC alone moves on. -/
theorem nextPc_gWrite (a : Arch) (r : Reg) (v : W64) : nextPc (gWrite a r v) = { gWrite a r v with pc := a.pc + 4 } := by
  simp only [nextPc, gWrite_pc]

/-- An instruction that commits alone outside a region leaves its core outside one. -/
theorem committedAlone_region {s : State} {vc : Vc} {a : Arch} {evs : List (BitVec 8)} {ends taken : Bool} {ind : Option W64}
    (ho : InstrumentsOff s vc) (hg : (s.core vc).region = none) : ((committedAlone s vc a evs ends taken ind).core vc).region = none := by
  let u := executed s vc a evs ends taken none ind
  have hu : InstrumentsOff u vc := ho.of_core (by simp [u, executed, coreAfter]) (by simp [u, executed, coreAfter])
  have hug : (u.core vc).region = none := by simp [u, executed, coreAfter, regionNext, regionOf, hg]
  rw [committedAlone, traceCtx_off (commitCore_off hu)]
  exact (congrArg (·.region) (commitCore_core hu)).trans hug

/-- An atomic on NORMAL memory, with older work committed and its stores performed, commits with the old value in its register. -/
theorem atomRun_completes {s1 s2 s3 : State} {vc : Vc} {w : W32} {fn : AtomFn} {z : BitVec 2} {sy : Bool} {rd ra rb : Reg} {p : APart} {old : W64}
    (hal : (gRead (s1.core vc).spec ra).toNat % 2 ^ z.toNat = 0)
    (ht : Translates s1 vc (gRead (s1.core vc).spec ra) (2 ^ z.toNat) .rmw [p] s2) (hcan : canCommit (s2.core vc) = true)
    (hdone : (if sy then syncReady (commitCore s2 vc) vc else storesDone (commitCore s2 vc) vc) = true)
    (hk : paKind (commitCore s2 vc) p.pa = .dram) (hmt : p.mt = .normal)
    (hatom : atomCached (commitCore s2 vc) vc fn (2 ^ z.toNat) p.pa (gRead (s1.core vc).spec rb) (gRead (s1.core vc).spec rd) = some (old, s3))
    (hoff : InstrumentsOff s3 vc) :
    ∃ t, atomRun vc w (.atom fn z sy rd ra rb) s1 = some t
      ∧ Completes vc s3 t { gWrite (s3.core vc).spec rd (old &&& BitVec.ofNat 64 (2 ^ (8 * 2 ^ z.toNat) - 1)) with
          pc := (s3.core vc).spec.pc + 4 }
      ∧ ((s3.core vc).region = none → (t.core vc).region = none) := by
  let s4 := commitCore s2 vc
  let evs := 0x0C#8 :: partEvents [p] ++ missEvents s4 vc (lineOf p.pa) ++ (if codeParts s4 [p] then [0x18#8] else [])
  have hdrained : drained s2 vc = some s4 := if_pos hcan
  have htarget : atomTarget s4 vc w fn (2 ^ z.toNat) rd (gRead (s1.core vc).spec rb) (gRead (s1.core vc).spec rd) p (0x0C#8 :: partEvents [p])
      = some (atomDone s3 vc rd (2 ^ z.toNat) old evs) := by
    simp only [atomTarget, s4, hk, hmt, hatom]
    rfl
  refine ⟨atomDone s3 vc rd (2 ^ z.toNat) old evs, ?_, ?_, committedAlone_region hoff⟩
  · replace hdone : (if sy then syncReady s4 vc else storesDone s4 vc) = true := hdone
    simp only [atomRun, State.regs, atomSize, hal, bne_self_eq_false, Bool.false_eq_true, if_false, ht.accessed, hdrained, hdone, if_true, htarget]
    rfl
  · have hc : Completes vc s3 (atomDone s3 vc rd (2 ^ z.toNat) old evs) (nextPc (gWrite (s3.core vc).spec rd (extendVal (2 ^ z.toNat) false old))) :=
      committedAlone_completes hoff ..
    rwa [extendVal_atomSize, nextPc_gWrite] at hc

/-- Settles O11: the row by its commit alone, the line by the table's result on its old bytes. -/
theorem atomicsUpdateTheirLine : Obligations.AtomicsUpdateTheirLine := by
  unfold Obligations.AtomicsUpdateTheirLine
  constructor
  · intro s vc w s1 s2 s3 en fn z sy rd ra rb p old a n h hal ht hcan s4 hdone hk hmt hatom hspec hoff hret hreg
    obtain ⟨t, hrun, hc, hregion⟩ := atomRun_completes hal ht hcan hdone hk hmt hatom hoff
    rw [hspec] at hc
    exact ⟨t, congrArg Host.Outcome.next (instrRow_alone (mine := isAtom) h rfl hrun hc.retire (hregion hreg)), hc.settled, hc.outside⟩
  · intro s vc fn n pa opnd cmpv x k l old o sg new hn hal hl hst hm hset hf hr
    have hn8 : n ≤ 8 := by omega
    have hb := bringOwned_owned hset hl hst hm
    have hnew : new = atomTable fn n old o := by cases fn <;> rfl
    by_cases hc : fn = .cas → old = cmpv.toNat % 2 ^ (8 * n)
    · have hwrite := atomCached_writes (opnd := opnd) hb hl hn8 hc
      rw [writeLine_eq hl hf hm hr] at hwrite
      refine ⟨_, hwrite, fun hcas hne => absurd (hc hcas) hne, fun _ => ⟨_, State.l2_setL2_self .., rfl, ?_⟩, rfl,
        fun m hne => State.l2_setL2_ne _ _ _ hne⟩
      rw [hnew]; rfl
    · obtain ⟨rfl, hne⟩ := Classical.not_imp.1 hc
      have hread := readLine_read hl hf
      obtain ⟨y, hy, hdata, -⟩ := hread.line
      exact ⟨_, atomCached_mismatch hb hl hn8 hne, fun _ _ => ⟨y, hy, hdata⟩, fun h => absurd (h.resolve_left fun hno => hno rfl) hne,
        hread.dram, hread.lines⟩

end Sys2Proof.Machine
end

-- ==== Products and quotients ====
section
/-! Long integer operations (O5): values and flags of the MULDIV group. -/

namespace Sys2Proof.Machine

/-! ### Products (03 R81) -/

/-- The high half of an unsigned product fits in 64 bits. -/
theorem highHalf_unsigned_toNat (x y : W64) : (highHalf ((x.toNat : Int) * y.toNat)).toNat = x.toNat * y.toNat / 2 ^ 64 := by
  have hlt : x.toNat * y.toNat / 2 ^ 64 < 2 ^ 64 := Nat.div_lt_of_lt_mul (Nat.mul_lt_mul'' x.isLt y.isLt)
  have hcast : (x.toNat : Int) * y.toNat / 2 ^ 64 = ((x.toNat * y.toNat / 2 ^ 64 : Nat) : Int) := by norm_cast
  rw [highHalf, hcast, BitVec.ofInt_natCast, BitVec.toNat_ofNat, Nat.mod_eq_of_lt hlt]

/-! ### Quotients and remainders (04 R104) -/

theorem mdVal_divu (x y : W64) : mdVal .divu x y = if y = 0 then BitVec.allOnes 64 else BitVec.ofNat 64 (x.toNat / y.toNat) := by
  have hq : x.udiv y = BitVec.ofNat 64 (x.toNat / y.toNat) := BitVec.udiv_def
  rw [mdVal, hq]

theorem mdVal_remu (x y : W64) : mdVal .remu x y = if y = 0 then x else BitVec.ofNat 64 (x.toNat % y.toNat) := by
  have hr : x.umod y = BitVec.ofNat 64 (x.toNat % y.toNat) := BitVec.umod_def
  rw [mdVal, hr]

/-- The quotient 2^63 wraps to its own negation. -/
theorem mdVal_div_overflow : mdVal .div (BitVec.intMin 64) (BitVec.allOnes 64) = BitVec.intMin 64 := by decide

theorem mdVal_rem_overflow : mdVal .rem (BitVec.intMin 64) (BitVec.allOnes 64) = 0 := by decide

/-! ### The group -/

/-- What each operation computes (03 R81, 04 R104). -/
theorem mdVal_spec (fn : MdFn) (x y : W64) : let r := mdVal fn x y
    (fn = .mul → r.toNat = x.toNat * y.toNat % 2 ^ 64)
    ∧ (fn = .mulh → r = BitVec.ofInt 64 (x.toInt * y.toInt / 2 ^ 64))
    ∧ (fn = .mulhu → r.toNat = x.toNat * y.toNat / 2 ^ 64)
    ∧ (fn = .mulhsu → r = BitVec.ofInt 64 (x.toInt * y.toNat / 2 ^ 64))
    ∧ (fn = .div → r = if y = 0 then BitVec.allOnes 64 else BitVec.ofInt 64 (x.toInt.tdiv y.toInt))
    ∧ (fn = .divu → r = if y = 0 then BitVec.allOnes 64 else BitVec.ofNat 64 (x.toNat / y.toNat))
    ∧ (fn = .rem → r = if y = 0 then x else BitVec.ofInt 64 (x.toInt.tmod y.toInt))
    ∧ (fn = .remu → r = if y = 0 then x else BitVec.ofNat 64 (x.toNat % y.toNat))
    ∧ (fn = .div → x = BitVec.intMin 64 → y = BitVec.allOnes 64 → r = BitVec.intMin 64)
    ∧ (fn = .rem → x = BitVec.intMin 64 → y = BitVec.allOnes 64 → r = 0) := by
  refine ⟨?mul, ?mulh, ?mulhu, ?mulhsu, ?div, ?divu, ?rem, ?remu, ?divOverflow, ?remOverflow⟩
  case mul => rintro rfl; exact BitVec.toNat_mul x y
  case mulhu => rintro rfl; exact highHalf_unsigned_toNat x y
  case divu => rintro rfl; exact mdVal_divu x y
  case remu => rintro rfl; exact mdVal_remu x y
  case divOverflow => rintro rfl rfl rfl; exact mdVal_div_overflow
  case remOverflow => rintro rfl rfl rfl; exact mdVal_rem_overflow
  all_goals rintro rfl; rfl

/-- CF of an S form (03 R82): only MUL writes C and V. -/
theorem mdCf_eq (fn : MdFn) (x y : W64) (old : BitVec 4) : mdCf fn x y old
    = cfMk ((mdVal fn x y).getLsbD 63) (mdVal fn x y == 0)
        (if fn = .mul then decide (2 ^ 64 ≤ x.toNat * y.toNat) else cfC old)
        (if fn = .mul then outOfRange (x.toInt * y.toInt) else cfV old) := by
  cases fn
  case mul => rw [mdCf, BitVec.msb_eq_getLsbD_last]; rfl
  all_goals exact cfNZ_eq ..

/-- Settles O5: the row is a long operation, whose value and flags are those of the tables. -/
theorem mulDivResults : Obligations.MulDivResults := by
  intro s vc w s1 en sf fn rd ra rb h hfree a x y
  refine ⟨_, mdVal fn x y, rfl, ?_, mdVal_spec fn x y⟩
  rw [← mdCf_eq]
  exact instrRow_long h rfl rfl hfree

end Sys2Proof.Machine
end

-- ==== Commits and rollbacks ====
section
/-! REGION_COMMIT and the rollback (O18): what becomes architectural, and what an undo leaves. -/

namespace Sys2Proof.Machine

/-! ### What a commit makes architectural (05 R142, R144) -/

section
variable {s : State} {vc : Vc}

theorem execRegionCommit_all (hon : coreOn s vc = true) (hc : canCommit (s.core vc) = true) :
    exec (.regionCommit vc) s = .next (commitCore s vc) := by
  show execRegionCommit vc s = _
  rw [execRegionCommit, if_pos hon, if_pos hc]

theorem execRegionCommit_partial (hon : coreOn s vc = true) (hc : canCommit (s.core vc) = false) :
    exec (.regionCommit vc) s = .next (match openPoint (s.core vc) with | none => s | some p => commitAt s vc p) := by
  show execRegionCommit vc s = _
  rw [execRegionCommit, if_pos hon, hc]
  cases openPoint (s.core vc) <;> rfl

/-- A commit of everything marks every buffered store committed. -/
theorem commitCore_sb (h : InstrumentsOff s vc) :
    ((commitCore s vc).core vc).sb = (s.core vc).sb.map (fun e => { e with committed := true }) :=
  congrArg (·.sb) (commitCore_core h)

/-- The core that a commit up to a point leaves, its predictors aside. -/
theorem commitAt_core (h : InstrumentsOff s vc) (p : Ckpt) :
    untrained ((commitAt s vc p).core vc) = untrained (adoptAt { s.core vc with evq := [], wasted := [] } p) := by
  have k := (commitWith_trains h (fun c => adoptAt c p) ((s.core vc).retire.take p.retLen) (fun _ => rfl) (fun _ => rfl)).core
  rwa [State.core_setCore_self] at k

theorem commitAt_onlyCore (h : InstrumentsOff s vc) (p : Ckpt) : OnlyCore vc s (commitAt s vc p) :=
  (onlyCore_setCore ..).trans
    (commitWith_trains h (fun c => adoptAt c p) ((s.core vc).retire.take p.retLen) (fun _ => rfl) (fun _ => rfl)).outside

/-- What executed past the point stays uncommitted. -/
theorem commitAt_retire_length (h : InstrumentsOff s vc) (p : Ckpt) :
    ((commitAt s vc p).core vc).retire.length = (s.core vc).retire.length - p.retLen := by
  have hr := congrArg (·.retire.length) (commitAt_core h p)
  simpa [untrained, adoptAt] using hr

/-! ### What a rollback leaves (05 R145, R156) -/

@[simp] theorem sendT_homes (s : State) (src : Agent) (cls : ClassId) (tag : BitVec 16) (m : Msg) : (sendT s src cls tag m).fab.homes = s.fab.homes := by
  simp only [sendT]
  rw [uncoreEvent_frame]

@[simp] theorem sendWb_homes (s : State) (k : Nat) (l : LineNo) (x : L2Line) : (sendWb s k l x).fab.homes = s.fab.homes := by
  simp only [sendWb, sendT_homes]
  rfl

/-- Giving up a line, or sending it back, leaves the home slices alone. -/
theorem discardFill_homes (f : Fill) : (discardFill vc s f).fab.homes = s.fab.homes := by
  cases f with
  | l1d l =>
    simp only [discardFill]
    split <;> rfl
  | l2 l =>
    simp only [discardFill]
    split
    · rfl
    · split
      · split
        · exact sendWb_homes ..
        · rfl
      · rfl
  | dtlb | l2tlb | walk | kept => rfl

theorem discardFills_homes (n : Nat) : (discardFills s vc n).fab.homes = s.fab.homes := by
  have fold (fs : List Fill) (t : State) : (fs.foldl (discardFill vc) t).fab.homes = t.fab.homes := by
    induction fs generalizing t with
    | nil => rfl
    | cons f fs ih => rw [List.foldl_cons, ih, discardFill_homes]
  exact fold _ _

end

/-- Settles O18: a commit adopts the registers with its instruments off, and a rollback is the undo of a core that has given its fills up. -/
theorem commitAndRollback : Obligations.CommitAndRollback := by
  refine ⟨fun s vc hon ho => ⟨fun ht hk hp => ?_, fun p hc hp => ?_, fun hc hp => ?_⟩, fun s vc => ?_⟩
  · have hc : canCommit (s.core vc) = true := by rw [canCommit, ht, hk, hp]; rfl
    exact ⟨_, execRegionCommit_all hon hc, commitCore_settled ho, commitCore_retire ho, commitCore_sb ho, commitCore_onlyCore ho⟩
  · have hx := execRegionCommit_partial hon hc
    rw [hp] at hx
    have hcore := commitAt_core ho p
    exact ⟨_, hx, congrArg (·.arch) hcore, congrArg (·.spec) hcore, commitAt_retire_length ho p, congrArg (·.tickets) hcore,
      congrArg (·.sb) hcore, commitAt_onlyCore ho p⟩
  · have hx := execRegionCommit_partial hon hc
    rwa [hp] at hx
  · have hd := discardFills_discards (vc := vc) (s := s) 0
    have hc : (rollbackCore s vc).core vc = undoCore ((discardFills s vc 0).core vc) := State.core_setCore_self ..
    have harch : ((discardFills s vc 0).core vc).arch = (s.core vc).arch := (congrArg Core.arch hd.own : (unfilled _).arch = (unfilled _).arch)
    have hsb : ((discardFills s vc 0).core vc).sb = (s.core vc).sb := (congrArg Core.sb hd.own : (unfilled _).sb = (unfilled _).sb)
    intro t
    refine ⟨?_, ?_, ?_, ?_, ?_, fun v hv => (State.core_setCore_ne _ _ _ _ hv).trans (hd.others v hv), hd.dram, discardFills_homes 0⟩
    · exact ⟨hc ▸ harch, hc ▸ harch⟩
    · exact (congrArg (·.sb) hc).trans (congrArg (List.filter (·.committed)) hsb)
    all_goals exact hc ▸ rfl

end Sys2Proof.Machine
end

-- ==== Paces in which no course issues ====
section
/-! PMU_COUNTER_OVERFLOW (O19): what a pace in which no course issues does to one counter, where no counter is granted or chained and an overflow freezes none. -/

namespace Sys2Proof.Machine

/-! ### One counter (17 R508, R509) -/

/-- The counters run whatever overflows, none of them for the guest, and none takes the carries of another. -/
structure PlainCounters (p : Pmu) : Prop where
  on : p.ctl.getLsbD 0 = true
  noFreeze : p.ctl.getLsbD 1 = false
  grant : p.grant = 0
  chained : ∀ m, pmuChained p m = false

/-- From `s0` to `t` counter n of core `vc` has taken k events; it has overflowed where they take it past all ones. Other counters may have counted too. -/
structure Counted (s0 : State) (vc : Vc) (n k : Nat) (t : State) : Prop where
  outside : OnlyCore vc s0 t
  ctl : (t.core vc).pmu.ctl = (s0.core vc).pmu.ctl
  cfg : (t.core vc).pmu.cfg = (s0.core vc).pmu.cfg
  grant : (t.core vc).pmu.grant = (s0.core vc).pmu.grant
  value : pmuCnt (t.core vc).pmu n = pmuCnt (s0.core vc).pmu n + BitVec.ofNat 64 k
  kept : ∀ i, (s0.core vc).pmu.ovf.getLsbD i = true → (t.core vc).pmu.ovf.getLsbD i = true
  wrapped : 2 ^ 64 ≤ (pmuCnt (s0.core vc).pmu n).toNat + k → (t.core vc).pmu.ovf.getLsbD n = true
    ∧ (pmuIrqOn (s0.core vc).pmu n = true → 0x1000 + n ∈ (t.core vc).phys)

section
variable {s0 t : State} {vc : Vc} {n k : Nat}

/-- A counter below 2^64 that the events take no further holds their sum. -/
theorem Counted.toNat (h : Counted s0 vc n k t) : (pmuCnt (t.core vc).pmu n).toNat = ((pmuCnt (s0.core vc).pmu n).toNat + k) % 2 ^ 64 := by
  rw [h.value, BitVec.toNat_add, BitVec.toNat_ofNat, Nat.add_mod_mod]

theorem Counted.refl (s0 : State) (vc : Vc) (n : Nat) : Counted s0 vc n 0 s0 where
  outside := .refl ..
  ctl := rfl
  cfg := rfl
  grant := rfl
  value := (BitVec.add_zero _).symm
  kept _ hi := hi
  wrapped h := absurd h (Nat.not_le.2 (BitVec.isLt _))

/-- The settings decide what a counter counts. -/
theorem Counted.plain (h : Counted s0 vc n k t) (hp : PlainCounters (s0.core vc).pmu) : PlainCounters (t.core vc).pmu where
  on := by rw [h.ctl, hp.on]
  noFreeze := by rw [h.ctl, hp.noFreeze]
  grant := by rw [h.grant, hp.grant]
  chained m := by simpa only [pmuChained, pmuCfg, h.cfg] using hp.chained m

theorem Counted.admits (h : Counted s0 vc n k t) (m : Nat) (l : Level) : pmuAdmits (t.core vc).pmu m l = pmuAdmits (s0.core vc).pmu m l := by
  simp only [pmuAdmits, pmuGranted, pmuCfg, h.ctl, h.cfg, h.grant]

theorem Counted.irqOn (h : Counted s0 vc n k t) (m : Nat) : pmuIrqOn (t.core vc).pmu m = pmuIrqOn (s0.core vc).pmu m := by
  simp only [pmuIrqOn, pmuCfg, h.ctl, h.cfg]

theorem PlainCounters.runs {p : Pmu} (h : PlainCounters p) : pmuRuns p = true := by rw [pmuRuns, h.on, h.noFreeze]; rfl

/-- Counter m of a core is one higher. -/
def countUp (m : Nat) (c : Core) : Core := { c with pmu := { c.pmu with cnt := mput c.pmu.cnt m (pmuCnt c.pmu m + 1) } }

/-- What an overflow of counter m for the hypervisor changes of its core: the OVF bit, the sample, and the interrupt where it is enabled. -/
theorem pmuOverflow_core {s : State} {m : Nat} (hg : (s.core vc).pmu.grant = 0) (pc : W64) (b : Bool) :
    ∃ a i, (pmuOverflow s vc m pc b).core vc = { s.core vc with
      pmu := { (s.core vc).pmu with ovf := (s.core vc).pmu.ovf ||| (1#7 <<< m), spc := a, sinfo := i }
      phys := if pmuIrqOn (s.core vc).pmu m then insertNat (0x1000 + m) (s.core vc).phys else (s.core vc).phys } := by
  have hfree : ∀ o, pmuGranted { (s.core vc).pmu with ovf := o } m = false := fun o => by simp [pmuGranted, hg]
  have hirq : ∀ o, pmuIrqOn { (s.core vc).pmu with ovf := o } m = pmuIrqOn (s.core vc).pmu m := fun _ => rfl
  simp only [pmuOverflow, hfree, hirq, Bool.false_eq_true, if_false]
  split
  · exact ⟨pc, BitVec.ofBool b ++ BitVec.ofNat 3 m, by simp [raisePhys]⟩
  · exact ⟨_, _, State.core_setCore_self ..⟩

theorem pmuOverflow_onlyCore {s : State} {m : Nat} (hg : (s.core vc).pmu.grant = 0) (pc : W64) (b : Bool) :
    OnlyCore vc s (pmuOverflow s vc m pc b) := by
  have hfree : ∀ o, pmuGranted { (s.core vc).pmu with ovf := o } m = false := fun o => by simp [pmuGranted, hg]
  simp only [pmuOverflow, hfree, Bool.false_eq_true, if_false]
  split
  · exact (onlyCore_setCore ..).trans (onlyCore_updCore ..)
  · exact onlyCore_setCore ..

/-- One event at counter m, whose carry no other counter takes: what it changes of its core. -/
structure Bumps (m : Nat) (c d : Core) : Prop where
  ctl : d.pmu.ctl = c.pmu.ctl
  cfg : d.pmu.cfg = c.pmu.cfg
  grant : d.pmu.grant = c.pmu.grant
  cnt : d.pmu.cnt = mput c.pmu.cnt m (pmuCnt c.pmu m + 1)
  kept : ∀ i, c.pmu.ovf.getLsbD i = true → d.pmu.ovf.getLsbD i = true
  pending : ∀ id, id ∈ c.phys → id ∈ d.phys
  wraps : pmuCnt c.pmu m = BitVec.allOnes 64 → m < 7 → d.pmu.ovf.getLsbD m = true ∧ (pmuIrqOn c.pmu m = true → 0x1000 + m ∈ d.phys)

theorem pmuBump_bumps {s : State} (hp : PlainCounters (s.core vc).pmu) (pc : W64) (b : Bool) (f m : Nat) :
    Bumps m (s.core vc) ((pmuBump s vc pc b (f + 1) m).core vc) ∧ OnlyCore vc s (pmuBump s vc pc b (f + 1) m) := by
  have hbump : pmuBump s vc pc b (f + 1) m
      = if pmuCnt (s.core vc).pmu m = BitVec.allOnes 64 then pmuOverflow (s.updCore vc (countUp m)) vc m pc b
        else s.updCore vc (countUp m) := by
    simp only [pmuBump, hp.chained, Bool.false_eq_true, if_false]
    rfl
  rw [hbump]
  split
  · have hg : ((s.updCore vc (countUp m)).core vc).pmu.grant = 0 := by rw [State.core_updCore_self]; exact hp.grant
    obtain ⟨a, i, hcore⟩ := pmuOverflow_core hg (m := m) pc b
    refine ⟨?_, (onlyCore_updCore ..).trans (pmuOverflow_onlyCore hg pc b)⟩
    rw [hcore, State.core_updCore_self]
    refine ⟨rfl, rfl, rfl, rfl, fun j hj => ?_, fun id hid => ?_, fun _ hm => ⟨?_, fun hirq => ?_⟩⟩
    · exact (BitVec.getLsbD_or ..).trans (by rw [show (countUp m (s.core vc)).pmu.ovf.getLsbD j = true from hj, Bool.true_or])
    · show id ∈ (if _ then _ else _)
      split
      · exact mem_insertNat.2 (.inr hid)
      · exact hid
    · simp [hm]
    · exact (if_pos hirq : (if pmuIrqOn (countUp m (s.core vc)).pmu m then _ else _) = _) ▸ mem_insertNat.2 (.inl rfl)
  · next hv =>
    refine ⟨?_, onlyCore_updCore ..⟩
    rw [State.core_updCore_self]
    exact ⟨rfl, rfl, rfl, rfl, fun _ hj => hj, fun _ hid => hid, fun h => absurd h hv⟩

theorem Bumps.value {c d : Core} {m : Nat} (h : Bumps m c d) (n : Nat) :
    pmuCnt d.pmu n = pmuCnt c.pmu n + if m = n then 1 else 0 := by
  rw [pmuCnt, h.cnt]
  split
  · next e => subst e; exact mget_mput_self ..
  · next e => exact (mget_mput_ne _ _ _ _ _ (Ne.symm e)).trans (BitVec.add_zero _).symm

/-- An event that counter m takes counts for n where m is n. -/
theorem Counted.bump (h : Counted s0 vc n k t) (hp : PlainCounters (s0.core vc).pmu) (hn : n < 7) (pc : W64) (b : Bool) (f m : Nat) :
    Counted s0 vc n (k + if m = n then 1 else 0) (pmuBump t vc pc b (f + 1) m) := by
  obtain ⟨hb, ho⟩ := pmuBump_bumps (h.plain hp) pc b f m
  refine ⟨h.outside.trans ho, hb.ctl.trans h.ctl, hb.cfg.trans h.cfg, hb.grant.trans h.grant, ?_, fun i hi => hb.kept i (h.kept i hi), fun hw => ?_⟩
  · rw [hb.value, h.value, BitVec.add_assoc]
    split <;> simp [BitVec.ofNat_add]
  · by_cases hold : 2 ^ 64 ≤ (pmuCnt (s0.core vc).pmu n).toNat + k
    · obtain ⟨ho, hi⟩ := h.wrapped hold
      exact ⟨hb.kept n ho, fun hq => hb.pending _ (hi hq)⟩
    · obtain rfl : m = n := by
        by_contra hne
        rw [if_neg hne] at hw
        exact hold hw
      rw [if_pos rfl] at hw
      have hall : pmuCnt (t.core vc).pmu m = BitVec.allOnes 64 := by
        apply BitVec.eq_of_toNat_eq
        rw [h.toNat, Nat.mod_eq_of_lt (Nat.lt_of_not_le hold), BitVec.toNat_allOnes]
        omega
      rw [← h.irqOn]
      exact hb.wraps hall hn

/-! ### The events of a pace (17 R507, R513) -/

/-- What counter m does with an event. -/
def offerEvent (vc : Vc) (ev : BitVec 8) (l : Level) (pc : W64) (b : Bool) (t : State) (m : Nat) : State :=
  if pmuRuns (t.core vc).pmu && !pmuChained (t.core vc).pmu m && (pmuCfg (t.core vc).pmu m).setWidth 8 == ev && pmuAdmits (t.core vc).pmu m l
  then pmuBump t vc pc b 6 m else t

theorem pmuEvent_eq (t : State) (vc : Vc) (ev : BitVec 8) (l : Level) (pc : W64) (b : Bool) :
    pmuEvent t vc ev l pc b = (List.range 6).foldl (offerEvent vc ev l pc b) t := rfl

section
variable (hp : PlainCounters (s0.core vc).pmu) (hn : n < 7) {l : Level} (ha : pmuAdmits (s0.core vc).pmu n l = true) (pc : W64) (b : Bool)
include hp hn ha

/-- Counter n takes an event that it names. -/
theorem Counted.offer (h : Counted s0 vc n k t) (ev : BitVec 8) (m : Nat) :
    Counted s0 vc n (k + if m = n ∧ ev = (pmuCfg (s0.core vc).pmu n).setWidth 8 then 1 else 0) (offerEvent vc ev l pc b t m) := by
  have hcfg : pmuCfg (t.core vc).pmu m = pmuCfg (s0.core vc).pmu m := by rw [pmuCfg, h.cfg]; rfl
  unfold offerEvent
  rw [(h.plain hp).runs, (h.plain hp).chained, hcfg, h.admits]
  by_cases hm : m = n
  · subst hm
    simp only [ha, Bool.not_false, Bool.true_and, Bool.and_true, beq_iff_eq, true_and, eq_comm (a := ev)]
    split
    · simpa using h.bump hp hn pc b 5 m
    · exact h
  · rw [if_neg (fun hc => hm hc.1)]
    split
    · simpa [hm] using h.bump hp hn pc b 5 m
    · exact h

/-- One event counts for n where n names it. -/
theorem Counted.event (h : Counted s0 vc n k t) (ev : BitVec 8) :
    Counted s0 vc n (k + if n < 6 ∧ ev = (pmuCfg (s0.core vc).pmu n).setWidth 8 then 1 else 0) (pmuEvent t vc ev l pc b) := by
  have fold (ms : List Nat) (hms : ms.Nodup) {t : State} {k : Nat} (h : Counted s0 vc n k t) :
      Counted s0 vc n (k + if n ∈ ms ∧ ev = (pmuCfg (s0.core vc).pmu n).setWidth 8 then 1 else 0) (ms.foldl (offerEvent vc ev l pc b) t) := by
    induction ms generalizing t k with
    | nil => simpa using h
    | cons m ms ih =>
      obtain ⟨hm, hms⟩ := List.nodup_cons.1 hms
      have h1 := ih hms (h.offer hp hn ha pc b ev m)
      rw [List.foldl_cons]
      by_cases hmn : m = n
      · subst hmn; simpa [hm] using h1
      · simpa [hmn, Ne.symm hmn] using h1
  rw [pmuEvent_eq]
  simpa only [List.mem_range] using fold (List.range 6) List.nodup_range h

/-- Of several events those count that n names. -/
theorem Counted.events (h : Counted s0 vc n k t) (evs : List (BitVec 8)) :
    Counted s0 vc n (k + if n < 6 then evs.count ((pmuCfg (s0.core vc).pmu n).setWidth 8) else 0) (pmuEvents t vc evs l pc b) := by
  induction evs generalizing t k with
  | nil =>
    rw [List.count_nil, ite_self]
    exact h
  | cons e evs ih =>
    have h1 := ih (h.event hp hn ha pc b e)
    have hsum : k + (if n < 6 ∧ e = (pmuCfg (s0.core vc).pmu n).setWidth 8 then 1 else 0) + (if n < 6 then evs.count ((pmuCfg (s0.core vc).pmu n).setWidth 8) else 0)
        = k + if n < 6 then (e :: evs).count ((pmuCfg (s0.core vc).pmu n).setWidth 8) else 0 := by
      rw [List.count_cons]
      by_cases h6 : n < 6
      · by_cases he : e = (pmuCfg (s0.core vc).pmu n).setWidth 8
        · simp [h6, he]; omega
        · simp [h6, he]
      · simp [h6]
    exact hsum ▸ h1

/-- A pace without retired slots: PMU_PACE takes it, another counter its six slots where it names them. -/
theorem Counted.pace (h : Counted s0 vc n k t) (why : BitVec 8) :
    Counted s0 vc n (k + if n = 6 then 1 else if why = (pmuCfg (s0.core vc).pmu n).setWidth 8 then 6 else 0) (pmuPace t vc l pc 0 why) := by
  have h1 : Counted s0 vc n (k + if n = 6 then 1 else 0)
      (if pmuRuns (t.core vc).pmu && pmuAdmits (t.core vc).pmu 6 l then pmuBump t vc pc false 6 6 else t) := by
    rw [(h.plain hp).runs, h.admits, Bool.true_and]
    by_cases h6 : n = 6
    · subst h6
      rw [if_pos ha]
      exact h.bump hp hn pc false 5 6
    · rw [if_neg h6]
      split
      · simpa only [Ne.symm h6, if_false] using h.bump hp hn pc false 5 6
      · exact h
  have h2 := h1.events hp hn ha pc false (List.replicate 6 why)
  have hsum : k + (if n = 6 then 1 else 0) + (if n < 6 then (List.replicate 6 why).count ((pmuCfg (s0.core vc).pmu n).setWidth 8) else 0)
      = k + if n = 6 then 1 else if why = (pmuCfg (s0.core vc).pmu n).setWidth 8 then 6 else 0 := by
    rw [List.count_replicate]
    by_cases h6 : n = 6
    · simp [h6]
    · have : n < 6 := by omega
      simp [h6, this]
  exact hsum ▸ h2

end

end

/-! ### The pace of an overflow (17 R509, R513) -/

section
variable {s : State} {vc : Vc} {n : Nat}

theorem countedEvent_six (p : Pmu) : countedEvent p 6 = none := if_neg fun h => absurd h.1 (by decide)

theorem countedEvent_plain {p : Pmu} (h : PlainCounters p) (hn : n < 6) : countedEvent p n = some ((pmuCfg p n).setWidth 8) :=
  if_pos ⟨hn, h.chained n⟩

/-- A counter that counts paces is PMU_PACE or names an event of one. -/
theorem countsPaces_lt {p : Pmu} (h : countsPaces p n = true) : n < 7 := by
  by_contra hn
  have h6 : ¬ n = 6 := by omega
  have hnone : countedEvent p n = none := if_neg fun h => by omega
  simp [countsPaces, h6, hnone] at h

/-- In the pace that makes counter n overflow it counts what such a pace adds; a pace of a kind that is free takes a free value first. -/
theorem overflowPace_counted (hp : PlainCounters (s.core vc).pmu) (hc : countsPaces (s.core vc).pmu n = true)
    (ha : pmuAdmits (s.core vc).pmu n (s.core vc).spec.level = true) :
    ∃ u, (u = s ∨ u = s.free.2) ∧ Counted u vc n (paceAdds (s.core vc).pmu n) (overflowPace s vc n) := by
  have hn := countsPaces_lt hc
  by_cases h6 : n = 6
  · subst h6
    refine ⟨s.free.2, .inr rfl, ?_⟩
    have hpace := (Counted.refl s.free.2 vc 6).pace (s0 := s.free.2) (l := (s.free.2.core vc).spec.level) hp hn ha (s.free.2.core vc).arch.pc
      (if s.free.1.getLsbD 0 then 0x23 else 0x22)
    simpa [overflowPace, idlePace, paceAdds, countedEvent_six] using hpace
  · refine ⟨s, .inl rfl, ?_⟩
    have hev := countedEvent_plain hp (show n < 6 by omega)
    have hpace (why : BitVec 8) := (Counted.refl s vc n).pace hp hn ha (s.core vc).arch.pc why
    simp only [h6, if_false, Nat.zero_add] at hpace
    generalize hcfg : (pmuCfg (s.core vc).pmu n).setWidth 8 = e at hev hpace
    simp only [overflowPace, paceAdds, hev, Option.some.injEq]
    by_cases h22 : e = 0x22#8
    · simpa [h22, idlePace] using hpace 0x22
    · by_cases h23 : e = 0x23#8
      · simpa [h23, idlePace] using hpace 0x23
      · have hone := (hpace 0x23).event hp hn ha (s.core vc).arch.pc false e
        simpa [h22, h23, Ne.symm h23, idlePace, hcfg, show n < 6 by omega] using hone

end

/-- What a pace adds is one event or its six slots. -/
theorem paceAdds_le (p : Pmu) (n : Nat) : paceAdds p n ≤ 6 := by
  unfold paceAdds
  split <;> decide

/-- PMU_COUNTER_OVERFLOW on plain counters: the counter wraps, with its OVF bit and its interrupt. -/
theorem execPmuCounterOverflow_wraps {s : State} {vc : Vc} {n : BitVec 3} (hon : coreOn s vc = true) (hw : (s.core vc).wfe = false)
    (hp : PlainCounters (s.core vc).pmu) (hc : countsPaces (s.core vc).pmu n.toNat = true)
    (ha : pmuAdmits (s.core vc).pmu n.toNat (s.core vc).spec.level = true)
    (hsum : 2 ^ 64 ≤ (pmuCnt (s.core vc).pmu n.toNat).toNat + paceAdds (s.core vc).pmu n.toNat) :
    ∃ u, (u = s ∨ u = s.free.2) ∧ ∃ t, exec (.pmuCounterOverflow vc n) s = .next t
      ∧ Counted u vc n.toNat (paceAdds (s.core vc).pmu n.toNat) t := by
  obtain ⟨u, hu, h⟩ := overflowPace_counted hp hc ha
  refine ⟨u, hu, _, ?_, h⟩
  show execPmuCounterOverflow vc n s = _
  simp only [execPmuCounterOverflow, hon, hw, hp.runs, hc, ha, hsum, whenTrue]
  rfl

/-- The same, read off the state that it leaves. -/
theorem pmuCounterOverflow_effect {s : State} {vc : Vc} {n : BitVec 3} (hon : coreOn s vc = true) (hw : (s.core vc).wfe = false)
    (hp : PlainCounters (s.core vc).pmu) (hc : countsPaces (s.core vc).pmu n.toNat = true)
    (ha : pmuAdmits (s.core vc).pmu n.toNat (s.core vc).spec.level = true)
    (hsum : 2 ^ 64 ≤ (pmuCnt (s.core vc).pmu n.toNat).toNat + paceAdds (s.core vc).pmu n.toNat) :
    ∃ t, exec (.pmuCounterOverflow vc n) s = .next t
      ∧ (pmuCnt (t.core vc).pmu n.toNat).toNat = (pmuCnt (s.core vc).pmu n.toNat).toNat + paceAdds (s.core vc).pmu n.toNat - 2 ^ 64
      ∧ (t.core vc).pmu.ovf.getLsbD n.toNat = true ∧ (t.core vc).pmu.ovf &&& (s.core vc).pmu.ovf = (s.core vc).pmu.ovf
      ∧ (pmuIrqOn (s.core vc).pmu n.toNat = true → 0x1000 + n.toNat ∈ (t.core vc).phys)
      ∧ (∀ v, v ≠ vc → t.core v = s.core v) ∧ t = { s with cores := t.cores, fresh := t.fresh } := by
  obtain ⟨u, hu, t, hx, h⟩ := execPmuCounterOverflow_wraps hon hw hp hc ha hsum
  have hcore (v : Vc) : u.core v = s.core v := by rcases hu with rfl | rfl <;> rfl
  have hval := h.toNat
  have hwrap := h.wrapped
  have hkept := h.kept
  rw [hcore] at hval hwrap hkept
  obtain ⟨hovf, hirq⟩ := hwrap hsum
  refine ⟨t, hx, ?_, hovf, ?_, hirq, fun v hv => (h.outside.others v hv).trans (hcore v), ?_⟩
  · have := (pmuCnt (s.core vc).pmu n.toNat).isLt
    have := paceAdds_le (s.core vc).pmu n.toNat
    rw [hval]
    omega
  · ext i hi
    have := hkept i
    simp only [BitVec.getElem_and, BitVec.getLsbD_eq_getElem hi] at this ⊢
    cases hb : (s.core vc).pmu.ovf[i]
    · rw [Bool.and_false]
    · rw [this hb]; rfl
  · rw [h.outside.device]
    rcases hu with rfl | rfl <;> rfl

/-- PMU_CTL and the chain bits as the obligation names them. -/
theorem plainCounters_of {p : Pmu} (hrun : pmuRuns p = true) (hf : p.ctl.getLsbD 1 = false) (hg : p.grant = 0)
    (hch : ∀ m, m < 7 → pmuChained p m = false) : PlainCounters p where
  on := (Bool.and_eq_true_iff.1 hrun).1
  noFreeze := hf
  grant := hg
  chained m := by
    by_cases hm : m < 7
    · exact hch m hm
    · simp [pmuChained, show ¬ m < 6 by omega]

end Sys2Proof.Machine
end

-- ==== Regions of the translator ====
section
/-! TRANSLATION_REQUEST and REGION_INSTALL (O19): a request in the translator's queue, a region in the course store. -/

namespace Sys2Proof.Machine

/-! ### A request (05 R126, R129) -/

section
variable {s s1 : State} {vc : Vc}

/-- A hot block of the context in force that has not been asked for. -/
def asksFor (s : State) (vc : Vc) (h : HotEntry) : Bool :=
  h.due && !h.sent && h.ctx == ctxOf (s.core vc).spec && h.fstyle == s.fStyleOf (s.core vc).spec

theorem execTranslationRequest_sends {h : HotEntry} {r : XlateReq} (hon : coreOn s vc = true) (hu : uncommitted (s.core vc) = false)
    (hf : (s.core vc).micro.hot.find? (asksFor s vc) = some h) (hr : requestFor s vc h = some (r, s1)) :
    exec (.translationRequest vc) s = .next (sendRequest s1 vc (withFolly s1 r)) := by
  show execTranslationRequest vc s = _
  unfold asksFor at hf
  simp only [execTranslationRequest, hon, hu, Bool.not_false, Bool.and_self, if_true, hf, hr]

@[simp] theorem State.core_setCluster (s : State) (k : Nat) (d : Cluster) (v : Vc) : (s.setCluster k d).core v = s.core v := rfl

/-- A translator whose queue has room takes the request as its last; the core's registers stay. -/
theorem sendRequest_queued {r : XlateReq} {k : Nat} (hk : translatorOf s (s.clusterOf vc) = some k) (hq : (s.cluster k).xlq.length < 16) :
    ((sendRequest s vc r).cluster k).xlq = (s.cluster k).xlq ++ [r] ∧ ((sendRequest s vc r).core vc).arch = (s.core vc).arch
      ∧ ((sendRequest s vc r).core vc).spec = (s.core vc).spec := by
  have hk' : translatorOf (queueEvent s vc 0x15) ((queueEvent s vc 0x15).clusterOf vc) = some k := hk
  have hq' : ((queueEvent s vc 0x15).cluster k).xlq.length < 16 := hq
  have hcore : ((queueEvent s vc 0x15).core vc).arch = (s.core vc).arch ∧ ((queueEvent s vc 0x15).core vc).spec = (s.core vc).spec := by
    simp [queueEvent]
  simp only [sendRequest, hk', hq', if_true]
  exact ⟨congrArg Cluster.xlq (State.cluster_setCluster_self ..), by simpa using hcore⟩

/-! ### The finished region (05 R129, R131) -/

theorem execRegionInstall_finishes {k : Nat} {r : XlateReq} (hon : coreOn s vc = true) (hk : translatorOf s (s.clusterOf vc) = some k)
    (he : (s.core vc).entry = true) (hr : (s.cluster k).ready.find? (fun r => r.vc == vc) = some r) :
    exec (.regionInstall vc) s = .next (finishRegion s vc k r) := by
  show execRegionInstall vc s = _
  simp only [execRegionInstall, hk, hon, if_true, hr, he, Bool.true_or]

theorem evictFor_subset (n : Nat) (l : List Region) : ∀ x ∈ evictFor n l, x ∈ l := by
  induction l with
  | nil => exact fun _ hx => hx
  | cons r t ih =>
    unfold evictFor
    split
    · exact fun _ hx => hx
    · exact fun x hx => List.mem_cons_of_mem _ (ih x hx)

/-- The region that is installed stands last, behind regions that stood there before. -/
theorem installRegion_regions (c : Core) (r : XlateReq) (g : Region) : (installRegion c r g).micro.regions.getLast? = some g
    ∧ ∀ x ∈ (installRegion c r g).micro.regions, x = g ∨ x ∈ c.micro.regions := by
  refine ⟨List.getLast?_concat .., fun x hx => ?_⟩
  obtain hx | hx := List.mem_append.1 hx
  · exact .inr (List.mem_of_mem_filter (evictFor_subset _ _ x hx))
  · exact .inl (List.mem_singleton.1 hx)

/-- Its hot entry is free again. -/
theorem installRegion_hot (c : Core) (r : XlateReq) (g : Region) :
    ∀ h ∈ (installRegion c r g).micro.hot, ¬ (h.pa = r.pa ∧ h.ctx = r.key.ctx ∧ h.fstyle = r.key.fstyle) := by
  intro h hh
  have hfree := (List.mem_filter.1 (List.mem_of_mem_filter hh)).2
  rintro ⟨hpa, hctx, hfs⟩
  simp [hpa, hctx, hfs] at hfree

/-- Where the translator has the region, the core installs it and the translator keeps it as its most recent. -/
theorem finishRegion_installs {k : Nat} {r : XlateReq} {g : Region} (hr : regionFor s k r = some (g, s1)) (hg : g.courses ≠ []) :
    (finishRegion s vc k r).core vc = installRegion (s1.core vc) r g
      ∧ ((finishRegion s vc k r).cluster k).ready = (s1.cluster k).ready.erase r
      ∧ ((finishRegion s vc k r).cluster k).recent.head? = some g := by
  have hne : g.courses.isEmpty = false := by simpa using hg
  simp only [finishRegion, hr, hne, Bool.false_eq_true, if_false]
  refine ⟨State.core_updCore_self .., ?_, ?_⟩
  · exact congrArg Cluster.ready (State.cluster_setCluster_self ..)
  · exact congrArg (fun d : Cluster => d.recent.head?) (State.cluster_setCluster_self ..)

end

/-- Settles O19: the request joins the queue that its translator has room in, the install is the region's own, and the pace counts by its kind. -/
theorem regionsAndPaces : Obligations.RegionsAndPaces := by
  refine ⟨⟨fun s vc h r s1 k hon hu hf hr hk hq => ?_, fun s vc k r g s1 hon hk he hr hg hne => ?_⟩,
    fun s vc n hon hw hrun hfrz hc ha hgr hch hsum => pmuCounterOverflow_effect hon hw (plainCounters_of hrun hfrz hgr hch) hc ha hsum⟩
  · exact ⟨_, execTranslationRequest_sends hon hu hf hr, sendRequest_queued hk hq⟩
  · obtain ⟨hcore, hready, hrecent⟩ := finishRegion_installs (vc := vc) hg hne
    obtain ⟨hlast, hold⟩ := installRegion_regions (s1.core vc) r g
    refine ⟨_, execRegionInstall_finishes hon hk he hr, ?_⟩
    rw [hcore]
    exact ⟨hlast, hold, installRegion_hot _ _ _, hready, hrecent, rfl⟩

end Sys2Proof.Machine
end

-- ==== Resets of a function while the Gatehouse restarts ====
section
/-! The end of a commanded function reset while the Gatehouse restarts: its reply is owed (13 R430), so the lane's command is not over. -/

namespace Sys2Proof.Machine

/-- The lane of a command that is answered while the Gatehouse restarts: the command stays, and the reply is owed (13 R430). -/
theorem finishCmd_lane_of_restart {s : State} {n : LaneNo} {p : Packet} (r : Packet) (store : Bool)
    (hp : (s.lane n).cur = some p) (hr : s.gate.restart = true) :
    (finishCmd s n r store).lane n = { s.lane n with begun := true, owed := some (r, store) } := by
  simp [finishCmd, hp, hr]

theorem reply_lane_of_restart {s : State} {n : LaneNo} {p : Packet} (status detail result payload : Nat)
    (hp : (s.lane n).cur = some p) (hr : s.gate.restart = true) :
    (reply s n status detail result payload).lane n
      = { s.lane n with begun := true, owed := some (mkReply status (pkTag p) detail result payload, true) } := by
  have hf : reply s n status detail result payload = finishCmd s n (mkReply status (pkTag p) detail result payload) true := by
    simp [reply, hp]
  rw [hf]
  exact finishCmd_lane_of_restart _ true hp hr

/-- While the Gatehouse restarts an answer changes no pavilion: it is only kept in its lane. -/
theorem reply_pavs_of_restart {s : State} {n : LaneNo} (status detail result payload : Nat) (hr : s.gate.restart = true) :
    (reply s n status detail result payload).pavs = s.pavs := by
  cases hp : (s.lane n).cur with
  | none => simp [reply, hp]
  | some p => simp [reply, finishCmd, hp, hr]

/-- A pavilion that no reset waits for has none to end. -/
theorem tryPav_of_noPavWait {s : State} (h : noPavWait s) (pn : Pav) : tryPav s pn = s := by
  simp [tryPav, (h.pav pn).1]

/-- A commanded function reset that ends while the Gatehouse restarts leaves its lane's command standing, with the reply DONE owed to it. -/
theorem execFlrComplete_lane_of_restart {s : State} {port : Bool} {link : BitVec 2} {fn tag : BitVec 16} {n : LaneNo} {p : Packet}
    (hw : noPavWait s) (hr : s.gate.restart = true)
    (hf : (s.pfn port link.toNat fn.toNat).flr = some (some n, tag)) (hp : (s.lane n).cur = some p) :
    ∃ t, exec (.flrComplete port link fn) s = .next t
      ∧ t.lane n = { s.lane n with begun := true, owed := some (mkReply 0 (pkTag p) 0 s.qz.time 0, true) } := by
  let u := s.setPfn port link.toNat fn.toNat { s.pfn port link.toNat fn.toNat with flr := none, owner := noClass }
  have hpu : (u.lane n).cur = some p := hp
  have hru : u.gate.restart = true := hr
  have hwu : noPavWait (replyDone u n 0 s.qz.time 0) := by
    unfold noPavWait replyDone
    rw [reply_pavs_of_restart 0 0 s.qz.time 0 hru]
    exact hw
  refine ⟨replyDone u n 0 s.qz.time 0, ?_, reply_lane_of_restart 0 0 s.qz.time 0 hpu hru⟩
  simp only [exec, execFlrComplete, hf]
  exact congrArg Host.Outcome.next (tryPav_of_noPavWait hwu _)

/-- Function 0 of a link is under the reset of a PCIE_VF_ASSIGN with tag 7 that lane 0 presents, while the Gatehouse restarts. -/
def resetInRestart : State :=
  { State.reset with
    ports := [(0, { fns := [(0, { owner := 1, flr := some (some 0, 7) })] })]
    gate := { State.reset.gate with restart := true, lanes := [(0, { cur := some 0x70B02 })] } }

theorem noPavWait_resetInRestart : noPavWait resetInRestart := by
  simp [noPavWait, resetInRestart, State.reset]

/-- Refutes O48 at FLR_COMPLETE (10 R331): its last clause has the reply DONE in the mailbox at once and does not ask that the Gatehouse runs.
While the Gatehouse restarts the reply is owed and the command stays in its lane (13 R430). -/
theorem not_pcieRequestsAndLinks : ¬ Obligations.PcieRequestsAndLinks := by
  unfold Obligations.PcieRequestsAndLinks
  rintro ⟨-, -, -, hflr, -⟩
  obtain ⟨t, ht, -, hcur, -⟩ :=
    (hflr resetInRestart false 0 0 7 noPavWait_resetInRestart).2 0 0x70B02 (by decide +kernel) ⟨by decide +kernel, by decide +kernel⟩ (by decide +kernel)
  obtain ⟨u, hu, howed⟩ := execFlrComplete_lane_of_restart (port := false) (link := 0) (fn := 0) (tag := 7) (n := 0) (p := 0x70B02)
    noPavWait_resetInRestart (by decide +kernel) (by decide +kernel) (by decide +kernel)
  obtain rfl : t = u := Host.Outcome.next.inj (ht.symm.trans hu)
  have hstands : (t.lane 0).cur = some 0x70B02 := howed ▸ (by decide +kernel)
  exact absurd (hcur.symm.trans hstands) (by simp)

end Sys2Proof.Machine
end

-- ==== Folly instructions ====
section
/-! FOLLY (O20): the commit point that closes a sequence, the run of a loaded index, and the words that are illegal. -/

namespace Sys2Proof.Machine

/-! ### The closing commit point (06 R167, R184, R185) -/

/-- A wait on the store buffer that is counted leaves the instruments as they were. -/
theorem waited_off {s : State} {vc : Vc} (h : InstrumentsOff s vc) : InstrumentsOff (waited s vc).2 vc := by
  unfold waited
  split
  · exact h.of_core (by rw [State.core_updCore_self]) (by rw [State.core_updCore_self])
  · exact h

/-- The state of a FOLLY word with its courses and its wait on the store buffer counted, before it retires. -/
def flyCounted (c : FWord) (r : FRun) : State :=
  (waited (r.s.updCore c.vc (fun d => { d with
    retire := [], evq := d.evq ++ List.replicate (r.courses - 1 + r.undone) (0x02#8, c.arch.level)
    wasted := d.wasted ++ List.replicate r.undone c.arch.level })) c.vc).2

/-- The state in which a FOLLY word has executed as one instruction, with the events `evs`, and waits for its commit. -/
def flyExecuted (c : FWord) (r : FRun) (evs : List (BitVec 8)) : State :=
  (executed (flyCounted c r) c.vc (flyArch c r) evs false false none none).updCore c.vc
    (fun d => { d with retire := d.retire.map (flyRetire r) })

/-- A sequence closes with the commit of its one instruction; after a store to code fetch waits. -/
theorem flyFinish_eq (c : FWord) (r : FRun) :
    ∃ evs, let s := traceCtx (commitCore (flyExecuted c r evs) c.vc) c.vc ((flyCounted c r).core c.vc).arch (flyArch c r)
      flyFinish c r = if r.code then s.updCore c.vc awaitCode else s := ⟨_, rfl⟩

theorem flyExecuted_spec (c : FWord) (r : FRun) (evs : List (BitVec 8)) : ((flyExecuted c r evs).core c.vc).spec = flyArch c r := by
  rw [flyExecuted, State.core_updCore_self]
  exact (executed_executes ..).regs

theorem flyExecuted_off {c : FWord} {r : FRun} (h : InstrumentsOff r.s c.vc) (evs : List (BitVec 8)) : InstrumentsOff (flyExecuted c r evs) c.vc := by
  have hcounted : InstrumentsOff (flyCounted c r) c.vc :=
    waited_off (h.of_core (by rw [State.core_updCore_self]) (by rw [State.core_updCore_self]))
  exact hcounted.of_core (by simp [flyExecuted, executed, coreAfter]) (by simp [flyExecuted, executed, coreAfter])

/-- At the closing commit point the registers of the sequence are architectural. -/
theorem flyFinish_settled {c : FWord} {r : FRun} (ho : InstrumentsOff r.s c.vc) : Settled (flyFinish c r) c.vc (flyArch c r) := by
  obtain ⟨evs, hfinish⟩ := flyFinish_eq c r
  have hoff := flyExecuted_off ho evs
  have hcommit : Settled (commitCore (flyExecuted c r evs) c.vc) c.vc (flyArch c r) :=
    flyExecuted_spec c r evs ▸ commitCore_settled hoff
  rw [hfinish, traceCtx_off (commitCore_off hoff)]
  split
  · rwa [Settled, State.core_updCore_self]
  · exact hcommit

/-! ### The row of FOLLY (06 R173, R180, R192) -/

/-- The mark of a region's entry leaves both copies of the registers. -/
theorem Settled.noted {t : State} {vc : Vc} {a : Arch} (h : Settled t vc a) (en : Bool) (n : Nat) :
    Settled (if en then noteEntry t vc n else t) vc a := by
  cases en
  · exact h
  · obtain ⟨-, haside, hspec⟩ := noteEntry_frame t vc n
    have harch : ((noteEntry t vc n).core vc).arch = (t.core vc).arch := (congrArg Core.arch haside : (aside _).arch = (aside _).arch)
    exact ⟨harch.trans h.1, hspec.trans h.2⟩

/-- A FOLLY word as it starts at the commit point before it, from the state `s` with that point behind it. -/
def flyWord (s : State) (vc : Vc) (rd ra rb : Reg) (imm : BitVec 7) : FWord :=
  let t := s.free.2
  { base := t, vc := vc, rd := rd, ra := ra, rb := rb, imm7 := imm, fs := t.fStyleOf (t.regs vc), arch := t.regs vc, fills := s.free.1.getLsbD 0 }

/-- A sequence whose courses all execute ends in its closing commit point. -/
theorem flyRun_ok {s : State} {vc : Vc} (w : W32) {rd ra rb : Reg} {imm : BitVec 7} {img : List Byte} {r : FRun}
    (h : flyCourses (flyWord s vc rd ra rb imm) (coursesOf img) 0 { s := flyMark s.free.2 vc, a := s.free.2.regs vc } = .ok r) :
    flyRun s vc w rd ra rb imm img = some (flyFinish (flyWord s vc rd ra rb imm) (flyDrain (flyWord s vc rd ra rb imm) 192 r)) := by
  unfold flyRun
  simp only [flyWord] at h ⊢
  rw [h]

section
variable {s : State} {vc : Vc} {w : W32} {i : BitVec 4} {rd ra rb : Reg} {imm : BitVec 7}

/-- An index that the level may execute runs its image once everything older has committed. -/
theorem follyRun_allowed {e : FollyEntry} (hallow : follyAllowed s (s.regs vc) i.toNat = true) (he : mget? s.gate.folly i.toNat = some e)
    (hc : canCommit (s.core vc) = true) (hm : (commitCore s vc).mode = .service) :
    follyRun vc w .clean (.folly i rd ra rb imm) s = flyRun (commitCore s vc) vc w rd ra rb imm e.image := by
  have hd : drained s vc = some (commitCore s vc) := if_pos hc
  simp [follyRun, hallow, he, hd, flyCheck, hm]

/-- An index that the level may not execute is an illegal instruction. -/
theorem follyRun_denied (h : follyAllowed s (s.regs vc) i.toNat = false) (err : Chk) :
    follyRun vc w err (.folly i rd ra rb imm) s = raise s vc (excIllegal (s.regs vc) w) := by
  simp [follyRun, h]

/-- An index is refused that holds no microcode, or none that the level may execute. -/
theorem follyAllowed_eq_false {a : Arch} {k : Nat} (h : mget? s.gate.folly k = none
    ∨ ∃ e, mget? s.gate.folly k = some e ∧ (if a.level = .h then e.hyp else e.grant.getLsbD a.tr.vmid.toNat) = false) :
    follyAllowed s a k = false := by
  obtain hnone | ⟨e, he, hgrant⟩ := h
  · simp [follyAllowed, hnone]
  · simpa only [follyAllowed, he] using hgrant

end

/-- Settles O20: an allowed index runs to its closing commit point, whose registers are the sequence's; a refused one raises class 0x01. -/
theorem follyRunsOrIsIllegal : Obligations.FollyRunsOrIsIllegal := by
  refine ⟨?_, ?_⟩
  · intro s vc w s1 en i rd ra rb imm e r a s2 s3 c r2 h hc ho hallow he hmode hcourses hoff _
    have hregs : s3.regs vc = a := (commitCore_settled ho).2
    have hword : flyWord s2 vc rd ra rb imm = c := by
      show FWord.mk s3 vc rd ra rb imm (s3.fStyleOf (s3.regs vc)) (s3.regs vc) _ = _
      rw [hregs]
    have hrun : follyRun vc w .clean (.folly i rd ra rb imm) s1 = some (flyFinish c r2) := by
      rw [follyRun_allowed hallow he hc hmode, flyRun_ok w (by rw [hword, hregs]; exact hcourses), hword]
    exact ⟨_, congrArg Host.Outcome.next (instrRow_ready h rfl hrun), (flyFinish_settled hoff).noted en _⟩
  · intro s vc w s1 en i rd ra rb imm a l h hs hi hnone
    have hrun : follyRun vc w .clean (.folly i rd ra rb imm) s1 = raise s1 vc (excIllegal a w) := follyRun_denied (follyAllowed_eq_false hnone) .clean
    obtain ⟨b, hb, ht⟩ := (instrRow_raises (mine := isFolly) h rfl hrun hs.off hs.step hs.complete hi).taken
    exact ⟨_, b, rfl, hb, ht⟩

end Sys2Proof.Machine
end

-- ==== Entries of the translation tables ====
section
/-! ENTRIES (O60): the reserved bits of a table entry and of a leaf, the order of the checks of both stages, the combined memory type. -/

namespace Sys2Proof.Machine

/-! ### Reserved bits (07 R200, R201) -/

/-- The mask of the `n` bits of an entry from bit `i` up. -/
def fieldMask (i n : Nat) : W64 := (BitVec.allOnes n).setWidth 64 <<< i

/-- No bit under the mask of a field is set exactly when the field is zero. -/
theorem and_fieldMask_eq_zero (e : W64) {i n : Nat} (h : i + n ≤ 64) : e &&& fieldMask i n = 0 ↔ e.extractLsb' i n = 0 := by
  simp only [BitVec.ofNat_eq_ofNat, BitVec.zero_iff_eq_false, fieldMask, BitVec.getLsbD_and, BitVec.getLsbD_shiftLeft, BitVec.getLsbD_setWidth,
    BitVec.getLsbD_allOnes, BitVec.getLsbD_extractLsb']
  constructor
  · intro hmask j
    by_cases hj : j < n
    · have hbit := hmask (i + j)
      simpa [hj, show i + j < 64 by omega, show j < 64 by omega] using hbit
    · simp [hj]
  · intro hfield k
    by_cases hk : i ≤ k ∧ k - i < n
    · have hbit := hfield (k - i)
      simp_all [show i + (k - i) = k by omega]
    · by_cases hik : i ≤ k <;> simp_all

/-- The mask of one bit finds nothing set exactly when the entry has that bit clear. -/
theorem and_twoPow_eq_zero (e : W64) {i : Nat} (h : i < 64) : e &&& BitVec.twoPow 64 i = 0 ↔ e.getLsbD i = false := by
  have hne : BitVec.twoPow 64 i ≠ 0#64 := fun hz => by simpa [h] using congrArg (BitVec.getLsbD · i) hz
  cases hbit : e.getLsbD i <;> simp [BitVec.and_twoPow, hbit, hne]

/-- The reserved bits of a table entry: [11:2], [54:48] and [63:59]. -/
theorem reservedMask_table (stage2 : Bool) {lvl : Nat} (h : lvl < 3) :
    reservedMask stage2 lvl = fieldMask 2 10 ||| (fieldMask 48 7 ||| fieldMask 59 5) := by
  simp only [reservedMask, if_pos h]
  decide

/-- The reserved bits of a leaf of stage 1: 1, 11, [54:48] and [63:59]. -/
theorem reservedMask_leaf1 : reservedMask false 3 = BitVec.twoPow 64 1 ||| (BitVec.twoPow 64 11 ||| (fieldMask 48 7 ||| fieldMask 59 5)) := by
  decide

/-- The reserved bits of a leaf of stage 2: those of stage 1, and [8:5]. -/
theorem reservedMask_leaf2 : reservedMask true 3
    = BitVec.twoPow 64 1 ||| (BitVec.twoPow 64 11 ||| (fieldMask 5 4 ||| (fieldMask 48 7 ||| fieldMask 59 5))) := by
  decide

/-- A table entry faults as reserved where T is 0 or one of its reserved bits is set. -/
theorem entryReserved_table (e : W64) (stage2 : Bool) {lvl : Nat} (h : lvl < 3) : entryReserved e stage2 lvl = true ↔
    e.getLsbD 1 = false ∨ e.extractLsb' 2 10 ≠ 0 ∨ e.extractLsb' 48 7 ≠ 0 ∨ e.extractLsb' 59 5 ≠ 0 := by
  have hclear : e &&& reservedMask stage2 lvl = 0 ↔ e.extractLsb' 2 10 = 0 ∧ e.extractLsb' 48 7 = 0 ∧ e.extractLsb' 59 5 = 0 := by
    rw [reservedMask_table stage2 h, BitVec.and_or_distrib_left, BitVec.and_or_distrib_left]
    simp only [BitVec.ofNat_eq_ofNat, BitVec.or_eq_zero_iff]
    exact and_congr (and_fieldMask_eq_zero e (by decide)) (and_congr (and_fieldMask_eq_zero e (by decide)) (and_fieldMask_eq_zero e (by decide)))
  have hnot3 : lvl ≠ 3 := by omega
  simp only [entryReserved, h, hnot3, Bool.or_eq_true, bne_iff_ne, ne_eq, hclear]
  grind

/-- The reserved bits of a leaf are clear when bits 1 and 11 and every field that its stage reserves are. -/
theorem and_reservedMask_leaf_eq_zero (e : W64) (stage2 : Bool) : e &&& reservedMask stage2 3 = 0 ↔
    e.getLsbD 1 = false ∧ e.getLsbD 11 = false ∧ (stage2 = true → e.extractLsb' 5 4 = 0) ∧ e.extractLsb' 48 7 = 0 ∧ e.extractLsb' 59 5 = 0 := by
  have hbit1 := and_twoPow_eq_zero e (i := 1) (by decide)
  have hbit11 := and_twoPow_eq_zero e (i := 11) (by decide)
  have hmid := and_fieldMask_eq_zero e (i := 5) (n := 4) (by decide)
  have hupper := and_fieldMask_eq_zero e (i := 48) (n := 7) (by decide)
  have htop := and_fieldMask_eq_zero e (i := 59) (n := 5) (by decide)
  simp only [BitVec.ofNat_eq_ofNat] at *
  cases stage2 with
  | false => simp [reservedMask_leaf1, BitVec.and_or_distrib_left, BitVec.or_eq_zero_iff, *]
  | true => simp [reservedMask_leaf2, BitVec.and_or_distrib_left, BitVec.or_eq_zero_iff, *]

/-- A leaf faults as reserved where one of its reserved bits is set, where MT is 0b11, or where W is 1 with R = 0. -/
theorem entryReserved_leaf (e : W64) (stage2 : Bool) : entryReserved e stage2 3 = true ↔
    e.getLsbD 1 = true ∨ e.getLsbD 11 = true ∨ (stage2 = true ∧ e.extractLsb' 5 4 ≠ 0) ∨ e.extractLsb' 48 7 ≠ 0 ∨ e.extractLsb' 59 5 ≠ 0
      ∨ e.extractLsb' 9 2 = 3 ∨ (e.getLsbD 3 = true ∧ e.getLsbD 2 = false) := by
  simp only [entryReserved, Bool.or_eq_true, bne_iff_ne, ne_eq, and_reservedMask_leaf_eq_zero]
  grind

/-! ### The checks of stage 1 and of stage 2 (07 R207, R208) -/

/-- The rights check as R207 writes it: each access needs its own right, and RMW needs R and W. -/
theorem rightsDenied_iff (r w x : Bool) (acc : Acc) : rightsDenied r w x acc = true ↔
    (acc = .read ∧ r = false) ∨ (acc = .write ∧ w = false) ∨ (acc = .exec ∧ x = false) ∨ (acc = .rmw ∧ (r = false ∨ w = false)) := by
  cases acc <;> simp [rightsDenied]

/-- The level check of stage 1 denies the access: U = 0 at U; U = 1 at S or H on a fetch or under SGU. -/
abbrev LevelDenied (e : TlbEntry) (l : Level) (sgu : Bool) (acc : Acc) : Prop :=
  (l = .u ∧ e.u = false) ∨ (l ≠ .u ∧ e.u = true ∧ (acc = .exec ∨ sgu = true))

/-- A fault of a check of stage 1. -/
def s1Fault (t : FType) (k : BitVec 2) : Option WFault := some { stage2 := false, level := 3, type := t, pkind := k }

/-- Where stage 1 checks, its first check that denies the access gives the fault: level, rights, memory type, access flag, dirty. -/
theorem checkS1_on {e : TlbEntry} (hon : e.s1on = true) (l : Level) (sgu : Bool) (acc : Acc) : checkS1 e l sgu acc =
    if LevelDenied e l sgu acc then s1Fault .permission 1
    else if rightsDenied e.r1 e.w1 e.x1 acc = true then s1Fault .permission 0
    else if acc = .exec ∧ e.mt1 = .device then s1Fault .permission 3
    else if e.a = false then s1Fault .access 0
    else if (acc = .write ∨ acc = .rmw) ∧ e.d = false then s1Fault .permission 2
    else none := by
  have hlevel : ∀ y : Option WFault,
      (if (l == .u && !e.u) = true then s1Fault .permission 1
        else if (l != .u && e.u && (acc == .exec || sgu)) = true then s1Fault .permission 1 else y)
      = if LevelDenied e l sgu acc then s1Fault .permission 1 else y := by
    intro y
    by_cases hu : l = .u <;> simp [LevelDenied, hu]
  rw [← hlevel]
  simp [checkS1, hon, s1Fault]

/-- Stage 2 grants the access exactly where neither the rights nor the memory type deny it. -/
theorem checkS2_eq_none_iff (e : TlbEntry) (acc : Acc) (ipa : Nat) : checkS2 e acc ipa = none ↔
    ¬ rightsDenied e.r2 e.w2 e.x2 acc = true ∧ ¬ (acc = .exec ∧ e.mt = .device) := by
  simp only [checkS2, Bool.and_eq_true, beq_iff_eq]
  split_ifs <;> simp_all

/-! ### The combined memory type (07 R210) -/

/-- How restrictive a memory type is: NORMAL least, DEVICE most. -/
def mtRank : MemType → Nat
  | .normal => 0 | .normalNc => 1 | .device => 2

/-- Types of one rank are one type. -/
theorem mtRank_injective : Function.Injective mtRank := by
  intro a b
  cases a <;> cases b <;> decide

/-- The combined type is the more restrictive of the two. -/
theorem mtRank_combineMt (a b : MemType) : mtRank (combineMt a b) = max (mtRank a) (mtRank b) := by
  cases a <;> cases b <;> rfl

/-- The order of the stages does not matter to the combined type. -/
theorem combineMt_comm (a b : MemType) : combineMt a b = combineMt b a :=
  mtRank_injective (by simp only [mtRank_combineMt, Nat.max_comm])

/-- A type at least as restrictive as the other is the combined type. -/
theorem combineMt_eq_left {a b : MemType} (h : mtRank b ≤ mtRank a) : combineMt a b = a :=
  mtRank_injective (by rw [mtRank_combineMt, Nat.max_eq_left h])

/-- DEVICE is the most restrictive type. -/
theorem mtRank_le_device (b : MemType) : mtRank b ≤ mtRank .device := by cases b <;> decide

/-- Settles O60: the reserved bits level by level, the first check of stage 1 that denies, the two checks of stage 2, and the rank of the types. -/
theorem entryChecks : Obligations.EntryChecks := by
  refine ⟨fun e stage2 => ⟨fun lvl h => entryReserved_table e stage2 h, entryReserved_leaf e stage2⟩, ?_, ?_, ?_⟩
  · intro e l sgu acc hon fault denied level device dirty
    have hdenied : denied ↔ rightsDenied e.r1 e.w1 e.x1 acc = true := by
      cases acc <;> simp [denied, rightsDenied_iff]
    rw [hdenied, checkS1_on hon]
    refine ⟨fun hl => if_pos hl, fun hl hr => ?_, fun hl hr hm => ?_, fun hl hr hm ha => ?_, fun hl hr hm ha hd => ?_, fun hl hr hm ha hd => ?_⟩
    · rw [if_neg hl, if_pos hr]; rfl
    · rw [if_neg hl, if_neg hr, if_pos hm]; rfl
    · rw [if_neg hl, if_neg hr, if_neg hm, if_pos ha]; rfl
    · rw [if_neg hl, if_neg hr, if_neg hm, if_neg (by simp [ha]), if_pos hd]; rfl
    · rw [if_neg hl, if_neg hr, if_neg hm, if_neg (by simp [ha]), if_neg hd]
  · intro e acc ipa denied
    have hdenied : denied ↔ rightsDenied e.r2 e.w2 e.x2 acc = true := by
      cases acc <;> simp [denied, rightsDenied_iff]
    rw [hdenied]
    exact checkS2_eq_none_iff e acc ipa
  · intro a b
    exact ⟨combineMt_comm a b, combineMt_eq_left (mtRank_le_device b),
      (combineMt_comm .normal b).trans (combineMt_eq_left (Nat.zero_le _)), combineMt_eq_left le_rfl⟩

end Sys2Proof.Machine
end

-- ==== Budgets and ranges ====
section
/-! QOS_MEM_SET to QOS_IRQ_RATE_SET, MEM_ASSIGN and MEM_RELEASE (O25): a configuration command that passes its checks outside a slate commits within its step, and its reply changes nothing but the Gatehouse and the board manager's transports. -/

namespace Sys2Proof.Machine

/-- A configuration command that passes every check outside a slate commits at once (13 R425). -/
theorem configRow_of_accepts {s : State} {n : LaneNo} {c : Cfg} {p : Packet} (h : Accepts s n c p) :
    configRow s n c = commitSingle s n c p := by
  simp [configRow, h.passes.shown, h.passes.early, h.passes.alone, h.rows, h.unslated, h.staged, h.state]

/-- One that fails its state checks is refused with the status of the first (13 R415 check 8). -/
theorem configRow_of_check {s : State} {n : LaneNo} {c : Cfg} {p : Packet} {r : Nat × Nat} (h : Passes s n c.spec p (c.packet s p))
    (hrows : readWaits s (c.reads p).1 (c.reads p).2 = false) (hslate : pkSlate p = 0) (hstaged : c.staging s p = none) (hr : c.check s p = some r) :
    configRow s n c = refuse s n r := by
  simp [configRow, h.shown, h.early, h.alone, hrows, hslate, hstaged, hr]

/-- What a lane presents is its current command, and the Gatehouse serves the lane. -/
theorem presented_some {s : State} {n : LaneNo} {op : Nat} {p : Packet} (h : presented s n op = some p) :
    (s.lane n).cur = some p ∧ laneServed s n = true := by
  unfold presented at h
  cases hc : (s.lane n).cur with
  | none => simp [hc] at h
  | some q =>
    simp only [hc, Option.ite_none_right_eq_some, Bool.and_eq_true, Option.some.injEq] at h
    obtain ⟨⟨⟨hs, -⟩, -⟩, rfl⟩ := h
    exact ⟨rfl, hs⟩

/-- While the Gatehouse restarts it serves no lane (13 R430). -/
theorem restart_of_laneServed {s : State} {n : LaneNo} (h : laneServed s n = true) : s.gate.restart = false := by
  simp only [laneServed, Bool.and_eq_true, Bool.not_eq_true'] at h
  obtain ⟨⟨⟨⟨-, hr⟩, -⟩, -⟩, -⟩ := h
  exact hr

/-- A lane whose command `p` is over with the reply `r` in its mailbox (13 R410, R414, R429). -/
def mailAnswered (l : Lane) (p r : Packet) : Lane :=
  { l with cur := none, begun := false, recent := ((p, r) :: l.recent).take 64, mbRpl := r, busy := false, ready := true }

section
variable {s : State} {n : LaneNo} {p : Packet} (hm : ByMailbox s n) (hr : s.gate.restart = false) (hp : (s.lane n).cur = some p)
  (status detail result payload : Nat)
include hm hr hp

/-- The reply of a command that came by mailbox and posts no completion. -/
theorem reply_byMailbox :
    let u := s.setLane n (mailAnswered (s.lane n) p (mkReply status (pkTag p) detail result payload))
    reply s n status detail result payload = if n = 0 then signalBoard u else u := by
  simp only [reply, finishCmd, mailAnswered, hp, hm.mailbox, hm.quiet, hr, Bool.false_eq_true, if_true, if_false, Bool.not_false, Bool.true_and, beq_iff_eq]

theorem reply_onlyGate : OnlyGate s (reply s n status detail result payload) := by
  rw [reply_byMailbox hm hr hp]
  split <;> rfl

theorem reply_ranges : (reply s n status detail result payload).gate.ranges = s.gate.ranges := by
  rw [reply_byMailbox hm hr hp]
  split <;> rfl

theorem reply_repliedBy : RepliedBy (reply s n status detail result payload) n p status detail result payload := by
  let l := mailAnswered (s.lane n) p (mkReply status (pkTag p) detail result payload)
  have hl : (reply s n status detail result payload).lane n = l := by
    rw [reply_byMailbox hm hr hp]
    split <;> exact State.lane_setLane_self ..
  rw [RepliedBy, hl]
  exact ⟨rfl, rfl, rfl, rfl, rfl⟩

end

/-- A commit of one command whose effect is `u` leaves `u`, but for the Gatehouse and the transports. -/
theorem commitSingle_effect {s : State} {n : LaneNo} {c : Cfg} {p : Packet} (hm : ByMailbox s n) (ha : Accepts s n c p) {u : State}
    (hu : c.apply (s.reach (s.qz.time + 5000)) p (c.image s p) = u) (hl : u.gate.lanes = s.gate.lanes) (hg : u.gate.restart = s.gate.restart) :
    let t := commitSingle s n c p
    t.qos = u.qos ∧ t.dram = u.dram ∧ t.gate.ranges = u.gate.ranges := by
  obtain ⟨hcur, hserved⟩ := presented_some ha.passes.shown
  let v := markChanged u (c.objs s p)
  have hlane : v.lane n = s.lane n := congrArg (fun m : SMap Lane => mget m n.toNat {}) hl
  have hv : ByMailbox v n := ⟨hlane ▸ hm.mailbox, hlane ▸ hm.quiet⟩
  have hr : v.gate.restart = false := hg.trans (restart_of_laneServed hserved)
  have ht : commitSingle s n c p = reply v n 0 0 (s.reach (s.qz.time + 5000)).qz.time 0 := by subst hu; rfl
  have hgate : commitSingle s n c p = { v with gate := (commitSingle s n c p).gate, mgmt := (commitSingle s n c p).mgmt } :=
    ht ▸ reply_onlyGate hv hr (hlane ▸ hcur) ..
  have hranges : (commitSingle s n c p).gate.ranges = v.gate.ranges := ht ▸ reply_ranges hv hr (hlane ▸ hcur) ..
  exact ⟨(congrArg State.qos hgate).trans rfl, (congrArg State.dram hgate).trans rfl, hranges⟩

/-- The budgets that a QOS command leaves: those of its class are set, and those of every other class stay. -/
theorem commitSingle_setQos {s : State} {n : LaneNo} {c : Cfg} {p : Packet} {f : Qos → Qos} (hm : ByMailbox s n) (ha : Accepts s n c p)
    (hc : ∀ (u : State) (i : List Byte), c.apply u p i = u.setQos (pkClass p) (f (u.qosOf (pkClass p)))) :
    (∀ d, d ≠ pkClass p → (commitSingle s n c p).qosOf d = s.qosOf d)
      ∧ (commitSingle s n c p).qosOf (pkClass p) = f (s.qosOf (pkClass p)) := by
  obtain ⟨hq, -, -⟩ := commitSingle_effect hm ha (hc ..) rfl rfl
  have hof (d : ClassId) : (commitSingle s n c p).qosOf d = (s.setQos (pkClass p) (f (s.qosOf (pkClass p)))).qosOf d :=
    congrArg (fun m : SMap Qos => mget m d.toNat {}) hq
  exact ⟨fun d hd => (hof d).trans (State.qosOf_setQos_ne _ _ _ _ hd), (hof _).trans (State.qosOf_setQos_self ..)⟩

/-- A range that overlaps a recorded one is busy (13 R422). -/
theorem rangeBusy_of_overlap {s : State} {base len : Nat} (h : ∃ q ∈ s.gate.ranges, base < q.base + q.len ∧ q.base < base + len) :
    rangeBusy s base len = true := by
  obtain ⟨q, hq, ho⟩ := h
  have hany : s.gate.ranges.any (fun r => overlaps base len r.base r.len) = true := List.any_eq_true.2 ⟨q, hq, decide_eq_true ho⟩
  simp [rangeBusy, hany]

/-- Settles O25: the four QOS commands by the budgets that they set, MEM_ASSIGN and MEM_RELEASE by their effects, the overlap by the check of the ranges. -/
theorem budgetsAndRanges : Obligations.BudgetsAndRanges := by
  refine ⟨?_, ?_⟩
  · intro s n p hm c only
    have row {e : Instr} {cfg : Cfg} {f : Qos → Qos} (hx : exec e s = .next (configRow s n cfg)) (ha : Accepts s n cfg p)
        (hf : ∀ (u : State) (i : List Byte), cfg.apply u p i = u.setQos (pkClass p) (f (u.qosOf (pkClass p)))) :
        ∃ t, exec e s = .next t ∧ only t ∧ t.qosOf c = f (s.qosOf c) :=
      ⟨_, by rw [hx, configRow_of_accepts ha], commitSingle_setQos hm ha hf⟩
    refine ⟨fun ha => ?_, fun ha => ?_, fun ha => ?_, fun ha => ?_⟩
    · exact row (f := fun q => { q with mem := pkGet p 16 2, cap := decide (pkGet p 18 1 = 1) }) rfl ha fun _ _ => rfl
    · exact row (f := fun q => { q with ways := BitVec.ofNat 16 (pkGet p 16 2) }) rfl ha fun _ _ => rfl
    · exact row (f := fun q => { q with arb := pkGet p 16 2, prio := BitVec.ofNat 2 (pkGet p 18 1) }) rfl ha fun _ _ => rfl
    · exact row (f := fun q => { q with rate := pkGet p 16 2 }) rfl ha fun _ _ => rfl
  · intro s n p hm r
    refine ⟨fun ha => ?_, fun ha => ?_, fun hp hslate hdram ho => ?_⟩
    · obtain ⟨-, hdram, hranges⟩ := commitSingle_effect hm ha rfl rfl rfl
      exact ⟨_, congrArg Host.Outcome.next (configRow_of_accepts ha), hranges, (congrArg Dram.assigned hdram).trans rfl, (congrArg Dram.cells hdram).trans rfl⟩
    · obtain ⟨-, hdram, hranges⟩ := commitSingle_effect hm ha rfl rfl rfl
      exact ⟨_, congrArg Host.Outcome.next (configRow_of_accepts ha), hranges, hdram⟩
    · have hcheck : cfgMemAssign.check s p = some (stBusy, 0) := by
        have hbusy : rangeBusy s (maBase p) (maLen p) = true := rangeBusy_of_overlap ho
        have hholds : dramHolds s (maBase p) (maLen p) = true := hdram
        simp [cfgMemAssign, firstFail, hholds, hbusy]
      have hrows : readWaits s 0 0 = false := by simp [readWaits, filled]
      obtain ⟨hcur, hserved⟩ := presented_some hp.shown
      exact ⟨_, congrArg Host.Outcome.next (configRow_of_check hp hrows hslate rfl hcheck),
        reply_repliedBy hm (restart_of_laneServed hserved) hcur .., reply_ranges hm (restart_of_laneServed hserved) hcur ..⟩

end Sys2Proof.Machine
end

-- ==== Records of faults ====
section
/-! What recording a fault changes: the log, the unit's status, the notices of its core, and the free values taken (15 R472, R479, R481). -/

namespace Sys2Proof.Machine

/-- From `s` to `t` faults have been recorded, and nothing else has changed. -/
def Recorded (s t : State) : Prop :=
  ∃ c l n us f, t = { s with cores := c, gate := { s.gate with log := l, nextSeq := n }, dev := { s.dev with units := us }, fresh := f }

theorem Recorded.refl (s : State) : Recorded s s := ⟨_, _, _, _, _, rfl⟩

theorem Recorded.trans {s t u : State} (h : Recorded s t) (k : Recorded t u) : Recorded s u := by
  obtain ⟨_, _, _, _, _, rfl⟩ := h
  obtain ⟨_, _, _, _, _, rfl⟩ := k
  exact ⟨_, _, _, _, _, rfl⟩

theorem logEvent_recorded (s : State) (e : LogIn) : Recorded s (logEvent s e) := by
  have hopen : Recorded s (logOpen s e).2.2 := by
    cases hd : e.detail <;> by_cases hm : e.stallMax = 0 <;> simp only [logOpen, hd, hm, if_true, if_false] <;> exact ⟨_, _, _, _, _, rfl⟩
  unfold logEvent
  split
  · exact ⟨_, _, _, _, _, rfl⟩
  · exact hopen.trans ⟨_, _, _, _, _, rfl⟩

theorem pendNotice_recorded (s : State) (vc : Vc) (hyp : Bool) (n : Notice) (fresh : Bool) : Recorded s (pendNotice s vc hyp n fresh) := by
  unfold pendNotice
  dsimp only
  split
  · split <;> exact ⟨_, _, _, _, _, rfl⟩
  · exact ⟨_, _, _, _, _, rfl⟩

theorem notify_recorded (s : State) (cls : BitVec 8) (seq : BitVec 64) (vc : Option Vc) : Recorded s (notify s cls seq vc) := by
  have pend (u : State) (v : Vc) (hyp : Bool) (b : Prop) [Decidable b] :
      Recorded u (if b then pendNotice u v hyp { cls := cls, seq := seq } true else u) := by
    split
    · exact pendNotice_recorded ..
    · exact .refl u
  cases vc with
  | none => exact pend ..
  | some v => exact (pend s v true _).trans (pend _ v false _)

theorem recordFault_recorded (s : State) (e : LogIn) (vc : Option Vc) : Recorded s (recordFault s e vc) :=
  Recorded.trans ⟨_, _, _, _, _, rfl⟩ ((logEvent_recorded ..).trans (notify_recorded ..))

section
variable {s t : State} (h : Recorded s t)
include h

theorem Recorded.fab : t.fab = s.fab := by
  obtain ⟨_, _, _, _, _, rfl⟩ := h
  rfl

theorem Recorded.mode : t.mode = s.mode := by
  obtain ⟨_, _, _, _, _, rfl⟩ := h
  rfl

end

/-- A change of a record that a merge or a notice makes: its COUNT and its FLAGS. -/
def KeepsRecord (f : LogRec → LogRec) : Prop := ∀ r, (f r).cls = r.cls ∧ (f r).action = r.action ∧ (f r).ukind = r.ukind ∧ (f r).uindex = r.uindex

theorem Logged.map {s t : State} {cls action ukind : BitVec 8} {i : Nat} {f : LogRec → LogRec} (h : Logged s cls action ukind i)
    (hf : KeepsRecord f) (ht : t.gate.log = s.gate.log.map f) : Logged t cls action ukind i := by
  obtain ⟨r, hr, h1, h2, h3, h4⟩ := h
  obtain ⟨k1, k2, k3, k4⟩ := hf r
  exact ⟨f r, ht ▸ List.mem_map_of_mem hr, k1.trans h1, k2.trans h2, k3.trans h3, k4.trans h4⟩

theorem bumpRec_eq_map (p : LogRec → Bool) (l : List LogRec) : ∃ f, KeepsRecord f ∧ bumpRec p l = l.map f := by
  unfold bumpRec
  split
  · exact ⟨id, fun _ => ⟨rfl, rfl, rfl, rfl⟩, (List.map_id l).symm⟩
  · exact ⟨_, fun r => by split <;> exact ⟨rfl, rfl, rfl, rfl⟩, rfl⟩

theorem pendNotice_logged {s : State} {vc : Vc} {hyp : Bool} {n : Notice} {fresh : Bool} {cls action ukind : BitVec 8} {i : Nat}
    (h : Logged s cls action ukind i) : Logged (pendNotice s vc hyp n fresh) cls action ukind i := by
  unfold pendNotice
  dsimp only
  split
  · split
    · obtain ⟨f, hf, he⟩ := bumpRec_eq_map (fun r => r.seq == _) s.gate.log
      exact h.map hf he
    · exact h
  · exact h.map (f := fun r => if r.seq == n.seq then { r with flags := r.flags ||| (if hyp then 2 else 1) } else r)
      (fun r => by dsimp only; split <;> exact ⟨rfl, rfl, rfl, rfl⟩) rfl

theorem notify_logged {s : State} {c : BitVec 8} {seq : BitVec 64} {vc : Option Vc} {cls action ukind : BitVec 8} {i : Nat}
    (h : Logged s cls action ukind i) : Logged (notify s c seq vc) cls action ukind i := by
  have pend (u : State) (v : Vc) (hyp : Bool) (b : Prop) [Decidable b] (h : Logged u cls action ukind i) :
      Logged (if b then pendNotice u v hyp { cls := c, seq := seq } true else u) cls action ukind i := by
    split
    · exact pendNotice_logged h
    · exact h
  cases vc with
  | none => exact pend _ _ _ _ h
  | some v => exact pend _ v false _ (pend s v true _ h)

/-- The log's newest record is among those that it keeps. -/
theorem mem_newest (l : List LogRec) (r : LogRec) : r ∈ (l ++ [r]).drop ((l ++ [r]).length - 4096) := by
  rw [List.drop_append_of_le_length (by simp), List.mem_append]
  exact .inr (List.mem_singleton.2 rfl)

/-- An event that is neither a corrected error nor a rollback gets a record of its own, and the log keeps the newest (15 R479). -/
theorem logEvent_logged {s : State} {e : LogIn} (h0 : e.action ≠ 0) (h1 : e.action ≠ 1) :
    Logged (logEvent s e) e.cls e.action e.ukind e.uindex := by
  have hm : s.gate.log.any (logMerges s e) = false :=
    List.any_eq_false.2 fun r _ => by rw [logMerges, beq_false_of_ne h0, beq_false_of_ne h1]; exact Bool.false_ne_true
  rcases ho : logOpen s e with ⟨st, dt, u⟩
  simp only [Logged, logEvent, hm, ho, Bool.false_eq_true, if_false]
  exact ⟨_, mem_newest .., rfl, rfl, rfl, rfl⟩

theorem recordFault_logged {s : State} {e : LogIn} {vc : Option Vc} (h0 : e.action ≠ 0) (h1 : e.action ≠ 1) :
    Logged (recordFault s e vc) e.cls e.action e.ukind e.uindex := notify_logged (logEvent_logged h0 h1)

end Sys2Proof.Machine
end

-- ==== Fills that an undo discards ====
section
/-! Where STRICT_SPEC is in force, a cluster that gives a line up undoes the uncommitted loads that have read it, and the lines that those loads had brought in leave the cluster with them, a dirty one by WB (05 R156; 08 R238). O37, O39 and O32 leave that out of what the net and the cluster hold afterwards. -/

namespace Sys2Proof.Machine

/-- A line that its cluster holds in M, and no L1D. -/
def dirtyLine (d : Line) : L2Line := { st := .m, data := d, pres := [], cls := hypClass }

/-- Core 0 has read line 0 with an uncommitted load, and an uncommitted access of it has brought line 1 into the L2 of its cluster under STRICT_SPEC; the cluster holds both lines in M. -/
def strictReader (net : List FabMsg) : State :=
  { State.reset with
    dev := { State.reset.dev with mode := .service }
    cores := [(0, { fills := [.l2 1], micro := { readMarks := [0] } })]
    fab := { State.reset.fab with clusters := [(0, { l2 := [(0, dirtyLine 7), (1, dirtyLine 9)] })], net := net } }

theorem homeIdle_strictReader : HomeIdle (strictReader []) 0 :=
  ⟨rfl, rfl, rfl, rfl, fun _ h => absurd h List.not_mem_nil, fun _ h => absurd h List.not_mem_nil⟩

/-- The eviction of line 0 sends the WB of line 1 before its own. -/
theorem execWb_strictReader : ∃ t, exec (.wb 0 0) (strictReader []) = .next t
    ∧ t.net = [.wb 0 1 9 hypClass, .wb 0 0 7 hypClass] := by
  refine ⟨evictLine (strictReader []) 0 0, ?_, by decide +kernel⟩
  have hheld : ((strictReader []).l2 (0 : Oct).toNat 0).isSome = true := by decide +kernel
  have hmay : (fabricUp (strictReader []) && ((strictReader []).mshrOf (0 : Oct).toNat 0).isNone
      && (mget? ((strictReader []).cluster (0 : Oct).toNat).wb (0 : LineNo).toNat).isNone) = true := by
    decide +kernel
  show execWb 0 0 (strictReader []) = _
  rw [execWb, if_pos hheld, whenTrue]
  exact congrArg Host.Outcome.next (if_pos hmay)

/-- Refutes O37 at the eviction of a dirty line (08 R246, R254): its WB is not all that the cluster sends. -/
theorem not_clusterRequestsOpen : ¬ Obligations.ClusterRequestsOpen := by
  intro h
  obtain ⟨-, -, -, hwb, -⟩ := h (strictReader []) 0 0 hypClass homeIdle_strictReader
  obtain ⟨t, ht, -, -, hnet, -⟩ := (hwb (dirtyLine 7) (by decide +kernel) (by decide +kernel) (by decide +kernel) (by decide +kernel)).1 (.inl rfl)
  obtain ⟨u, hu, hsent⟩ := execWb_strictReader
  obtain rfl : t = u := Host.Outcome.next.inj (ht.symm.trans hu)
  exact absurd (hsent.symm.trans hnet) (by decide)

/-- The INV of line 0, of a home that collects for cluster 1. -/
def invSent : FabMsg := { msg := .inv 0 0 1 1, src := 8 }

/-- The INV of line 0 sends the WB of line 1 before its ACK. -/
theorem execInv_strictReader : ∃ t, exec (.inv 0 0) (strictReader [invSent]) = .next t
    ∧ t.net = [.wb 0 1 9 hypClass, .ack 0 1 0] := by
  exact ⟨onInv (arrive (strictReader [invSent]) invSent []) 0 0 1, rfl, by decide +kernel⟩

/-- Refutes O39 at INV (08 R246): the ACK is not all that the cluster sends. -/
theorem not_messagesReachTheirAgents : ¬ Obligations.MessagesReachTheirAgents := by
  rintro ⟨h, -⟩
  let s := strictReader [invSent]
  have hfirst : First s 0 (.inv 0 0 1 1) (arrive s invSent []) := ⟨0, [], [], invSent, rfl, fun _ h => absurd h List.not_mem_nil, rfl, rfl, rfl⟩
  obtain ⟨-, -, -, hinv, -⟩ := h s (arrive s invSent []) 0 0 1
  obtain ⟨t, ht, -, hnet, -⟩ := hinv 1 hfirst
  obtain ⟨u, hu, hsent⟩ := execInv_strictReader
  obtain rfl : t = u := Host.Outcome.next.inj (ht.symm.trans hu)
  exact absurd (hsent.symm.trans hnet) (by decide)

end Sys2Proof.Machine
end

-- ==== Ways of a cluster's L2 ====
section
/-! CACHE_WAY_RETIRE at a cluster (O32): which line of a set lies in the way is a free value, and the eviction of that line undoes the uncommitted loads that have read it. -/

namespace Sys2Proof.Machine

/-- A device that is not in REST nor on its way there goes on as it is (14 R443, R446). -/
theorem AtWork.awake {s : State} (h : AtWork s) : awake s = s := by
  simp [Machine.awake, h.mode, h.entry]

/-- A set all of whose lines have an open request loses none. -/
theorem retireL2Set_of_open {s : State} {k i : Nat}
    (h : ∀ l ∈ (mkeys (s.cluster k).l2).filter (fun l => l % 4096 == i), (s.mshrOf k (BitVec.ofNat 42 l)).isSome = true) :
    retireL2Set k s i = s.free.2 := by
  simp only [retireL2Set, State.free]
  split
  · next l hl =>
    obtain ⟨m, hm, rfl⟩ := Option.map_eq_some_iff.1 hl
    exact if_pos (h m (List.mem_of_getElem? hm))
  · rfl

/-- A set of sixteen lines without an open request loses one of them. -/
theorem retireL2Set_of_full {s : State} {k i : Nat} {ls : List Nat} (hset : (mkeys (s.cluster k).l2).filter (fun l => l % 4096 == i) = ls)
    (hfull : ls.length = 16) (hfree : ∀ l ∈ ls, s.mshrOf k (BitVec.ofNat 42 l) = none) :
    ∃ l ∈ ls, retireL2Set k s i = evictLine s.free.2 k (BitVec.ofNat 42 l) := by
  let j := s.free.1.toNat % 16
  have hj : j < ls.length := hfull ▸ Nat.mod_lt _ (by decide)
  refine ⟨ls[j], List.getElem_mem hj, ?_⟩
  have hpick : (((mkeys (s.free.2.cluster k).l2).filter (fun l => l % 4096 == i))[j]?).map (BitVec.ofNat 42) = some (BitVec.ofNat 42 ls[j]) := by
    rw [show (mkeys (s.free.2.cluster k).l2).filter (fun l => l % 4096 == i) = ls from hset, List.getElem?_eq_getElem hj]
    rfl
  have hopen : ¬ (s.free.2.mshrOf k (BitVec.ofNat 42 ls[j])).isSome = true := by
    rw [show s.free.2.mshrOf k (BitVec.ofNat 42 ls[j]) = none from hfree _ (List.getElem_mem hj)]
    decide
  show (match (((mkeys (s.free.2.cluster k).l2).filter (fun l => l % 4096 == i))[j]?).map (BitVec.ofNat 42) with | some l => _ | none => _) = _
  rw [hpick]
  exact if_neg hopen

/-- What a cluster holds after a way of its L2 is retired is what the evictions have left. -/
theorem execCacheWayRetire_l2 {s : State} {k : Oct} {w : BitVec 4} (hr : recovers s = true) (ha : AtWork s) :
    ∃ t, exec (.cacheWayRetire false k w) s = .next t
      ∧ ∀ l, t.l2 k.toNat l = ((l2Sets (s.cluster k.toNat)).foldl (retireL2Set k.toNat) s).l2 k.toNat l := by
  let s1 := (l2Sets (s.cluster k.toNat)).foldl (retireL2Set k.toNat) s
  let s2 := s1.free.2.setCluster k.toNat { s1.cluster k.toNat with badWays := (s1.cluster k.toNat).badWays ||| (1#16 <<< w.toNat) }
  let e : LogIn := (openUnit s1 { cls := 7, action := 7, ukind := 0, uindex := 0, stallMax := 20000 }).1
  have hx : exec (.cacheWayRetire false k w) s = .next (recordFault s2 e none) := by
    show execCacheWayRetire false k w s = _
    simp only [execCacheWayRetire, ha.awake, hr, if_true]
    rfl
  refine ⟨_, hx, fun l => ?_⟩
  have hfab : (recordFault s2 e none).cluster k.toNat = s2.cluster k.toNat := congrArg (fun f : Fabric => mget f.clusters k.toNat {}) (recordFault_recorded s2 e none).fab
  have hset : s2.cluster k.toNat = { s1.cluster k.toNat with badWays := (s1.cluster k.toNat).badWays ||| (1#16 <<< w.toNat) } := State.cluster_setCluster_self ..
  simp only [State.l2, hfab, hset]
  rfl

/-- The lines of set 1 of an L2. -/
def firstLines : List Nat := (List.range 16).map (fun j => 4096 * j + 1)

/-- Core 0 has read the sixteen lines of set 1 of its cluster's L2 with uncommitted loads; an access of it has brought line 0, on which a request is open, into its L1D under STRICT_SPEC. -/
def strictSet : State :=
  { State.reset with
    dev := { State.reset.dev with porst := false, mode := .service }
    cores := [(0, { fills := [.l1d 0], micro := { readMarks := firstLines.map (BitVec.ofNat 42) } })]
    fab := { State.reset.fab with clusters := [(0, {
      l2 := (0, { dirtyLine 9 with pres := [0] }) :: firstLines.map (fun l => (l, dirtyLine 7))
      mshr := [(0, { kind := .upg, core := none, need := none, got := 0, cls := hypClass })] })] } }

/-- Whichever line of set 1 goes, its eviction takes line 0 from the L1D of core 0. -/
theorem evictLine_strictSet : ∀ l ∈ firstLines, (evictLine strictSet.free.2.free.2 0 (BitVec.ofNat 42 l)).l2 0 0 = some (dirtyLine 9) := by
  decide +kernel

/-- Refutes O32 at CACHE_WAY_RETIRE of a cluster (15 R456 class 0x07): a line that stays need not stay as it was. -/
theorem not_cachesAndControllers : ¬ Obligations.CachesAndControllers := by
  rintro ⟨⟨-, -, -, -, -, -, -, -, hretire⟩, -⟩
  have hr : recovers strictSet = true := by decide
  have ha : AtWork strictSet := ⟨by decide, rfl, rfl, fun _ => rfl⟩
  obtain ⟨-, t, ht, -, hkeeps⟩ := hretire strictSet 0 0 hr ha
  obtain ⟨u, hu, hl2⟩ := execCacheWayRetire_l2 (k := 0) (w := 0) hr ha
  obtain rfl : t = u := Host.Outcome.next.inj (ht.symm.trans hu)
  have hsets : l2Sets (strictSet.cluster 0) = [0, 1] := by decide +kernel
  have hzero : retireL2Set 0 strictSet 0 = strictSet.free.2 := retireL2Set_of_open (by decide +kernel)
  obtain ⟨l, hl, hone⟩ := retireL2Set_of_full (s := strictSet.free.2) (k := 0) (i := 1) (ls := firstLines) (by decide +kernel) (by decide) (by decide +kernel)
  have hleft : t.l2 0 0 = some (dirtyLine 9) := by
    refine (hl2 0).trans ?_
    show ((l2Sets (strictSet.cluster 0)).foldl (retireL2Set 0) strictSet).l2 0 0 = _
    rw [hsets, List.foldl_cons, List.foldl_cons, List.foldl_nil, hzero, hone]
    exact evictLine_strictSet l hl
  exact absurd ((hkeeps 0 _).1 hleft) (by decide +kernel)

end Sys2Proof.Machine
end

-- ==== A directory key beyond the lines ====
section
/-! The state keeps a slice's directory by key, and a key of 2^42 or above is the number of no line. CODE_SET downgrades the owner of such an entry as that of the line whose number is the key's low 42 bits, whose transaction does not stand under the key: so the slice downgrades it once more when it goes on (O40). -/

namespace Sys2Proof.Machine

/-- The CODE_SET of page 0 for slice 0. -/
def setSent : FabMsg := { msg := .codeSet 0 0, src := 8 }

/-- Slice 0 lists cluster 1 as owner under the key 2^42, and its CODE_SET of page 0 is on its way. -/
def strayEntry : State :=
  { State.reset with fab := { State.reset.fab with
      homes := [(0, { dir := [(2 ^ 42, { st := .dx, sharers := 0, owner := 1, nru := true })] })], net := [setSent] } }

/-- The owner of the stray entry gets FWD_S twice. -/
theorem execCodeSet_strayEntry : ∃ t, exec (.codeSet 0 0) strayEntry = .next t ∧ t.net = [.fwdS 1 0 8, .fwdS 1 0 8] :=
  ⟨pumpHome (onCodeSet (arrive strayEntry setSent []) 0 0) 0, rfl, by decide +kernel⟩

/-- Refutes O40 at CODE_SET (08 R260): it does not send one FWD_S to the owner of an entry whose key is no line's number. -/
theorem not_homesAndCodePages : ¬ Obligations.HomesAndCodePages := by
  rintro ⟨-, -, h⟩
  have hfirst : First strayEntry (firstLine 0) (.codeSet 0 0) (arrive strayEntry setSent []) :=
    ⟨0, [], [], setSent, rfl, fun _ h => absurd h List.not_mem_nil, rfl, rfl, rfl⟩
  have hcalm : HomeCalm strayEntry 0 := ⟨rfl, rfl, rfl, fun _ h => absurd h List.not_mem_nil, fun _ h => absurd h List.not_mem_nil⟩
  obtain ⟨hset, -⟩ := h strayEntry (arrive strayEntry setSent []) 0 0
  obtain ⟨t, ht, hnet, -⟩ := hset hfirst hcalm (by decide +kernel)
  obtain ⟨u, hu, hsent⟩ := execCodeSet_strayEntry
  obtain rfl : t = u := Host.Outcome.next.inj (ht.symm.trans hu)
  have hone : ownedLines (strayEntry.home 0) 0 = [(0, 1)] := by decide +kernel
  have hnet' : t.net = [Msg.fwdS 1 0 8] := by
    refine hnet.trans ?_
    show [] ++ (if ownedLines (strayEntry.home 0) 0 = [] then _ else (ownedLines (strayEntry.home 0) 0).map _) = _
    rw [hone]
    rfl
  exact absurd (hsent.symm.trans hnet') (by decide)

end Sys2Proof.Machine
end

-- ==== Traffic of the fabric ====
section
/-! What the shared operations of the fabric leave as it was: the counting of an event, a message that is sent, a line that a home writes; and what a row does with the message that it takes. -/

namespace Sys2Proof.Machine

/-! ### Messages and counters -/

@[simp] theorem uncoreEvent_fab (s : State) (u : Nat) (code : BitVec 8) (c : ClassId) : (uncoreEvent s u code c).fab = s.fab := by
  rw [uncoreEvent_frame]

@[simp] theorem uncoreEvent_dram (s : State) (u : Nat) (code : BitVec 8) (c : ClassId) : (uncoreEvent s u code c).dram = s.dram := by
  rw [uncoreEvent_frame]

@[simp] theorem uncoreEvent_home (s : State) (u : Nat) (code : BitVec 8) (c : ClassId) (k : Nat) : (uncoreEvent s u code c).home k = s.home k := by
  simp [State.home]

@[simp] theorem newTag_home (s : State) (a : Agent) (k : Nat) : (s.newTag a).2.home k = s.home k := rfl

@[simp] theorem sendT_dram (s : State) (a : Agent) (c : ClassId) (tag : BitVec 16) (m : Msg) : (sendT s a c tag m).dram = s.dram := by
  obtain ⟨f, u, h⟩ := sendT_frame s a c tag m
  rw [h]

/-- Sending a message touches the messages in flight and the SEQs of the fabric, and nothing else of it. -/
theorem sendT_fab (s : State) (a : Agent) (c : ClassId) (tag : BitVec 16) (m : Msg) :
    (sendT s a c tag m).fab = { s.fab with net := (sendT s a c tag m).fab.net, seqs := (sendT s a c tag m).fab.seqs } := by
  simp [sendT]

@[simp] theorem sendT_home (s : State) (a : Agent) (c : ClassId) (tag : BitVec 16) (m : Msg) (k : Nat) : (sendT s a c tag m).home k = s.home k := by
  simp [State.home]

@[simp] theorem sendT_spine (s : State) (a : Agent) (c : ClassId) (tag : BitVec 16) (m : Msg) : (sendT s a c tag m).fab.spine = s.fab.spine := by
  rw [sendT_fab]

/-- A message that is sent stands last in flight. -/
@[simp] theorem sendT_msgs (s : State) (a : Agent) (c : ClassId) (tag : BitVec 16) (m : Msg) : (sendT s a c tag m).net = s.net ++ [m] := by
  simp [State.net]

/-! ### What a request leaves alone -/

/-- From `s` to `t` only the fabric and its counters have changed; the queues of slice `k` that a request may wait in stand, and so do HT and the refused requests (08 R242, R248, R258, R260). -/
structure Undisturbed (k : Nat) (s t : State) : Prop where
  only : ∃ f u, t = { s with fab := f, uncore := u }
  queue : (t.home k).confq = (s.home k).confq
  tokens : (t.home k).tokens = (s.home k).tokens
  sets : (t.home k).sets = (s.home k).sets
  refused : t.fab.retryq = s.fab.retryq
  table : t.fab.ht = s.fab.ht

theorem Undisturbed.refl (k : Nat) (s : State) : Undisturbed k s s := ⟨⟨s.fab, s.uncore, rfl⟩, rfl, rfl, rfl, rfl, rfl⟩

theorem Undisturbed.trans {k : Nat} {s t u : State} (h : Undisturbed k s t) (g : Undisturbed k t u) : Undisturbed k s u := by
  obtain ⟨⟨f, w, rfl⟩, h1, h2, h3, h4, h5⟩ := h
  obtain ⟨⟨f', w', rfl⟩, g1, g2, g3, g4, g5⟩ := g
  exact ⟨⟨f', w', rfl⟩, g1.trans h1, g2.trans h2, g3.trans h3, g4.trans h4, g5.trans h5⟩

theorem Undisturbed.onlyFabric {k : Nat} {s t : State} (h : Undisturbed k s t) : t = { s with fab := t.fab, uncore := t.uncore } := by
  obtain ⟨⟨f, u, rfl⟩, -⟩ := h
  rfl

section
variable {k : Nat} {s : State}

theorem uncoreEvent_undisturbed (u : Nat) (code : BitVec 8) (c : ClassId) : Undisturbed k s (uncoreEvent s u code c) :=
  ⟨⟨s.fab, _, uncoreEvent_frame ..⟩, by simp, by simp, by simp, by simp, by simp⟩

theorem newTag_undisturbed (a : Agent) : Undisturbed k s (s.newTag a).2 := ⟨⟨_, s.uncore, rfl⟩, rfl, rfl, rfl, rfl, rfl⟩

theorem sendT_undisturbed (a : Agent) (c : ClassId) (tag : BitVec 16) (m : Msg) : Undisturbed k s (sendT s a c tag m) :=
  ⟨sendT_frame .., by simp, by simp, by simp, by rw [sendT_fab], by rw [sendT_fab]⟩

theorem setHome_undisturbed {h : Home} (h1 : h.confq = (s.home k).confq) (h2 : h.tokens = (s.home k).tokens) (h3 : h.sets = (s.home k).sets) :
    Undisturbed k s (s.setHome k h) :=
  ⟨⟨_, s.uncore, rfl⟩, by simpa, by simpa, by simpa, rfl, rfl⟩

theorem setTxn_undisturbed (l : LineNo) (v : Option Txn) : Undisturbed k s (s.setTxn k l v) := setHome_undisturbed rfl rfl rfl

theorem setDir_undisturbed (l : LineNo) (v : Option DirEntry) : Undisturbed k s (s.setDir k l v) := setHome_undisturbed rfl rfl rfl

/-- Another slice, or the same one, takes a line into its mirror. -/
theorem setMirror_undisturbed (p : Nat) (m : SMap Line) : Undisturbed k s (s.setHome p { s.home p with mir := m }) := by
  by_cases hp : k = p
  · subst hp
    exact setHome_undisturbed rfl rfl rfl
  · have hk : (s.setHome p { s.home p with mir := m }).home k = s.home k := State.home_setHome_ne _ _ _ _ hp
    exact ⟨⟨_, s.uncore, rfl⟩, by rw [hk], by rw [hk], by rw [hk], rfl, rfl⟩

theorem setWbuf_undisturbed (l : LineNo) (v : Option (Line × ClassId)) : Undisturbed k s (setWbuf s k l v) := by
  let h := s.home k
  let s1 := s.setHome k { h with wbuf := mset? h.wbuf l.toNat (v.map (·.1)), wcls := mset? h.wcls l.toNat (v.map (·.2)) }
  have h1 : Undisturbed k s s1 := setHome_undisturbed rfl rfl rfl
  exact h1.trans (setMirror_undisturbed (s1.partner k) _)

/-- A slice at which nothing waits goes on with nothing (08 R248, R258, R260). -/
theorem pumpHome_undisturbed {t : State} (hc : HomeCalm s k) (h : Undisturbed k s t) : pumpHome t k = t := by
  obtain ⟨-, hq, ht, hs, hr, hh⟩ := h
  rw [hc.queue] at hq
  rw [hc.tokens] at ht
  rw [hc.sets] at hs
  have hno (l : LineNo) : t.homeNo l = s.homeNo l := by simp only [State.homeNo, State.htOf, hh]
  have hleft : t.fab.retryq.filter (fun q => !q.2 && t.homeNo q.1.line == k) = [] := by
    rw [hr]
    refine List.filter_eq_nil_iff.2 fun q hmem => ?_
    rcases hc.left q hmem with h | h
    · simp [h]
    · simp [hno, h]
  have h1 : pumpLeft t k = t := by rw [pumpLeft, hleft]; rfl
  have h2 : pumpSets t k = t := by rw [pumpSets, hs]; rfl
  have h3 : pumpQueue t k = t := by rw [pumpQueue, hq]; rfl
  have h4 : pumpVictim t k = t := by rw [pumpVictim, hq]; rfl
  have h5 : pumpTokens t k = t := by rw [pumpTokens, ht]; rfl
  rw [pumpHome, h1, h2, h3, h4, h3, h5]

end

/-! ### A line written at its home -/

/-- The write-back buffer of a slice takes a line (09 R280). -/
theorem setWbuf_home (s : State) (k : Nat) (l : LineNo) (v : Option (Line × ClassId)) :
    mget? ((setWbuf s k l v).home k).wbuf l.toNat = v.map (·.1) ∧ ((setWbuf s k l v).home k).sc = (s.home k).sc := by
  let h := s.home k
  let s1 := s.setHome k { h with wbuf := mset? h.wbuf l.toNat (v.map (·.1)), wcls := mset? h.wcls l.toNat (v.map (·.2)) }
  let m := mset? (s1.home (s1.partner k)).mir l.toNat (v.map (·.1))
  have ht : setWbuf s k l v = s1.setHome (s1.partner k) { s1.home (s1.partner k) with mir := m } := rfl
  have hk : (setWbuf s k l v).home k = s1.home k ∨ (setWbuf s k l v).home k = { s1.home k with mir := m } := by
    rw [ht]
    by_cases hp : k = s1.partner k
    · rw [← hp]
      exact .inr (State.home_setHome_self ..)
    · exact .inl (State.home_setHome_ne _ _ _ _ hp)
  have hs1 : s1.home k = { h with wbuf := mset? h.wbuf l.toNat (v.map (·.1)), wcls := mset? h.wcls l.toNat (v.map (·.2)) } := State.home_setHome_self ..
  rcases hk with hk | hk <;> rw [hk, hs1] <;> simp [h]

/-- A slice writes a line that its system cache holds: the line stands there with the data, and dirty in the write-back buffer (08 R239; 09 R280). -/
theorem scPut_held {s : State} {k : Nat} {l : LineNo} {x : ScLine} (h : mget? (s.home k).sc l.toNat = some x) (d : Line) (dirty : Bool) (c : ClassId) :
    mget? ((scPut s k l d dirty c).home k).sc l.toNat = some { x with data := d, dirty := x.dirty || dirty, nru := true }
      ∧ (dirty = true → mget? ((scPut s k l d dirty c).home k).wbuf l.toNat = some d) ∧ (scPut s k l d dirty c).net = s.net
      ∧ Undisturbed k s (scPut s k l d dirty c) := by
  let s1 := if dirty then setWbuf s k l (some (d, c)) else s
  have hu : Undisturbed k s s1 := by
    simp only [s1]
    split
    · exact setWbuf_undisturbed ..
    · exact .refl ..
  have hsc : (s1.home k).sc = (s.home k).sc := by
    simp only [s1]
    split
    · exact (setWbuf_home ..).2
    · rfl
  have hnet : s1.net = s.net := by
    simp only [s1]
    split <;> rfl
  have ht : scPut s k l d dirty c = s1.setHome k { s1.home k with
      sc := mput (s1.home k).sc l.toNat { x with data := d, dirty := x.dirty || dirty, nru := true } } := by
    show (match mget? (s1.home k).sc l.toNat with | some x => _ | none => _) = _
    rw [hsc, h]
  rw [ht]
  refine ⟨by simp, fun hd => ?_, hnet, hu.trans (setHome_undisturbed rfl rfl rfl)⟩
  have hwb : mget? (s1.home k).wbuf l.toNat = some d := by
    simp only [s1, hd, if_true]
    exact (setWbuf_home ..).1
  simpa using hwb

/-! ### The row of a message -/

/-- A row takes the first message that it names. -/
theorem takeMsg_append {f : Msg → Bool} {as bs : List FabMsg} {p : FabMsg} (ha : ∀ x ∈ as, f x.msg = false) (hp : f p.msg = true) :
    takeMsg f (as ++ p :: bs) = some (p, as ++ bs) := by
  induction as with
  | nil => simp [takeMsg, hp]
  | cons a as ih =>
    rw [List.forall_mem_cons] at ha
    simp [takeMsg, ha.1, ih ha.2]

theorem takeRow_append {s : State} {f : Msg → Bool} {as bs : List FabMsg} {p : FabMsg} (hs : s.fab.net = as ++ p :: bs) (ha : ∀ x ∈ as, f x.msg = false)
    (hp : f p.msg = true) : takeRow s f = orStay s (deliver (arrive s p (as ++ bs)) p) := by
  rw [takeRow, deliverFirst, hs, takeMsg_append ha hp]

/-- Where the oldest message of a line and its page is one that the row names, the row takes it. -/
theorem takeRow_first {s u : State} {l : LineNo} {m : Msg} {f : Msg → Bool} (h : First s l m u) (hf : ∀ x, f x = true → msgFor l x = true) (hm : f m = true) :
    ∃ p as bs, p.msg = m ∧ u = arrive s p (as ++ bs) ∧ takeRow s f = orStay s (deliver u p) := by
  obtain ⟨tag, as, bs, p, hs, ha, hp, -, rfl⟩ := h
  refine ⟨p, as, bs, hp, rfl, takeRow_append hs (fun x hx => ?_) (hp ▸ hm)⟩
  rw [← Bool.not_eq_true]
  exact fun hx' => Bool.false_ne_true ((ha x hx).symm.trans (hf _ hx'))

end Sys2Proof.Machine
end

-- ==== Uncached accesses at an idle home ====
section
/-! NC_RD, NC_WR and ATOM at an idle home whose system cache has the line (08 R247, R269): a part of O38. -/

namespace Sys2Proof.Machine

theorem Undisturbed.homeNo {k : Nat} {s t : State} (h : Undisturbed k s t) (l : LineNo) : t.homeNo l = s.homeNo l := by
  simp only [State.homeNo, State.htOf, h.table]

@[simp] theorem setWbuf_net (s : State) (k : Nat) (l : LineNo) (v : Option (Line × ClassId)) : (setWbuf s k l v).net = s.net := rfl
@[simp] theorem setHome_net (s : State) (k : Nat) (h : Home) : (s.setHome k h).net = s.net := rfl
@[simp] theorem setTxn_net (s : State) (k : Nat) (l : LineNo) (v : Option Txn) : (s.setTxn k l v).net = s.net := rfl
@[simp] theorem setDir_net (s : State) (k : Nat) (l : LineNo) (v : Option DirEntry) : (s.setDir k l v).net = s.net := rfl
@[simp] theorem uncoreEvent_net (s : State) (u : Nat) (code : BitVec 8) (c : ClassId) : (uncoreEvent s u code c).net = s.net := by simp [State.net]
@[simp] theorem newTag_net (s : State) (a : Agent) : (s.newTag a).2.net = s.net := rfl

/-- An uncached request (08 R247). -/
def uncached (r : Req) : Prop := r.kind = .ncRd ∨ r.kind = .ncWr ∨ r.kind = .atom

theorem uncached.noEntry {r : Req} (h : uncached r) : needsEntry r.kind = false := by
  rcases h with h | h | h <;> rw [h] <;> rfl

/-- A home at which nothing waits starts an uncached request at once (08 R247). -/
theorem placeReq_idle {s : State} {r : Req} (hr : uncached r) (ht : s.txnOf (s.homeNo r.line) r.line = none) (hq : (s.home (s.homeNo r.line)).confq = []) :
    placeReq s r = startTxn s (s.homeNo r.line) r := by
  have ht' : mget? (s.home (s.homeNo r.line)).txns r.line.toNat = none := ht
  simp [placeReq, placeReqAs, hasWay, ht', hq, hr.noEntry]

/-- The transaction of a request whose data the home has. -/
def dataTxn (r : Req) (x : ScLine) : Txn := { req := r, went := true, data := some x.data }

/-- The state in which the system cache has given the data of a line (08 R247; 17 R515). -/
def afterHit (s : State) (k : Nat) (r : Req) (x : ScLine) : State :=
  let s0 := s.setTxn k r.line (some { req := r, went := true })
  (uncoreEvent (s0.setHome k { s0.home k with sc := mput (s0.home k).sc r.line.toNat { x with nru := true } }) k 1 r.cls).setTxn k r.line (some (dataTxn r x))

section
variable {s : State} {k : Nat} {r : Req} {x : ScLine}

theorem afterHit_undisturbed : Undisturbed k s (afterHit s k r x) := by
  let s0 := s.setTxn k r.line (some { req := r, went := true })
  let s1 := s0.setHome k { s0.home k with sc := mput (s0.home k).sc r.line.toNat { x with nru := true } }
  have h0 : Undisturbed k s s0 := setTxn_undisturbed ..
  have h1 : Undisturbed k s0 s1 := setHome_undisturbed rfl rfl rfl
  have h2 : Undisturbed k s1 (uncoreEvent s1 k 1 r.cls) := uncoreEvent_undisturbed ..
  unfold afterHit
  exact ((h0.trans h1).trans h2).trans (setTxn_undisturbed ..)

theorem afterHit_net : (afterHit s k r x).net = s.net := by
  simp [afterHit]

theorem afterHit_sc : mget? ((afterHit s k r x).home k).sc r.line.toNat = some { x with nru := true } := by
  simp [afterHit, State.setTxn]

/-- An uncached request that asks nothing of the code filter, on a line without entry that the system cache has, is performed at once (08 R247, R259). -/
theorem startTxn_hit (hr : uncached r) (hf : needsQuery r.kind = true → filterOn (s.home k) (pageOfLine r.line) = false)
    (hd : s.dirOf k r.line = none) (hx : mget? (s.home k).sc r.line.toNat = some x) :
    startTxn s k r = performNc (afterHit s k r x) k r.line (dataTxn r x) x.data := by
  have hcode : (r.kind == .rdCode) = false := by rcases hr with h | h | h <;> rw [h] <;> rfl
  have hquery : (needsQuery r.kind && filterOn (s.home k) (pageOfLine r.line)) = false := by
    cases h : needsQuery r.kind <;> simp [hf, h]
  let s0 := s.setTxn k r.line (some { req := r, went := true })
  have hx0 : mget? (s0.home k).sc r.line.toNat = some x := by simpa [s0, State.setTxn]
  have hd0 : s0.dirOf k r.line = none := by simpa [s0, State.setTxn, State.dirOf]
  have hfill : fillTxn s0 k r.line { req := r, went := true } = afterHit s k r x := by
    simp only [fillTxn, hx0, afterHit, dataTxn, s0]
  have hgo : proceedTxn s0 k r.line { req := r, went := true } = afterHit s k r x := by
    rcases hr with h | h | h <;> simp [proceedTxn, collectLine, h, hd0, hfill]
  have hend : finishTxn (afterHit s k r x) k r.line = performNc (afterHit s k r x) k r.line (dataTxn r x) x.data := by
    have htxn : (afterHit s k r x).txnOf k r.line = some (dataTxn r x) := State.txnOf_setTxn_self ..
    have hfilter : ((afterHit s k r x).home k).filter = (s.home k).filter := by simp [afterHit, State.setTxn]
    have hfil : filterOn ((afterHit s k r x).home k) (pageOfLine r.line) = filterOn (s.home k) (pageOfLine r.line) := by
      rw [filterOn, hfilter, filterOn]
    have hready : txnReady (dataTxn r x) = true := rfl
    simp only [finishTxn, htxn, hready, if_true, hfil]
    simp only [dataTxn, Bool.not_false, Bool.and_true, hquery]
    rcases hr with h | h | h <;> simp [h]
  simp only [startTxn, hcode, hquery]
  rw [← hend, ← hgo]
  rfl

end

/-- Slice `k` has served a request on line `l`: it has sent the answer, and its system cache holds `d`. -/
structure ServedAt (k : Nat) (l : LineNo) (s t : State) (m : Msg) (d : Line) : Prop where
  quiet : Undisturbed k s t
  answer : t.net = s.net ++ [m]
  copy : ∃ y, mget? (t.home k).sc l.toNat = some y ∧ y.data = d

theorem closeAndAnswer_served {s s1 : State} {k : Nat} {l : LineNo} {y : ScLine} {d : Line} (hu : Undisturbed k s s1) (hn : s1.net = s.net)
    (hy : mget? (s1.home k).sc l.toNat = some y) (hd : y.data = d) (a : Agent) (c : ClassId) (tag : BitVec 16) (m : Msg) :
    ServedAt k l s (sendT (closeTxn s1 k l) a c tag m) m d where
  quiet := (hu.trans (setTxn_undisturbed ..)).trans (sendT_undisturbed ..)
  answer := by simp [closeTxn, hn]
  copy := ⟨y, by simpa [closeTxn, State.setTxn] using hy, hd⟩

section
variable {s : State} {k : Nat} {r : Req} {x : ScLine}

/-- A read of a line that its home has is answered with the bytes (08 R247). -/
theorem performNc_reads (h : r.kind = .ncRd) :
    ServedAt k r.line s (performNc (afterHit s k r x) k r.line (dataTxn r x) x.data)
      (.adata r.src r.line (BitVec.ofNat 64 (lineGet x.data r.off r.size))) x.data := by
  have ht : performNc (afterHit s k r x) k r.line (dataTxn r x) x.data = sendT (closeTxn (afterHit s k r x) k r.line) (homeAgent k) r.cls r.tag
      (.adata r.src r.line (BitVec.ofNat 64 (lineGet x.data r.off r.size))) := by
    simp only [performNc, dataTxn, h]
  rw [ht]
  exact closeAndAnswer_served afterHit_undisturbed afterHit_net afterHit_sc rfl ..

/-- What a line becomes at its home that serves an uncached request: no entry, and the new data in the system cache (08 R247, R269). -/
def writtenAtHome (s : State) (k : Nat) (r : Req) (x : ScLine) (d : Line) (dirty : Bool) : State :=
  scPut ((afterHit s k r x).setDir k r.line none) k r.line d dirty r.cls

theorem writtenAtHome_served (d : Line) (dirty : Bool) (m : Msg) :
    ServedAt k r.line s (sendT (closeTxn (writtenAtHome s k r x d dirty) k r.line) (homeAgent k) r.cls r.tag m) m d
      ∧ (dirty = true → mget? ((sendT (closeTxn (writtenAtHome s k r x d dirty) k r.line) (homeAgent k) r.cls r.tag m).home k).wbuf r.line.toNat = some d) := by
  have hx : mget? (((afterHit s k r x).setDir k r.line none).home k).sc r.line.toNat = some { x with nru := true } := by
    simpa [State.setDir] using afterHit_sc
  obtain ⟨hsc, hwb, hnet, hu⟩ := scPut_held hx d dirty r.cls
  have hdir : Undisturbed k (afterHit s k r x) ((afterHit s k r x).setDir k r.line none) := setDir_undisturbed ..
  have hall : Undisturbed k s (writtenAtHome s k r x d dirty) := by
    unfold writtenAtHome
    exact (afterHit_undisturbed.trans hdir).trans hu
  refine ⟨closeAndAnswer_served hall (hnet.trans ((setDir_net ..).trans afterHit_net)) hsc rfl _ _ _ _, fun hd => ?_⟩
  have := hwb hd
  simpa [closeTxn, State.setTxn, writtenAtHome] using this

theorem performNc_writes (h : r.kind = .ncWr) :
    performNc (afterHit s k r x) k r.line (dataTxn r x) x.data
      = sendT (closeTxn (writtenAtHome s k r x (lineMerge x.data r.data r.mask) true) k r.line) (homeAgent k) r.cls r.tag (.done r.src r.line) := by
  simp only [performNc, dataTxn, h, writtenAtHome]

theorem performNc_atom {fn : AtomFn} (h : r.kind = .atom) (hop : atomOf r.op = some fn) :
    let old : W64 := BitVec.ofNat 64 (lineGet x.data r.off r.size)
    let v := atomVal fn r.size old r.opnd r.cmpv
    performNc (afterHit s k r x) k r.line (dataTxn r x) x.data
      = sendT (closeTxn (writtenAtHome s k r x (linePut x.data r.off r.size v.toNat) (v != old)) k r.line) (homeAgent k) r.cls r.tag
        (.adata r.src r.line old) := by
  simp only [performNc, dataTxn, h, writtenAtHome, atomNew, hop, Bool.false_or]

end

/-! ### A request that its agent sends -/

theorem ServedAt.homeCopy {s t : State} {l : LineNo} {m : Msg} {d : Line} (h : ServedAt (s.homeNo l) l s t m d) : t.homeCopy l = d := by
  obtain ⟨y, hy, rfl⟩ := h.copy
  simp only [State.homeCopy, h.quiet.homeNo, hy]

/-- A home that is idle has a line for an uncached request: no query of the code filter, no entry, the data in the system cache (08 R247). -/
structure HasFor (s : State) (r : Req) (x : ScLine) : Prop where
  idle : HomeIdle s r.line
  kind : uncached r
  filter : needsQuery r.kind = true → filterOn (s.home (s.homeNo r.line)) (pageOfLine r.line) = false
  dir : s.dirOf (s.homeNo r.line) r.line = none
  line : mget? (s.home (s.homeNo r.line)).sc r.line.toNat = some x

/-- What such a home does with the request. -/
def performedAt (s : State) (r : Req) (x : ScLine) : State :=
  performNc (afterHit s (s.homeNo r.line) r x) (s.homeNo r.line) r.line (dataTxn r x) x.data

/-- The home performs the request at once, and nothing else follows (08 R247). -/
theorem HasFor.openReq {s : State} {r : Req} {x : ScLine} {m : Msg} {d : Line} (h : HasFor s r x)
    (hs : ServedAt (s.homeNo r.line) r.line s (performedAt s r x) m d) : openReq s r = performedAt s r x := by
  have ht : placeReq s r = performedAt s r x := (placeReq_idle h.kind h.idle.txn h.idle.calm.queue).trans (startTxn_hit h.kind h.filter h.dir h.line)
  rw [Machine.openReq, ht, pumpHome_undisturbed h.idle.calm hs.quiet]

/-- The agent has counted and numbered its request (08 R233). -/
def numbered (s : State) (r : Req) : State := ((uncoreEvent s (16 + agentStop r.src) 1 r.cls).newTag r.src).2

/-- The number that it got. -/
def numberOf (s : State) (r : Req) : BitVec 16 := ((uncoreEvent s (16 + agentStop r.src) 1 r.cls).newTag r.src).1

/-- A request with its number. -/
def Req.withTag (r : Req) (t : BitVec 16) : Req := { r with tag := t }

section
variable {s : State} {r : Req} {x : ScLine} {m : Msg} {d : Line}

theorem askNc_eq : askNc s r = openReq (numbered s r) (r.withTag (numberOf s r)) := by rw [askNc, numbered, numberOf, Req.withTag]

theorem numbered_undisturbed (k : Nat) : Undisturbed k s (numbered s r) := by
  have h : Undisturbed k s (uncoreEvent s (16 + agentStop r.src) 1 r.cls) := uncoreEvent_undisturbed ..
  unfold numbered
  exact h.trans (newTag_undisturbed ..)

@[simp] theorem numbered_home (k : Nat) : (numbered s r).home k = s.home k := by simp [numbered]
@[simp] theorem numbered_net : (numbered s r).net = s.net := by simp [numbered]
@[simp] theorem numbered_homeNo (l : LineNo) : (numbered s r).homeNo l = s.homeNo l := (numbered_undisturbed 0).homeNo l
@[simp] theorem numbered_heldReads : (numbered s r).fab.heldReads = s.fab.heldReads := by simp [numbered, State.newTag]
@[simp] theorem numbered_retryq : (numbered s r).fab.retryq = s.fab.retryq := by simp [numbered, State.newTag]
@[simp] theorem withTag_line (t : BitVec 16) : (r.withTag t).line = r.line := rfl
@[simp] theorem withTag_src (t : BitVec 16) : (r.withTag t).src = r.src := rfl
@[simp] theorem withTag_off (t : BitVec 16) : (r.withTag t).off = r.off := rfl
@[simp] theorem withTag_size (t : BitVec 16) : (r.withTag t).size = r.size := rfl
@[simp] theorem withTag_data (t : BitVec 16) : (r.withTag t).data = r.data := rfl
@[simp] theorem withTag_mask (t : BitVec 16) : (r.withTag t).mask = r.mask := rfl
@[simp] theorem withTag_op (t : BitVec 16) : (r.withTag t).op = r.op := rfl
@[simp] theorem withTag_opnd (t : BitVec 16) : (r.withTag t).opnd = r.opnd := rfl
@[simp] theorem withTag_cmpv (t : BitVec 16) : (r.withTag t).cmpv = r.cmpv := rfl
@[simp] theorem withTag_kind (t : BitVec 16) : (r.withTag t).kind = r.kind := rfl

/-- Counting and numbering a request leaves its home as it was. -/
theorem HasFor.numbered (h : HasFor s r x) (t : BitVec 16) : HasFor (numbered s r) (r.withTag t) x where
  idle := by
    obtain ⟨htxn, hq, ht, hs, hl, hh⟩ := h.idle
    exact ⟨by simpa [State.txnOf] using htxn, by simpa, by simpa, by simpa, by simpa using hl, by simpa⟩
  kind := h.kind
  filter := by simpa using h.filter
  dir := by simpa [State.dirOf] using h.dir
  line := by simpa using h.line

/-- An agent's request that its home performs at once. -/
theorem HasFor.askNc (h : HasFor s r x)
    (hs : ∀ t, ServedAt (s.homeNo r.line) r.line (Machine.numbered s r) (performedAt (Machine.numbered s r) (r.withTag t) x) m d) :
    (∃ t, Machine.askNc s r = performedAt (Machine.numbered s r) (r.withTag t) x) ∧ ServedAt (s.homeNo r.line) r.line s (Machine.askNc s r) m d := by
  obtain ⟨t, ht⟩ : ∃ t, Machine.askNc s r = Machine.openReq (Machine.numbered s r) (r.withTag t) := ⟨_, askNc_eq⟩
  have hs' := hs t
  have hp : ServedAt ((Machine.numbered s r).homeNo (r.withTag t).line) (r.withTag t).line (Machine.numbered s r)
      (performedAt (Machine.numbered s r) (r.withTag t) x) m d := by simpa using hs'
  rw [ht, (h.numbered t).openReq hp]
  exact ⟨⟨t, rfl⟩, (numbered_undisturbed _).trans hs'.quiet, by rw [hs'.answer, numbered_net], hs'.copy⟩

/-- A read of an agent (08 R247). -/
theorem askNc_reads (h : HasFor s r x) (hk : r.kind = .ncRd) :
    ServedAt (s.homeNo r.line) r.line s (askNc s r) (.adata r.src r.line (BitVec.ofNat 64 (lineGet x.data r.off r.size))) x.data := by
  refine (h.askNc fun t => ?_).2
  simpa [performedAt] using performNc_reads (s := numbered s r) (k := s.homeNo r.line) (r := r.withTag t) (x := x) hk

/-- A write of an agent (08 R247). -/
theorem askNc_writes (h : HasFor s r x) (hk : r.kind = .ncWr) :
    ServedAt (s.homeNo r.line) r.line s (askNc s r) (.done r.src r.line) (lineMerge x.data r.data r.mask)
      ∧ mget? ((askNc s r).home (s.homeNo r.line)).wbuf r.line.toNat = some (lineMerge x.data r.data r.mask) := by
  have hw (t : BitVec 16) := performNc_writes (s := numbered s r) (k := s.homeNo r.line) (r := r.withTag t) (x := x) hk
  have hs (t : BitVec 16) := writtenAtHome_served (s := numbered s r) (k := s.homeNo r.line) (r := r.withTag t) (x := x)
    (lineMerge x.data r.data r.mask) true (.done r.src r.line)
  simp only [withTag_line, withTag_src, withTag_data, withTag_mask] at hw hs
  obtain ⟨⟨t, ht⟩, hserved⟩ := h.askNc (m := .done r.src r.line) (d := lineMerge x.data r.data r.mask) fun t => by
    simp only [performedAt, withTag_line, numbered_homeNo, hw]
    exact (hs t).1
  refine ⟨hserved, ?_⟩
  simp only [ht, performedAt, withTag_line, numbered_homeNo, hw]
  exact (hs t).2 trivial

/-- An atomic of an agent (08 R269). -/
theorem askNc_atom {fn : AtomFn} (h : HasFor s r x) (hk : r.kind = .atom) (hop : atomOf r.op = some fn) :
    let old : W64 := BitVec.ofNat 64 (lineGet x.data r.off r.size)
    ServedAt (s.homeNo r.line) r.line s (askNc s r) (.adata r.src r.line old)
      (linePut x.data r.off r.size (atomVal fn r.size old r.opnd r.cmpv).toNat) := by
  intro old
  refine (h.askNc fun t => ?_).2
  have hw := performNc_atom (s := numbered s r) (k := s.homeNo r.line) (r := r.withTag t) (x := x) hk hop
  simp only [withTag_line, withTag_src, withTag_off, withTag_size, withTag_opnd, withTag_cmpv] at hw
  simp only [performedAt, withTag_line, numbered_homeNo, hw]
  exact (writtenAtHome_served (r := r.withTag t) ..).1

end

/-! ### The part of O38 -/

theorem lineOf_mul (l : LineNo) : lineOf (l.toNat * 64) = l := by simp [lineOf]

/-- An uncached request that fits into its line can be sent for the whole line. -/
theorem canNc_line {s : State} {pa n : Nat} (h : canNc s pa n = true) : canNc s ((lineOf pa).toNat * 64) 64 = true := by
  simp only [canNc, Bool.and_eq_true, lineOf_mul] at h ⊢
  obtain ⟨⟨⟨hup, -⟩, hline⟩, hfits⟩ := h
  exact ⟨⟨⟨hup, by simp⟩, hline⟩, hfits⟩

/-- An uncached access of a line that its idle home has in the system cache: the answer carries the old bytes, and the line becomes what the access makes of it (08 R247, R269). -/
theorem uncached_atIdleHome (s : State) (a : Agent) (c : ClassId) (pa : BitVec 48) (n : Nat) (x : ScLine) : let l := lineOf pa.toNat; let h := s.homeNo l
     HomeIdle s l → canNc s pa.toNat n = true → sendsClass a c = true → s.dirOf h l = none → mget? (s.home h).sc l.toNat = some x →
     let old : W64 := BitVec.ofNat 64 (lineGet x.data (pa.toNat % 64) n)
     (∃ t, exec (.ncRd a c pa n) s = .next t ∧ t.net = s.net ++ [Msg.adata a l old] ∧ t.homeCopy l = s.homeCopy l
       ∧ t = { s with fab := t.fab, uncore := t.uncore })
     ∧ (filterOn (s.home h) (pageOfLine l) = false →
       (∀ (mask : BitVec 64) (d : Line), ∃ t, exec (.ncWr a c l mask d) s = .next t ∧ t.net = s.net ++ [Msg.done a l]
         ∧ t.homeCopy l = lineMerge x.data d mask ∧ mget? (t.home h).wbuf l.toNat = some (lineMerge x.data d mask)
         ∧ t = { s with fab := t.fab, uncore := t.uncore })
       ∧ (∀ (op : BitVec 4) (fn : AtomFn) (o v : W64), atomOf op = some fn →
         ∃ t, exec (.atom a c pa n op o v) s = .next t ∧ t.net = s.net ++ [Msg.adata a l old]
           ∧ t.homeCopy l = linePut x.data (pa.toNat % 64) n (atomVal fn n old o v).toNat ∧ t = { s with fab := t.fab, uncore := t.uncore })) := by
  intro l h hi hc hs hd hx old
  have hold : s.homeCopy l = x.data := by simp only [State.homeCopy, h, l] at hx ⊢; rw [hx]
  refine ⟨?_, fun hf => ⟨fun mask d => ?_, fun op fn o v hop => ?_⟩⟩
  · have hr := askNc_reads (s := s) (r := { kind := .ncRd, src := a, line := l, off := pa.toNat % 64, size := n, cls := c }) (x := x)
      ⟨hi, .inl rfl, (nomatch ·), hd, hx⟩ rfl
    exact ⟨_, by simp [exec, execNcRd, whenTrue, hc, hs, l], hr.answer, hr.homeCopy.trans hold.symm, hr.quiet.onlyFabric⟩
  · obtain ⟨hr, hw⟩ := askNc_writes (s := s) (r := { kind := .ncWr, src := a, line := l, size := 64, data := d, mask := mask, cls := c }) (x := x)
      ⟨hi, .inr (.inl rfl), fun _ => hf, hd, hx⟩ rfl
    exact ⟨_, by simp [exec, execNcWr, whenTrue, canNc_line hc, hs, l], hr.answer, hr.homeCopy, hw, hr.quiet.onlyFabric⟩
  · have hr := askNc_atom (s := s) (fn := fn)
      (r := { kind := .atom, src := a, line := l, off := pa.toNat % 64, size := n, op := op, opnd := o, cmpv := v, cls := c }) (x := x)
      ⟨hi, .inr (.inr rfl), fun _ => hf, hd, hx⟩ rfl hop
    exact ⟨_, by simp [exec, execAtom, whenTrue, hc, hs, hop, l], hr.answer, hr.homeCopy, hr.quiet.onlyFabric⟩

end Sys2Proof.Machine
end

-- ==== Accesses of the keep region ====
section
/-! The spine's accesses of the keep region (08 R262 to R265; 09 R293), and with them O38. -/

namespace Sys2Proof.Machine

/-! ### A write of DRAM does not look at the tag caches -/

/-- The DRAM with other contents in its tag caches (09 R286). -/
def Dram.caching (d : Dram) (c : SMap (List (LineNo × Bool))) : Dram := { d with tagCache := c }

section
variable (d : Dram) (c : SMap (List (LineNo × Bool)))

theorem lineValueF_caching (n l : Nat) : lineValueF (d.caching c) n l = lineValueF d n l := by
  induction n generalizing l with
  | zero => rfl
  | succ n ih =>
    simp only [lineValueF, ih]
    rfl

@[simp] theorem dramRead_caching (l : Nat) : dramRead (d.caching c) l = dramRead d l := lineValueF_caching ..

theorem putSlot_caching (s : Slot) (v : Line) : putSlot (d.caching c) s v = (putSlot d s v).caching c := by
  have hl : (slotLost (d.caching c) s && (d.caching c).rebuild.isNone) = (slotLost d s && d.rebuild.isNone) := rfl
  simp only [putSlot, hl]
  split <;> rfl

theorem putHalf_caching (s : Slot) (b : Nat) : putHalf (d.caching c) s b = (putHalf d s b).caching c := by
  have hl : (slotLost (d.caching c) s && (d.caching c).rebuild.isNone) = (slotLost d s && d.rebuild.isNone) := rfl
  simp only [putHalf, hl]
  split <;> rfl

theorem putTagLine_caching (l : Nat) (v : Line) : putTagLine (d.caching c) l v = (putTagLine d l v).caching c := by
  have hm : (d.caching c).mode = d.mode := rfl
  cases h : d.mode with
  | open_ => simp only [putTagLine, hm, h, putSlot_caching]
  | parity =>
    simp only [putTagLine, hm, h, putSlot_caching, dramRead_caching]
    rfl

theorem putTag_caching (s : Slot) (t : Bool) : putTag (d.caching c) s t = (putTag d s t).caching c := by
  have hl : tagLineOf (d.caching c) s.r = tagLineOf d s.r := rfl
  simp only [putTag, hl, dramRead_caching, putTagLine_caching]
  split <;> rfl

theorem putData_caching (l : Nat) (v : Line) : putData (d.caching c) l v = (putData d l v).caching c := by
  have hm : (d.caching c).mode = d.mode := rfl
  have hi : (d.caching c).mica = d.mica := rfl
  have ht : isTagLine (d.caching c) l = isTagLine d l := rfl
  simp only [putData, hm, hi, ht, putHalf_caching, putSlot_caching, putTag_caching]
  split
  · rfl
  · split <;> rfl

theorem newParity_caching (r : Nat) (ws : List (Nat × Line)) : newParity (d.caching c) r ws = newParity d r ws := by
  have hu : byUpdate (d.caching c) r ws = byUpdate d r ws := rfl
  have hc : (d.caching c).cells = d.cells := rfl
  simp only [newParity, groupParity, dramRead_caching, hu, hc]

/-- A group of one line: its data, then the parity of its row (09 R281). -/
theorem writeGroup_single (d : Dram) (r l : Nat) (v : Line) : writeGroup d r [(l, v)] = putSlot (putData d l v) (paritySlot r) (newParity d r [(l, v)]) := by
  have hline : [(l, v)].foldl (fun a (w : Nat × Line) => putData a w.1 w.2) d = putData d l v := by rw [List.foldl_cons, List.foldl_nil]
  rw [writeGroup_eq, hline, paritySlot]

theorem dramWrite_parity (d : Dram) (l : Nat) (v : Line) (h : d.mode = .parity) :
    dramWrite d l v = putSlot (putData d l v) (paritySlot (l / 7)) (newParity d (l / 7) [(l, v)]) := by
  rw [← writeGroup_single]
  unfold dramWrite
  rw [h]

theorem dramWrite_open (d : Dram) (l : Nat) (v : Line) (h : d.mode = .open_) : dramWrite d l v = putData d l v := by
  unfold dramWrite
  rw [h]

theorem dramWrite_caching (l : Nat) (v : Line) : dramWrite (d.caching c) l v = (dramWrite d l v).caching c := by
  have hm : (d.caching c).mode = d.mode := rfl
  cases h : d.mode with
  | open_ => rw [dramWrite_open _ _ _ (hm.trans h), dramWrite_open _ _ _ h, putData_caching]
  | parity => rw [dramWrite_parity _ _ _ (hm.trans h), dramWrite_parity _ _ _ h, putData_caching, newParity_caching, putSlot_caching]

end

/-! ### The parts of an access -/

@[simp] theorem sendM_msgs (s : State) (a : Agent) (c : ClassId) (m : Msg) : (sendM s a c m).net = s.net ++ [m] := by simp [sendM]
@[simp] theorem sendM_dram (s : State) (a : Agent) (c : ClassId) (m : Msg) : (sendM s a c m).dram = s.dram := by simp [sendM]
@[simp] theorem sendM_spine (s : State) (a : Agent) (c : ClassId) (m : Msg) : (sendM s a c m).fab.spine = s.fab.spine := by simp [sendM]

section
variable (s : State) (l : LineNo)

@[simp] theorem setKeep_net (v : Option (Req × SpineWait)) : (setKeep s l v).net = s.net := rfl
@[simp] theorem setKeep_dram (v : Option (Req × SpineWait)) : (setKeep s l v).dram = s.dram := rfl
@[simp] theorem setKeep_spine (v : Option (Req × SpineWait)) :
    (setKeep s l v).fab.spine = { s.fab.spine with open_ := mset? s.fab.spine.open_ l.toNat v } := rfl
@[simp] theorem keepRecord_net (w : Option Line) : (keepRecord s l w).net = s.net := rfl
@[simp] theorem keepRecord_dram (w : Option Line) : (keepRecord s l w).dram = s.dram := rfl
@[simp] theorem keepRecord_spine (w : Option Line) : (keepRecord s l w).fab.spine = { s.fab.spine with record := some (l, w) } := rfl
@[simp] theorem blvTake_net (d : Line) : (blvTake s l d).net = s.net := rfl
@[simp] theorem blvTake_dram (d : Line) : (blvTake s l d).dram = s.dram := rfl
@[simp] theorem blvTake_open (d : Line) : (blvTake s l d).fab.spine.open_ = s.fab.spine.open_ := rfl
@[simp] theorem blvTake_wait (d : Line) : (blvTake s l d).fab.spine.wait = s.fab.spine.wait := rfl

/-- Belvedere holds the line that it takes (08 R264). -/
@[simp] theorem blvTake_line (d : Line) : mget? (blvTake s l d).fab.spine.blv l.toNat = some d := mget?_mput_self ..

/-- Only the tag caches and the counters change where a tag line is taken (09 R286). -/
theorem tagUse_frame (sl : Slot) (dirty : Bool) (c : ClassId) :
    (tagUse s sl dirty c).fab = s.fab ∧ ∃ q, (tagUse s sl dirty c).dram = s.dram.caching q := by
  simp only [tagUse]
  split
  · exact ⟨rfl, _, rfl⟩
  · exact ⟨uncoreEvent_fab .., _, uncoreEvent_dram ..⟩

/-- So do they where a write is counted (09 R283, R286). -/
theorem countWrite_frame (v : Line) (c : ClassId) : (countWrite s l v c).fab = s.fab ∧ ∃ q, (countWrite s l v c).dram = s.dram.caching q := by
  simp only [countWrite]
  split
  · exact ⟨by simp, s.dram.tagCache, by simp only [uncoreEvent_dram]; rfl⟩
  · generalize hs : uncoreEvent (uncoreEvent s _ _ _) _ _ _ = s1
    have hf : s1.fab = s.fab := by simp [← hs]
    have hd : s1.dram = s.dram := by simp [← hs]
    rw [← hf, ← hd]
    exact tagUse_frame ..

end

/-- From `s` to `t` the spine stores `d` to line `l`: DRAM takes it, and no message, no access that is open or waits changes (08 R262; 09 R293). -/
structure Stored (l : LineNo) (d : Line) (s t : State) : Prop where
  net : t.net = s.net
  open_ : t.fab.spine.open_ = s.fab.spine.open_
  wait : t.fab.spine.wait = s.fab.spine.wait
  dram : t.dram = (dramWrite s.dram l.toNat d).caching t.dram.tagCache

/-- Belvedere takes the line again where it holds it at all times (11 R369). -/
theorem blvAgain_stored {l : LineNo} {d : Line} {s t : State} (h : Stored l d s t) : Stored l d s (blvAgain t l d) := by
  unfold blvAgain
  split
  · exact ⟨by simpa using h.net, by simpa using h.open_, by simpa using h.wait, by simpa using h.dram⟩
  · exact h

theorem dramWrite_stored {l : LineNo} {d : Line} {s t : State} {q : SMap (List (LineNo × Bool))} (hf : t.fab = (keepRecord s l (some d)).fab)
    (hd : t.dram = s.dram.caching q) : Stored l d s { t with dram := dramWrite t.dram l.toNat d } where
  net := by rw [State.net, hf]; rfl
  open_ := by rw [hf]; rfl
  wait := by rw [hf]; rfl
  dram := by rw [hd, dramWrite_caching]; rfl

theorem keepStore_stored (s : State) (l : LineNo) (d : Line) : Stored l d s (keepStore s l d) := by
  unfold keepStore
  generalize hs : uncoreEvent (keepRecord s l (some d)) _ _ _ = s0
  have hf : s0.fab = (keepRecord s l (some d)).fab := by simp [← hs]
  have hd : s0.dram = s.dram := by simp [← hs]
  obtain ⟨hfab, q, hdram⟩ := countWrite_frame s0 l d devClass
  exact blvAgain_stored (dramWrite_stored (hfab.trans hf) (hdram.trans (congrArg (Dram.caching · q) hd)))

/-- A line for which nothing waits is gone on with by nothing (08 R262). -/
theorem keepNext_idle {s : State} {l : LineNo} (h : ∀ q ∈ s.fab.spine.wait, q.line ≠ l) : keepNext s l = s := by
  have hw : s.fab.spine.wait.filter (fun r => r.line == l) = [] := List.filter_eq_nil_iff.2 fun q hq => by simpa using h q hq
  rw [keepNext, hw]
  rfl

/-- What the spine has done with an access of line `l`: it sent `ms`, and the access stands open as `o`; the accesses that wait are the same (08 R262). -/
structure Kept (l : LineNo) (s t : State) (ms : List Msg) (o : Option (Req × SpineWait)) : Prop where
  net : t.net = s.net ++ ms
  here : mget? t.fab.spine.open_ l.toNat = o
  wait : t.fab.spine.wait = s.fab.spine.wait

section
variable {s : State} {r : Req}

/-- A read, or an atomic, reads DRAM first (08 R262, R263). -/
theorem keepServe_reads (h : r.kind ≠ .ncWr) :
    Kept r.line s (keepServe s r) [.mrd r.line] (some (r, .mdata)) ∧ (keepServe s r).dram = s.dram := by
  have hk : (r.kind == .ncWr) = false := by simpa using h
  simp only [keepServe, hk]
  exact ⟨⟨by simp, by simp, by simp⟩, by simp⟩

/-- A write is performed where the fill has passed its row (08 R264; 09 R293). -/
theorem keepServe_writes (h : r.kind = .ncWr) (hf : rowFilled s.dram r.line = true) :
    Kept r.line s (keepServe s r) [.done r.src r.line] none
      ∧ (keepServe s r).dram = (dramWrite s.dram r.line.toNat (lineMerge (dramPeek s.dram r.line) r.data r.mask)).caching (keepServe s r).dram.tagCache := by
  have hk : keepServe s r = keepWrite s r := by simp [keepServe, h, hf]
  obtain ⟨hnet, hopen, hwait, hdram⟩ := keepStore_stored (setKeep s r.line none) r.line (lineMerge (dramPeek s.dram r.line) r.data r.mask)
  rw [setKeep_dram] at hdram
  rw [hk, keepWrite]
  refine ⟨⟨by simp [hnet], by simp [hopen], by simp [hwait]⟩, ?_⟩
  rw [sendT_dram, uncoreEvent_dram]
  exact hdram

/-- A write waits for the fill (09 R293). -/
theorem keepServe_rowWaits (h : r.kind = .ncWr) (hf : rowFilled s.dram r.line = false) :
    Kept r.line s (keepServe s r) [] (some (r, .row)) ∧ (keepServe s r).dram = s.dram := by
  have hk : keepServe s r = setKeep s r.line (some (r, .row)) := by simp [keepServe, h, hf]
  rw [hk]
  exact ⟨⟨by simp, by simp, by simp⟩, rfl⟩

/-- A write or an atomic on a line that Belvedere holds sends KINV first (08 R264). -/
theorem keepStart_held (h : r.kind ≠ .ncRd) (hb : mget? s.fab.spine.blv r.line.toNat ≠ none) :
    Kept r.line s (keepStart s r) [.kinv r.line] (some (r, .kinv)) ∧ (keepStart s r).dram = s.dram := by
  have hk : (r.kind != .ncRd && (mget? s.fab.spine.blv r.line.toNat).isSome) = true := by simp [h, Option.isSome_iff_ne_none, hb]
  simp only [keepStart, hk, if_true]
  exact ⟨⟨by simp, by simp, by simp⟩, by simp⟩

/-- Any other access is served at once. -/
theorem keepStart_free (h : r.kind = .ncRd ∨ mget? s.fab.spine.blv r.line.toNat = none) : keepStart s r = keepServe (keepRecord s r.line none) r := by
  have hk : (r.kind != .ncRd && (mget? s.fab.spine.blv r.line.toNat).isSome) = false := by rcases h with h | h <;> simp [h]
  simp only [keepStart, hk]
  rfl

/-- What the record in the mirror does not touch. -/
theorem Kept.ofRecord {l : LineNo} {w : Option Line} {t : State} {ms : List Msg} {o : Option (Req × SpineWait)} (h : Kept l (keepRecord s l w) t ms o) :
    Kept l s t ms o := ⟨h.net, h.here, h.wait⟩

/-- The first access of a line begins at once (08 R262). -/
theorem keepAccept_first (ho : mget? s.fab.spine.open_ r.line.toNat = none) (hw : ∀ q ∈ s.fab.spine.wait, q.line ≠ r.line) :
    keepAccept s r = keepStart s r := by
  have hany : s.fab.spine.wait.any (fun q => q.line == r.line) = false := by simpa using hw
  simp [keepAccept, ho, hany]

/-- An access behind one that is open waits (08 R262). -/
theorem keepAccept_waits (ho : mget? s.fab.spine.open_ r.line.toNat ≠ none) :
    (keepAccept s r).fab.spine = { s.fab.spine with wait := s.fab.spine.wait ++ [r] } ∧ (keepAccept s r).net = s.net ∧ (keepAccept s r).dram = s.dram := by
  have h : keepAccept s r = { s with fab := { s.fab with spine := { s.fab.spine with wait := s.fab.spine.wait ++ [r] } } } := by
    simp [keepAccept, Option.isSome_iff_ne_none, ho]
  rw [h]
  exact ⟨rfl, rfl, rfl⟩

/-! ### An access that its agent sends -/

@[simp] theorem numbered_spine : (numbered s r).fab.spine = s.fab.spine := by simp [numbered, State.newTag]
@[simp] theorem numbered_dram : (numbered s r).dram = s.dram := by simp [numbered]

theorem askKeep_eq : ∃ t, askKeep s r = keepAccept (numbered s r) (r.withTag t) := ⟨_, by rw [askKeep, numbered, Req.withTag]⟩

/-- What counting and numbering do not touch. -/
theorem Kept.ofNumbered {l : LineNo} {t : State} {ms : List Msg} {o : Option (Req × SpineWait)} (h : Kept l (numbered s r) t ms o) : Kept l s t ms o :=
  ⟨by rw [h.net, numbered_net], h.here, by rw [h.wait, numbered_spine]⟩

/-- An access of an agent on a line for which nothing waits begins at once (08 R262). -/
theorem askKeep_first (ho : mget? s.fab.spine.open_ r.line.toNat = none) (hw : ∀ q ∈ s.fab.spine.wait, q.line ≠ r.line) :
    ∃ t, askKeep s r = keepStart (numbered s r) (r.withTag t) := by
  obtain ⟨t, ht⟩ := askKeep_eq (s := s) (r := r)
  have hfirst := keepAccept_first (s := numbered s r) (r := r.withTag t) (by simpa using ho) (by simpa using hw)
  exact ⟨t, by rw [ht, hfirst]⟩

/-- One behind an access that is open waits (08 R262). -/
theorem askKeep_waits (ho : mget? s.fab.spine.open_ r.line.toNat ≠ none) :
    ∃ t, (askKeep s r).fab.spine = { s.fab.spine with wait := s.fab.spine.wait ++ [r.withTag t] } ∧ (askKeep s r).net = s.net ∧ (askKeep s r).dram = s.dram := by
  obtain ⟨t, ht⟩ := askKeep_eq (s := s) (r := r)
  obtain ⟨hspine, hnet, hdram⟩ := keepAccept_waits (s := numbered s r) (r := r.withTag t) (by simpa using ho)
  rw [numbered_spine] at hspine
  rw [ht]
  exact ⟨t, hspine, hnet.trans numbered_net, hdram.trans numbered_dram⟩

/-- So a read, or an atomic on a line that Belvedere does not hold, reads DRAM (08 R262, R263). -/
theorem askKeep_reads (ho : mget? s.fab.spine.open_ r.line.toNat = none) (hw : ∀ q ∈ s.fab.spine.wait, q.line ≠ r.line) (hk : r.kind ≠ .ncWr)
    (hb : r.kind = .ncRd ∨ mget? s.fab.spine.blv r.line.toNat = none) :
    ∃ t, Kept r.line s (askKeep s r) [.mrd r.line] (some (r.withTag t, .mdata)) ∧ (askKeep s r).dram = s.dram := by
  obtain ⟨t, ht⟩ := askKeep_first ho hw
  have hfree := keepStart_free (s := numbered s r) (r := r.withTag t) (by simpa using hb)
  obtain ⟨hkept, hdram⟩ := keepServe_reads (s := keepRecord (numbered s r) r.line none) (r := r.withTag t) hk
  rw [ht, hfree]
  exact ⟨t, hkept.ofRecord.ofNumbered, by simpa using hdram⟩

/-- A write or an atomic on a line that Belvedere holds sends KINV (08 R264). -/
theorem askKeep_held (ho : mget? s.fab.spine.open_ r.line.toNat = none) (hw : ∀ q ∈ s.fab.spine.wait, q.line ≠ r.line) (hk : r.kind ≠ .ncRd)
    (hb : mget? s.fab.spine.blv r.line.toNat ≠ none) :
    ∃ t, Kept r.line s (askKeep s r) [.kinv r.line] (some (r.withTag t, .kinv)) ∧ (askKeep s r).dram = s.dram := by
  obtain ⟨t, ht⟩ := askKeep_first ho hw
  obtain ⟨hkept, hdram⟩ := keepStart_held (s := numbered s r) (r := r.withTag t) hk (by simpa using hb)
  rw [ht]
  exact ⟨t, hkept.ofNumbered, by simpa using hdram⟩

/-- A write on a line that Belvedere does not hold is performed, or waits for the fill (08 R264; 09 R293). -/
theorem askKeep_writes (ho : mget? s.fab.spine.open_ r.line.toNat = none) (hw : ∀ q ∈ s.fab.spine.wait, q.line ≠ r.line) (hk : r.kind = .ncWr)
    (hb : mget? s.fab.spine.blv r.line.toNat = none) :
    (rowFilled s.dram r.line = true → (askKeep s r).net = s.net ++ [.done r.src r.line]
      ∧ (askKeep s r).dram = (dramWrite s.dram r.line.toNat (lineMerge (dramPeek s.dram r.line) r.data r.mask)).caching (askKeep s r).dram.tagCache)
    ∧ (rowFilled s.dram r.line = false → ∃ t, Kept r.line s (askKeep s r) [] (some (r.withTag t, .row)) ∧ (askKeep s r).dram = s.dram) := by
  obtain ⟨t, ht⟩ := askKeep_first ho hw
  have hfree := keepStart_free (s := numbered s r) (r := r.withTag t) (.inr (by simpa using hb))
  rw [ht, hfree]
  refine ⟨fun hf => ?_, fun hf => ?_⟩
  · obtain ⟨hkept, hdram⟩ := keepServe_writes (s := keepRecord (numbered s r) r.line none) (r := r.withTag t) hk (by simpa using hf)
    exact ⟨hkept.ofRecord.ofNumbered.net, by simpa using hdram⟩
  · obtain ⟨hkept, hdram⟩ := keepServe_rowWaits (s := keepRecord (numbered s r) r.line none) (r := r.withTag t) hk (by simpa using hf)
    exact ⟨t, hkept.ofRecord.ofNumbered, by simpa using hdram⟩

end

/-! ### Messages at the spine -/

section
variable {s : State} {l : LineNo} {r : Req} {d : Line}

/-- The answer is sent, and nothing that waits goes on (08 R262). -/
theorem answered_kept {t : State} {ms : List Msg} {o : Option (Req × SpineWait)} (h : Kept l s t ms o) (hw : ∀ q ∈ s.fab.spine.wait, q.line ≠ l)
    (a : Agent) (c : ClassId) (tag : BitVec 16) (m : Msg) :
    keepNext (sendT t a c tag m) l = sendT t a c tag m ∧ Kept l s (sendT t a c tag m) (ms ++ [m]) o := by
  refine ⟨keepNext_idle ?_, by simp [h.net], by simp [h.here], by simp [h.wait]⟩
  rwa [sendT_spine, h.wait]

/-- What an access that is no atomic leaves when its data is in: Belvedere takes the line of its own read (08 R262, R264). -/
def afterRead (s : State) (l : LineNo) (r : Req) (d : Line) : State :=
  uncoreEvent (if r.src = 25 then blvTake (setKeep s l none) l d else setKeep s l none) 36 1 r.cls

theorem afterRead_kept : Kept l s (afterRead s l r d) [] none := by
  unfold afterRead
  split <;> exact ⟨by simp, by simp, by simp⟩

@[simp] theorem afterRead_dram : (afterRead s l r d).dram = s.dram := by
  unfold afterRead
  split <;> simp

theorem afterRead_blv (h : r.src = 25) : mget? (afterRead s l r d).fab.spine.blv l.toNat = some d := by
  simp [afterRead, h]

/-- The data of a read is in (08 R262). -/
theorem onSpineData_read (ho : mget? s.fab.spine.open_ l.toNat = some (r, .mdata)) (hw : ∀ q ∈ s.fab.spine.wait, q.line ≠ l) (hk : r.kind ≠ .atom) :
    Kept l s (onSpineData s l d) [.adata r.src l (BitVec.ofNat 64 (lineGet d r.off r.size))] none ∧ (onSpineData s l d).dram = s.dram
      ∧ (r.src = 25 → mget? (onSpineData s l d).fab.spine.blv l.toNat = some d) := by
  have hkb : (r.kind == .atom) = false := by simpa using hk
  obtain ⟨hnext, hkept⟩ := answered_kept (afterRead_kept (s := s) (r := r) (d := d)) hw 30 r.cls r.tag
    (.adata r.src l (BitVec.ofNat 64 (lineGet d r.off r.size)))
  have ht : onSpineData s l d = sendT (afterRead s l r d) 30 r.cls r.tag (.adata r.src l (BitVec.ofNat 64 (lineGet d r.off r.size))) := by
    rw [← hnext]
    simp [onSpineData, ho, hkb, afterRead]
  rw [ht]
  exact ⟨hkept, by simp, fun h => by simpa using afterRead_blv h⟩

/-- What an atomic leaves when its data is in (08 R263). -/
def afterAtom (s : State) (l : LineNo) (r : Req) (d : Line) (old v : W64) : State :=
  uncoreEvent (if v = old then setKeep s l none else keepStore (setKeep s l none) l (linePut d r.off r.size v.toNat)) 36 3 r.cls

theorem afterAtom_kept {old v : W64} : Kept l s (afterAtom s l r d old v) [] none
    ∧ (afterAtom s l r d old v).dram
      = (if v = old then s.dram else dramWrite s.dram l.toNat (linePut d r.off r.size v.toNat)).caching (afterAtom s l r d old v).dram.tagCache := by
  obtain ⟨hnet, hopen, hwait, hdram⟩ := keepStore_stored (setKeep s l none) l (linePut d r.off r.size v.toNat)
  rw [setKeep_dram] at hdram
  unfold afterAtom
  rw [uncoreEvent_dram]
  split
  · exact ⟨⟨by simp, by simp, by simp⟩, rfl⟩
  · exact ⟨⟨by simp [hnet], by simp [hopen], by simp [hwait]⟩, hdram⟩

/-- The data of an atomic is in (08 R263). -/
theorem onSpineData_atom (ho : mget? s.fab.spine.open_ l.toNat = some (r, .mdata)) (hw : ∀ q ∈ s.fab.spine.wait, q.line ≠ l)
    (hk : r.kind = .atom) :
    let old : W64 := BitVec.ofNat 64 (lineGet d r.off r.size)
    let v := atomNew r.op r.size old r.opnd r.cmpv
    Kept l s (onSpineData s l d) [.adata r.src l old] none
      ∧ (onSpineData s l d).dram = (if v = old then s.dram else dramWrite s.dram l.toNat (linePut d r.off r.size v.toNat)).caching (onSpineData s l d).dram.tagCache := by
  intro old v
  obtain ⟨hafter, hdram⟩ := afterAtom_kept (s := s) (l := l) (r := r) (d := d) (old := old) (v := v)
  obtain ⟨hnext, hkept⟩ := answered_kept hafter hw 30 r.cls r.tag (.adata r.src l old)
  have ht : onSpineData s l d = sendT (afterAtom s l r d old v) 30 r.cls r.tag (.adata r.src l old) := by
    rw [← hnext]
    simp [onSpineData, ho, hk, afterAtom, old, v]
  rw [ht, sendT_dram]
  exact ⟨hkept, hdram⟩

/-- The acknowledgement of Belvedere is in: the access goes on (08 R264). -/
theorem onSpineAck_serves {ms : List Msg} {o : Option (Req × SpineWait)} (ho : mget? s.fab.spine.open_ l.toNat = some (r, .kinv))
    (hw : ∀ q ∈ s.fab.spine.wait, q.line ≠ l) (hk : Kept l s (keepServe s r) ms o) : onSpineAck s l = keepServe s r := by
  simp only [onSpineAck, ho]
  refine keepNext_idle ?_
  rwa [hk.wait]

end

/-! ### The parts of O38 -/

/-- An access of the keep region on a line for which nothing waits (08 R262 to R264; 09 R293). -/
theorem keep_begins (s : State) (a : Agent) (pa : BitVec 48) (n : Nat) : let l := lineOf pa.toNat; let sp := s.fab.spine
    keepLine s pa.toNat n = true → (∀ r ∈ sp.wait, r.line ≠ l) → mget? sp.open_ l.toNat = none →
    (∃ t r, exec (.keepRd a pa n) s = .next t ∧ t.net = s.net ++ [Msg.mrd l] ∧ t.dram = s.dram
      ∧ mget? t.fab.spine.open_ l.toNat = some (r, .mdata) ∧ r.kind = .ncRd ∧ r.src = a ∧ r.off = pa.toNat % 64 ∧ r.size = n)
    ∧ (∀ (op : BitVec 4) (fn : AtomFn) (o v : W64), atomOf op = some fn →
      ∃ t r, exec (.keepAtom a pa n op o v) s = .next t ∧ t.dram = s.dram ∧ r.kind = .atom ∧ r.src = a
        ∧ (mget? sp.blv l.toNat = none → t.net = s.net ++ [Msg.mrd l] ∧ mget? t.fab.spine.open_ l.toNat = some (r, .mdata))
        ∧ (mget? sp.blv l.toNat ≠ none → t.net = s.net ++ [Msg.kinv l] ∧ mget? t.fab.spine.open_ l.toNat = some (r, .kinv)))
    ∧ (keepLine s (l.toNat * 64) 64 = true → ∀ (mask : BitVec 64) (d : Line),
      ∃ t, exec (.keepWr a l mask d) s = .next t
        ∧ (mget? sp.blv l.toNat = none → rowFilled s.dram l = true → t.net = s.net ++ [Msg.done a l]
          ∧ t.dram = { dramWrite s.dram l.toNat (lineMerge (dramPeek s.dram l) d mask) with tagCache := t.dram.tagCache })
        ∧ (mget? sp.blv l.toNat = none → rowFilled s.dram l = false → t.net = s.net ∧ t.dram = s.dram
          ∧ ∃ r, mget? t.fab.spine.open_ l.toNat = some (r, .row) ∧ r.data = d ∧ r.mask = mask)
        ∧ (mget? sp.blv l.toNat ≠ none → t.net = s.net ++ [Msg.kinv l] ∧ t.dram = s.dram
          ∧ ∃ r, mget? t.fab.spine.open_ l.toNat = some (r, .kinv) ∧ r.data = d ∧ r.mask = mask)) := by
  intro l sp hl hw ho
  refine ⟨?_, fun op fn o v hop => ?_, fun hline mask d => ?_⟩
  · let r : Req := { kind := .ncRd, src := a, line := l, off := pa.toNat % 64, size := n }
    obtain ⟨tag, hkept, hdram⟩ := askKeep_reads (r := r) ho hw (by simp [r]) (.inl rfl)
    exact ⟨_, r.withTag tag, by simp [exec, execKeepRd, whenTrue, hl, r, l], hkept.net, hdram, hkept.here, rfl, rfl, rfl, rfl⟩
  · let r : Req := { kind := .atom, src := a, line := l, off := pa.toNat % 64, size := n, op := op, opnd := o, cmpv := v }
    have hexec : exec (.keepAtom a pa n op o v) s = .next (askKeep s r) := by simp [exec, execKeepAtom, whenTrue, hl, hop, r, l]
    by_cases hb : mget? sp.blv l.toNat = none
    · obtain ⟨tag, hkept, hdram⟩ := askKeep_reads (r := r) ho hw (by simp [r]) (.inr hb)
      exact ⟨_, r.withTag tag, hexec, hdram, rfl, rfl, fun _ => ⟨hkept.net, hkept.here⟩, fun h => absurd hb h⟩
    · obtain ⟨tag, hkept, hdram⟩ := askKeep_held (r := r) ho hw (by simp [r]) hb
      exact ⟨_, r.withTag tag, hexec, hdram, rfl, rfl, fun h => absurd h hb, fun _ => ⟨hkept.net, hkept.here⟩⟩
  · let r : Req := { kind := .ncWr, src := a, line := l, size := 64, data := d, mask := mask }
    refine ⟨askKeep s r, by simp [exec, execKeepWr, whenTrue, hline, r], fun hb hf => ?_, fun hb hf => ?_, fun hb => ?_⟩
    · exact (askKeep_writes (r := r) ho hw rfl hb).1 hf
    · obtain ⟨tag, hkept, hdram⟩ := (askKeep_writes (r := r) ho hw rfl hb).2 hf
      exact ⟨by rw [hkept.net, List.append_nil], hdram, r.withTag tag, hkept.here, rfl, rfl⟩
    · obtain ⟨tag, hkept, hdram⟩ := askKeep_held (r := r) ho hw (by simp [r]) hb
      exact ⟨hkept.net, hdram, r.withTag tag, hkept.here, rfl, rfl⟩

/-- MDATA of a line of the keep region (08 R262, R263). -/
theorem execMdata_spine (s u : State) (l : LineNo) (r : Req) (d : Line) (hfirst : First s l (.mdata l d) u) (hkeep : inKeep s (l.toNat * 64) = true)
    (ho : mget? s.fab.spine.open_ l.toNat = some (r, .mdata)) (hw : ∀ q ∈ s.fab.spine.wait, q.line ≠ l) :
    let old : W64 := BitVec.ofNat 64 (lineGet d r.off r.size)
    ∃ t, exec (.mdata l) s = .next t ∧ t.net = u.net ++ [Msg.adata r.src l old] ∧ mget? t.fab.spine.open_ l.toNat = none
      ∧ (r.kind = .ncRd → t.dram = s.dram ∧ (r.src = 25 → mget? t.fab.spine.blv l.toNat = some d))
      ∧ (∀ fn, r.kind = .atom → atomOf r.op = some fn → let new := atomVal fn r.size old r.opnd r.cmpv
        t.dram = { (if new = old then s.dram else dramWrite s.dram l.toNat (linePut d r.off r.size new.toNat)) with tagCache := t.dram.tagCache }) := by
  intro old
  obtain ⟨p, as, bs, hp, rfl, hrow⟩ := takeRow_first hfirst
    (f := fun m => match m with | .mdata l' _ => l' == l | _ => false) (fun x hx => by cases x <;> simp_all [msgFor, msgPage, msgLine]) (by simp)
  have hexec : exec (.mdata l) s = .next (onSpineData (arrive s p (as ++ bs)) l d) := by
    have hin : inKeep (arrive s p (as ++ bs)) (l.toNat * 64) = true := by simpa [inKeep] using hkeep
    exact hrow.trans (by simp [deliver, hp, hin, orStay])
  refine ⟨_, hexec, ?_⟩
  by_cases hk : r.kind = .atom
  · obtain ⟨hkept, hdram⟩ := onSpineData_atom (s := arrive s p (as ++ bs)) (d := d) ho hw hk
    refine ⟨hkept.net, hkept.here, fun h => absurd (hk.symm.trans h) (by simp), fun fn _ hop => ?_⟩
    simp only [atomNew, hop] at hdram
    exact hdram
  · obtain ⟨hkept, hdram, hblv⟩ := onSpineData_read (s := arrive s p (as ++ bs)) (d := d) ho hw hk
    exact ⟨hkept.net, hkept.here, fun _ => ⟨hdram, hblv⟩, fun _ h => absurd h hk⟩

/-- KINV: Belvedere gives the line up (08 R264). -/
theorem execKinv_gives (s : State) (l : LineNo) (as bs : List FabMsg) (p : FabMsg) (hs : s.fab.net = as ++ p :: bs) (hp : p.msg = .kinv l)
    (ha : ∀ m ∈ as, m.msg ≠ .kinv l) :
    ∃ t, exec (.kinv l) s = .next t ∧ mget? t.fab.spine.blv l.toNat = none ∧ t.net = (as ++ bs).map (·.msg) ++ [Msg.ack 25 30 l] ∧ t.dram = s.dram := by
  have hrow := takeRow_append (f := fun m => m == .kinv l) hs (fun m hm => by simpa using ha m hm) (by simp [hp])
  have hexec : exec (.kinv l) s = .next (onKinv (arrive s p (as ++ bs)) l) := hrow.trans (by simp [deliver, hp, orStay])
  exact ⟨_, hexec, by simp [onKinv], by rw [onKinv, sendM_msgs]; rfl, by simp [onKinv]⟩

/-- The acknowledgement of KINV (08 R264; 09 R293). -/
theorem execAck_spine (s u : State) (l : LineNo) (r : Req) (hfirst : First s l (.ack 25 30 l) u) (ho : mget? s.fab.spine.open_ l.toNat = some (r, .kinv))
    (hl : r.line = l) (hw : ∀ q ∈ s.fab.spine.wait, q.line ≠ l) : ∃ t, exec (.ack 30 l) s = .next t
      ∧ (r.kind = .atom → t.net = u.net ++ [Msg.mrd l] ∧ t.dram = s.dram ∧ mget? t.fab.spine.open_ l.toNat = some (r, .mdata))
      ∧ (r.kind = .ncWr → rowFilled s.dram l = true → t.net = u.net ++ [Msg.done r.src l] ∧ mget? t.fab.spine.open_ l.toNat = none
        ∧ t.dram = { dramWrite s.dram l.toNat (lineMerge (dramPeek s.dram l) r.data r.mask) with tagCache := t.dram.tagCache }) := by
  obtain ⟨p, as, bs, hp, rfl, hrow⟩ := takeRow_first hfirst
    (f := fun m => match m with | .ack _ a l' => a == 30 && l' == l | _ => false) (fun x hx => by cases x <;> simp_all [msgFor, msgPage, msgLine]) (by simp)
  have hexec : exec (.ack 30 l) s = .next (onSpineAck (arrive s p (as ++ bs)) l) := hrow.trans (by simp [deliver, hp, orStay])
  subst hl
  refine ⟨_, hexec, fun hk => ?_, fun hk hf => ?_⟩
  · obtain ⟨hkept, hdram⟩ := keepServe_reads (s := arrive s p (as ++ bs)) (r := r) (by simp [hk])
    rw [onSpineAck_serves (s := arrive s p (as ++ bs)) ho hw hkept]
    exact ⟨hkept.net, hdram, hkept.here⟩
  · obtain ⟨hkept, hdram⟩ := keepServe_writes (s := arrive s p (as ++ bs)) hk hf
    rw [onSpineAck_serves (s := arrive s p (as ++ bs)) ho hw hkept]
    exact ⟨hkept.net, hkept.here, hdram⟩

/-- A read behind an access that is open (08 R262). -/
theorem execKeepRd_waits (s : State) (a : Agent) (pa : BitVec 48) (n : Nat) : let l := lineOf pa.toNat
    keepLine s pa.toNat n = true → mget? s.fab.spine.open_ l.toNat ≠ none →
    ∃ t r, exec (.keepRd a pa n) s = .next t ∧ r.src = a ∧ r.line = l ∧ r.kind = .ncRd
      ∧ t.fab.spine = { s.fab.spine with wait := s.fab.spine.wait ++ [r] } ∧ t.net = s.net ∧ t.dram = s.dram := by
  intro l hl ho
  let r : Req := { kind := .ncRd, src := a, line := l, off := pa.toNat % 64, size := n }
  obtain ⟨tag, hspine, hnet, hdram⟩ := askKeep_waits (s := s) (r := r) ho
  exact ⟨askKeep s r, r.withTag tag, by simp [exec, execKeepRd, whenTrue, hl, r, l], rfl, rfl, rfl, hspine, hnet, hdram⟩

/-- Settles O38: an access at an idle home is performed in its own step; one of the keep region goes from wait to wait at the spine. -/
theorem uncachedAndKeepAccesses : Obligations.UncachedAndKeepAccesses := by
  unfold Obligations.UncachedAndKeepAccesses
  exact ⟨uncached_atIdleHome, keep_begins, execMdata_spine, execKinv_gives, execAck_spine, execKeepRd_waits⟩

end Sys2Proof.Machine
end

-- ==== Slices that stand ====
section
/-! The slices that have failed, and HT, are changed by nothing but a slice's own failure (08 R242, R243; 15 R465). One lemma `<operation>_slices` for each operation that a rebuild goes through: an operation that leaves the home slices alone keeps both by `Slices.frame`, one that writes a slice by `setHome_slices`. -/

namespace Sys2Proof.Machine

/-- Which slices have failed. -/
def deadOf (m : SMap Home) (k : Nat) : Bool := (mget m k {}).dead

/-- In `s` the same slices have failed as in `z`, and HT is the same. -/
structure Slices (z s : State) : Prop where
  dead : deadOf s.fab.homes = deadOf z.fab.homes
  table : s.fab.ht = z.fab.ht

theorem Slices.refl (z : State) : Slices z z := ⟨rfl, rfl⟩

theorem mget_map {f : Home → Home} (m : SMap Home) (k : Nat) (h : f {} = {}) : mget (m.map (fun p => (p.1, f p.2))) k {} = f (mget m k {}) := by
  induction m with
  | nil => exact h.symm
  | cons p m ih =>
    simp only [List.map_cons, mget, mget?] at ih ⊢
    split
    · rfl
    · exact ih

/-- The effect of a configuration command leaves the slices as they are. -/
def Cfg.KeepsSlices (c : Cfg) : Prop := ∀ z s p img, Slices z s → Slices z (c.apply s p img)

section
variable {z : State}

theorem slices_iff {s : State} : Slices z s ↔ deadOf s.fab.homes = deadOf z.fab.homes ∧ s.fab.ht = z.fab.ht :=
  ⟨fun h => ⟨h.dead, h.table⟩, fun h => ⟨h.1, h.2⟩⟩

theorem Slices.frame {s t : State} (h : Slices z s) (hh : t.fab.homes = s.fab.homes) (ht : t.fab.ht = s.fab.ht) : Slices z t :=
  ⟨(congrArg deadOf hh).trans h.dead, ht.trans h.table⟩

theorem setHome_slices {s k v} (h : Slices z s) (hv : v.dead = (s.home k).dead) : Slices z (State.setHome s k v) := by
  refine ⟨?_, h.table⟩
  rw [← h.dead]
  funext j
  show ((s.setHome k v).home j).dead = (s.home j).dead
  by_cases hj : j = k
  · rw [hj, State.home_setHome_self, hv]
  · rw [State.home_setHome_ne _ _ _ _ hj]

/-- The state of a pair that is known by its parts. -/
theorem Slices.snd {α : Type} {p : α × State} {a : α} {t : State} (h : Slices z p.2) (e : p = (a, t)) : Slices z t := by
  subst e; exact h

theorem Slices.setNet {s : State} (h : Slices z s) {n : List FabMsg} : Slices z { s with fab := { s.fab with net := n } } := h.frame rfl rfl

theorem Slices.setRetryq {s : State} (h : Slices z s) {q : List (Req × Bool)} : Slices z { s with fab := { s.fab with retryq := q } } := h.frame rfl rfl

theorem Slices.setHeldReads {s : State} (h : Slices z s) {q : List Req} : Slices z { s with fab := { s.fab with heldReads := q } } := h.frame rfl rfl

theorem Slices.setDram {s : State} (h : Slices z s) {d : Dram} : Slices z { s with dram := d } := h.frame rfl rfl

theorem ite_slices {c : Prop} [Decidable c] {s t : State} (hs : Slices z s) (ht : Slices z t) : Slices z (if c then s else t) := by
  split <;> assumption

theorem foldl_slices {α : Type} {f : State → α → State} {l : List α} {s : State} (hf : ∀ t a, Slices z t → Slices z (f t a)) (h : Slices z s) :
    Slices z (l.foldl f s) := by
  induction l generalizing s with
  | nil => exact h
  | cons a l ih => exact ih (hf s a h)

theorem Slices.setArb {s : State} (h : Slices z s) {a : Arbor} : Slices z { s with arb := a } := h.frame rfl rfl

theorem Slices.setGate {s : State} (h : Slices z s) {g : Gate} : Slices z { s with gate := g } := h.frame rfl rfl

theorem Slices.setFunnel {s : State} (h : Slices z s) {f : Funnel} : Slices z { s with funnel := f } := h.frame rfl rfl

theorem Slices.setFlash {s : State} (h : Slices z s) {f : Flash} : Slices z { s with flash := f } := h.frame rfl rfl

theorem Slices.setQosMap {s : State} (h : Slices z s) {q} : Slices z { s with qos := q } := h.frame rfl rfl

/-! ### Parts of the state -/

theorem setCore_slices {s vc c} (h : Slices z s) : Slices z (State.setCore s vc c) :=
  h.frame rfl rfl

theorem updCore_slices {s vc f} (h : Slices z s) : Slices z (State.updCore s vc f) :=
  setCore_slices h

theorem setPav_slices {s p v} (h : Slices z s) : Slices z (State.setPav s p v) :=
  h.frame rfl rfl

theorem setQos_slices {s c q} (h : Slices z s) : Slices z (State.setQos s c q) :=
  h.frame rfl rfl

theorem setSes_slices {s n v} (h : Slices z s) : Slices z (State.setSes s n v) :=
  h.frame rfl rfl

theorem setLane_slices {s n v} (h : Slices z s) : Slices z (State.setLane s n v) :=
  h.frame rfl rfl

theorem setTimer_slices {s n v} (h : Slices z s) : Slices z (State.setTimer s n v) :=
  h.frame rfl rfl

theorem setPort_slices {s p v} (h : Slices z s) : Slices z (State.setPort s p v) :=
  h.frame rfl rfl

theorem setCluster_slices {s k v} (h : Slices z s) : Slices z (State.setCluster s k v) :=
  h.frame rfl rfl

theorem reach_slices {s t} (h : Slices z s) : Slices z (State.reach s t) :=
  h.frame rfl rfl

theorem answer_slices {s v} (h : Slices z s) : Slices z (State.answer s v) :=
  h.frame rfl rfl

theorem free_slices {s} (h : Slices z s) : Slices z (State.free s).2 :=
  h.frame rfl rfl

theorem setL2_slices {s k l v} (h : Slices z s) : Slices z (State.setL2 s k l v) :=
  setCluster_slices h

theorem setMshr_slices {s k l v} (h : Slices z s) : Slices z (State.setMshr s k l v) :=
  setCluster_slices h

theorem setTxn_slices {s k l v} (h : Slices z s) : Slices z (State.setTxn s k l v) :=
  setHome_slices h rfl

theorem setDir_slices {s k l v} (h : Slices z s) : Slices z (State.setDir s k l v) :=
  setHome_slices h rfl

theorem setWbuf_slices {s k l v} (h : Slices z s) : Slices z (setWbuf s k l v) := by
  unfold setWbuf
  exact setHome_slices (setHome_slices h rfl) rfl

theorem scAge_dead (h : Home) (l : LineNo) (mask : BitVec 16) : (scAge h l mask).dead = h.dead := by
  unfold scAge
  dsimp only
  split <;> rfl

theorem scPut_slices {s k l d dirty c} (h : Slices z s) : Slices z (scPut s k l d dirty c) := by
  unfold scPut
  generalize hs : (if dirty = true then setWbuf s k l (some (d, c)) else s) = t
  have ht : Slices z t := hs ▸ ite_slices (setWbuf_slices h) h
  dsimp only
  split
  · exact setHome_slices ht rfl
  · split
    · exact ht
    · exact setHome_slices ht (scAge_dead ..)

theorem setUnit_slices {s kind i u1} (h : Slices z s) : Slices z (State.setUnit s kind i u1) :=
  h.frame rfl rfl

/-! ### Records and counters -/

theorem logOpen_slices {s e} (h : Slices z s) : Slices z (logOpen s e).2.2 := by
  grind [logOpen, free_slices]

theorem logEvent_slices {s e} (h : Slices z s) : Slices z (logEvent s e) := by
  unfold logEvent
  apply ite_slices h.setGate
  exact (logOpen_slices h).setGate

theorem flagRec_slices {s seq bit} (h : Slices z s) : Slices z (flagRec s seq bit) :=
  h.frame rfl rfl

theorem pendNotice_slices {s vc hyp n fresh} (h : Slices z s) : Slices z (pendNotice s vc hyp n fresh) := by
  unfold pendNotice
  dsimp only
  split
  · exact ite_slices (h.frame rfl rfl) h
  · exact flagRec_slices (setCore_slices h)

theorem notify_slices {s cls seq vc} (h : Slices z s) : Slices z (notify s cls seq vc) := by
  have h1 := ite_slices (c := (s.policy 0x200).testBit cls.toNat) (pendNotice_slices (vc := vc.getD 0) (hyp := true) (n := { cls := cls, seq := seq }) (fresh := true) h) h
  cases vc with
  | none => exact h1
  | some v => exact ite_slices (pendNotice_slices h1) h1

theorem recordFault_slices {s e1 vc} (h : Slices z s) : Slices z (recordFault s e1 vc) :=
  notify_slices (logEvent_slices (setUnit_slices h))

theorem uncoreEvent_slices {s unit code cls} (h : Slices z s) : Slices z (uncoreEvent s unit code cls) := by
  rw [uncoreEvent_frame]
  exact h.frame rfl rfl

/-! ### Messages -/

theorem newTag_slices {s a} (h : Slices z s) : Slices z (State.newTag s a).2 :=
  h.frame rfl rfl

theorem sendT_slices {s src cls tag m} (h : Slices z s) : Slices z (sendT s src cls tag m) := by
  unfold sendT
  exact uncoreEvent_slices (h.frame rfl rfl)

theorem sendM_slices {s src cls m} (h : Slices z s) : Slices z (sendM s src cls m) :=
  sendT_slices h

theorem sendAll_slices {s src cls m ks} (h : Slices z s) : Slices z (sendAll s src cls m ks) :=
  foldl_slices (fun _ _ h1 => sendM_slices h1) h

theorem arrive_slices {s p rest} (h : Slices z s) : Slices z (arrive s p rest) :=
  h.frame rfl rfl

theorem dropPacket_slices {s vc} (h : Slices z s) : Slices z (dropPacket s vc) := by
  unfold dropPacket
  dsimp only
  apply uncoreEvent_slices
  apply Slices.setFunnel
  exact setCore_slices h

theorem pushPacket_slices {s vc bs} (h : Slices z s) : Slices z (pushPacket s vc bs) := by
  unfold pushPacket
  apply ite_slices
  · dsimp only
    apply Slices.setFunnel
    exact setCore_slices h
  · exact dropPacket_slices h

theorem emitRaw_slices {s vc a p} (h : Slices z s) : Slices z (emitRaw s vc a p) :=
  pushPacket_slices (setCore_slices h)

theorem emitHeld_slices {s vc a} (h : Slices z s) : Slices z (emitHeld s vc a) :=
  ite_slices h (ite_slices (dropPacket_slices (setCore_slices h)) (emitRaw_slices h))

theorem sendWb_slices {s k l x} (h : Slices z s) : Slices z (sendWb s k l x) := by
  unfold sendWb
  split
  · next he => exact sendT_slices (setCluster_slices ((newTag_slices h).snd he))

theorem discardFill_slices {vc s f} (h : Slices z s) : Slices z (discardFill vc s f) := by
  unfold discardFill
  dsimp only
  split
  · split
    · exact h
    · exact setL2_slices h
  · split
    · exact h
    · exact ite_slices (ite_slices (sendWb_slices (setL2_slices h)) (setL2_slices h)) h
  · exact updCore_slices h
  · exact updCore_slices h
  · exact updCore_slices h
  · exact h

theorem discardFills_slices {s vc n} (h : Slices z s) : Slices z (discardFills s vc n) :=
  foldl_slices (fun _ _ h1 => discardFill_slices h1) (updCore_slices h)

theorem rollbackCore_slices {s vc} (h : Slices z s) : Slices z (rollbackCore s vc) :=
  setCore_slices (discardFills_slices h)

theorem queueEvent_slices {s vc ev} (h : Slices z s) : Slices z (queueEvent s vc ev) :=
  updCore_slices h

theorem specRollback_slices {s vc} (h : Slices z s) : Slices z (specRollback s vc) :=
  queueEvent_slices (rollbackCore_slices h)

theorem rollbackReaders_slices {s k l except} (h : Slices z s) : Slices z (rollbackReaders s k l except) :=
  foldl_slices (fun _ _ h1 => ite_slices (specRollback_slices h1) h1) h

theorem dropRegions_slices {s vc f} (h : Slices z s) : Slices z (dropRegions s vc f) :=
  ite_slices h (ite_slices (setCore_slices h) (ite_slices (setCore_slices h) (rollbackCore_slices (setCore_slices h))))

theorem forgetReq_slices {s r} (h : Slices z s) : Slices z (forgetReq s r) :=
  updCore_slices h

theorem dropRequests_slices {s k f} (h : Slices z s) : Slices z (dropRequests s k f) :=
  foldl_slices (fun _ _ h1 => forgetReq_slices h1) (setCluster_slices h)

theorem dropRecent_slices {s k f} (h : Slices z s) : Slices z (dropRecent s k f) :=
  setCluster_slices h

theorem dropPage_slices {s k p} (h : Slices z s) : Slices z (dropPage s k p) :=
  dropRecent_slices (dropRequests_slices (foldl_slices (fun _ _ h1 => updCore_slices (dropRegions_slices (ite_slices (rollbackCore_slices h1) h1))) h))

/-! ### Homes -/

theorem updTxn_slices {s k l f} (h : Slices z s) : Slices z (updTxn s k l f) := by
  unfold updTxn
  split
  · exact setTxn_slices h
  · exact h

theorem fillTxn_slices {s k l t} (h : Slices z s) : Slices z (fillTxn s k l t) := by
  unfold fillTxn
  dsimp only
  split
  · exact setTxn_slices (uncoreEvent_slices (setHome_slices h rfl))
  · split
    · exact setTxn_slices (uncoreEvent_slices h)
    · apply ite_slices
      · exact (setTxn_slices (uncoreEvent_slices h)).setHeldReads
      · exact sendM_slices (setTxn_slices (uncoreEvent_slices h))

theorem closeTxn_slices {s k l} (h : Slices z s) : Slices z (closeTxn s k l) :=
  setTxn_slices h

theorem grantShared_slices {s k l t d} (h : Slices z s) : Slices z (grantShared s k l t d) :=
  sendM_slices (setTxn_slices (setDir_slices h))

theorem grantOwned_slices {s k l t d} (h : Slices z s) : Slices z (grantOwned s k l t d) :=
  sendM_slices (setTxn_slices (setDir_slices h))

theorem performNc_slices {s k l t d} (h : Slices z s) : Slices z (performNc s k l t d) := by
  unfold performNc
  dsimp only
  split
  · exact sendT_slices (closeTxn_slices h)
  · exact sendT_slices (closeTxn_slices (scPut_slices (setDir_slices h)))
  · exact sendT_slices (closeTxn_slices (scPut_slices (setDir_slices h)))

theorem finishTxn_slices {s k l} (h : Slices z s) : Slices z (finishTxn s k l) := by
  unfold finishTxn
  split
  · exact h
  · apply ite_slices
    · apply ite_slices (sendM_slices (setTxn_slices h))
      apply ite_slices
      · dsimp only
        apply closeTxn_slices
        apply setDir_slices
        split
        · exact ite_slices (scPut_slices h) h
        · exact h
      · apply ite_slices (sendM_slices (setTxn_slices (setDir_slices h)))
        split
        · exact h
        · split
          · exact grantShared_slices h
          · exact grantShared_slices h
          · exact grantOwned_slices h
          · exact grantOwned_slices h
          · exact performNc_slices h
    · exact h

theorem claimOwned_slices {s k l t} (h : Slices z s) : Slices z (claimOwned s k l t) := by
  unfold claimOwned
  dsimp only
  split
  · exact fillTxn_slices h
  · split
    · exact fillTxn_slices (sendAll_slices h)
    · exact sendM_slices (setTxn_slices (setDir_slices (sendAll_slices h)))

theorem collectLine_slices {s k l t} (h : Slices z s) : Slices z (collectLine s k l t) := by
  unfold collectLine
  dsimp only
  split
  · exact fillTxn_slices h
  · split
    · exact fillTxn_slices (sendAll_slices h)
    · exact sendM_slices (setTxn_slices (sendAll_slices h))

theorem proceedTxn_slices {s k l t} (h : Slices z s) : Slices z (proceedTxn s k l t) := by
  unfold proceedTxn
  dsimp only
  split
  · split
    · split
      · exact fillTxn_slices h
      · exact sendM_slices (setTxn_slices h)
    · exact fillTxn_slices h
  · split
    · split
      · exact fillTxn_slices h
      · exact sendM_slices (setTxn_slices h)
    · exact fillTxn_slices h
  · exact claimOwned_slices h
  · split
    · exact ite_slices (setTxn_slices (sendAll_slices h)) (claimOwned_slices h)
    · exact claimOwned_slices h
  · split
    · split
      · exact fillTxn_slices h
      · exact sendM_slices (setTxn_slices h)
    · exact fillTxn_slices h
  · exact collectLine_slices h
  · exact collectLine_slices h
  · exact closeTxn_slices h

theorem startTxn_slices {s k r} (h : Slices z s) : Slices z (startTxn s k r) :=
  ite_slices (sendM_slices (setTxn_slices h)) (ite_slices (sendM_slices (setTxn_slices h)) (finishTxn_slices (proceedTxn_slices (setTxn_slices h))))

theorem startVictim_slices {s k v e1 c} (h : Slices z s) : Slices z (startVictim s k v e1 c) :=
  finishTxn_slices (sendAll_slices (uncoreEvent_slices (setTxn_slices (newTag_slices h))))

theorem queueReq_slices {s k r} (h : Slices z s) : Slices z (queueReq s k r) := by
  unfold queueReq
  exact uncoreEvent_slices (setHome_slices h rfl)

theorem nackReq_slices {s k r} (h : Slices z s) : Slices z (nackReq s k r) := by
  unfold nackReq
  apply sendT_slices
  apply uncoreEvent_slices
  apply Slices.setRetryq
  exact ite_slices (setHome_slices h rfl) h

theorem pumpQueue_slices {s k} (h : Slices z s) : Slices z (pumpQueue s k) :=
  foldl_slices (fun _ _ h1 => ite_slices h1 (startTxn_slices (setHome_slices h1 rfl))) h

theorem pumpVictim_slices {s k} (h : Slices z s) : Slices z (pumpVictim s k) := by
  unfold pumpVictim
  refine foldl_slices (fun t a ht => ?_) ?_
  · dsimp only
    apply ite_slices ht
    split
    · exact startVictim_slices ht
    · exact ht
  · exact h

theorem pumpTokens_slices {s k} (h : Slices z s) : Slices z (pumpTokens s k) := by
  unfold pumpTokens
  refine foldl_slices (fun t a ht => ?_) ?_
  · dsimp only
    split
    · exact ht
    · exact ite_slices ht (sendT_slices ht)
  · exact h

theorem placeReqAs_slices {s r sure} (h : Slices z s) : Slices z (placeReqAs s r sure) := by
  unfold placeReqAs
  dsimp only
  apply ite_slices (queueReq_slices h)
  apply ite_slices (startTxn_slices h)
  split
  · exact startVictim_slices (queueReq_slices h)
  · exact ite_slices (queueReq_slices h) (nackReq_slices h)

theorem placeReq_slices {s r} (h : Slices z s) : Slices z (placeReq s r) :=
  placeReqAs_slices h

theorem startDown_slices {s k l owner} (h : Slices z s) : Slices z (startDown s k l owner) := by
  unfold startDown
  split
  · exact sendM_slices (setTxn_slices h)
  · split
    · next he => exact sendM_slices (setTxn_slices ((newTag_slices h).snd he))

theorem noteDown_slices {s k p l} (h : Slices z s) : Slices z (noteDown s k p l) :=
  setHome_slices h rfl

theorem pumpSet_slices {s k p} (h : Slices z s) : Slices z (pumpSet s k p) :=
  ite_slices (foldl_slices (fun _ _ h1 => startDown_slices (noteDown_slices h1)) h) (sendM_slices (setHome_slices (foldl_slices (fun _ _ h1 => startDown_slices (noteDown_slices h1)) h) rfl))

theorem pumpSets_slices {s k} (h : Slices z s) : Slices z (pumpSets s k) :=
  foldl_slices (fun _ _ h1 => pumpSet_slices h1) h

theorem pumpLeft_slices {s k} (h : Slices z s) : Slices z (pumpLeft s k) :=
  foldl_slices (fun _ _ h1 => ite_slices h1 (placeReq_slices (h1.frame rfl rfl))) h

theorem pumpHome_slices {s k} (h : Slices z s) : Slices z (pumpHome s k) :=
  pumpTokens_slices (pumpQueue_slices (pumpVictim_slices (pumpQueue_slices (pumpSets_slices (pumpLeft_slices h)))))

theorem openReq_slices {s r} (h : Slices z s) : Slices z (openReq s r) :=
  pumpHome_slices (placeReq_slices h)

/-! ### Clusters -/

theorem sendCmp_slices {s k l c} (h : Slices z s) : Slices z (sendCmp s k l c) :=
  sendM_slices (foldl_slices (fun _ _ h1 => updCore_slices h1) (by grind [setMshr_slices, setL2_slices]))

theorem tryCmp_slices {s k l} (h : Slices z s) : Slices z (tryCmp s k l) := by
  unfold tryCmp
  split
  · exact h
  · exact ite_slices (sendCmp_slices h) h

theorem tryCmpAll_slices {s k n} (h : Slices z s) : Slices z (tryCmpAll s k n) := by
  induction n generalizing s with
  | zero => exact h
  | succ n ih =>
    have ht := foldl_slices (l := mkeys (s.cluster k).mshr) (fun _ l => tryCmp_slices (k := k) (l := BitVec.ofNat 42 l)) h
    exact ite_slices (ih ht) ht

theorem evictLine_slices {s k l} (h : Slices z s) : Slices z (evictLine s k l) := by
  unfold evictLine
  split
  · exact h
  · exact ite_slices (sendWb_slices (setL2_slices (rollbackReaders_slices h))) (setL2_slices (rollbackReaders_slices h))

theorem l2Room_slices {s k l} (h : Slices z s) : Slices z (l2Room s k l) := by
  unfold l2Room
  dsimp only
  apply ite_slices h
  split
  · exact evictLine_slices h
  · exact h

theorem takeData_slices {s0 k l d granted n dirty} (h : Slices z s0) : Slices z (takeData s0 k l d granted n dirty) := by
  have h0 := l2Room_slices (k := k) (l := l) h
  have h1 (m : Mshr) (st : L2St) : Slices z (match (l2Room s0 k l).l2 k l with
      | some x => if m.kind == .rdX || m.kind == .upg then (l2Room s0 k l).setL2 k l (some { x with st := st, data := d, cls := m.cls }) else l2Room s0 k l
      | none => (l2Room s0 k l).setL2 k l (some { st := st, data := d, pres := [], cls := m.cls })) := by
    split
    · exact ite_slices (setL2_slices h0) h0
    · exact setL2_slices h0
  have h2 (m : Mshr) {t : State} (ht : Slices z t) : Slices z (match m.kind, m.core with
      | .rdCode, some v => t.updCore v (fun c => fetchTake c l)
      | _, _ => t) := by
    split
    · exact updCore_slices ht
    · exact ht
  unfold takeData
  split
  · exact h
  · next m _ =>
    dsimp only
    split
    · exact tryCmpAll_slices (setMshr_slices (h2 m (h1 ..)))
    · exact tryCmpAll_slices (setMshr_slices (h2 m (h1 ..)))
    · exact sendCmp_slices (h2 m (h1 ..))

theorem takeGrant_slices {s k l n} (h : Slices z s) : Slices z (takeGrant s k l n) := by
  grind [takeGrant, setL2_slices, tryCmpAll_slices, setMshr_slices]

theorem giveUp_slices {s k l} (h : Slices z s) : Slices z (giveUp s k l) :=
  setL2_slices (rollbackReaders_slices h)

theorem fromWb_slices {s k l e1 req st n} (h : Slices z s) : Slices z (fromWb s k l e1 req st n) :=
  sendM_slices (ite_slices (sendM_slices h) h)

theorem onFwdS_slices {s k l req} (h : Slices z s) : Slices z (onFwdS s k l req) := by
  unfold onFwdS
  dsimp only
  split
  · exact fromWb_slices h
  · split
    · exact sendM_slices h
    · split
      · exact sendM_slices h
      · exact sendM_slices (ite_slices (sendM_slices (setL2_slices h)) (setL2_slices h))

theorem onFwdX_slices {s k l req n} (h : Slices z s) : Slices z (onFwdX s k l req n) := by
  unfold onFwdX
  dsimp only
  split
  · exact fromWb_slices h
  · split
    · exact sendM_slices h
    · split
      · exact sendM_slices h
      · exact sendM_slices (giveUp_slices h)

theorem onFwdRd_slices {s k l} (h : Slices z s) : Slices z (onFwdRd s k l) := by
  unfold onFwdRd
  dsimp only
  split
  · exact fromWb_slices h
  · split
    · exact sendM_slices h
    · split
      · exact sendM_slices h
      · exact sendM_slices (setL2_slices h)

theorem onInv_slices {s k l coll} (h : Slices z s) : Slices z (onInv s k l coll) :=
  sendM_slices (giveUp_slices h)

theorem onBinv_slices {s k l} (h : Slices z s) : Slices z (onBinv s k l) := by
  unfold onBinv
  dsimp only
  split
  · exact fromWb_slices h
  · split
    · exact sendM_slices h
    · exact sendM_slices (giveUp_slices h)

/-! ### Answers at a home -/

theorem wbEntry_slices {s h1 l} (h : Slices z s) : Slices z (wbEntry s h1 l) := by
  unfold wbEntry
  split
  · exact h
  · split
    · exact h
    · exact setDir_slices h
    · exact setDir_slices h

theorem dropHolder_slices {s h1 l k} (h : Slices z s) : Slices z (dropHolder s h1 l k) := by
  unfold dropHolder
  split
  · exact h
  · exact ite_slices (ite_slices (setDir_slices h) (setDir_slices h)) (setDir_slices h)

theorem refill_slices {s h1 l} (h : Slices z s) : Slices z (refill s h1 l) := by
  unfold refill
  split
  · exact h
  · exact finishTxn_slices (fillTxn_slices (setTxn_slices h))

theorem endPre_slices {s h1 l t} (h : Slices z s) : Slices z (endPre s h1 l t) :=
  ite_slices (setTxn_slices h) (finishTxn_slices (proceedTxn_slices (setTxn_slices h)))

theorem onNotHeld_slices {s h1 l k} (h : Slices z s) : Slices z (onNotHeld s h1 l k) := by
  unfold onNotHeld
  split
  · exact h
  · exact ite_slices (closeTxn_slices (dropHolder_slices h)) (ite_slices (endPre_slices (dropHolder_slices h)) (refill_slices (ite_slices h (dropHolder_slices h))))

theorem endForward_slices {s h1 l t} (h : Slices z s) : Slices z (endForward s h1 l t) :=
  ite_slices (endPre_slices h) (ite_slices (closeTxn_slices h) (setTxn_slices h))

theorem onFwdAck3_slices {s h1 l k t} (h : Slices z s) : Slices z (onFwdAck3 s h1 l k t) := by
  unfold onFwdAck3
  dsimp only
  apply ite_slices (finishTxn_slices (setTxn_slices h))
  apply ite_slices (ite_slices (ite_slices (endPre_slices h) (closeTxn_slices h)) (setTxn_slices h))
  split
  · exact endForward_slices (setDir_slices h)
  · exact endForward_slices (setDir_slices h)
  · exact setTxn_slices h
  · exact setTxn_slices h
  · exact ite_slices (finishTxn_slices (fillTxn_slices (setTxn_slices h))) (setTxn_slices h)

theorem onFwdAck_slices {s h1 l k info tag} (h : Slices z s) : Slices z (onFwdAck s h1 l k info tag) := by
  unfold onFwdAck
  split
  · exact h
  · exact ite_slices h (ite_slices (onFwdAck3_slices h) (endForward_slices (setDir_slices h)))

theorem wbForTxn_slices {s0 h1 l k d c owner t} (h : Slices z s0) : Slices z (wbForTxn s0 h1 l k d c owner t) :=
  ite_slices (ite_slices (finishTxn_slices (setTxn_slices (ite_slices (wbEntry_slices h) h))) (ite_slices (closeTxn_slices (ite_slices (wbEntry_slices h) h)) (ite_slices (endPre_slices (ite_slices (wbEntry_slices h) h)) (ite_slices (endForward_slices (ite_slices (wbEntry_slices h) h)) (finishTxn_slices (fillTxn_slices (setTxn_slices (ite_slices (wbEntry_slices h) h)))))))) (ite_slices (setTxn_slices (ite_slices (wbEntry_slices h) h)) (ite_slices (wbEntry_slices h) h))

theorem onWb_slices {s h1 l k d c} (h : Slices z s) : Slices z (onWb s h1 l k d c) := by
  grind [onWb, uncoreEvent_slices, scPut_slices, wbForTxn_slices, wbEntry_slices, sendM_slices]

theorem onDataH_slices {s h1 l d dirty c} (h : Slices z s) : Slices z (onDataH s h1 l d dirty c) :=
  finishTxn_slices (updTxn_slices h)

theorem onHomeAck_slices {s h1 l} (h : Slices z s) : Slices z (onHomeAck s h1 l) :=
  finishTxn_slices (updTxn_slices h)

theorem onClusterAck_slices {s k l} (h : Slices z s) : Slices z (onClusterAck s k l) := by
  unfold onClusterAck
  split
  · exact h
  · exact tryCmpAll_slices (setMshr_slices h)

theorem onMdata_slices {s h1 l d} (h : Slices z s) : Slices z (onMdata s h1 l d) := by
  unfold onMdata
  split
  · exact h
  · exact finishTxn_slices (setTxn_slices (scPut_slices h))

theorem onCodeAnswer_slices {s h1 l} (h : Slices z s) : Slices z (onCodeAnswer s h1 l) := by
  unfold onCodeAnswer
  split
  · exact h
  · exact ite_slices (ite_slices (finishTxn_slices (setTxn_slices h)) (ite_slices (setTxn_slices h) (finishTxn_slices (proceedTxn_slices (setTxn_slices h))))) h

theorem onCmp_slices {s h1 l} (h : Slices z s) : Slices z (onCmp s h1 l) := by
  unfold onCmp
  split
  · exact h
  · exact ite_slices (setTxn_slices h) (closeTxn_slices h)

theorem onCodeSet_slices {s k p} (h : Slices z s) : Slices z (onCodeSet s k p) :=
  pumpSet_slices (setHome_slices h rfl)

theorem lowerCount_slices {s k p} (h : Slices z s) : Slices z (lowerCount s k p) :=
  setHome_slices h rfl

theorem onCodeClr_slices {s k p} (h : Slices z s) : Slices z (onCodeClr s k p) :=
  sendM_slices (lowerCount_slices h)

theorem startDrop_slices {s h1 p} (h : Slices z s) : Slices z (startDrop s h1 p) :=
  sendAll_slices (uncoreEvent_slices (setHome_slices h rfl))

theorem startMark_slices {s h1 p} (h : Slices z s) : Slices z (startMark s h1 p) :=
  sendAll_slices (setHome_slices h rfl)

theorem answerLines_slices {s h1 p ls} (h : Slices z s) : Slices z (answerLines s h1 p ls) :=
  foldl_slices (fun _ _ h1 => sendM_slices h1) (setHome_slices h rfl)

theorem codeStep_slices {s h1 p} (h : Slices z s) : Slices z (codeStep s h1 p) := by
  unfold codeStep
  dsimp only
  apply ite_slices h
  apply ite_slices (ite_slices (startDrop_slices h) (answerLines_slices h))
  apply ite_slices (ite_slices h (answerLines_slices h))
  apply ite_slices (startMark_slices (ite_slices h (answerLines_slices h)))
  split
  · exact ite_slices (ite_slices h (answerLines_slices h)) (startDrop_slices (ite_slices h (answerLines_slices h)))
  · exact ite_slices h (answerLines_slices h)

theorem codeStepAll_slices {s h1} (h : Slices z s) : Slices z (codeStepAll s h1) :=
  foldl_slices (fun _ _ h1 => codeStep_slices h1) h

theorem onCodeAsk_slices {s p l} (h : Slices z s) : Slices z (onCodeAsk s p l) :=
  codeStep_slices (setHome_slices h rfl)

theorem onDropAck_slices {s h1 p k} (h : Slices z s) : Slices z (onDropAck s h1 p k) := by
  unfold onDropAck
  dsimp only
  split
  · exact h
  · exact ite_slices (sendAll_slices (setHome_slices h rfl)) (setHome_slices h rfl)

theorem onCodeDone_slices {s k h1 p} (h : Slices z s) : Slices z (onCodeDone s k h1 p) := by
  unfold onCodeDone
  dsimp only
  split
  · exact ite_slices (codeStep_slices (setHome_slices h rfl)) (setHome_slices h rfl)
  · split
    · exact h
    · exact ite_slices (codeStepAll_slices (setHome_slices h rfl)) (setHome_slices h rfl)

theorem onRetry_slices {s a l} (h : Slices z s) : Slices z (onRetry s a l) := by
  unfold onRetry
  dsimp only
  split
  · exact pumpHome_slices (setHome_slices h rfl)
  · apply pumpHome_slices
    apply placeReqAs_slices
    apply Slices.setRetryq
    exact setHome_slices h rfl

theorem onAdata_slices {s a l v} (h : Slices z s) : Slices z (onAdata s a l v) :=
  h.frame rfl rfl

/-! ### DRAM and the spine -/

theorem tagUse_slices {s sl dirty c} (h : Slices z s) : Slices z (tagUse s sl dirty c) :=
  ite_slices (h.frame rfl rfl) (uncoreEvent_slices (h.frame rfl rfl))

theorem countWrite_slices {s l v c} (h : Slices z s) : Slices z (countWrite s l v c) :=
  ite_slices (uncoreEvent_slices (uncoreEvent_slices h)) (tagUse_slices (uncoreEvent_slices (uncoreEvent_slices h)))

theorem readSlot_slices {s l c} (h : Slices z s) : Slices z (readSlot s l c).2 :=
  ite_slices (ite_slices (uncoreEvent_slices (uncoreEvent_slices h)) (tagUse_slices (uncoreEvent_slices (uncoreEvent_slices h)))) (setQos_slices (ite_slices (uncoreEvent_slices (uncoreEvent_slices h)) (tagUse_slices (uncoreEvent_slices (uncoreEvent_slices h)))))

theorem onMrd_slices {s l} (h : Slices z s) : Slices z (onMrd s l) :=
  sendM_slices (readSlot_slices h)

theorem keepRecord_slices {s l w1} (h : Slices z s) : Slices z (keepRecord s l w1) :=
  h.frame rfl rfl

theorem setKeep_slices {s l v} (h : Slices z s) : Slices z (setKeep s l v) :=
  h.frame rfl rfl

theorem blvTake_slices {s l d} (h : Slices z s) : Slices z (blvTake s l d) :=
  h.frame rfl rfl

theorem blvAgain_slices {s l d} (h : Slices z s) : Slices z (blvAgain s l d) :=
  ite_slices (uncoreEvent_slices (blvTake_slices h)) h

theorem keepStore_slices {s l d} (h : Slices z s) : Slices z (keepStore s l d) := by
  unfold keepStore
  exact blvAgain_slices ((countWrite_slices (uncoreEvent_slices (keepRecord_slices h))).setDram)

theorem keepWrite_slices {s r} (h : Slices z s) : Slices z (keepWrite s r) := by
  unfold keepWrite
  exact sendT_slices (uncoreEvent_slices (keepStore_slices (setKeep_slices h)))

theorem keepServe_slices {s r} (h : Slices z s) : Slices z (keepServe s r) :=
  ite_slices (ite_slices (keepWrite_slices h) (setKeep_slices h)) (sendM_slices (setKeep_slices h))

theorem keepStart_slices {s r} (h : Slices z s) : Slices z (keepStart s r) :=
  ite_slices (sendM_slices (uncoreEvent_slices (setKeep_slices (keepRecord_slices h)))) (keepServe_slices (keepRecord_slices h))

theorem keepAccept_slices {s r} (h : Slices z s) : Slices z (keepAccept s r) :=
  ite_slices (h.frame rfl rfl) (keepStart_slices h)

theorem keepNext_slices {s l} (h : Slices z s) : Slices z (keepNext s l) :=
  foldl_slices (fun _ _ h1 => ite_slices h1 (keepStart_slices (h1.frame rfl rfl))) h

theorem onSpineData_slices {s l d} (h : Slices z s) : Slices z (onSpineData s l d) := by
  unfold onSpineData
  split
  · exact keepNext_slices (sendT_slices (ite_slices (uncoreEvent_slices (ite_slices (setKeep_slices h) (keepStore_slices (setKeep_slices h)))) (uncoreEvent_slices (ite_slices (blvTake_slices (setKeep_slices h)) (setKeep_slices h)))))
  · exact h

theorem onKinv_slices {s l} (h : Slices z s) : Slices z (onKinv s l) :=
  sendM_slices (h.frame rfl rfl)

theorem onSpineAck_slices {s l} (h : Slices z s) : Slices z (onSpineAck s l) := by
  unfold onSpineAck
  split
  · exact keepNext_slices (keepServe_slices h)
  · exact h

/-! ### Delivery -/

theorem deliver_slices {s p u} (h : Slices z s) (e : deliver s p = some u) : Slices z u := by
  grind [deliver, onFwdS_slices, onFwdX_slices, onFwdRd_slices, onInv_slices, onBinv_slices, sendM_slices, dropPage_slices, onKinv_slices, onClusterAck_slices, pumpHome_slices, onHomeAck_slices, onSpineAck_slices, onFwdAck_slices, onNotHeld_slices, takeGrant_slices, onCmp_slices, onWb_slices, setCluster_slices, onRetry_slices, onCodeAnswer_slices, onDropAck_slices, takeData_slices, onDataH_slices, onMrd_slices, onSpineData_slices, onMdata_slices, onAdata_slices, onCodeAsk_slices, onCodeSet_slices, onCodeClr_slices, onCodeDone_slices, slices_iff]

theorem deliverFirst_slices {s f u} (h : Slices z s) (e : deliverFirst s f = some u) : Slices z u := by
  unfold deliverFirst at e
  split at e
  · cases e
  · exact deliver_slices (arrive_slices h) e

theorem settle_slices {l n s} (h : Slices z s) : Slices z (settle l n s) := by
  induction n generalizing s with
  | zero => exact h
  | succ n ih =>
    unfold settle
    split
    · exact h
    · next e => exact ih (deliverFirst_slices h e)

theorem runNc_slices {s r u} (h : Slices z s) (e : runNc s r = some u) : Slices z u := by
  grind [runNc, settle_slices, newTag_slices, uncoreEvent_slices, openReq_slices]

/-! ### Writes of devices, and replies -/

theorem raisePhys_slices {s vc id} (h : Slices z s) : Slices z (raisePhys s vc id) :=
  updCore_slices h

theorem dropNow_slices {s p} (h : Slices z s) : Slices z (dropNow s p) := by
  unfold dropNow
  have h1 : Slices z ((List.range 8).foldl (fun t k => dropPage t k p) s) := foldl_slices (fun _ _ h1 => dropPage_slices h1) h
  generalize (List.range 8).foldl (fun t k => dropPage t k p) s = s1 at h1
  refine ite_slices (ite_slices h1 ?_) h
  apply foldl_slices (fun _ _ h2 => lowerCount_slices h2)
  apply uncoreEvent_slices
  exact setHome_slices h1 rfl

theorem pokeLine_slices {s c l f} (h : Slices z s) : Slices z (pokeLine s c l f) := by
  unfold pokeLine
  apply scPut_slices
  apply updTxn_slices
  apply Slices.setNet
  exact foldl_slices (fun _ _ h1 => by grind [setL2_slices, rollbackReaders_slices]) (dropNow_slices h)

theorem deviceNc_slices {s r} (h : Slices z s) : Slices z (deviceNc s r) := by
  unfold deviceNc
  split
  · next he => exact runNc_slices h he
  · split
    · next he2 =>
        exact ite_slices (openReq_slices ((newTag_slices (uncoreEvent_slices h)).snd he2)) (((newTag_slices (uncoreEvent_slices h)).snd he2).frame rfl rfl)

theorem homeAtomic_slices {s a pa fn v} (h : Slices z s) : Slices z (homeAtomic s a pa fn v) :=
  deviceNc_slices h

theorem gateWrite32_slices {s pa v} (h : Slices z s) : Slices z (gateWrite32 s pa v) :=
  deviceNc_slices h

theorem setPend_slices {s p v i} (h : Slices z s) : Slices z (setPend s p v i) :=
  homeAtomic_slices h

theorem latchId_slices {s vc i} (h : Slices z s) : Slices z (latchId s vc i) :=
  updCore_slices h

theorem doorbell_slices {s pn v} (h : Slices z s) : Slices z (doorbell s pn v) :=
  ite_slices (raisePhys_slices (homeAtomic_slices h)) h

theorem postVirq_slices {s pn i} (h : Slices z s) : Slices z (postVirq s pn i) := by
  unfold postVirq
  dsimp only
  apply ite_slices h
  apply ite_slices (setPav_slices h)
  apply ite_slices
  · apply ite_slices (setPend_slices (setPav_slices (setQos_slices h)))
    split
    · exact latchId_slices (setQos_slices h)
    · exact doorbell_slices (setPend_slices (setQos_slices h))
  · exact h

theorem postRoutes_slices {s src} (h : Slices z s) : Slices z (postRoutes s src) :=
  foldl_slices (fun _ _ h1 => by grind [raisePhys_slices, postVirq_slices]) h

theorem postSource_slices {s src} (h : Slices z s) : Slices z (postSource s src) := by
  unfold postSource
  split
  · exact h.frame rfl rfl
  · exact ite_slices (h.frame rfl rfl) h
  · exact postRoutes_slices h

theorem askKeep_slices {s r} (h : Slices z s) : Slices z (askKeep s r) := by
  unfold askKeep
  split
  · next he => exact keepAccept_slices ((newTag_slices (uncoreEvent_slices h)).snd he)

theorem runKeep_slices {s r w u} (h : Slices z s) (e : runKeep s r = some (w, u)) : Slices z u := by
  unfold runKeep at e
  dsimp only at e
  split at e
  · split at e
    · cases e
      exact settle_slices (askKeep_slices (settle_slices h))
    · cases e
  · cases e

theorem agentWrite_slices {s a c pa n v u} (h : Slices z s) (e : agentWrite s a c pa n v = some u) : Slices z u := by
  simp only [agentWrite] at e
  split at e
  · obtain ⟨⟨v, t⟩, hr, rfl⟩ := Option.map_eq_some_iff.1 e
    exact runKeep_slices h hr
  · exact runNc_slices h e

theorem inboundTouch_slices {a c rs s} (h : Slices z s) : Slices z (inboundTouch a c rs s) := by
  unfold inboundTouch
  refine foldl_slices (fun t a ht => ?_) ?_
  · dsimp only
    split
    · next he => exact runKeep_slices ht he
    · exact askKeep_slices ht
  · exact h

theorem deviceWrite_slices {s pa n v} (h : Slices z s) : Slices z (deviceWrite s pa n v) := by
  unfold deviceWrite
  dsimp only
  split
  · next he => exact runNc_slices h he
  · exact ite_slices (pokeLine_slices h) (deviceNc_slices h)

theorem writeSlot_slices {s pa r} (h : Slices z s) : Slices z (writeSlot s pa r) := by
  unfold writeSlot
  exact deviceWrite_slices (deviceWrite_slices (deviceWrite_slices (deviceWrite_slices (deviceWrite_slices h))))

theorem signalBoard_slices {s} (h : Slices z s) : Slices z (signalBoard s) :=
  h.frame rfl rfl

theorem finishCmd_slices {s n r store} (h : Slices z s) : Slices z (finishCmd s n r store) := by
  unfold finishCmd
  dsimp only
  split
  · exact h
  · exact ite_slices (setLane_slices h) (ite_slices (postSource_slices (ite_slices (signalBoard_slices (setLane_slices (ite_slices (writeSlot_slices h) h))) (setLane_slices (ite_slices (writeSlot_slices h) h)))) (ite_slices (signalBoard_slices (setLane_slices (ite_slices (writeSlot_slices h) h))) (setLane_slices (ite_slices (writeSlot_slices h) h))))

theorem reply_slices {s n status detail result payload} (h : Slices z s) : Slices z (reply s n status detail result payload) := by
  unfold reply
  split
  · exact h
  · exact finishCmd_slices h

theorem replyDone_slices {s n detail result payload} (h : Slices z s) : Slices z (replyDone s n detail result payload) :=
  reply_slices h

theorem tlbiCore_slices {t s vc} (h : Slices z s) : Slices z (tlbiCore t s vc) := by
  unfold tlbiCore
  exact updCore_slices (dropRegions_slices (ite_slices (rollbackCore_slices h) h))

theorem tlbiCluster_slices {t s k} (h : Slices z s) : Slices z (tlbiCluster t s k) :=
  dropRecent_slices (dropRequests_slices h)

theorem tlbiEverywhere_slices {s t} (h : Slices z s) : Slices z (tlbiEverywhere s t) := by
  have h1 : Slices z (s.allCores.foldl (tlbiCore t) s) := foldl_slices (fun _ _ => tlbiCore_slices) h
  have h2 : Slices z ((List.range 8).foldl (tlbiCluster t) (s.allCores.foldl (tlbiCore t) s)) := foldl_slices (fun _ _ => tlbiCluster_slices) h1
  grind [tlbiEverywhere, slices_iff]

theorem dropVmid_slices {s p} (h : Slices z s) : Slices z (dropVmid s p) :=
  tlbiEverywhere_slices h

theorem inboundXlate_slices {s a cache pn ipa acc} (h : Slices z s) : Slices z (inboundXlate s a cache pn ipa acc).2.2 := by
  grind [inboundXlate, inboundTouch_slices]

theorem forceWrite_slices {s a c pa n v} (h : Slices z s) : Slices z (forceWrite s a c pa n v) := by
  unfold forceWrite
  split
  · next he => exact agentWrite_slices h he
  · exact pokeLine_slices h

theorem forceInbound_slices {s} (h : Slices z s) : Slices z (forceInbound s) :=
  foldl_slices (fun _ _ h1 => forceWrite_slices h1) (h.frame rfl rfl)

theorem forceStores_slices {s vc} (h : Slices z s) : Slices z (forceStores s vc) :=
  foldl_slices (fun _ _ h1 => forceWrite_slices h1) (updCore_slices h)

theorem releaseLevels_slices {s0 n f} (h : Slices z s0) : Slices z (releaseLevels s0 n f) := by
  unfold releaseLevels
  dsimp only
  apply Slices.setArb
  exact setSes_slices h

theorem inbTarget_slices {s n ipa acc} (h : Slices z s) : Slices z (inbTarget s n ipa acc).2 := by
  have h1 := inboundXlate_slices (a := arborAgent) (cache := s.arb.itlb) (pn := (s.ses n).owner) (ipa := ipa) (acc := acc) h
  unfold inbTarget
  dsimp only
  split
  · exact h1.setArb
  · split <;> exact h1.setArb

theorem countRefusal_slices {s c} (h : Slices z s) : Slices z (countRefusal s c) :=
  uncoreEvent_slices (h.frame rfl rfl)

theorem setThread_slices {s th t} (h : Slices z s) : Slices z (State.setThread s th t) :=
  h.frame rfl rfl

theorem setLink_slices {s p l v} (h : Slices z s) : Slices z (State.setLink s p l v) :=
  setPort_slices h

theorem setPfn_slices {s p l fn v} (h : Slices z s) : Slices z (State.setPfn s p l fn v) :=
  setPort_slices h

theorem refusePhase_slices {s n i w1 addr write} (h : Slices z s) : Slices z (refusePhase s n i w1 addr write) :=
  (ite_slices (answer_slices (countRefusal_slices h)) (countRefusal_slices h)).frame rfl rfl

theorem rewalkPhase_slices {s f} (h : Slices z s) : Slices z (rewalkPhase s f) := by
  unfold rewalkPhase
  split
  · exact h
  split
  · split
    next e => exact ((inbTarget_slices h).snd e).setArb
    next e => exact refusePhase_slices ((inbTarget_slices h).snd e)
  · exact h

theorem forceRx_slices {s pn} (h : Slices z s) : Slices z (forceRx s pn) :=
  foldl_slices (fun _ _ h1 => foldl_slices (fun _ _ h2 => setLink_slices (foldl_slices (fun _ _ h3 => foldl_slices (fun _ _ h4 => forceWrite_slices h4) h3) h2)) h1) h

theorem purgeVmid_slices {s pn} (h : Slices z s) : Slices z (purgeVmid s pn) := by
  unfold purgeVmid
  exact rewalkPhase_slices (dropVmid_slices (forceRx_slices (forceInbound_slices (foldl_slices (fun _ _ => forceStores_slices) h))))

theorem funnelIdle_slices {s} (h : Slices z s) : Slices z (funnelIdle s) :=
  ite_slices (h.frame rfl rfl) h

theorem flushEncoders_slices {s} (h : Slices z s) : Slices z (flushEncoders s) :=
  foldl_slices (fun _ _ h1 => emitHeld_slices h1) h

theorem applyTrace_slices {s on pcie ringK full tsk synck rate base classes} (h : Slices z s) : Slices z (applyTrace s on pcie ringK full tsk synck rate base classes) :=
  ite_slices (funnelIdle_slices ((ite_slices (flushEncoders_slices h) h).frame rfl rfl)) (ite_slices ((ite_slices (flushEncoders_slices h) h).frame rfl rfl) (ite_slices ((ite_slices (flushEncoders_slices h) h).frame rfl rfl) (ite_slices (flushEncoders_slices h) h)))

theorem setVals_slices {s n cnt cmp} (h : Slices z s) : Slices z (setVals s n cnt cmp) :=
  ite_slices (setTimer_slices (setTimer_slices h)) (setTimer_slices h)

theorem compareEvent_slices {s n} (h : Slices z s) : Slices z (compareEvent s n) :=
  ite_slices (setTimer_slices h) (ite_slices (postSource_slices (foldl_slices (fun _ _ h1 => updCore_slices h1) (setTimer_slices h))) (foldl_slices (fun _ _ h1 => updCore_slices h1) (setTimer_slices h)))

theorem tick_slices {f s n} (h : Slices z s) : Slices z (tick f s n) := by
  induction f generalizing s n with
  | zero => exact h
  | succ f ih =>
    have fold {l : List TmrNo} {t} (ht : Slices z t) : Slices z (l.foldl (tick f) t) := foldl_slices (fun _ _ => ih) ht
    have h1 := setVals_slices (n := n) (cnt := cntNext s n) (cmp := cmpNext s n) h
    unfold tick
    split
    · have h2 : ∀ {v}, Slices z (if wrapsNext s n then (setVals s n (cntNext s n) (cmpNext s n)).setTimer n v else setVals s n (cntNext s n) (cmpNext s n)) :=
        ite_slices (setTimer_slices h1) h1
      have h3 {c : Bool} {t} (ht : Slices z t) : Slices z (if c then compareEvent t n else t) := ite_slices (compareEvent_slices ht) ht
      have h4 {c : Bool} {l : List TmrNo} {t} (ht : Slices z t) : Slices z (if c then l.foldl (tick f) t else t) := ite_slices (fold ht) ht
      exact h4 (h4 (h3 h2))
    · exact h

theorem gateEdge_slices {s src level} (h : Slices z s) : Slices z (gateEdge s src level) :=
  foldl_slices (fun _ _ h1 => tick_slices h1) h

/-! ### Effects of configuration commands -/

theorem markChanged_slices {s os} (h : Slices z s) : Slices z (markChanged s os) :=
  h.frame rfl rfl

theorem cfgSessionOpen_keepsSlices : cfgSessionOpen.KeepsSlices := fun _ _ _ _ h => setSes_slices h

theorem holdWindows_slices {s} (h : Slices z s) : Slices z (holdWindows s) :=
  foldl_slices (fun _ _ h1 => blvTake_slices h1) (h.frame rfl rfl)

theorem cfgSessionWindowSet_keepsSlices : cfgSessionWindowSet.KeepsSlices := by
  intro z s p img h
  simp only [cfgSessionWindowSet]
  split
  · exact setSes_slices h
  · exact ite_slices (holdWindows_slices (setSes_slices h)) (setSes_slices h)
  · exact ite_slices (setSes_slices h) (releaseLevels_slices (setSes_slices h))

theorem startThreads_slices {s} (h : Slices z s) : Slices z (startThreads s) :=
  foldl_slices (fun _ _ h1 => setThread_slices h1) (h.frame rfl rfl)

theorem commitRoles_slices {s r} (h : Slices z s) : Slices z (commitRoles s r) :=
  startThreads_slices (h.frame rfl rfl)

theorem cfgArbRoleSet_keepsSlices : cfgArbRoleSet.KeepsSlices := fun _ _ _ _ h => commitRoles_slices h

theorem dropFollyCore_slices {i s v} (h : Slices z s) : Slices z (dropFollyCore i s v) :=
  dropRegions_slices (ite_slices (rollbackCore_slices h) h)

theorem dropFolly_slices {s i} (h : Slices z s) : Slices z (dropFolly s i) :=
  foldl_slices (fun _ _ h1 => dropRecent_slices (dropRequests_slices h1)) (foldl_slices (fun _ _ h1 => dropFollyCore_slices h1) h)

theorem commitFolly_slices {s p img} (h : Slices z s) : Slices z (commitFolly s p img) := by
  unfold commitFolly
  dsimp only
  apply ite_slices
  · apply Slices.setGate
    exact dropFolly_slices h
  · apply Slices.setGate
    exact dropFolly_slices h

theorem cfgFollyLoad_keepsSlices : cfgFollyLoad.KeepsSlices := fun _ _ _ _ h => commitFolly_slices h

theorem commitDiscipline_slices {s mode edge out off} (h : Slices z s) : Slices z (commitDiscipline s mode edge out off) :=
  ite_slices (gateEdge_slices (h.frame rfl rfl)) (h.frame rfl rfl)

theorem cfgQzDisciplineSet_keepsSlices : cfgQzDisciplineSet.KeepsSlices := fun _ _ _ _ h => commitDiscipline_slices h

theorem allocTimer_slices {s n o link} (h : Slices z s) : Slices z (allocTimer s n o link) :=
  ite_slices (ite_slices (setTimer_slices (setTimer_slices h)) (setTimer_slices h)) (ite_slices (setTimer_slices (setTimer_slices h)) (setTimer_slices h))

theorem cfgTimerAlloc_keepsSlices : cfgTimerAlloc.KeepsSlices := fun _ _ _ _ h => allocTimer_slices h

theorem commitPorts_slices {s p} (h : Slices z s) : Slices z (commitPorts s p) :=
  setPort_slices h

theorem cfgPcieRoleSet_keepsSlices : cfgPcieRoleSet.KeepsSlices := fun _ _ _ _ h => commitPorts_slices h

theorem cfgPcieVfAssign_keepsSlices : cfgPcieVfAssign.KeepsSlices := fun _ _ _ _ h => setPfn_slices h

theorem cfgMemAssign_keepsSlices : cfgMemAssign.KeepsSlices := fun _ _ _ _ h => h.frame rfl rfl

theorem cfgMemRelease_keepsSlices : cfgMemRelease.KeepsSlices := fun _ _ _ _ h => h.setGate

theorem startFill_slices {s} (h : Slices z s) : Slices z (startFill s) := by
  refine ⟨?_, h.table⟩
  rw [← h.dead]
  funext k
  have hk := mget_map (f := fun x : Home => { x with sc := [], wbuf := [], wcls := [], mir := [] }) s.fab.homes k rfl
  have hd := congrArg Home.dead hk
  exact hd

theorem startCopy_slices {s} (h : Slices z s) : Slices z (startCopy s) :=
  h.frame rfl rfl

theorem cfgMemParitySet_keepsSlices : cfgMemParitySet.KeepsSlices := by
  intro z s p img h
  have h1 : Slices z { s with dram := { s.dram with modeSet := true } } := h.frame rfl rfl
  exact ite_slices h1 (startCopy_slices (startFill_slices (h1.frame rfl rfl)))

/-- Slice `k` and cluster `k` without the lines of a range. -/
def withoutLines (inside : Nat → Bool) (t : State) (k : Nat) : State :=
  let out {α : Type} (m : SMap α) : SMap α := m.filter (fun p => !inside p.1)
  let h := t.home k
  let t1 := t.setHome k { h with
    dir := out h.dir, sc := out h.sc, wbuf := out h.wbuf, wcls := out h.wcls, mir := out h.mir, txns := out h.txns,
    confq := h.confq.filter (fun r => !inside r.line.toNat) }
  let c := t1.cluster k
  t1.setCluster k { c with l2 := out c.l2, wb := out c.wb, mshr := out c.mshr }

theorem withoutLines_slices {inside s k} (h : Slices z s) : Slices z (withoutLines inside s k) :=
  setCluster_slices (setHome_slices h rfl)

theorem linesToDram_slices {s inside} (h : Slices z s) : Slices z (linesToDram s inside) := by
  have h1 : Slices z ((List.range 8).foldl (withoutLines inside) s) := foldl_slices (fun _ _ h => withoutLines_slices h) h
  simp only [linesToDram]
  generalize hs : (List.range 8).foldl _ s = s1
  have h2 : Slices z s1 := hs ▸ h1
  exact h2.frame rfl rfl

theorem cfgKeepRegionSet_keepsSlices : cfgKeepRegionSet.KeepsSlices := by
  intro z s p img h
  apply foldl_slices (fun _ _ h => keepAccept_slices h)
  have h1 (i : Nat → Bool) : Slices z (linesToDram s i) := linesToDram_slices h
  dsimp only [cfgKeepRegionSet]
  generalize hs : linesToDram s _ = s1
  have h2 : Slices z s1 := hs ▸ h1 _
  exact h2.frame rfl rfl

theorem cfgMicaSet_keepsSlices : cfgMicaSet.KeepsSlices := fun _ _ _ _ h => h.frame rfl rfl

theorem cfgFaultPolicySet_keepsSlices : cfgFaultPolicySet.KeepsSlices := by
  intro z s p img h
  have h1 : Slices z { s with gate := { s.gate with policy := mput s.gate.policy (pkGet p 16 2) (BitVec.ofNat 64 (pkGet p 24 8)) } } :=
    h.setGate
  exact ite_slices h1.setFlash (ite_slices (h1.frame rfl rfl) h1)

theorem cfgTraceConfig_keepsSlices : cfgTraceConfig.KeepsSlices := fun _ _ _ _ h => applyTrace_slices h

theorem cfgPmuUncoreConfig_keepsSlices : cfgPmuUncoreConfig.KeepsSlices := fun _ _ _ _ h => h.frame rfl rfl

theorem takeBase_slices {s pn vtb} (h : Slices z s) : Slices z (takeBase s pn vtb) :=
  foldl_slices (fun _ _ h1 => ite_slices (updCore_slices (ite_slices (rollbackCore_slices h1) h1)) h1) h

theorem zeroLines_slices {pa n s} (h : Slices z s) : Slices z (zeroLines pa n s) := by
  induction n generalizing s with
  | zero => exact h
  | succ n ih => exact deviceWrite_slices (ih h)

theorem initPit_slices {s p} (h : Slices z s) : Slices z (initPit s p) :=
  foldl_slices (fun _ _ h1 => deviceWrite_slices h1) (zeroLines_slices h)

theorem cfgPavCreate_keepsSlices : cfgPavCreate.KeepsSlices := by
  intro z s p img h
  simp only [cfgPavCreate]
  apply purgeVmid_slices
  apply takeBase_slices
  apply initPit_slices
  exact (setPav_slices h).setQosMap

theorem cfgPavDestroy_keepsSlices : cfgPavDestroy.KeepsSlices := by
  intro z s p img h
  simp only [cfgPavDestroy]
  apply Slices.setQosMap
  apply setPav_slices
  apply purgeVmid_slices
  apply takeBase_slices
  exact h.setGate

theorem cfgPavStart_keepsSlices : cfgPavStart.KeepsSlices := fun _ _ _ _ h => setPav_slices h

theorem cfgPavCtlSet_keepsSlices : cfgPavCtlSet.KeepsSlices := by
  intro z s p img h
  exact ite_slices (purgeVmid_slices (takeBase_slices (setPav_slices h))) (setPav_slices h)

theorem cfgPavVcpuMap_keepsSlices : cfgPavVcpuMap.KeepsSlices := fun _ _ _ _ h => deviceWrite_slices h

theorem cfgQosMemSet_keepsSlices : cfgQosMemSet.KeepsSlices := fun _ _ _ _ h => setQos_slices h

theorem cfgQosCacheSet_keepsSlices : cfgQosCacheSet.KeepsSlices := fun _ _ _ _ h => setQos_slices h

theorem cfgQosArbSet_keepsSlices : cfgQosArbSet.KeepsSlices := fun _ _ _ _ h => setQos_slices h

theorem cfgQosIrqRateSet_keepsSlices : cfgQosIrqRateSet.KeepsSlices := fun _ _ _ _ h => setQos_slices h

theorem writeEntry_slices {s pn i vcpu en send} (h : Slices z s) : Slices z (writeEntry s pn i vcpu en send) :=
  gateWrite32_slices h

theorem cfgIrqRouteSet_keepsSlices : cfgIrqRouteSet.KeepsSlices := by
  intro z s p img h
  have h1 : ∀ l : List Route, Slices z { s with gate := { s.gate with routes := l } } := fun _ => h.setGate
  exact ite_slices (ite_slices (h1 _) (h1 _)) (writeEntry_slices (ite_slices (h1 _) (h1 _)))

theorem cfgIrqRouteClear_keepsSlices : cfgIrqRouteClear.KeepsSlices := by
  intro z s p img h
  exact ite_slices h.setGate (gateWrite32_slices h.setGate)

theorem cfgOf_slices {op : Nat} {c : Cfg} (e : cfgOf op = some c) : c.KeepsSlices := by
  unfold cfgOf at e
  split at e <;> cases e
  · exact cfgPavCreate_keepsSlices
  · exact cfgPavDestroy_keepsSlices
  · exact cfgPavStart_keepsSlices
  · exact cfgPavVcpuMap_keepsSlices
  · exact cfgPavCtlSet_keepsSlices
  · exact cfgMemAssign_keepsSlices
  · exact cfgMemRelease_keepsSlices
  · exact cfgMemParitySet_keepsSlices
  · exact cfgKeepRegionSet_keepsSlices
  · exact cfgMicaSet_keepsSlices
  · exact cfgSessionOpen_keepsSlices
  · exact cfgSessionWindowSet_keepsSlices
  · exact cfgArbRoleSet_keepsSlices
  · exact cfgQosMemSet_keepsSlices
  · exact cfgQosCacheSet_keepsSlices
  · exact cfgQosArbSet_keepsSlices
  · exact cfgQosIrqRateSet_keepsSlices
  · exact cfgIrqRouteSet_keepsSlices
  · exact cfgIrqRouteClear_keepsSlices
  · exact cfgFaultPolicySet_keepsSlices
  · exact cfgFollyLoad_keepsSlices
  · exact cfgQzDisciplineSet_keepsSlices
  · exact cfgTimerAlloc_keepsSlices
  · exact cfgPcieRoleSet_keepsSlices
  · exact cfgPcieVfAssign_keepsSlices
  · exact cfgTraceConfig_keepsSlices
  · exact cfgPmuUncoreConfig_keepsSlices

/-! ### Commits -/

theorem setSlate_slices {s id k} (h : Slices z s) : Slices z (State.setSlate s id k) :=
  h.frame rfl rfl

theorem applySlate_slices {cmds s os} (h : Slices z s) : Slices z (applySlate cmds s os).1 := by
  induction cmds generalizing s os with
  | nil => exact h
  | cons c t ih =>
    unfold applySlate
    split
    · exact ih h
    · next f e => exact ih (cfgOf_slices e _ _ _ _ h)

theorem reachInstant_slices {s id} (h : Slices z s) : Slices z (reachInstant s id) := by
  unfold reachInstant
  split
  · exact h
  · split
    · exact h
    · exact replyDone_slices (markChanged_slices (applySlate_slices (setSlate_slices (reach_slices h))))

theorem settleArmed_slices {s} (h : Slices z s) : Slices z (settleArmed s) :=
  foldl_slices (fun _ _ h1 => reachInstant_slices h1) h

theorem stopCommit_slices {s} (h : Slices z s) : Slices z (stopCommit s) := by
  unfold stopCommit
  split
  · exact h
  · split
    · next he =>
        split
        · exact reply_slices ((free_slices h).snd he)
        · exact (free_slices h).snd he

theorem meetCommits_slices {s} (h : Slices z s) : Slices z (meetCommits s) :=
  ite_slices (settleArmed_slices h) (stopCommit_slices h)

/-! ### REST and its end -/

theorem endWfe_slices {s} (h : Slices z s) : Slices z (endWfe s) :=
  foldl_slices (fun _ _ h1 => updCore_slices h1) h

theorem railSettled_slices {s lane} (h : Slices z s) : Slices z (railSettled s lane) := by
  unfold railSettled
  split
  · next he =>
      dsimp only
      apply replyDone_slices
      apply Slices.setGate
      exact reach_slices ((free_slices h).snd he)

theorem flushCaches_slices {s} (h : Slices z s) : Slices z (flushCaches s) := by
  simp only [flushCaches]
  refine foldl_slices (fun t k ht => ?_) (foldl_slices (fun t k ht => ?_) ?_)
  · exact setHome_slices ht rfl
  · exact setCluster_slices ht
  · exact h.setDram

theorem flushFree_slices {s} (h : Slices z s) : Slices z (flushFree s) := by
  simp only [flushFree]
  refine foldl_slices (fun t k ht => ?_) (foldl_slices (fun t k ht => ?_) ?_)
  · exact setHome_slices ht rfl
  · exact setCluster_slices ht
  · exact h.setDram

theorem settleAll_slices {s} (h : Slices z s) : Slices z (settleAll s) :=
  foldl_slices (fun _ _ h1 => settle_slices h1) h

theorem abandonRest_slices {s lane} (h : Slices z s) : Slices z (abandonRest s lane) :=
  endWfe_slices (replyDone_slices ((ite_slices (flushCaches_slices (settleAll_slices h)) (flushFree_slices (settleAll_slices h))).frame rfl rfl))

theorem wakeUp_slices {s} (h : Slices z s) : Slices z (wakeUp s) := by
  have h1 := foldl_slices (l := s.dev.held) (fun t a => postRoutes_slices (s := t) (src := a)) (endWfe_slices (s := { s with
    dram := { s.dram with selfRefresh := false }
    dev := { s.dev with mode := .service, vidReq := s.dev.vidSet, held := [], wake := 0 } }) (h.frame rfl rfl))
  unfold wakeUp
  dsimp only
  split
  · exact ite_slices (railSettled_slices h1) h1
  · exact h1

theorem awake_slices {s} (h : Slices z s) : Slices z (awake s) := by
  unfold awake
  apply ite_slices (wakeUp_slices h)
  split
  · exact abandonRest_slices h
  · exact h

theorem enterRepair_slices {s} (h : Slices z s) : Slices z (enterRepair s) :=
  ite_slices (h.frame rfl rfl) h

/-! ### The rebuild -/

theorem rehomeLine_slices {k s l} (h : Slices z s) : Slices z (rehomeLine k s l) := by
  unfold rehomeLine
  split
  · exact h
  · exact ite_slices (scPut_slices (giveUp_slices h)) (giveUp_slices h)

theorem rehomeCluster_slices {mine s k} (h : Slices z s) : Slices z (rehomeCluster mine s k) :=
  setCluster_slices (foldl_slices (fun _ _ h1 => scPut_slices h1) (foldl_slices (fun _ _ h1 => rehomeLine_slices h1) h))

theorem sendAgain_slices {s r} (h : Slices z s) : Slices z (sendAgain s r) :=
  openReq_slices (setMshr_slices h)

theorem dropCode_slices {s} (h : Slices z s) : Slices z (dropCode s) :=
  foldl_slices (fun _ _ h1 => setHome_slices h1 rfl) (foldl_slices (fun _ _ h1 => dropRecent_slices (dropRequests_slices h1)) (foldl_slices (fun _ _ h1 => updCore_slices (dropRegions_slices (ite_slices (rollbackCore_slices h1) h1))) h))

theorem freeCode_slices {s} (h : Slices z s) : Slices z (freeCode s) :=
  foldl_slices (fun _ _ h1 => foldl_slices (fun _ _ h2 => pumpHome_slices (onCodeAnswer_slices h2)) h1) h

theorem newMirror_slices {s j} (h : Slices z s) : Slices z (newMirror s j) :=
  setHome_slices h rfl

end

end Sys2Proof.Machine
end

-- ==== Slices and links that fail ====
section
/-! A slice or a link that fails is left out (08 R234, R243; 15 R465, R470), and with them O34. -/

namespace Sys2Proof.Machine

/-! ### The device in BELVEDERE (15 R473) -/

theorem stopAll_inBelvedere (s : State) : InBelvedere (stopAll s) where
  mode := rfl
  stopped := rfl
  refresh h := by
    have hr : ((safetyOnly (belvederePort s)).dev.rails &&& 0x33 == 0x33) = true := beq_iff_eq.2 h
    simp only [stopAll, hr, Bool.or_true]
  engine := rfl
  slates := rfl
  safe := rfl

theorem InBelvedere.frame {s t : State} (h : InBelvedere s) (hd : t.dev = s.dev) (hr : t.dram = s.dram) (ha : t.arb = s.arb)
    (hs : t.gate.slates = s.gate.slates) : InBelvedere t where
  mode := (congrArg Device.mode hd).trans h.mode
  stopped := by rw [hd]; exact h.stopped
  refresh := by rw [hd, hr]; exact h.refresh
  engine := by rw [ha]; exact h.engine
  slates := hs.trans h.slates
  safe := by rw [hd]; exact h.safe

/-- A fault that cannot be hidden takes the device into BELVEDERE (15 R473). -/
theorem enterBelvedere_inBelvedere {s : State} (h : mayFail s = true) (e : LogIn) (vc : Option Vc) : InBelvedere (enterBelvedere s e vc) := by
  simp only [enterBelvedere, h, if_true]
  generalize answerLane0 _ = u
  have hu := stopAll_inBelvedere u
  split
  · exact hu.frame rfl rfl rfl rfl
  · exact hu.frame rfl rfl rfl rfl

/-! ### Links (08 R234; 15 R470) -/

/-- A stop that sends again touches the messages in flight and its copy. -/
theorem resend_frame (s : State) (n : Nat) (p : FabMsg) : ∃ ms ks, resend s n p = { s with fab := { s.fab with net := ms, kept := ks } } := by
  unfold resend
  dsimp only
  split
  · exact ⟨_, _, rfl⟩
  · split <;> exact ⟨_, _, rfl⟩

theorem resend_inFlight {s : State} {n : Nat} {p : FabMsg} (h : p ∈ s.fab.net) :
    (resend s n p).fab.net = s.fab.net.erase p ++ [{ p with place := BitVec.ofNat 4 n, upper := false }] := by
  have hp : s.fab.net.contains p = true := List.contains_iff_mem.2 h
  simp only [resend, hp, if_true]

theorem resend_arrived {s : State} {n : Nat} {p : FabMsg} (h : p ∉ s.fab.net) : (resend s n p).fab.net = s.fab.net := by
  have hp : s.fab.net.contains p = false := Bool.not_eq_true _ ▸ fun hc => h (List.contains_iff_mem.1 hc)
  simp only [resend, hp, Bool.false_eq_true, if_false]
  split <;> rfl

/-- What a stop whose send over link `i` failed has sent again. -/
def resent (s : State) (n i : Nat) : State :=
  match keptOver s n i with
  | some p => resend s n p
  | none => s

theorem resent_frame (s : State) (n i : Nat) : ∃ ms ks, resent s n i = { s with fab := { s.fab with net := ms, kept := ks } } := by
  unfold resent
  split
  · exact resend_frame ..
  · exact ⟨_, _, rfl⟩

/-- The stop has sent again, and counted it (08 R234; 17 R515). -/
def afterTimeout (s : State) (n i : Nat) : State :=
  uncoreEvent { resent s n i with fab := { (resent s n i).fab with resends := mput s.fab.resends n (mget s.fab.resends n 0 + 1) } } (16 + n) 5 devClass

theorem afterTimeout_fab (s : State) (n i : Nat) :
    (afterTimeout s n i).fab = { (resent s n i).fab with resends := mput s.fab.resends n (mget s.fab.resends n 0 + 1) } := by
  rw [afterTimeout, uncoreEvent_frame]

theorem afterTimeout_links (s : State) (n i : Nat) : (afterTimeout s n i).fab.links = s.fab.links := by
  obtain ⟨ms, ks, h⟩ := resent_frame s n i
  rw [afterTimeout_fab, h]

theorem afterTimeout_only (s : State) (n i : Nat) : ∃ f u, afterTimeout s n i = { s with fab := f, uncore := u } := by
  obtain ⟨ms, ks, h⟩ := resent_frame s n i
  rw [afterTimeout, uncoreEvent_frame, h]
  exact ⟨_, _, rfl⟩

theorem execFabricAckTimeout_eq {s : State} {i : BitVec 5} {n : BitVec 4} (hr : recovers s = true) (hm : s.mode ≠ .rest) (hi : i.toNat < 24)
    (hf : (mget s.fab.links i.toNat {}).failed = false) :
    exec (.fabricAckTimeout i n) s = .next (if (mget s.fab.links i.toNat {}).fails + 1 < 3 then
      { afterTimeout s n.toNat i.toNat with fab := { (afterTimeout s n.toNat i.toNat).fab with
        links := mput (afterTimeout s n.toNat i.toNat).fab.links i.toNat { mget s.fab.links i.toNat {} with fails := (mget s.fab.links i.toNat {}).fails + 1 } } }
      else failLink (afterTimeout s n.toNat i.toNat) i.toNat) := by
  cases hk : keptOver s n.toNat i.toNat with
  | none => simp only [exec, execFabricAckTimeout, hr, hf, hi, bne_iff_ne.2 hm, decide_true, Bool.not_false, Bool.and_true, if_true, afterTimeout, resent, hk]
  | some p => simp only [exec, execFabricAckTimeout, hr, hf, hi, bne_iff_ne.2 hm, decide_true, Bool.not_false, Bool.and_true, if_true, afterTimeout, resent, hk]

/-- The first sends over a link that fail are repeated, and counted at the link (08 R234). -/
theorem execFabricAckTimeout_resends {s : State} {i : BitVec 5} {n : BitVec 4} (hr : recovers s = true) (hm : s.mode ≠ .rest) (hi : i.toNat < 24)
    (hf : (mget s.fab.links i.toNat {}).failed = false) (hl : (mget s.fab.links i.toNat {}).fails < 2) :
    let l := mget s.fab.links i.toNat {}
    ∃ t, exec (.fabricAckTimeout i n) s = .next t
      ∧ t.fab.resends = mput s.fab.resends n.toNat (mget s.fab.resends n.toNat 0 + 1)
      ∧ t.fab.links = mput s.fab.links i.toNat { l with fails := l.fails + 1 } ∧ t = { s with fab := t.fab, uncore := t.uncore }
      ∧ (∀ p, keptOver s n.toNat i.toNat = some p → p ∈ s.fab.net →
          t.fab.net = s.fab.net.erase p ++ [{ p with place := BitVec.ofNat 4 n.toNat, upper := false }])
      ∧ ((∀ p, keptOver s n.toNat i.toNat = some p → p ∉ s.fab.net) → t.fab.net = s.fab.net) := by
  intro l
  have hexec := execFabricAckTimeout_eq (n := n) hr hm hi hf
  rw [if_pos (by omega), afterTimeout_links] at hexec
  obtain ⟨f, u, honly⟩ := afterTimeout_only s n.toNat i.toNat
  have hnet : (afterTimeout s n.toNat i.toNat).fab.net = (resent s n.toNat i.toNat).fab.net := by rw [afterTimeout_fab]
  have hresends : (afterTimeout s n.toNat i.toNat).fab.resends = mput s.fab.resends n.toNat (mget s.fab.resends n.toNat 0 + 1) := by rw [afterTimeout_fab]
  generalize afterTimeout s n.toNat i.toNat = a at hexec honly hnet hresends
  refine ⟨_, hexec, hresends, rfl, by rw [honly], fun p hp hmem => hnet.trans ?_, fun h => hnet.trans ?_⟩
  · simp only [resent, hp]
    exact resend_inFlight hmem
  · unfold resent
    split
    · next p hp => exact resend_arrived (h p hp)
    · rfl

/-- A cluster or an island is cut off where its three links have failed, so not by one (15 R470). -/
theorem isolated_ofOne {s : State} {i : Nat} (h : ∀ j, j ≠ i → (mget s.fab.links j {}).failed = false) (k : Nat) : isolated s k = false := by
  have hne : 2 * k ≠ (2 * k + 15) % 16 := by omega
  by_cases hi : 2 * k = i
  · simp [isolated, h ((2 * k + 15) % 16) (by omega)]
  · simp [isolated, h (2 * k) hi]

/-- A link that fails is recorded, and left out; one such link cuts nothing off (08 R234; 15 R470). -/
theorem failLink_records {s : State} {i : Nat} (h : ∀ j, j ≠ i → (mget s.fab.links j {}).failed = false) :
    (mget (failLink s i).fab.links i {}).failed = true ∧ (failLink s i).mode = s.mode ∧ Logged (failLink s i) 0x0A 6 4 i := by
  simp only [failLink]
  generalize hl : ({ mget s.fab.links i {} with failed := true, fails := 0, out := _ } : Link) = l'
  have hfailed : l'.failed = true := by rw [← hl]
  generalize hs : ({ s with fab := { s.fab with links := mput s.fab.links i l' } } : State) = s1
  have hlinks : s1.fab.links = mput s.fab.links i l' := by rw [← hs]
  have hmode : s1.mode = s.mode := by rw [← hs]; rfl
  have hrec := recordFault_recorded s1 { cls := 0x0A, action := 6, ukind := 4, uindex := i, stallMax := 50000 } none
  have hlog : Logged (recordFault s1 { cls := 0x0A, action := 6, ukind := 4, uindex := i, stallMax := 50000 } none) 0x0A 6 4 i :=
    recordFault_logged (e := { cls := 0x0A, action := 6, ukind := 4, uindex := i, stallMax := 50000 }) (by simp) (by simp)
  generalize recordFault s1 _ none = s2 at hrec hlog
  have hnone : (List.range 8).find? (isolated s2) = none := by
    refine List.find?_eq_none.2 fun k _ => ?_
    rw [isolated_ofOne (i := i) (fun j hj => ?_) k]
    · exact Bool.false_ne_true
    · rw [hrec.fab, hlinks, mget, mget?_mput_ne _ _ _ _ hj]
      exact h j hj
  simp only [hnone]
  refine ⟨?_, hrec.mode.trans hmode, hlog⟩
  rw [hrec.fab, hlinks, mget, mget?_mput_self]
  exact hfailed

/-- The third failed send over a link fails it (08 R234; 15 R470). -/
theorem execFabricAckTimeout_fails {s : State} {i : BitVec 5} {n : BitVec 4} (hr : recovers s = true) (hm : s.mode ≠ .rest) (hi : i.toNat < 24)
    (hf : (mget s.fab.links i.toNat {}).failed = false) (hl : 2 ≤ (mget s.fab.links i.toNat {}).fails)
    (h : ∀ j, j ≠ i.toNat → (mget s.fab.links j {}).failed = false) :
    ∃ t, exec (.fabricAckTimeout i n) s = .next t ∧ (mget t.fab.links i.toNat {}).failed = true ∧ t.mode = s.mode ∧ Logged t 0x0A 6 4 i.toNat := by
  have hexec := execFabricAckTimeout_eq (n := n) hr hm hi hf
  rw [if_neg (by omega)] at hexec
  obtain ⟨f, u, honly⟩ := afterTimeout_only s n.toNat i.toNat
  have hmode : (afterTimeout s n.toNat i.toNat).mode = s.mode := by rw [honly]; rfl
  obtain ⟨hfailed, hm', hlog⟩ := failLink_records (s := afterTimeout s n.toNat i.toNat) (i := i.toNat) (by rwa [afterTimeout_links])
  exact ⟨_, hexec, hfailed, hm'.trans hmode, hlog⟩

/-- A link that passes its retest is in routing again (15 R470). -/
theorem execLinkRetest_admits {s : State} {i : BitVec 5} (hr : recovers s = true) (hm : s.mode ≠ .rest) (hg : s.gate.restart = false)
    (hf : (mget s.fab.links i.toNat {}).failed = true) (ho : (mget s.fab.links i.toNat {}).out = false) (hp : s.policy 4 ≠ 0) :
    let l := mget s.fab.links i.toNat {}
    ∃ t, exec (.linkRetest i true) s = .next t ∧ Logged t 0x0A 0x0A 4 i.toNat
      ∧ t.fab = { s.fab with links := mput s.fab.links i.toNat { l with failed := false, fails := 0, readmitted := max s.qz.time 1 } } := by
  intro l
  have hc : (recovers s && s.mode != .rest && !s.gate.restart && l.failed && !l.out && true && s.policy 4 != 0) = true := by simp [hr, hm, hg, l, hf, ho, hp]
  refine ⟨_, if_pos hc, ?_, (logEvent_recorded ..).fab⟩
  exact logEvent_logged (e := { cls := 0x0A, action := 0x0A, ukind := 4, uindex := i.toNat }) (by simp) (by simp)

/-! ### Slices (08 R243; 15 R465) -/

/-- After `n` steps the first `n` entries of HT name none of a failed slice's lines' homes: each that did names a survivor (08 R243). -/
theorem reassignF_survivors {ht : SMap Oct} {k : Nat} {live : List Nat} (hl : ∀ j ∈ live, j < 8 ∧ j ≠ k) (h0 : live ≠ []) (n f : Nat) (hf : f < n) :
    (mget (reassignF ht k live n).1 f (BitVec.ofNat 3 f)).toNat ≠ k := by
  induction n with
  | zero => omega
  | succ n ih =>
    simp only [reassignF]
    split
    · next hn =>
      by_cases hfn : f = n
      · subst hfn
        have hlt : (reassignF ht k live f).2 % live.length < live.length := Nat.mod_lt _ (List.length_pos_iff.2 h0)
        obtain ⟨hj, hjk⟩ := hl _ (List.getElem_mem hlt)
        simp only [mget, mget?_mput_self, List.getElem?_eq_getElem hlt, Option.getD_some, BitVec.toNat_ofNat, Nat.mod_eq_of_lt hj]
        exact hjk
      · simp only [mget, mget?_mput_ne _ _ _ _ hfn]
        exact ih (by omega)
    · next hn =>
      by_cases hfn : f = n
      · subst hfn
        exact hn
      · exact ih (by omega)

theorem mem_aliveHomes {s : State} {j : Nat} : j ∈ s.aliveHomes ↔ j < 8 ∧ (s.home j).dead = false := by
  simp [State.aliveHomes]

/-- Where more than one slice is left, another one is. -/
theorem survivors_ne_nil {s : State} {k : Nat} (h : 2 ≤ s.aliveHomes.length) : s.aliveHomes.filter (fun i => i != k) ≠ [] := by
  intro hnil
  have hall : s.aliveHomes ⊆ [k] := fun j hj => by simpa using List.filter_eq_nil_iff.1 hnil j hj
  have hnodup : s.aliveHomes.Nodup := List.nodup_range.filter _
  have := (List.subperm_of_subset hnodup hall).length_le
  simp at this
  omega

theorem reassignHt_ht (s : State) (k : Nat) : (reassignHt s k).fab.ht = (reassignF s.fab.ht k (s.aliveHomes.filter (fun i => i != k)) 64).1 := by
  unfold reassignHt
  generalize 64 = n
  rfl

/-- HT names no line's home in a slice that it has been reassigned from (08 R243). -/
theorem reassignHt_htOf {s : State} {k : Oct} (h : 2 ≤ s.aliveHomes.length) {f : Nat} (hf : f < 64) : (reassignHt s k.toNat).htOf f ≠ k := by
  have hs : ∀ j ∈ s.aliveHomes.filter (fun i => i != k.toNat), j < 8 ∧ j ≠ k.toNat := fun j hj => by
    obtain ⟨hj, hne⟩ := List.mem_filter.1 hj
    exact ⟨(mem_aliveHomes.1 hj).1, by simpa using hne⟩
  obtain ⟨n, hn⟩ : ∃ n, n = 64 := ⟨_, rfl⟩
  have hne := reassignF_survivors (ht := s.fab.ht) hs (survivors_ne_nil h) n f (hn ▸ hf)
  have hht := reassignHt_ht s k.toNat
  rw [← hn] at hht
  intro he
  rw [State.htOf, hht] at he
  exact hne (congrArg BitVec.toNat he)

theorem setHome_htOf (s : State) (k f : Nat) (v : Home) : (s.setHome k v).htOf f = s.htOf f := rfl

theorem Slices.home_dead {z s : State} (h : Slices z s) (k : Nat) : (s.home k).dead = (z.home k).dead := congrFun h.dead k

theorem Slices.aliveHomes {z s : State} (h : Slices z s) : s.aliveHomes = z.aliveHomes := by
  simp only [State.aliveHomes, h.home_dead]

theorem replayMirror_slices {s : State} {p : Nat} {m : SMap Line} : Slices s (replayMirror s p m) := by
  have h : Slices s (s.setHome p { s.home p with mir := m.foldl (fun a e => mdel a e.1) (s.home p).mir }) := setHome_slices (.refl s) rfl
  exact h.setDram

/-- The messages and requests of a failed slice's lines are gone (15 R465). -/
def withoutStale (mine : LineNo → Bool) (s : State) : State :=
  { s with fab := { s.fab with
    net := s.fab.net.filter (fun p => !staleMsg mine p.msg), retryq := s.fab.retryq.filter (fun r => !mine r.1.line),
    heldReads := s.fab.heldReads.filter (fun r => !mine r.line) } }

/-- What follows once a slice is out: its orphans' mirrors, its messages, the clusters' lines, the code, and the requests that were held (15 R465). -/
def carriedOn (z : State) (mine : LineNo → Bool) (orphans : List Nat) (held : List (Nat × LineNo × Mshr)) (nc : List Req) : State :=
  nc.foldl openReq (held.foldl sendAgain (freeCode (dropCode ((List.range 8).foldl (rehomeCluster mine) (withoutStale mine (orphans.foldl newMirror z))))))

theorem withoutStale_slices {z s : State} {mine : LineNo → Bool} (h : Slices z s) : Slices z (withoutStale mine s) := h.frame rfl rfl

theorem carriedOn_slices (z : State) (mine : LineNo → Bool) (orphans : List Nat) (held : List (Nat × LineNo × Mshr)) (nc : List Req) :
    Slices z (carriedOn z mine orphans held nc) := by
  have h2 : Slices z (orphans.foldl newMirror z) := foldl_slices (fun _ _ h => newMirror_slices h) (.refl z)
  have h4 : Slices z ((List.range 8).foldl (rehomeCluster mine) (withoutStale mine (orphans.foldl newMirror z))) :=
    foldl_slices (fun _ _ h => rehomeCluster_slices h) (withoutStale_slices h2)
  exact foldl_slices (fun _ _ h => openReq_slices h) (foldl_slices (fun _ _ h => sendAgain_slices h) (freeCode_slices (dropCode_slices h4)))

/-- The device at which a slice's failure finds its commits met and its messages settled (15 R465). -/
def atRest (s : State) : State := settleAll (meetCommits (awake s))

theorem atRest_slices (s : State) : Slices s (atRest s) := settleAll_slices (meetCommits_slices (awake_slices (.refl s)))

/-- A slice is out: HT names the survivors (08 R243). -/
def withoutSlice (s : State) (k : Nat) (m : SMap Line) : State := (reassignHt (replayMirror s (s.partner k) m) k).setHome k { dead := true }

theorem rebuildSlice_eq (s : State) (k : Nat) : ∃ m mine orphans held nc,
    rebuildSlice s k = enterRepair (recordFault (carriedOn (withoutSlice (atRest s) k m) mine orphans held nc)
      { cls := 0x0C, action := 3, ukind := 3, uindex := k, stallMax := 750000 } none) := by
  simp only [rebuildSlice, carriedOn, withoutSlice, withoutStale, atRest]
  exact ⟨_, _, _, _, _, rfl⟩

/-- A slice that fails where others remain is out, and HT names none of its lines' homes (08 R243; 15 R465). -/
theorem rebuildSlice_removes {s : State} {k : Oct} (h : 2 ≤ s.aliveHomes.length) :
    ((rebuildSlice s k.toNat).home k.toNat).dead = true ∧ (∀ f, f < 64 → (rebuildSlice s k.toNat).htOf f ≠ k)
      ∧ Logged (rebuildSlice s k.toNat) 0x0C 3 3 k.toNat := by
  obtain ⟨m, mine, orphans, held, nc, heq⟩ := rebuildSlice_eq s k.toNat
  have hcarried := carriedOn_slices (withoutSlice (atRest s) k.toNat m) mine orphans held nc
  have hreplay : Slices s (replayMirror (atRest s) ((atRest s).partner k.toNat) m) := by
    have hr := replayMirror_slices (s := atRest s) (p := (atRest s).partner k.toNat) (m := m)
    exact ⟨hr.dead.trans (atRest_slices s).dead, hr.table.trans (atRest_slices s).table⟩
  have hdead : ((withoutSlice (atRest s) k.toNat m).home k.toNat).dead = true := by rw [withoutSlice, State.home_setHome_self]
  have hht (f : Nat) (hf : f < 64) : (withoutSlice (atRest s) k.toNat m).htOf f ≠ k := by
    rw [← hreplay.aliveHomes] at h
    rw [withoutSlice, setHome_htOf]
    exact reassignHt_htOf h hf
  have hend := enterRepair_slices (recordFault_slices (e1 := { cls := 0x0C, action := 3, ukind := 3, uindex := k.toNat, stallMax := 750000 }) (vc := none) hcarried)
  have hlog : Logged (recordFault (carriedOn (withoutSlice (atRest s) k.toNat m) mine orphans held nc)
      { cls := 0x0C, action := 3, ukind := 3, uindex := k.toNat, stallMax := 750000 } none) 0x0C 3 3 k.toNat :=
    recordFault_logged (e := { cls := 0x0C, action := 3, ukind := 3, uindex := k.toNat, stallMax := 750000 }) (by simp) (by simp)
  rw [← heq] at hend
  refine ⟨(hend.home_dead _).trans hdead, fun f hf => ?_, ?_⟩
  · rw [State.htOf, hend.table]
    exact hht f hf
  · rw [heq]
    generalize recordFault _ _ none = u at hlog
    unfold enterRepair
    split <;> exact hlog

/-- HOME_SLICE_REBUILD of a slice that has not failed yet (08 R243; 15 R456, R465). -/
theorem execHomeSliceRebuild_removes {s : State} {k : Oct} (hr : recovers s = true) (hg : s.gate.restart = false) (hk : (s.home k.toNat).dead = false) :
    (3 ≤ s.aliveHomes.length → ∃ t, exec (.homeSliceRebuild k) s = .next t ∧ (t.home k.toNat).dead = true
      ∧ (∀ f, f < 64 → t.htOf f ≠ k) ∧ Logged t 0x0C 3 3 k.toNat)
    ∧ (s.aliveHomes.length < 3 → ∃ t, exec (.homeSliceRebuild k) s = .next t ∧ InBelvedere t) := by
  have hexec : exec (.homeSliceRebuild k) s = .next (sliceFault s k.toNat) := by simp [exec, execHomeSliceRebuild, whenTrue, hr, hg]
  refine ⟨fun h => ?_, fun h => ?_⟩
  · have hf : sliceFault s k.toNat = rebuildSlice s k.toNat := by simp [sliceFault, hk, Nat.not_lt.2 h]
    rw [hexec, hf]
    exact ⟨_, rfl, rebuildSlice_removes (by omega)⟩
  · have hf : sliceFault s k.toNat = enterBelvedere s { cls := 0x29, action := 9, ukind := 3, uindex := k.toNat } none := by simp [sliceFault, hk, h]
    rw [hexec, hf]
    exact ⟨_, rfl, enterBelvedere_inBelvedere hr _ _⟩

/-- Settles O34: what a rebuild goes through leaves the slices and HT alone but for the slice that fails; a link's failure cuts nothing off alone. -/
theorem slicesAndLinksAreRemoved : Obligations.SlicesAndLinksAreRemoved := by
  unfold Obligations.SlicesAndLinksAreRemoved
  exact ⟨fun s k hr _ hg hk => execHomeSliceRebuild_removes hr hg hk,
    fun s i n hr hm hi hf => ⟨execFabricAckTimeout_resends hr hm hi hf, execFabricAckTimeout_fails hr hm hi hf⟩,
    fun s i hr hm hg hf ho hp => execLinkRetest_admits hr hm hg hf ho hp⟩

end Sys2Proof.Machine
end

-- ==== Mica blocks ====
section
/-! Mica blocks (O59): a line is its words side by side, and so are the stored words and the deltas of a block. -/

namespace Sys2Proof.Machine

/-! ### Words side by side -/

theorem lineWord_lt (v : Line) (k i : Nat) : lineWord v k i < 2 ^ k := Nat.mod_lt _ (Nat.two_pow_pos k)

/-- A line is its words of k bits, side by side. -/
theorem ofDigits_lineWord (v : Line) {n k : Nat} (h : k * n = 512) : Nat.ofDigits (2 ^ k) ((List.range n).map (lineWord v k)) = v.toNat := by
  have hmod (m : Nat) : Nat.ofDigits (2 ^ k) ((List.range m).map (lineWord v k)) = v.toNat % (2 ^ k) ^ m := by
    induction m with
    | zero => simp [Nat.mod_one]
    | succ m ih =>
      rw [List.range_succ, List.map_append, Nat.ofDigits_append, ih, Nat.mod_pow_succ]
      simp [lineWord, pow_mul]
  rw [hmod, ← pow_mul, h, Nat.mod_eq_of_lt v.isLt]

/-- The fold by which the model sets words side by side. -/
theorem foldr_eq_ofDigits (k : Nat) (ws : List Nat) : ws.foldr (fun w a => w + a * 2 ^ k) 0 = Nat.ofDigits (2 ^ k) ws := by
  simp only [Nat.ofDigits_eq_foldr, Nat.cast_id, mul_comm]

/-- A word is read back from its place. -/
theorem ofDigits_div_mod {k i : Nat} {ws : List Nat} (hws : ∀ w ∈ ws, w < 2 ^ k) (hi : i < ws.length) :
    Nat.ofDigits (2 ^ k) ws / 2 ^ (k * i) % 2 ^ k = ws[i] := by
  rw [pow_mul, Nat.ofDigits_div_pow_eq_ofDigits_drop i (Nat.two_pow_pos k) ws hws, List.drop_eq_getElem_cons hi, Nat.ofDigits_cons,
    Nat.add_mul_mod_self_left]
  exact Nat.mod_eq_of_lt (hws _ (List.getElem_mem hi))

theorem ofDigits_lt {k m : Nat} {ws : List Nat} (hk : k ≠ 0) (hws : ∀ w ∈ ws, w < 2 ^ k) (hm : k * ws.length ≤ m) :
    Nat.ofDigits (2 ^ k) ws < 2 ^ m := by
  have h := Nat.ofDigits_lt_base_pow_length (Nat.one_lt_two_pow hk) hws
  rw [← pow_mul] at h
  exact h.trans_le (Nat.pow_le_pow_right Nat.two_pos hm)

/-! ### Fields -/

section
variable {a m x y : Nat}

/-- The field in the low a bits. -/
theorem mod_field (h : x < 2 ^ a) : (x + 2 ^ a * y) % 2 ^ a = x := by
  rw [Nat.add_mul_mod_self_left, Nat.mod_eq_of_lt h]

/-- What stands above the field. -/
theorem div_field (h : x < 2 ^ a) : (x + 2 ^ a * y) / 2 ^ a = y := by
  rw [Nat.add_mul_div_left _ _ (Nat.two_pow_pos a), Nat.div_eq_of_lt h, zero_add]

theorem div_above (h : x < 2 ^ a) : (x + 2 ^ a * y) / 2 ^ (a + m) = y / 2 ^ m := by
  rw [pow_add, ← Nat.div_div_eq_div_mul, div_field h]

theorem field_lt (hx : x < 2 ^ a) (hy : y < 2 ^ m) : x + 2 ^ a * y < 2 ^ (a + m) := by
  rw [pow_add]
  nlinarith

end

/-! ### The code of a block (09 R283) -/

theorem micaDecode_z4 {b : Nat} (h : b % 16 = 1) : micaDecode b = BitVec.ofNat 512 (decZ4 (b / 2 ^ 8 % 2 ^ 16) (b / 2 ^ 24) 0 16) := by
  simp only [micaDecode, h]

theorem micaDecode_b8d1 {b : Nat} (h : b % 16 = 2) : micaDecode b = BitVec.ofNat 512 (decBD b 8 64 8) := by
  simp only [micaDecode, h]

theorem micaDecode_b4d1 {b : Nat} (h : b % 16 = 3) : micaDecode b = BitVec.ofNat 512 (decBD b 16 32 8) := by
  simp only [micaDecode, h]

theorem micaDecode_b8d2 {b : Nat} (h : b % 16 = 4) : micaDecode b = BitVec.ofNat 512 (decBD b 8 64 16) := by
  simp only [micaDecode, h]

/-! ### Selections of words -/

/-- The bits of the words that `p` selects, as the model folds them. -/
def selMask (p : Nat → Bool) (n : Nat) : Nat := (List.range n).foldl (fun a i => if p i then a + 2 ^ i else a) 0

theorem selMask_succ (p : Nat → Bool) (n : Nat) : selMask p (n + 1) = if p n then selMask p n + 2 ^ n else selMask p n := by
  simp [selMask, List.range_succ]

theorem selMask_lt (p : Nat → Bool) (n : Nat) : selMask p n < 2 ^ n := by
  induction n with
  | zero => exact Nat.one_pos
  | succ n ih =>
    rw [selMask_succ, pow_succ]
    split <;> omega

theorem selMask_testBit (p : Nat → Bool) {n i : Nat} (h : i < n) : (selMask p n).testBit i = p i := by
  induction n with
  | zero => omega
  | succ n ih =>
    have hlast : (selMask p n).testBit n = false := Nat.testBit_lt_two_pow (selMask_lt p n)
    rw [selMask_succ]
    rcases Nat.lt_succ_iff_lt_or_eq.1 h with h | rfl
    · split
      · rw [add_comm, Nat.testBit_two_pow_add_gt h, ih h]
      · exact ih h
    · cases hp : p i with
      | true => rw [if_pos rfl, add_comm, Nat.testBit_two_pow_add_eq, hlast, Bool.not_false]
      | false => exact hlast

theorem selMask_bit (p : Nat → Bool) {n i : Nat} (h : i < n) : selMask p n / 2 ^ i % 2 = (p i).toNat := by
  rw [← selMask_testBit p h, Nat.toNat_testBit]

/-! ### Deltas (09 R283) -/

/-- A delta that fits has d bits, and with its sign extended it leads from the base to the word. -/
theorem deltaOf_sext {d k w b x : Nat} (hd : 0 < d) (hdk : d ≤ k) (hw : w < 2 ^ k) (hb : b < 2 ^ k) (h : deltaOf d k w b = some x) :
    x < 2 ^ d ∧ (b + sextNat d k x) % 2 ^ k = w := by
  have hhalf : 2 ^ d = 2 * 2 ^ (d - 1) := by rw [← pow_succ', Nat.sub_add_cancel hd]
  have hle : 2 ^ d ≤ 2 ^ k := Nat.pow_le_pow_right Nat.two_pos hdk
  have hlt : (w + 2 ^ k - b) % 2 ^ k < 2 ^ k := Nat.mod_lt _ (Nat.two_pow_pos k)
  have hdiff : b + (w + 2 ^ k - b) % 2 ^ k = w ∨ b + (w + 2 ^ k - b) % 2 ^ k = w + 2 ^ k := by
    by_cases hbw : b ≤ w
    · rw [Nat.sub_add_comm hbw, Nat.add_mod_right, Nat.mod_eq_of_lt (by omega)]
      omega
    · rw [Nat.mod_eq_of_lt (by omega)]
      omega
  have hback (y : Nat) (hy : b + y = w ∨ b + y = w + 2 ^ k) : (b + y) % 2 ^ k = w := by
    rcases hy with hy | hy
    · rw [hy, Nat.mod_eq_of_lt hw]
    · rw [hy, Nat.add_mod_right, Nat.mod_eq_of_lt hw]
  unfold deltaOf at h
  generalize (w + 2 ^ k - b) % 2 ^ k = y at *
  suffices hx : x < 2 ^ d ∧ sextNat d k x = y from ⟨hx.1, hback _ (hx.2 ▸ hdiff)⟩
  unfold sextNat
  dsimp only at h
  split at h
  · next hpos =>
    obtain rfl := Option.some.inj h
    exact ⟨by omega, if_pos hpos⟩
  · split at h
    · obtain rfl := Option.some.inj h
      rw [if_neg (by omega)]
      omega
    · cases h

/-! ### Base-delta blocks (09 R283, R284) -/

/-- A word fits as a delta from zero. -/
def nearZero (v : Line) (k d i : Nat) : Bool := (deltaOf d k (lineWord v k i) 0).isSome

/-- A base-delta block by its fields. -/
def bdBlock (enc n k d zsel base : Nat) (ds : List Nat) : Nat :=
  enc + 2 ^ 8 * (zsel + 2 ^ n * (base + 2 ^ k * Nat.ofDigits (2 ^ d) ds))

/-- What the encoder writes: the mask of the words near zero, a base, and for each word its delta from zero or from the base. -/
theorem encBD_eq_some {v : Line} {enc n k d b : Nat} (h : encBD v enc n k d = some b) :
    ∃ base ds, base < 2 ^ k ∧ b = bdBlock enc n k d (selMask (nearZero v k d) n) base ds ∧ ds.length = n
      ∧ ∀ i (hi : i < ds.length), deltaOf d k (lineWord v k i) (if nearZero v k d i then 0 else base) = some ds[i] := by
  let ws := (List.range n).map (lineWord v k)
  let base := ((ws.filter (fun w => !(deltaOf d k w 0).isSome)).head?).getD 0
  let ds := ws.map (fun w => deltaOf d k w (if (deltaOf d k w 0).isSome then 0 else base))
  have hif : (if ds.all (·.isSome) then
      some (enc + selMask (nearZero v k d) n * 2 ^ 8 + base * 2 ^ (8 + n) + ((ds.map (·.getD 0)).foldr (fun w a => w + a * 2 ^ d) 0) * 2 ^ (8 + n + k))
    else none) = some b := h
  split at hif
  case isFalse => exact absurd hif (by simp)
  case isTrue hall =>
  refine ⟨base, ds.map (·.getD 0), ?_, ?_, by simp [ds, ws], fun i hi => ?_⟩
  · simp only [base]
    cases hh : (ws.filter (fun w => !(deltaOf d k w 0).isSome)).head? with
    | none => exact Nat.two_pow_pos k
    | some w =>
      obtain ⟨i, -, rfl⟩ := List.mem_map.1 (List.mem_filter.1 (List.mem_of_head? hh)).1
      exact lineWord_lt ..
  · rw [← Option.some.inj hif, foldr_eq_ofDigits, bdBlock]
    ring
  · have hi' : i < ds.length := by simpa using hi
    have hsome := List.all_eq_true.1 hall _ (List.getElem_mem hi')
    obtain ⟨x, hx⟩ := Option.isSome_iff_exists.1 hsome
    have hd : ds[i] = deltaOf d k (lineWord v k i) (if nearZero v k d i then 0 else base) := by
      simp only [ds, ws, List.getElem_map, List.getElem_range]
      rfl
    rw [List.getElem_map, ← hd, hx, Option.getD_some]

section
variable {enc n k d zsel base : Nat} {ds : List Nat}

theorem bdBlock_code (henc : enc < 16) : bdBlock enc n k d zsel base ds % 16 = enc := by
  rw [bdBlock]
  omega

theorem bdBlock_zsel (henc : enc < 2 ^ 8) (hz : zsel < 2 ^ n) : bdBlock enc n k d zsel base ds / 2 ^ 8 % 2 ^ n = zsel := by
  rw [bdBlock, div_field henc, mod_field hz]

theorem bdBlock_base (henc : enc < 2 ^ 8) (hz : zsel < 2 ^ n) (hb : base < 2 ^ k) : bdBlock enc n k d zsel base ds / 2 ^ (8 + n) % 2 ^ k = base := by
  rw [bdBlock, div_above henc, div_field hz, mod_field hb]

theorem bdBlock_delta {i : Nat} (henc : enc < 2 ^ 8) (hz : zsel < 2 ^ n) (hb : base < 2 ^ k) (hds : ∀ x ∈ ds, x < 2 ^ d) (hi : i < ds.length) :
    bdBlock enc n k d zsel base ds / 2 ^ (8 + n + k + d * i) % 2 ^ d = ds[i] := by
  rw [bdBlock, Nat.add_assoc, Nat.add_assoc, div_above henc, div_above hz, div_above hb, ofDigits_div_mod hds hi]

theorem bdBlock_lt (hd : d ≠ 0) (henc : enc < 2 ^ 8) (hz : zsel < 2 ^ n) (hb : base < 2 ^ k) (hds : ∀ x ∈ ds, x < 2 ^ d)
    (hlen : 8 + n + k + d * ds.length ≤ 256) : bdBlock enc n k d zsel base ds < 2 ^ 256 := by
  have hdig : Nat.ofDigits (2 ^ d) ds < 2 ^ (d * ds.length) := ofDigits_lt hd hds le_rfl
  refine lt_of_lt_of_le ?_ (Nat.pow_le_pow_right Nat.two_pos hlen)
  rw [Nat.add_assoc, Nat.add_assoc]
  exact field_lt henc (field_lt hz (field_lt hb hdig))

end

/-- A base-delta block is at most 32 bytes, says which encoding it is of, and decodes to its line (09 R283, R284). -/
theorem encBD_decodes {v : Line} {enc n k d b : Nat} (h : encBD v enc n k d = some b) (henc : enc < 16) (hd : 0 < d) (hdk : d ≤ k) (hv : k * n = 512)
    (hlen : 8 + n + k + d * n ≤ 256) : b < 2 ^ 256 ∧ b % 16 = enc ∧ BitVec.ofNat 512 (decBD b n k d) = v := by
  obtain ⟨base, ds, hb, rfl, rfl, hdelta⟩ := encBD_eq_some h
  have henc8 : enc < 2 ^ 8 := by omega
  have hz := selMask_lt (nearZero v k d) ds.length
  have hword (i : Nat) (hi : i < ds.length) :
      ds[i] < 2 ^ d ∧ ((if nearZero v k d i then 0 else base) + sextNat d k ds[i]) % 2 ^ k = lineWord v k i := by
    refine deltaOf_sext hd hdk (lineWord_lt v k i) ?_ (hdelta i hi)
    split
    · exact Nat.two_pow_pos k
    · exact hb
  have hds (x : Nat) (hx : x ∈ ds) : x < 2 ^ d := by
    obtain ⟨i, hi, rfl⟩ := List.getElem_of_mem hx
    exact (hword i hi).1
  refine ⟨bdBlock_lt hd.ne' henc8 hz hb hds hlen, bdBlock_code henc, ?_⟩
  have hdec : decBD (bdBlock enc ds.length k d (selMask (nearZero v k d) ds.length) base ds) ds.length k d = v.toNat := by
    rw [← ofDigits_lineWord v hv, Nat.ofDigits_eq_foldr, List.foldr_map]
    refine List.foldr_ext _ _ _ fun i hi a => ?_
    have hi' : i < ds.length := List.mem_range.1 hi
    dsimp only
    rw [← (hword i hi').2, bdBlock_zsel henc8 hz, bdBlock_base henc8 hz hb, bdBlock_delta henc8 hz hb hds hi', selMask_bit _ hi']
    cases nearZero v k d i <;> rfl
  rw [hdec, BitVec.ofNat_toNat, BitVec.setWidth_eq]

/-! ### Z4 blocks (09 R283) -/

/-- A word is not zero. -/
def nonzero (v : Line) (i : Nat) : Bool := lineWord v 32 i != 0

/-- The stored words of a run of words. -/
def storedWords (v : Line) (i n : Nat) : List Nat := ((List.range' i n).map (lineWord v 32)).filter (· != 0)

theorem storedWords_succ (v : Line) (i n : Nat) :
    storedWords v i (n + 1) = if nonzero v i then lineWord v 32 i :: storedWords v (i + 1) n else storedWords v (i + 1) n := by
  simp only [storedWords, List.range'_succ, List.map_cons, List.filter_cons]
  rfl

theorem storedWords_lt (v : Line) (i n : Nat) : ∀ w ∈ storedWords v i n, w < 2 ^ 32 := by
  intro w hw
  obtain ⟨j, -, rfl⟩ := List.mem_map.1 (List.mem_filter.1 hw).1
  exact lineWord_lt ..

/-- What the encoder writes: at most seven words, and the mask that says which they are. -/
theorem encZ4_eq_some {v : Line} {b : Nat} (h : encZ4 v = some b) :
    (storedWords v 0 16).length ≤ 7 ∧ b = 1 + 2 ^ 8 * (selMask (nonzero v) 16 + 2 ^ 16 * Nat.ofDigits (2 ^ 32) (storedWords v 0 16)) := by
  have hmask : (List.range 16).foldl (fun a i => if lineWord v 32 i = 0 then a else a + 2 ^ i) 0 = selMask (nonzero v) 16 := by
    simp only [selMask, nonzero, bne_iff_ne, ite_not]
  simp only [encZ4, hmask, foldr_eq_ofDigits] at h
  rw [List.range_eq_range'] at h
  change (if (storedWords v 0 16).length ≤ 7 then some (1 + _ * 2 ^ 8 + Nat.ofDigits (2 ^ 32) (storedWords v 0 16) * 2 ^ 24) else none) = some b at h
  split at h
  · next hlen => exact ⟨hlen, by rw [← Option.some.inj h]; ring⟩
  · cases h

/-- Decoding takes the stored words in turn for the words that the mask names. -/
theorem decZ4_storedWords {v : Line} {nz : Nat} {i n : Nat} (hnz : ∀ j, i ≤ j → j < i + n → nz / 2 ^ j % 2 = (nonzero v j).toNat) :
    decZ4 nz (Nat.ofDigits (2 ^ 32) (storedWords v i n)) i n = Nat.ofDigits (2 ^ 32) ((List.range' i n).map (lineWord v 32)) := by
  induction n generalizing i with
  | zero => rfl
  | succ n ih =>
    have ih := ih (i := i + 1) fun j h1 h2 => hnz j (by omega) (by omega)
    rw [decZ4, hnz i le_rfl (by omega), storedWords_succ, List.range'_succ, List.map_cons, Nat.ofDigits_cons]
    cases hi : nonzero v i with
    | false =>
      have hzero : lineWord v 32 i = 0 := by simpa [nonzero] using hi
      rw [Bool.toNat_false, if_pos rfl, if_neg Bool.false_ne_true, ih, hzero, zero_add]
    | true =>
      rw [Bool.toNat_true, if_neg Nat.one_ne_zero, if_pos rfl, Nat.ofDigits_cons, mod_field (lineWord_lt v 32 i),
        div_field (lineWord_lt v 32 i), ih]

/-- A Z4 block is at most 32 bytes and decodes to its line (09 R283). -/
theorem encZ4_decodes {v : Line} {b : Nat} (h : encZ4 v = some b) : b < 2 ^ 256 ∧ micaDecode b = v := by
  obtain ⟨hlen, rfl⟩ := encZ4_eq_some h
  have hz := selMask_lt (nonzero v) 16
  have hst : Nat.ofDigits (2 ^ 32) (storedWords v 0 16) < 2 ^ 232 := ofDigits_lt (by decide) (storedWords_lt v 0 16) (by omega)
  refine ⟨field_lt (a := 8) (by decide) (field_lt (a := 16) hz hst), ?_⟩
  generalize hD : Nat.ofDigits (2 ^ 32) (storedWords v 0 16) = st at *
  have hcode : (1 + 2 ^ 8 * (selMask (nonzero v) 16 + 2 ^ 16 * st)) % 16 = 1 := by omega
  have hmask : (1 + 2 ^ 8 * (selMask (nonzero v) 16 + 2 ^ 16 * st)) / 2 ^ 8 % 2 ^ 16 = selMask (nonzero v) 16 := by omega
  have hwords : (1 + 2 ^ 8 * (selMask (nonzero v) 16 + 2 ^ 16 * st)) / 2 ^ 24 = st := by omega
  rw [micaDecode_z4 hcode, hmask, hwords, ← hD, decZ4_storedWords fun j _ h => selMask_bit _ (by omega), ← List.range_eq_range',
    ofDigits_lineWord v (by decide), BitVec.ofNat_toNat, BitVec.setWidth_eq]

/-! ### Blocks -/

/-- A block is one of the four encodings. -/
theorem micaEncode_eq_some {v : Line} {b : Nat} (h : micaEncode v = some b) :
    encZ4 v = some b ∨ encBD v 2 8 64 8 = some b ∨ encBD v 3 16 32 8 = some b ∨ encBD v 4 8 64 16 = some b := by
  unfold micaEncode at h
  generalize encZ4 v = z4 at *
  generalize encBD v 2 8 64 8 = b8d1 at *
  generalize encBD v 3 16 32 8 = b4d1 at *
  cases z4 with
  | some x => exact .inl h
  | none =>
    cases b8d1 with
    | some x => exact .inr (.inl h)
    | none =>
      cases b4d1 with
      | some x => exact .inr (.inr (.inl h))
      | none => exact .inr (.inr (.inr h))

/-- Settles O59: each encoding lays its fields side by side, and the decoder reads them back from their places. -/
theorem micaBlocks : Obligations.MicaBlocks := by
  unfold Obligations.MicaBlocks
  intro v b h
  rcases micaEncode_eq_some h with h | h | h | h
  · exact encZ4_decodes h
  · obtain ⟨hlt, hcode, hdec⟩ := encBD_decodes h (by decide) (by decide) (by decide) rfl (by decide)
    exact ⟨hlt, (micaDecode_b8d1 hcode).trans hdec⟩
  · obtain ⟨hlt, hcode, hdec⟩ := encBD_decodes h (by decide) (by decide) (by decide) rfl (by decide)
    exact ⟨hlt, (micaDecode_b4d1 hcode).trans hdec⟩
  · obtain ⟨hlt, hcode, hdec⟩ := encBD_decodes h (by decide) (by decide) (by decide) rfl (by decide)
    exact ⟨hlt, (micaDecode_b8d2 hcode).trans hdec⟩

end Sys2Proof.Machine
end

-- ==== Slots of DRAM ====
section
/-! Slots of DRAM: what a write of a slot leaves to be read, there and elsewhere; where lines, parities and tag lines stand (09 R277, R285). -/

namespace Sys2Proof.Machine

/-! ### Bytes of a slot -/

/-- No two bytes of slots share a cell. -/
theorem cellKey_inj {s t : Slot} {i j : Nat} (hs : s.c < 8) (ht : t.c < 8) (hi : i < 64) (hj : j < 64) (h : cellKey s i = cellKey t j) : s = t ∧ i = j := by
  obtain ⟨c, r⟩ := s
  obtain ⟨c', r'⟩ := t
  simp only [cellKey, Slot.mk.injEq] at *
  omega

/-- Two memories hold the same bytes in a slot. -/
def SameSlot (m m' : List Host.Cell) (x : Slot) : Prop := ∀ i, i < 64 → cellGet m (cellKey x i) = cellGet m' (cellKey x i)

theorem SameSlot.refl (m : List Host.Cell) (x : Slot) : SameSlot m m x := fun _ _ => rfl

theorem SameSlot.trans {m m' m'' : List Host.Cell} {x : Slot} (h : SameSlot m m' x) (g : SameSlot m' m'' x) : SameSlot m m'' x :=
  fun i hi => (h i hi).trans (g i hi)

theorem SameSlot.slotBytes {m m' : List Host.Cell} {x : Slot} (h : SameSlot m m' x) {i n : Nat} (hn : i + n ≤ 64) :
    slotBytes m x i n = slotBytes m' x i n := by
  induction n generalizing i with
  | zero => rfl
  | succ n ih => rw [Machine.slotBytes, Machine.slotBytes, h i (by omega), ih (by omega)]

theorem SameSlot.rawSlot {m m' : List Host.Cell} {x : Slot} (h : SameSlot m m' x) : rawSlot m x = rawSlot m' x := by
  rw [Machine.rawSlot, Machine.rawSlot, h.slotBytes (by decide)]

/-- A write leaves the cells of other bytes as they were. -/
theorem cellGet_putBytes {m : List Host.Cell} {s : Slot} {v i n k : Nat} (h : ∀ j, i ≤ j → j < i + n → k ≠ cellKey s j) :
    cellGet (putBytes m s v i n) k = cellGet m k := by
  induction n generalizing m v i with
  | zero => rfl
  | succ n ih =>
    rw [putBytes, ih fun j h1 h2 => h j (by omega) (by omega), cellGet_cellPut, if_neg (h i le_rfl (by omega))]

/-- A write of a slot leaves every other slot as it was. -/
theorem putBytes_sameSlot {s x : Slot} (m : List Host.Cell) (v : Nat) {n : Nat} (hs : s.c < 8) (hx : x.c < 8) (hn : n ≤ 64) (h : x ≠ s) :
    SameSlot m (putBytes m s v 0 n) x := fun i hi =>
  (cellGet_putBytes fun _ _ hj he => h (cellKey_inj hx hs hi (by omega) he).1).symm

/-- The bytes written are read back. -/
theorem slotBytes_putBytes (m : List Host.Cell) (s : Slot) (v i n : Nat) : slotBytes (putBytes m s v i n) s i n = v % 2 ^ (8 * n) := by
  induction n generalizing m v i with
  | zero => simp [slotBytes, Nat.mod_one]
  | succ n ih =>
    have hpow : 2 ^ (8 * (n + 1)) = 256 * 2 ^ (8 * n) := by ring
    rw [slotBytes, putBytes, ih, cellGet_putBytes (fun j h1 h2 => by simp only [cellKey]; omega), cellGet_cellPut, if_pos rfl,
      BitVec.toNat_ofNat, Nat.mod_mod, hpow, Nat.mod_mul]

theorem rawSlot_putBytes (m : List Host.Cell) (s : Slot) (v : Line) : rawSlot (putBytes m s v.toNat 0 64) s = v := by
  have hlt : v.toNat < 2 ^ (8 * 64) := by
    have := v.isLt
    omega
  rw [rawSlot, slotBytes_putBytes, Nat.mod_eq_of_lt hlt, BitVec.ofNat_toNat, BitVec.setWidth_eq]

/-! ### Places (09 R277, R285) -/

theorem slotOf_c_lt (mode : MemMode) (l : Nat) : (slotOf mode l).c < 8 := by
  cases mode <;> exact Nat.mod_lt _ (by decide)

theorem paritySlot_c_lt (r : Nat) : (paritySlot r).c < 8 := Nat.mod_lt _ (by decide)

theorem slotOf_inj {mode : MemMode} {l k : Nat} (h : slotOf mode l = slotOf mode k) : l = k := by
  cases mode <;> simp only [slotOf, Slot.mk.injEq] at h <;> omega

/-- The lines of a row and its parity stand on eight channels. -/
theorem slotOf_parity_c_ne {l : Nat} : (slotOf .parity l).c ≠ parityChannel (slotOf .parity l).r := by
  simp only [slotOf, parityChannel]
  omega

theorem slotOf_parity_inj_c {l k : Nat} (hr : l / 7 = k / 7) (h : (slotOf .parity l).c = (slotOf .parity k).c) : l = k := by
  simp only [slotOf] at h
  omega

theorem slotOf_ne_paritySlot (l r : Nat) : slotOf .parity l ≠ paritySlot r := by
  intro h
  simp only [slotOf, paritySlot, parityChannel, Slot.mk.injEq] at h
  omega

theorem mem_rowLines {i r : Nat} : i ∈ rowLines r ↔ i / 7 = r := by
  simp only [rowLines, List.mem_map, List.mem_range]
  constructor
  · rintro ⟨j, hj, rfl⟩
    omega
  · intro h
    exact ⟨i % 7, Nat.mod_lt _ (by decide), by omega⟩

theorem tagBit_lt {s : Slot} (h : s.c < 8) : tagBit s < 512 := by
  simp only [tagBit]
  omega

/-- No two slots share a tag. -/
theorem tag_inj {d : Dram} {s t : Slot} (hs : s.c < 8) (ht : t.c < 8) (hl : tagLineOf d s.r = tagLineOf d t.r) (hb : tagBit s = tagBit t) : s = t := by
  obtain ⟨c, r⟩ := s
  obtain ⟨c', r'⟩ := t
  simp only [tagLineOf, tagBit, Slot.mk.injEq] at *
  omega

theorem isTagLine_tagLineOf (d : Dram) (r : Nat) : isTagLine d (tagLineOf d r) = true := decide_eq_true (Nat.le_add_right ..)

theorem tagLineOf_ne {d : Dram} {l : Nat} (h : isTagLine d l = false) (r : Nat) : tagLineOf d r ≠ l := by
  rintro rfl
  rw [isTagLine_tagLineOf] at h
  cases h

/-! ### Rows of the tag region in PARITY mode (01 R23; 09 R277, R285) -/

section
variable {d : Dram} (hm : d.mode = .parity)
include hm

/-- The tag region begins 2^18 lines for each GiB of a channel below the 7 * 2^24 lines of usable DRAM (01 R23). -/
theorem isTagLine_parity (l : Nat) : isTagLine d l = decide (d.gib * 117178368 ≤ l) := by
  have hu : usableTop d = fittedBytes d / 8 * 7 := by rw [usableTop, hm]
  have hb : tagBase d / 64 = d.gib * 117178368 := by
    simp only [tagBase, hu, fittedBytes]
    omega
  rw [isTagLine, hb]

theorem tagLineOf_parity (r : Nat) : tagLineOf d r = d.gib * 117178368 + r / 64 := by
  have hu : usableTop d = fittedBytes d / 8 * 7 := by rw [usableTop, hm]
  simp only [tagLineOf, tagBase, hu, fittedBytes]
  omega

/-- The tag line of a row with a line of data stands in another row. -/
theorem tagLineOf_row_ne {i : Nat} (hi : isTagLine d i = false) : tagLineOf d (i / 7) / 7 ≠ i / 7 := by
  rw [isTagLine_parity hm, decide_eq_false_iff_not] at hi
  rw [tagLineOf_parity hm]
  omega

/-- The tags of a line of data beside tag lines stand in a row of tag lines alone. -/
theorem tagLineOf_row_tags {i j t : Nat} (hi : isTagLine d i = false) (ht : isTagLine d t = true) (hr : t / 7 = i / 7)
    (hj : j / 7 = tagLineOf d (i / 7) / 7) : isTagLine d j = true := by
  rw [isTagLine_parity hm, decide_eq_false_iff_not] at hi
  rw [isTagLine_parity hm, decide_eq_true_eq] at ht ⊢
  rw [tagLineOf_parity hm] at hj
  omega

end

end Sys2Proof.Machine
end

-- ==== Reads and writes of DRAM ====
section
/-! Reads and writes of DRAM (O58, and the replays of O33): a line written is read back, from its slot or, where that is lost, from its row (09 R295). -/

namespace Sys2Proof.Machine

/-! ### Other cells -/

/-- The DRAM with other contents in its cells. -/
def Dram.holding (d : Dram) (m : List Host.Cell) : Dram := { d with cells := m }

section
variable (d : Dram) (m : List Host.Cell)

@[simp] theorem Dram.holding_cells : (d.holding m).cells = m := rfl
@[simp] theorem Dram.holding_mode : (d.holding m).mode = d.mode := rfl
@[simp] theorem Dram.holding_holding (m' : List Host.Cell) : (d.holding m).holding m' = d.holding m' := rfl
@[simp] theorem slotLost_holding (x : Slot) : slotLost (d.holding m) x = slotLost d x := rfl
@[simp] theorem isTagLine_holding (l : Nat) : isTagLine (d.holding m) l = isTagLine d l := rfl
@[simp] theorem tagLineOf_holding (r : Nat) : tagLineOf (d.holding m) r = tagLineOf d r := rfl

end

/-- What a slot holds under its tag (09 R283). -/
def slotValue (m : List Host.Cell) (x : Slot) (t : Bool) : Line := if t then micaDecode (slotBytes m x 0 32) else rawSlot m x

theorem SameSlot.slotValue {m m' : List Host.Cell} {x : Slot} (h : SameSlot m m' x) (t : Bool) : slotValue m x t = slotValue m' x t := by
  rw [Machine.slotValue, Machine.slotValue, h.slotBytes (by decide), h.rawSlot]

/-- The lines that stand beside a line in its row. -/
def besides (r l : Nat) : List Nat := (rowLines r).filter (fun i => i != l)

theorem mem_besides {i r l : Nat} : i ∈ besides r l ↔ i / 7 = r ∧ i ≠ l := by
  simp [besides, List.mem_filter, mem_rowLines]

/-- The XOR of some lines' values and of a first one. -/
def xorOver (f : Nat → Line) (ls : List Nat) (x : Line) : Line := ls.foldl (fun a i => a ^^^ f i) x

theorem xorOver_congr {f g : Nat → Line} {ls : List Nat} (h : ∀ i ∈ ls, f i = g i) (x : Line) : xorOver f ls x = xorOver g ls x :=
  List.foldl_ext _ _ _ fun a i hi => by rw [h i hi]

theorem xorOver_xor (f : Nat → Line) (ls : List Nat) (x y : Line) : xorOver f ls (x ^^^ y) = xorOver f ls x ^^^ y := by
  induction ls generalizing x with
  | nil => rfl
  | cons i ls ih =>
    have hswap : x ^^^ y ^^^ f i = x ^^^ f i ^^^ y := by ac_rfl
    simp only [xorOver, List.foldl_cons, hswap] at ih ⊢
    exact ih _

/-- The value of one of the lines may be taken last. -/
theorem xorOver_filter (f : Nat → Line) {ls : List Nat} {l : Nat} (hnd : ls.Nodup) (hl : l ∈ ls) (x : Line) :
    xorOver f ls x = xorOver f (ls.filter (fun i => i != l)) x ^^^ f l := by
  induction ls generalizing x with
  | nil => cases hl
  | cons i ls ih =>
    obtain ⟨hi, hnd⟩ := List.nodup_cons.1 hnd
    by_cases he : i = l
    · subst he
      have hrest : ls.filter (fun j => j != i) = ls := List.filter_eq_self.2 fun j hj => bne_iff_ne.2 fun h => hi (h ▸ hj)
      rw [List.filter_cons_of_neg (by simp), hrest, ← xorOver_xor]
      rfl
    · rw [List.filter_cons_of_pos (by simpa using he)]
      exact ih hnd ((List.mem_cons.1 hl).resolve_left (Ne.symm he)) _

/-! ### The value of a line, case by case (09 R277, R283, R285, R295) -/

section
variable {d : Dram} {l : Nat} (n : Nat)

theorem lineValueF_lost (h : slotLost d (slotOf d.mode l) = true) :
    lineValueF d (n + 1) l
      = xorOver (lineValueF d n) (besides (slotOf d.mode l).r l) (rawSlot d.cells (paritySlot (slotOf d.mode l).r)) := by
  rw [lineValueF, if_pos h]
  rfl

theorem lineValueF_tagLine (h : slotLost d (slotOf d.mode l) = false) (ht : isTagLine d l = true) :
    lineValueF d (n + 1) l = rawSlot d.cells (slotOf d.mode l) := by
  rw [lineValueF, if_neg (by rw [h]; decide), if_pos ht]

theorem lineValueF_data (h : slotLost d (slotOf d.mode l) = false) (ht : isTagLine d l = false) :
    lineValueF d (n + 1) l = slotValue d.cells (slotOf d.mode l)
      ((lineValueF d n (tagLineOf d (slotOf d.mode l).r)).getLsbD (tagBit (slotOf d.mode l))) := by
  rw [lineValueF, if_neg (by rw [h]; decide), if_neg (by rw [ht]; decide)]
  rfl

end

/-! ### Lost channels -/

/-- A slot that is lost takes no write and is read from its row: no channel is lost, or in PARITY mode one that is not being rebuilt (09 R294, R295). -/
def Served (d : Dram) : Prop := d.lost = none ∨ d.mode = .parity ∧ d.rebuild = none

theorem Served.holding {d : Dram} (h : Served d) (m : List Host.Cell) : Served (d.holding m) := h

theorem slotLost_of_none {d : Dram} (h : d.lost = none) (x : Slot) : slotLost d x = false := by
  rw [slotLost, h]

theorem slotLost_c {d : Dram} {x y : Slot} (hx : slotLost d x = true) (hy : slotLost d y = true) : x.c = y.c := by
  unfold slotLost at hx hy
  cases hl : d.lost with
  | none => simp [hl] at hx
  | some k =>
    simp only [hl, Bool.and_eq_true, decide_eq_true_eq] at hx hy
    exact hx.1.symm.trans hy.1

section
variable {d : Dram} (hd : Served d)
include hd

theorem Served.parity {x : Slot} (hx : slotLost d x = true) : d.mode = .parity := by
  rcases hd with hd | ⟨hm, -⟩
  · rw [slotLost_of_none hd] at hx
    cases hx
  · exact hm

theorem Served.rebuild {x : Slot} (hx : slotLost d x = true) : d.rebuild = none := by
  rcases hd with hd | ⟨-, hr⟩
  · rw [slotLost_of_none hd] at hx
    cases hx
  · exact hr

theorem Served.putSlot (x : Slot) (v : Line) : putSlot d x v = if slotLost d x then d else d.holding (putBytes d.cells x v.toNat 0 64) := by
  unfold Machine.putSlot
  cases hx : slotLost d x with
  | false => rfl
  | true => rw [hd.rebuild hx]; rfl

theorem Served.putHalf (x : Slot) (b : Nat) : putHalf d x b = if slotLost d x then d else d.holding (putBytes d.cells x b 0 32) := by
  unfold Machine.putHalf
  cases hx : slotLost d x with
  | false => rfl
  | true => rw [hd.rebuild hx]; rfl

end

/-- Beside a lost line its row is whole. -/
theorem slotLost_besides {d : Dram} {l i : Nat} (hl : slotLost d (slotOf .parity l) = true) (hi : i / 7 = l / 7) (hne : i ≠ l) :
    slotLost d (slotOf .parity i) = false := by
  rw [← Bool.not_eq_true]
  exact fun h => hne (slotOf_parity_inj_c hi (slotLost_c h hl))

theorem slotLost_paritySlot {d : Dram} {l : Nat} (hl : slotLost d (slotOf .parity l) = true) : slotLost d (paritySlot (l / 7)) = false := by
  rw [← Bool.not_eq_true]
  exact fun h => slotOf_parity_c_ne (slotLost_c hl h)

/-! ### Values that a write elsewhere leaves -/

section
variable {d : Dram} {m : List Host.Cell}

/-- A line whose slot is not lost reads as before where its slot does and, but for a tag line, its tag. -/
theorem lineValueF_kept {l n k : Nat} (hl : slotLost d (slotOf d.mode l) = false) (hs : SameSlot d.cells m (slotOf d.mode l))
    (ht : isTagLine d l = false →
      (lineValueF (d.holding m) n (tagLineOf d (slotOf d.mode l).r)).getLsbD (tagBit (slotOf d.mode l))
        = (lineValueF d k (tagLineOf d (slotOf d.mode l).r)).getLsbD (tagBit (slotOf d.mode l))) :
    lineValueF (d.holding m) (n + 1) l = lineValueF d (k + 1) l := by
  cases htag : isTagLine d l with
  | true =>
    rw [lineValueF_tagLine n (d := d.holding m) hl htag, lineValueF_tagLine k hl htag]
    exact hs.rawSlot.symm
  | false =>
    rw [lineValueF_data n (d := d.holding m) hl htag, lineValueF_data k hl htag, ← ht htag]
    exact (hs.slotValue _).symm

/-- The same of a lost line, where the parity slot of its row does and the lines beside it. -/
theorem lineValueF_lost_kept {l n k : Nat} (hl : slotLost d (slotOf d.mode l) = true) (hp : SameSlot d.cells m (paritySlot (slotOf d.mode l).r))
    (hb : ∀ i ∈ besides (slotOf d.mode l).r l, lineValueF (d.holding m) n i = lineValueF d k i) :
    lineValueF (d.holding m) (n + 1) l = lineValueF d (k + 1) l := by
  rw [lineValueF_lost n (d := d.holding m) hl, lineValueF_lost k hl]
  simp only [Dram.holding_mode, Dram.holding_cells]
  rw [xorOver_congr hb, hp.rawSlot]

section
variable (hm : d.mode = .parity)
include hm

/-- A row of tag lines that is not written reads as before. -/
theorem tagRow_kept {l n k : Nat} (htags : ∀ j, j / 7 = l / 7 → isTagLine d j = true) (hrow : ∀ x : Slot, x.c < 8 → x.r = l / 7 → SameSlot d.cells m x)
    (hn : 2 ≤ n) (hk : 2 ≤ k) : lineValueF (d.holding m) n l = lineValueF d k l := by
  obtain ⟨n, rfl⟩ := Nat.exists_eq_add_of_le' hn
  obtain ⟨k, rfl⟩ := Nat.exists_eq_add_of_le' hk
  have hslot (j : Nat) (hj : j / 7 = l / 7) : SameSlot d.cells m (slotOf d.mode j) := hrow _ (slotOf_c_lt ..) (by rw [hm]; exact hj)
  have hwhole (j a b : Nat) (hj : j / 7 = l / 7) (hl : slotLost d (slotOf d.mode j) = false) :
      lineValueF (d.holding m) (a + 1) j = lineValueF d (b + 1) j :=
    lineValueF_kept hl (hslot j hj) fun h => absurd (htags j hj) (by simp [h])
  cases hl : slotLost d (slotOf d.mode l) with
  | false => exact hwhole l _ _ rfl hl
  | true =>
    refine lineValueF_lost_kept hl (hrow _ (paritySlot_c_lt _) (by rw [hm]; rfl)) fun i hi => ?_
    rw [hm] at hi hl
    obtain ⟨hr, hne⟩ := mem_besides.1 hi
    refine hwhole i _ _ hr ?_
    rw [hm]
    exact slotLost_besides hl hr hne

/-- A line beside a lost tag line reads as before where its slot and the row of its tags are not written. -/
theorem besideTagLine_kept {t j n k : Nat} (htag : isTagLine d t = true) (hlost : slotLost d (slotOf .parity t) = true) (hr : j / 7 = t / 7) (hne : j ≠ t)
    (hs : SameSlot d.cells m (slotOf .parity j))
    (hrow : isTagLine d j = false → ∀ x : Slot, x.c < 8 → x.r = tagLineOf d (t / 7) / 7 → SameSlot d.cells m x) (hn : 3 ≤ n) (hk : 3 ≤ k) :
    lineValueF (d.holding m) n j = lineValueF d k j := by
  obtain ⟨n, rfl⟩ := Nat.exists_eq_add_of_le' hn
  obtain ⟨k, rfl⟩ := Nat.exists_eq_add_of_le' hk
  refine lineValueF_kept (n := n + 2) (k := k + 2) (by rw [hm]; exact slotLost_besides hlost hr hne) (by rwa [hm]) fun hj => ?_
  have hsr : (slotOf d.mode j).r = t / 7 := by rw [hm]; exact hr
  rw [hsr, tagRow_kept (k := k + 2) hm (fun i hi => tagLineOf_row_tags hm hj htag hr.symm (by rw [hi, hr])) (hrow hj) (by omega) (by omega)]

end

/-- In row r something may have been written, but not where the tags of the row stand: in OPEN mode their slot, in PARITY mode the other rows are as before. -/
structure OutsideKept (d : Dram) (m : List Host.Cell) (r : Nat) : Prop where
  tags : SameSlot d.cells m (slotOf d.mode (tagLineOf d r))
  rows : d.mode = .parity → ∀ x : Slot, x.c < 8 → x.r ≠ r → SameSlot d.cells m x

/-- The tags of a row with a line of data then read as before. -/
theorem tagLine_kept (hd : Served d) {i n k : Nat} (hi : isTagLine d i = false) (h : OutsideKept d m (slotOf d.mode i).r) (hn : 4 ≤ n) (hk : 4 ≤ k) :
    lineValueF (d.holding m) n (tagLineOf d (slotOf d.mode i).r) = lineValueF d k (tagLineOf d (slotOf d.mode i).r) := by
  obtain ⟨n, rfl⟩ := Nat.exists_eq_add_of_le' hn
  obtain ⟨k, rfl⟩ := Nat.exists_eq_add_of_le' hk
  have htag := isTagLine_tagLineOf d (slotOf d.mode i).r
  cases hl : slotLost d (slotOf d.mode (tagLineOf d (slotOf d.mode i).r)) with
  | false => exact lineValueF_kept hl h.tags fun hf => absurd htag (by simp [hf])
  | true =>
    have hm := hd.parity hl
    have hrows := h.rows hm
    have hr : (slotOf d.mode i).r = i / 7 := by rw [hm]; rfl
    rw [hr] at hl htag hrows ⊢
    have hrow := tagLineOf_row_ne hm hi
    generalize tagLineOf d (i / 7) = t at *
    refine lineValueF_lost_kept hl (hrows _ (paritySlot_c_lt _) (by rw [hm]; exact hrow)) fun j hj => ?_
    rw [hm] at hj hl
    obtain ⟨hj, hne⟩ := mem_besides.1 hj
    have hj : j / 7 = t / 7 := hj
    refine besideTagLine_kept hm htag hl hj hne (hrows _ (slotOf_c_lt ..) (ne_of_eq_of_ne hj hrow)) (fun hdata x hx hxr => hrows x hx fun hxi => ?_)
      (by omega) (by omega)
    have := tagLineOf_row_tags hm hdata htag hj.symm (j := i) (by rw [hj, ← hxr, hxi])
    rw [this] at hi
    cases hi

end

/-! ### What is written: the tag -/

/-- A tag line with one tag set. -/
def withTag (x : Line) (i : Nat) (t : Bool) : Line := if x.getLsbD i = t then x else x ^^^ (1#512 <<< i)

theorem withTag_self (x : Line) {i : Nat} (hi : i < 512) (t : Bool) : (withTag x i t).getLsbD i = t := by
  unfold withTag
  split
  · next h => exact h
  · next h =>
    cases t <;> simp_all

theorem withTag_ne (x : Line) {i j : Nat} (h : j ≠ i) (t : Bool) : (withTag x i t).getLsbD j = x.getLsbD j := by
  unfold withTag
  split
  · rfl
  · have hbit : (1#512 <<< i).getLsbD j = false := by
      rw [BitVec.getLsbD_shiftLeft, BitVec.getLsbD_one]
      simp only [Bool.and_eq_false_iff, Bool.not_eq_false', decide_eq_true_eq, decide_eq_false_iff_not]
      omega
    rw [BitVec.getLsbD_xor, hbit, Bool.xor_false]

/-- Tag line `t` has been written with `v`: it reads so, and but for its slot and the parity slot of its row all slots are as before. -/
structure TagWritten (d : Dram) (t : Nat) (v : Line) (m : List Host.Cell) : Prop where
  reads : ∀ n, 4 ≤ n → lineValueF (d.holding m) n t = v
  others : ∀ x : Slot, x.c < 8 → x ≠ slotOf d.mode t → (d.mode = .parity → x ≠ paritySlot (t / 7)) → SameSlot d.cells m x

section
variable {d : Dram} {t : Nat} (hd : Served d) (htag : isTagLine d t = true) (v : Line)
include hd htag

/-- A tag line whose slot is not lost is written there; the parity slot of its row may be lost (09 R281, R295). -/
theorem putTagLine_whole (hl : slotLost d (slotOf d.mode t) = false) : ∃ m, putTagLine d t v = d.holding m ∧ TagWritten d t v m := by
  let s := slotOf d.mode t
  let m1 := putBytes d.cells s v.toNat 0 64
  have h1 (x : Slot) (hx : x.c < 8) (hne : x ≠ s) : SameSlot d.cells m1 x := putBytes_sameSlot _ _ (slotOf_c_lt ..) hx le_rfl hne
  have hraw : rawSlot m1 s = v := rawSlot_putBytes ..
  have hreads (m : List Host.Cell) (hm : rawSlot m s = v) (n : Nat) (hn : 4 ≤ n) : lineValueF (d.holding m) n t = v := by
    obtain ⟨n, rfl⟩ := Nat.exists_eq_add_of_le' hn
    rw [lineValueF_tagLine (n + 3) (d := d.holding m) hl htag]
    exact hm
  have hput : putSlot d s v = d.holding m1 := (hd.putSlot s v).trans (if_neg (by rw [hl]; exact Bool.false_ne_true))
  cases hm : d.mode with
  | open_ =>
    have heq : putTagLine d t v = putSlot d s v := by rw [putTagLine, hm]; simp only [s, hm]
    exact ⟨m1, heq.trans hput, hreads m1 hraw, fun x hx hne _ => h1 x hx hne⟩
  | parity =>
    let p := paritySlot (t / 7)
    let par := rawSlot d.cells p ^^^ dramRead d t ^^^ v
    have heq : putTagLine d t v = putSlot (putSlot d s v) p par := by rw [putTagLine, hm]; simp only [s, hm]; rfl
    rw [heq, hput, (hd.holding m1).putSlot]
    split
    · exact ⟨m1, rfl, hreads m1 hraw, fun x hx hne _ => h1 x hx hne⟩
    · have h2 (x : Slot) (hx : x.c < 8) (hne : x ≠ p) : SameSlot m1 (putBytes m1 p par.toNat 0 64) x :=
        putBytes_sameSlot _ _ (paritySlot_c_lt _) hx le_rfl hne
      have hs : SameSlot m1 (putBytes m1 p par.toNat 0 64) s := h2 s (slotOf_c_lt ..) (by simp only [s, hm]; exact slotOf_ne_paritySlot _ _)
      exact ⟨_, rfl, hreads _ (hs.rawSlot.symm.trans hraw), fun x hx hne hnp => (h1 x hx hne).trans (h2 x hx (hnp hm))⟩

/-- A lost tag line is written by the parity of its row alone, and read by it (09 R281, R295). -/
theorem putTagLine_lost (hl : slotLost d (slotOf d.mode t) = true) : ∃ m, putTagLine d t v = d.holding m ∧ TagWritten d t v m := by
  have hm := hd.parity hl
  let p := paritySlot (t / 7)
  let par := rawSlot d.cells p ^^^ dramRead d t ^^^ v
  let m := putBytes d.cells p par.toNat 0 64
  have hlp : slotLost d (slotOf .parity t) = true := by rwa [hm] at hl
  have hr : (slotOf d.mode t).r = t / 7 := by rw [hm]; rfl
  have h2 (x : Slot) (hx : x.c < 8) (hne : x ≠ p) : SameSlot d.cells m x := putBytes_sameSlot _ _ (paritySlot_c_lt _) hx le_rfl hne
  have hput : putTagLine d t v = d.holding m := by
    have heq : putTagLine d t v = putSlot (putSlot d (slotOf .parity t) v) p par := by rw [putTagLine, hm]; rfl
    rw [heq, hd.putSlot (slotOf .parity t), if_pos hlp, hd.putSlot, if_neg (by rw [slotLost_paritySlot hlp]; exact Bool.false_ne_true)]
  refine ⟨m, hput, fun n hn => ?_, fun x hx _ hnp => h2 x hx (hnp hm)⟩
  obtain ⟨n, rfl⟩ := Nat.exists_eq_add_of_le' hn
  have hbeside : ∀ j ∈ besides (t / 7) t, lineValueF (d.holding m) (n + 3) j = lineValueF d 7 j := by
    intro j hj
    obtain ⟨hjr, hne⟩ := mem_besides.1 hj
    refine besideTagLine_kept hm htag hlp hjr hne (h2 _ (slotOf_c_lt ..) (slotOf_ne_paritySlot _ _)) (fun hdata x hx hxr => h2 x hx ?_) (by omega) (by omega)
    rintro rfl
    exact tagLineOf_row_ne hm hdata (by rw [hjr]; exact hxr.symm)
  have hold : dramRead d t = xorOver (lineValueF d 7) (besides (t / 7) t) (rawSlot d.cells p) := by rw [dramRead, lineValueF_lost 7 hl, hr]
  have hnew : lineValueF (d.holding m) (n + 4) t = xorOver (lineValueF (d.holding m) (n + 3)) (besides (t / 7) t) (rawSlot m p) := by
    have h := lineValueF_lost (n + 3) (d := d.holding m) hl
    rwa [Dram.holding_mode, hr] at h
  have hpar : rawSlot m p = par := rawSlot_putBytes ..
  rw [hnew, hpar, xorOver_congr hbeside, xorOver_xor, xorOver_xor, ← hold, BitVec.xor_self, BitVec.zero_xor]

/-- A tag line that is written reads as written, from its slot or from its row (09 R281, R285, R295). -/
theorem putTagLine_written : ∃ m, putTagLine d t v = d.holding m ∧ TagWritten d t v m := by
  cases hl : slotLost d (slotOf d.mode t) with
  | false => exact putTagLine_whole hd htag v hl
  | true => exact putTagLine_lost hd htag v hl

end

/-- The tag of a slot is set: its tag line reads with it (09 R285). -/
theorem putTag_written {d : Dram} (hd : Served d) {s : Slot}
    (hstable : ∀ n, 4 ≤ n → lineValueF d n (tagLineOf d s.r) = dramRead d (tagLineOf d s.r)) (t : Bool) :
    ∃ m, putTag d s t = d.holding m ∧ TagWritten d (tagLineOf d s.r) (withTag (dramRead d (tagLineOf d s.r)) (tagBit s) t) m := by
  simp only [putTag, withTag]
  split
  · exact ⟨d.cells, rfl, hstable, fun x _ _ _ => SameSlot.refl _ x⟩
  · exact putTagLine_written hd (isTagLine_tagLineOf ..) _

/-! ### What is written: a line of data -/

/-- The slot of a line takes its data, whole or as a Mica block, and its tag is set to match (09 R283, R285). -/
theorem putData_eq_putTag {d : Dram} (hd : Served d) {l : Nat} (hl : isTagLine d l = false) (v : Line) :
    ∃ m t, putData d l v = putTag (d.holding m) (slotOf d.mode l) t ∧ (slotLost d (slotOf d.mode l) = false → slotValue m (slotOf d.mode l) t = v)
      ∧ ∀ x : Slot, x.c < 8 → x ≠ slotOf d.mode l → SameSlot d.cells m x := by
  have hlost (h : slotLost d (slotOf d.mode l) = true) (t : Bool) : slotLost d (slotOf d.mode l) = false → slotValue d.cells (slotOf d.mode l) t = v :=
    fun hf => absurd h (by simp [hf])
  simp only [putData, hl, Bool.false_eq_true, if_false]
  cases henc : (if d.mica = true then micaEncode v else none) with
  | none =>
    refine ⟨if slotLost d (slotOf d.mode l) then d.cells else putBytes d.cells (slotOf d.mode l) v.toNat 0 64, false, ?_⟩
    dsimp only
    rw [hd.putSlot]
    split
    · next h => exact ⟨rfl, hlost h _, fun x _ _ => SameSlot.refl _ x⟩
    · exact ⟨rfl, fun _ => rawSlot_putBytes .., fun x hx hne => putBytes_sameSlot _ _ (slotOf_c_lt ..) hx le_rfl hne⟩
  | some b =>
    have hb : micaEncode v = some b := by
      split at henc
      · exact henc
      · cases henc
    obtain ⟨hlt, hdec⟩ := micaBlocks v b hb
    refine ⟨if slotLost d (slotOf d.mode l) then d.cells else putBytes d.cells (slotOf d.mode l) b 0 32, true, ?_⟩
    dsimp only
    rw [hd.putHalf]
    split
    · next h => exact ⟨rfl, hlost h _, fun x _ _ => SameSlot.refl _ x⟩
    · refine ⟨rfl, fun _ => ?_, fun x hx hne => putBytes_sameSlot _ _ (slotOf_c_lt ..) hx (by decide) hne⟩
      rw [slotValue, if_pos rfl, slotBytes_putBytes, Nat.mod_eq_of_lt (show b < 2 ^ (8 * 32) from hlt), hdec]

/-- Line `l` of data has been written with `v` and the tag `t`: its slot shows `v` where it is not lost, its tag line reads with `t`, and but for
both slots and the parities all slots are as before. -/
structure DataWritten (d : Dram) (l : Nat) (v : Line) (m : List Host.Cell) (t : Bool) : Prop where
  value : slotLost d (slotOf d.mode l) = false → slotValue m (slotOf d.mode l) t = v
  tag : ∀ n, 4 ≤ n → lineValueF (d.holding m) n (tagLineOf d (slotOf d.mode l).r)
    = withTag (dramRead d (tagLineOf d (slotOf d.mode l).r)) (tagBit (slotOf d.mode l)) t
  others : ∀ x : Slot, x.c < 8 → x ≠ slotOf d.mode l → x ≠ slotOf d.mode (tagLineOf d (slotOf d.mode l).r) →
    (d.mode = .parity → ∀ q, x ≠ paritySlot q) → SameSlot d.cells m x

theorem putData_written {d : Dram} (hd : Served d) {l : Nat} (hl : isTagLine d l = false) (v : Line) :
    ∃ m t, putData d l v = d.holding m ∧ DataWritten d l v m t := by
  obtain ⟨m1, t, heq, hv, h1⟩ := putData_eq_putTag hd hl v
  have hne : slotOf d.mode (tagLineOf d (slotOf d.mode l).r) ≠ slotOf d.mode l := fun h => tagLineOf_ne hl _ (slotOf_inj h)
  have hout : OutsideKept d m1 (slotOf d.mode l).r := ⟨h1 _ (slotOf_c_lt ..) hne, fun _ x hx hr => h1 x hx fun h => hr (h ▸ rfl)⟩
  have hkept (n : Nat) (hn : 4 ≤ n) : lineValueF (d.holding m1) n (tagLineOf d (slotOf d.mode l).r) = dramRead d (tagLineOf d (slotOf d.mode l).r) :=
    tagLine_kept hd hl hout hn (by decide)
  obtain ⟨m, hm, htag, h2⟩ := putTag_written (hd.holding m1) (s := slotOf d.mode l) (fun n hn => (hkept n hn).trans (hkept 8 (by decide)).symm) t
  simp only [Dram.holding_holding, Dram.holding_mode, Dram.holding_cells, tagLineOf_holding] at hm htag h2
  have hsame : SameSlot m1 m (slotOf d.mode l) := h2 _ (slotOf_c_lt ..) hne.symm fun hmode => by rw [hmode]; exact slotOf_ne_paritySlot _ _
  refine ⟨m, t, heq.trans hm, fun hf => ?_, fun n hn => ?_, fun x hx hs ht hp => (h1 x hx hs).trans (h2 x hx ht fun hmode => hp hmode _)⟩
  · rw [← hv hf]
    exact (hsame.slotValue t).symm
  · rw [htag n hn]
    exact congrArg (fun x => withTag x _ t) (hkept 8 (by decide))

/-- A write of a line of data, with the parity of its row in PARITY mode (09 R280, R281). -/
theorem dramWrite_written {d : Dram} (hd : Served d) {l : Nat} (hl : isTagLine d l = false) (v : Line) :
    ∃ m t, dramWrite d l v = d.holding m ∧ DataWritten d l v m t
      ∧ (d.mode = .parity → slotLost d (paritySlot (l / 7)) = false → rawSlot m (paritySlot (l / 7)) = newParity d (l / 7) [(l, v)]) := by
  obtain ⟨m1, t, heq, h⟩ := putData_written hd hl v
  cases hmode : d.mode with
  | open_ => exact ⟨m1, t, (dramWrite_open d l v hmode).trans heq, h, fun h => by cases h⟩
  | parity =>
    rw [dramWrite_parity d l v hmode, heq, (hd.holding m1).putSlot]
    cases hlost : slotLost (d.holding m1) (paritySlot (l / 7)) with
    | true => exact ⟨m1, t, rfl, h, fun _ hf => absurd hlost (by simp [hf])⟩
    | false =>
      let par := newParity d (l / 7) [(l, v)]
      let m := putBytes m1 (paritySlot (l / 7)) par.toNat 0 64
      have h1 (x : Slot) (hx : x.c < 8) (hne : x ≠ paritySlot (l / 7)) : SameSlot m1 m x := putBytes_sameSlot _ _ (paritySlot_c_lt _) hx le_rfl hne
      have hline (k : Nat) : SameSlot m1 m (slotOf d.mode k) := h1 _ (slotOf_c_lt ..) (by rw [hmode]; exact slotOf_ne_paritySlot _ _)
      have hout : OutsideKept (d.holding m1) m (slotOf d.mode l).r := ⟨hline _, fun _ x hx hr => h1 x hx fun he => hr (by rw [he, hmode]; rfl)⟩
      refine ⟨m, t, rfl, ⟨fun hf => ?_, fun n hn => ?_, fun x hx hs ht hp => (h.others x hx hs ht hp).trans (h1 x hx (hp hmode _))⟩,
        fun _ _ => rawSlot_putBytes ..⟩
      · rw [← (hline l).slotValue]
        exact h.value hf
      · exact (tagLine_kept (hd.holding m1) hl hout hn (by decide)).trans (h.tag 4 (by decide))

/-- Where no channel is lost, another line of data reads as before. -/
theorem DataWritten.other {d : Dram} {l k : Nat} {v : Line} {m : List Host.Cell} {t : Bool} (h : DataWritten d l v m t) (hd : d.lost = none)
    (hl : isTagLine d l = false) (hk : isTagLine d k = false) (hne : k ≠ l) : dramRead (d.holding m) k = dramRead d k := by
  have hslot (i : Nat) (hi : i ≠ l) (ht : i ≠ tagLineOf d (slotOf d.mode l).r) : SameSlot d.cells m (slotOf d.mode i) :=
    h.others _ (slotOf_c_lt ..) (fun he => hi (slotOf_inj he)) (fun he => ht (slotOf_inj he)) fun hm q => by rw [hm]; exact slotOf_ne_paritySlot _ _
  refine lineValueF_kept (slotLost_of_none hd _) (hslot k hne (tagLineOf_ne hk _).symm) fun _ => ?_
  by_cases ht : tagLineOf d (slotOf d.mode k).r = tagLineOf d (slotOf d.mode l).r
  · have hbit : tagBit (slotOf d.mode k) ≠ tagBit (slotOf d.mode l) := fun hb =>
      hne (slotOf_inj (tag_inj (slotOf_c_lt ..) (slotOf_c_lt ..) ht hb))
    rw [ht, h.tag 7 (by decide), withTag_ne _ hbit, dramRead, lineValueF_tagLine 7 (slotLost_of_none hd _) (isTagLine_tagLineOf ..),
      lineValueF_tagLine 6 (slotLost_of_none hd _) (isTagLine_tagLineOf ..)]
  · rw [lineValueF_kept (n := 6) (k := 6) (slotLost_of_none hd _) (hslot _ (tagLineOf_ne hl _) ht)
      fun hf => absurd (isTagLine_tagLineOf d (slotOf d.mode k).r) (by simp [hf])]

/-! ### The line written is read back -/

/-- A line whose slot shows `v` under the tag written is read back. -/
theorem DataWritten.self {d : Dram} {l : Nat} {v : Line} {m : List Host.Cell} {t : Bool} (h : DataWritten d l v m t)
    (hl : isTagLine d l = false) (hw : slotLost d (slotOf d.mode l) = false) : dramRead (d.holding m) l = v := by
  rw [dramRead, lineValueF_data 7 (d := d.holding m) hw hl]
  simp only [Dram.holding_mode, Dram.holding_cells, tagLineOf_holding]
  rw [h.tag 7 (by decide), withTag_self _ (tagBit_lt (slotOf_c_lt ..)), h.value hw]

/-- A lost line is written by recompute: the parity is that of its value and of the lines beside it (09 R281, R295). -/
theorem newParity_lost {d : Dram} {l : Nat} (hw : slotLost d (slotOf .parity l) = true) (v : Line) :
    newParity d (l / 7) [(l, v)] = xorOver (dramRead d) (besides (l / 7) l) 0 ^^^ v := by
  have hu : byUpdate d (l / 7) [(l, v)] = false := by simp [byUpdate, hw]
  have hnd : (rowLines (l / 7)).Nodup := List.Nodup.map (fun a b h => by simpa using h) List.nodup_range
  have hg : groupParity d (l / 7) [(l, v)] = xorOver (fun i => mget [(l, v)] i (dramRead d i)) (rowLines (l / 7)) 0 := rfl
  rw [newParity, hu, if_neg Bool.false_ne_true, hg, xorOver_filter _ hnd (mem_rowLines.2 rfl)]
  have hbeside : ∀ i ∈ besides (l / 7) l, mget [(l, v)] i (dramRead d i) = dramRead d i := fun i hi => by
    simp [mget, mget?, (mem_besides.1 hi).2.symm]
  have hself : mget [(l, v)] l (dramRead d l) = v := by simp [mget, mget?]
  rw [hself]
  exact congrArg (· ^^^ v) (xorOver_congr hbeside 0)

/-- A lost line is read back from its row, where the parity covers it and the lines beside it read as before (09 R295). -/
theorem dramRead_lost {d : Dram} {l : Nat} {v : Line} {m : List Host.Cell} (hm : d.mode = .parity) (hw : slotLost d (slotOf .parity l) = true)
    (hp : rawSlot m (paritySlot (l / 7)) = xorOver (dramRead d) (besides (l / 7) l) 0 ^^^ v)
    (hb : ∀ i ∈ besides (l / 7) l, lineValueF (d.holding m) 7 i = dramRead d i) : dramRead (d.holding m) l = v := by
  have hw' : slotLost (d.holding m) (slotOf (d.holding m).mode l) = true := by
    rw [Dram.holding_mode, hm]
    exact hw
  have hr : (slotOf (d.holding m).mode l).r = l / 7 := by
    rw [Dram.holding_mode, hm]
    rfl
  rw [dramRead, lineValueF_lost 7 hw', hr, Dram.holding_cells, hp, xorOver_congr hb, xorOver_xor]
  have hzero (x : Line) : xorOver (dramRead d) (besides (l / 7) l) x = xorOver (dramRead d) (besides (l / 7) l) 0 ^^^ x := by
    have hx : (0 : Line) ^^^ x = x := BitVec.zero_xor
    rw [← xorOver_xor, hx]
  rw [hzero, BitVec.xor_self, BitVec.zero_xor]

/-- The tags of a row with a line of data need no more than four reads of rows and slots. -/
theorem tagLine_stable {d : Dram} (hd : Served d) {i n : Nat} (hi : isTagLine d i = false) (hn : 4 ≤ n) :
    lineValueF d n (tagLineOf d (slotOf d.mode i).r) = dramRead d (tagLineOf d (slotOf d.mode i).r) :=
  tagLine_kept (m := d.cells) hd hi ⟨.refl _ _, fun _ x _ _ => .refl _ x⟩ hn (by decide)

/-- The lines beside a lost line that is written read as before: their slots and their tags do. -/
theorem DataWritten.beside {d : Dram} {l i : Nat} {v : Line} {m : List Host.Cell} {t : Bool} (h : DataWritten d l v m t) (hd : Served d)
    (hl : isTagLine d l = false) (hw : slotLost d (slotOf .parity l) = true) (hi : i ∈ besides (l / 7) l) :
    lineValueF (d.holding m) 7 i = dramRead d i := by
  have hm := hd.parity hw
  obtain ⟨hr, hne⟩ := mem_besides.1 hi
  have hri : (slotOf d.mode i).r = (slotOf d.mode l).r := by
    rw [hm]
    exact hr
  have hit : i ≠ tagLineOf d (slotOf d.mode l).r := by
    rintro rfl
    rw [hm] at hr
    exact tagLineOf_row_ne hm hl hr
  have hbit : tagBit (slotOf d.mode i) ≠ tagBit (slotOf d.mode l) := fun hb =>
    hne (slotOf_inj (tag_inj (d := d) (slotOf_c_lt ..) (slotOf_c_lt ..) (by rw [hri]) hb))
  refine lineValueF_kept (by rw [hm]; exact slotLost_besides hw hr hne) (h.others _ (slotOf_c_lt ..) (fun he => hne (slotOf_inj he))
    (fun he => hit (slotOf_inj he)) fun _ q => by rw [hm]; exact slotOf_ne_paritySlot _ _) fun _ => ?_
  rw [hri, h.tag 6 (by decide), withTag_ne _ hbit, tagLine_stable hd hl (by decide)]

/-- A line of data that is written is read back, from its slot or from its row (09 R283, R295). -/
theorem dramRead_dramWrite_data {d : Dram} (hd : Served d) {l : Nat} (hl : isTagLine d l = false) (v : Line) : dramRead (dramWrite d l v) l = v := by
  obtain ⟨m, t, heq, h, hp⟩ := dramWrite_written hd hl v
  rw [heq]
  cases hw : slotLost d (slotOf d.mode l) with
  | false => exact h.self hl hw
  | true =>
    have hm := hd.parity hw
    rw [hm] at hw
    exact dramRead_lost hm hw ((hp hm (slotLost_paritySlot hw)).trans (newParity_lost hw v)) fun i hi => h.beside hd hl hw hi

/-- So is a tag line in PARITY mode (09 R285, R295). -/
theorem dramRead_dramWrite_tagLine {d : Dram} (hd : Served d) (hm : d.mode = .parity) {l : Nat} (hl : isTagLine d l = true) (v : Line) :
    dramRead (dramWrite d l v) l = v := by
  let p := paritySlot (l / 7)
  have hs : slotOf d.mode l = slotOf .parity l := by rw [hm]
  have hput : putData d l v = putSlot d (slotOf .parity l) v := by rw [← hs]; exact if_pos hl
  rw [dramWrite_parity d l v hm, hput, hd.putSlot]
  cases hw : slotLost d (slotOf .parity l) with
  | false =>
    have hraw (m : List Host.Cell) (h : rawSlot m (slotOf .parity l) = v) : dramRead (d.holding m) l = v := by
      rw [dramRead, lineValueF_tagLine 7 (d := d.holding m) (by rwa [← hs] at hw) hl, Dram.holding_mode, hs]
      exact h
    have h1 := rawSlot_putBytes d.cells (slotOf .parity l) v
    rw [if_neg Bool.false_ne_true, (hd.holding _).putSlot]
    split
    · exact hraw _ h1
    · have hkept := putBytes_sameSlot (putBytes d.cells (slotOf .parity l) v.toNat 0 64) (newParity d (l / 7) [(l, v)]).toNat (paritySlot_c_lt (l / 7))
        (slotOf_c_lt ..) (le_refl 64) (slotOf_ne_paritySlot l (l / 7))
      exact hraw _ (hkept.rawSlot.symm.trans h1)
  | true =>
    rw [if_pos rfl, hd.putSlot, slotLost_paritySlot hw, if_neg Bool.false_ne_true]
    let m := putBytes d.cells p (newParity d (l / 7) [(l, v)]).toNat 0 64
    have h1 (x : Slot) (hx : x.c < 8) (hne : x ≠ p) : SameSlot d.cells m x := putBytes_sameSlot _ _ (paritySlot_c_lt _) hx le_rfl hne
    have hline (k : Nat) : SameSlot d.cells m (slotOf d.mode k) := h1 _ (slotOf_c_lt ..) (by rw [hm]; exact slotOf_ne_paritySlot _ _)
    refine dramRead_lost hm hw ((rawSlot_putBytes ..).trans (newParity_lost hw v)) fun i hi => ?_
    obtain ⟨hr, hne⟩ := mem_besides.1 hi
    refine lineValueF_kept (n := 6) (k := 7) (by rw [hm]; exact slotLost_besides hw hr hne) (hline i) fun hdata => ?_
    have hri : (slotOf d.mode i).r = l / 7 := by rw [hm]; exact hr
    rw [tagLine_kept hd hdata ⟨hline _, fun _ x hx hxr => h1 x hx fun he => hxr (by rw [he, hri]; rfl)⟩ (by decide) (k := 7) (by decide)]

/-- In PARITY mode any line that is written is read back (09 R280, R295). -/
theorem dramRead_dramWrite {d : Dram} (hd : Served d) (hm : d.mode = .parity) (l : Nat) (v : Line) : dramRead (dramWrite d l v) l = v := by
  cases hl : isTagLine d l with
  | false => exact dramRead_dramWrite_data hd hl v
  | true => exact dramRead_dramWrite_tagLine hd hm hl v

/-! ### Addresses (09 R278) -/

/-- The fields of an address hold the bits of the channel line. -/
theorem dramAddr_fields (org : BitVec 8) (r : Nat) : let a := dramAddr org r
    r = a.sub.toNat + 2 * a.bankGroup.toNat + 16 * a.bank.toNat + 64 * (a.column.toNat / 16)
        + (if twoRanks org then 2 ^ 13 * a.rank.toNat + 2 ^ 14 * a.row else 2 ^ 13 * a.row)
      ∧ a.column.toNat % 16 = 0 := by
  simp only [dramAddr, BitVec.toNat_ofNat, Nat.toNat_testBit]
  cases twoRanks org with
  | true => simp only [Bool.true_and, Nat.toNat_testBit, if_true]; omega
  | false => simp only [Bool.false_and, Bool.false_eq_true, if_false]; omega

theorem dramAddr_inj {org : BitVec 8} {r k : Nat} (h : dramAddr org k = dramAddr org r) : k = r := by
  rw [(dramAddr_fields org k).1, h, ← (dramAddr_fields org r).1]

/-- Settles O58: where no channel is lost, a read looks at two slots, the line's and its tag line's, and a write at no others but parities. -/
theorem dramReadsBack : Obligations.DramReadsBack := by
  unfold Obligations.DramReadsBack
  refine ⟨fun d l v hd hl => ⟨dramRead_dramWrite_data (.inl hd) hl v, fun k hne hk => ?_⟩, fun org r k => ?_⟩
  · obtain ⟨m, t, heq, h, -⟩ := dramWrite_written (.inl hd) hl v
    rw [heq]
    exact h.other hd hl hk hne
  · exact ⟨(dramAddr_fields org r).1, (dramAddr_fields org r).2, dramAddr_inj⟩

end Sys2Proof.Machine
end

-- ==== Channels that are lost ====
section
/-! A channel is lost, retrained, rebuilt and taken back (O33; 09 R294 to R298; 15 R470). -/

namespace Sys2Proof.Machine

/-! ### A write of DRAM changes its cells alone -/

section
variable (d : Dram)

theorem putSlot_holding (x : Slot) (v : Line) : ∃ m, putSlot d x v = d.holding m := by
  unfold putSlot
  split
  · exact ⟨d.cells, rfl⟩
  · exact ⟨_, rfl⟩

theorem putHalf_holding (x : Slot) (b : Nat) : ∃ m, putHalf d x b = d.holding m := by
  unfold putHalf
  split
  · exact ⟨d.cells, rfl⟩
  · exact ⟨_, rfl⟩

theorem putTagLine_holding (t : Nat) (v : Line) : ∃ m, putTagLine d t v = d.holding m := by
  unfold putTagLine
  split
  · exact putSlot_holding ..
  · dsimp only
    obtain ⟨m, h⟩ := putSlot_holding d (slotOf .parity t) v
    rw [h]
    exact putSlot_holding ..

theorem putTag_holding (x : Slot) (t : Bool) : ∃ m, putTag d x t = d.holding m := by
  dsimp only [putTag]
  split
  · exact ⟨d.cells, rfl⟩
  · exact putTagLine_holding ..

theorem putData_holding (l : Nat) (v : Line) : ∃ m, putData d l v = d.holding m := by
  dsimp only [putData]
  split
  · exact putSlot_holding ..
  · split
    · next b _ =>
      obtain ⟨m, h⟩ := putHalf_holding d (slotOf d.mode l) b
      rw [h]
      exact putTag_holding ..
    · obtain ⟨m, h⟩ := putSlot_holding d (slotOf d.mode l) v
      rw [h]
      exact putTag_holding ..

theorem dramWrite_holding (l : Nat) (v : Line) : ∃ m, dramWrite d l v = d.holding m := by
  cases hm : d.mode with
  | open_ =>
    rw [dramWrite_open _ _ _ hm]
    exact putData_holding ..
  | parity =>
    obtain ⟨m, h⟩ := putData_holding d l v
    rw [dramWrite_parity _ _ _ hm, h]
    exact putSlot_holding ..

theorem rebuildRow_holding (k r : Nat) : ∃ m, rebuildRow d k r = d.holding m := by
  unfold rebuildRow
  split
  · exact putData_holding ..
  · exact putSlot_holding ..

end

/-! ### A write in place of those gathered for its line (09 R281) -/

/-- No write of a line is gathered once it has been taken out of its row's group. -/
theorem mget_ungroup (g : SMap (List (LineNo × Line))) (l : Nat) : ∀ p ∈ mget (ungroup g l) (l / 7) [], p.1.toNat ≠ l := by
  unfold ungroup
  cases hg : mget? g (l / 7) with
  | none => simp [mget, hg]
  | some ws => simp

theorem writeAfter_eq (d : Dram) (l : Nat) (v : Line) : ∃ m, writeAfter d l v = { d with cells := m, groups := ungroup d.groups l } := by
  obtain ⟨m, h⟩ := dramWrite_holding { d with groups := ungroup d.groups l } l v
  exact ⟨m, h⟩

/-- In PARITY mode the line then reads as written, be its channel lost (09 R294, R295). -/
theorem dramPeek_writeAfter {d : Dram} (hd : Served d) (hm : d.mode = .parity) (l : LineNo) (v : Line) : dramPeek (writeAfter d l.toNat v) l = v := by
  obtain ⟨m, h⟩ := writeAfter_eq d l.toNat v
  have hread : dramRead (writeAfter d l.toNat v) l.toNat = v := dramRead_dramWrite (d := { d with groups := ungroup d.groups l.toNat }) hd hm l.toNat v
  have hnone : (mget (writeAfter d l.toNat v).groups (l.toNat / 7) []).reverse.find? (fun p => p.1 == l) = none := by
    rw [h]
    refine List.find?_eq_none.2 fun p hp he => mget_ungroup d.groups l.toNat p (List.mem_reverse.1 hp) ?_
    rw [beq_iff_eq.1 he]
  rw [dramPeek, hnone]
  exact hread

/-! ### The write-back buffers are replayed (09 R294 step 4) -/

/-- From `s` to `t` nothing has changed but home slices, budgets, counters, and of DRAM its cells, its tag caches and the gathered writes. -/
def Replayed (s t : State) : Prop :=
  ∃ hs q u c tc g, t = { s with fab := { s.fab with homes := hs }, qos := q, uncore := u, dram := { s.dram with cells := c, tagCache := tc, groups := g } }

theorem Replayed.refl (s : State) : Replayed s s := ⟨_, _, _, _, _, _, rfl⟩

theorem Replayed.trans {s t u : State} (h : Replayed s t) (k : Replayed t u) : Replayed s u := by
  obtain ⟨_, _, _, _, _, _, rfl⟩ := h
  obtain ⟨_, _, _, _, _, _, rfl⟩ := k
  exact ⟨_, _, _, _, _, _, rfl⟩

theorem uncoreEvent_replayed (s : State) (u : Nat) (code : BitVec 8) (c : ClassId) : Replayed s (uncoreEvent s u code c) :=
  ⟨_, _, _, _, _, _, uncoreEvent_frame ..⟩

theorem chargeWrite_replayed (s : State) (c : ClassId) : Replayed s (chargeWrite s c) := by
  unfold chargeWrite
  dsimp only
  split
  · exact .refl s
  · exact ⟨_, _, _, _, _, _, rfl⟩

theorem tagUse_replayed (s : State) (sl : Slot) (dirty : Bool) (c : ClassId) : Replayed s (tagUse s sl dirty c) := by
  simp only [tagUse]
  split
  · exact ⟨_, _, _, _, _, _, rfl⟩
  · exact Replayed.trans ⟨_, _, _, _, _, _, rfl⟩ (uncoreEvent_replayed ..)

theorem countWrite_replayed (s : State) (l : LineNo) (v : Line) (c : ClassId) : Replayed s (countWrite s l v c) := by
  simp only [countWrite]
  generalize hs : uncoreEvent (uncoreEvent s _ _ _) _ _ _ = s1
  have h : Replayed s s1 := by
    rw [← hs]
    exact (uncoreEvent_replayed ..).trans (uncoreEvent_replayed ..)
  split
  · exact h
  · exact h.trans (tagUse_replayed ..)

theorem wbDone_replayed (s : State) (l : LineNo) (v : Line) : Replayed s (wbDone s l v) := by
  unfold wbDone
  dsimp only
  split
  · exact .refl s
  · split
    · exact ⟨_, _, _, _, _, _, rfl⟩
    · exact .refl s

/-- A replayed write is charged to the class that the buffer records with it (10 R322). -/
def charged (s : State) (l : LineNo) : State :=
  let c := wbClass (s.home (s.homeNo l)) l
  chargeWrite (uncoreEvent s (16 + s.stopOf (homeAgent (s.homeNo l))) 1 c) c

/-- It is counted at its controller (17 R515). -/
def counted (s : State) (l : LineNo) (v : Line) : State := countWrite (charged s l) l v (wbClass (s.home (s.homeNo l)) l)

theorem replayWrite_eq (s : State) (l : LineNo) (v : Line) :
    replayWrite s l v = wbDone { counted s l v with dram := writeAfter (counted s l v).dram l.toNat v } l v := rfl

theorem counted_replayed (s : State) (l : LineNo) (v : Line) : Replayed s (counted s l v) :=
  ((uncoreEvent_replayed ..).trans (chargeWrite_replayed ..)).trans (countWrite_replayed ..)

theorem writeAfter_replayed (s : State) (l : LineNo) (v : Line) : Replayed s { s with dram := writeAfter s.dram l.toNat v } := by
  obtain ⟨m, h⟩ := writeAfter_eq s.dram l.toNat v
  rw [h]
  exact ⟨_, _, _, _, _, _, rfl⟩

theorem replayWrite_replayed (s : State) (l : LineNo) (v : Line) : Replayed s (replayWrite s l v) := by
  rw [replayWrite_eq]
  exact ((counted_replayed s l v).trans (writeAfter_replayed ..)).trans (wbDone_replayed ..)

/-- The writes of one slice's buffer are replayed. -/
def replayHome (s : State) (k : Nat) : State :=
  ((s.home k).wbuf.filter (fun w => rowFilled s.dram (BitVec.ofNat 42 w.1))).foldl (fun u w => replayWrite u (BitVec.ofNat 42 w.1) w.2) s

theorem replayBuffers_eq (s : State) : replayBuffers s = (List.range 8).foldl replayHome s := rfl

theorem foldl_replayed {α : Type} {f : State → α → State} (hf : ∀ s a, Replayed s (f s a)) (s : State) (as : List α) : Replayed s (as.foldl f s) := by
  induction as generalizing s with
  | nil => exact .refl s
  | cons a as ih => exact (hf s a).trans (ih _)

theorem replayBuffers_replayed (s : State) : Replayed s (replayBuffers s) :=
  foldl_replayed (fun s _ => foldl_replayed (fun u _ => replayWrite_replayed u _ _) s _) s _

/-- Empty buffers have nothing to replay. -/
theorem foldl_replayHome_empty {s : State} {ks : List Nat} (h : ∀ k ∈ ks, (s.home k).wbuf = []) : ks.foldl replayHome s = s := by
  induction ks with
  | nil => rfl
  | cons k ks ih =>
    rw [List.forall_mem_cons] at h
    have hk : replayHome s k = s := by rw [replayHome, h.1]; rfl
    rw [List.foldl_cons, hk, ih h.2]

/-- One buffer alone has something to replay, and gives it up. -/
theorem foldl_replayHome_single {s : State} {h : Nat} {ks : List Nat} (hmem : h ∈ ks) (hempty : ∀ k ∈ ks, k ≠ h → (s.home k).wbuf = [])
    (hdone : ∀ k ∈ ks, ((replayHome s h).home k).wbuf = []) : ks.foldl replayHome s = replayHome s h := by
  induction ks with
  | nil => cases hmem
  | cons k ks ih =>
    rw [List.forall_mem_cons] at hempty hdone
    rw [List.foldl_cons]
    by_cases hk : k = h
    · rw [hk, foldl_replayHome_empty hdone.2]
    · have hone : replayHome s k = s := by rw [replayHome, hempty.1 hk]; rfl
      rw [hone, ih ((List.mem_cons.1 hmem).resolve_left (Ne.symm hk)) hempty.2 hdone.2]

/-- A slice's buffer takes a line or gives it up; the others stay. -/
theorem setWbuf_wbuf (s : State) (k j : Nat) (l : LineNo) (v : Option (Line × ClassId)) :
    ((setWbuf s k l v).home j).wbuf = if j = k then mset? (s.home k).wbuf l.toNat (v.map (·.1)) else (s.home j).wbuf := by
  let h := s.home k
  let s1 := s.setHome k { h with wbuf := mset? h.wbuf l.toNat (v.map (·.1)), wcls := mset? h.wcls l.toNat (v.map (·.2)) }
  have hmirror : ((setWbuf s k l v).home j).wbuf = (s1.home j).wbuf := by
    by_cases hp : j = s1.partner k
    · subst hp
      have hp : (setWbuf s k l v).home (s1.partner k)
          = { s1.home (s1.partner k) with mir := mset? (s1.home (s1.partner k)).mir l.toNat (v.map (·.1)) } := State.home_setHome_self ..
      rw [hp]
    · exact congrArg Home.wbuf (State.home_setHome_ne _ _ _ _ hp)
  rw [hmirror]
  split
  · next hj =>
    subst hj
    exact congrArg Home.wbuf (State.home_setHome_self ..)
  · next hj => exact congrArg Home.wbuf (State.home_setHome_ne _ _ _ _ hj)

/-- A buffer that holds one line gives it up once it is written; the other buffers stay (09 R280). -/
theorem wbDone_single {s : State} {l : LineNo} {v : Line} (hb : (s.home (s.homeNo l)).wbuf = [(l.toNat, v)]) :
    (wbDone s l v).dram = s.dram ∧ ∀ k, ((wbDone s l v).home k).wbuf = if k = s.homeNo l then [] else (s.home k).wbuf := by
  have hget : mget? (s.home (s.homeNo l)).wbuf l.toNat = some v := by simp [hb, mget?]
  simp only [wbDone, hget, if_true]
  refine ⟨rfl, fun k => ?_⟩
  rw [setWbuf_wbuf]
  split
  · rw [State.home_setHome_self]
    simp [hb, mset?, mdel]
  · next hk => rw [State.home_setHome_ne _ _ _ _ hk]

theorem chargeWrite_frame (s : State) (c : ClassId) : (chargeWrite s c).fab = s.fab ∧ (chargeWrite s c).dram = s.dram := by
  unfold chargeWrite
  dsimp only
  split <;> exact ⟨rfl, rfl⟩

theorem charged_frame (s : State) (l : LineNo) : (charged s l).fab = s.fab ∧ (charged s l).dram = s.dram := by
  obtain ⟨hfab, hdram⟩ := chargeWrite_frame (uncoreEvent s (16 + s.stopOf (homeAgent (s.homeNo l))) 1 (wbClass (s.home (s.homeNo l)) l))
    (wbClass (s.home (s.homeNo l)) l)
  exact ⟨hfab.trans (uncoreEvent_fab ..), hdram.trans (uncoreEvent_dram ..)⟩

/-- Charging and counting a write changes the tag caches alone of DRAM, and nothing of the fabric (09 R286). -/
theorem counted_frame (s : State) (l : LineNo) (v : Line) : (counted s l v).fab = s.fab ∧ ∃ q, (counted s l v).dram = s.dram.caching q := by
  obtain ⟨hfab, hdram⟩ := charged_frame s l
  obtain ⟨hf, q, hd⟩ := countWrite_frame (charged s l) l v (wbClass (s.home (s.homeNo l)) l)
  exact ⟨hf.trans hfab, q, hd.trans (congrArg (Dram.caching · q) hdram)⟩

/-- DRAM says nothing of the home slices. -/
theorem home_dram (s : State) (d : Dram) (k : Nat) : ({ s with dram := d } : State).home k = s.home k := rfl

theorem homeNo_dram (s : State) (d : Dram) (l : LineNo) : ({ s with dram := d } : State).homeNo l = s.homeNo l := rfl

/-- A write that is replayed stands in DRAM, and its buffer, which holds it alone, is empty (09 R294 step 4). -/
theorem replayWrite_single {s : State} {l : LineNo} {v : Line} (hb : (s.home (s.homeNo l)).wbuf = [(l.toNat, v)]) :
    (∃ q, (replayWrite s l v).dram = writeAfter (s.dram.caching q) l.toNat v)
      ∧ ∀ k, ((replayWrite s l v).home k).wbuf = if k = s.homeNo l then [] else (s.home k).wbuf := by
  obtain ⟨hfab, q, hdram⟩ := counted_frame s l v
  have hh (k : Nat) : (counted s l v).home k = s.home k := by
    rw [State.home, hfab]
    rfl
  have hk : (counted s l v).homeNo l = s.homeNo l := by
    rw [State.homeNo, State.htOf, hfab]
    rfl
  obtain ⟨hd, hw⟩ := wbDone_single (s := { counted s l v with dram := writeAfter (counted s l v).dram l.toNat v }) (l := l) (v := v)
    (by rw [homeNo_dram, home_dram, hk, hh, hb])
  rw [replayWrite_eq]
  refine ⟨⟨q, ?_⟩, fun k => ?_⟩
  · rw [hd, hdram]
  · rw [hw, homeNo_dram, home_dram, hk, hh]

/-- A buffer that holds one line, in a filled row, replays that line (09 R293, R294). -/
theorem replayHome_single {s : State} {l : LineNo} {v : Line} (hb : (s.home (s.homeNo l)).wbuf = [(l.toNat, v)]) (hf : rowFilled s.dram l = true) :
    replayHome s (s.homeNo l) = replayWrite s l v := by
  have hl : BitVec.ofNat 42 l.toNat = l := by rw [BitVec.ofNat_toNat, BitVec.setWidth_eq]
  rw [replayHome, hb, List.filter_cons_of_pos (by rw [hl]; exact hf), List.filter_nil, List.foldl_cons, List.foldl_nil, hl]

theorem replayBuffers_empty {s : State} (h : ∀ k, k < 8 → (s.home k).wbuf = []) : replayBuffers s = s :=
  foldl_replayHome_empty fun k hk => h k (List.mem_range.1 hk)

/-- A line that alone stands in a buffer, in a filled row, is written (09 R293, R294). -/
theorem replayBuffers_single {s : State} {l : LineNo} {v : Line} (hb : (s.home (s.homeNo l)).wbuf = [(l.toNat, v)])
    (hothers : ∀ k, k < 8 → k ≠ s.homeNo l → (s.home k).wbuf = []) (hf : rowFilled s.dram l = true) :
    ((replayBuffers s).home (s.homeNo l)).wbuf = [] ∧ ∃ q, (replayBuffers s).dram = writeAfter (s.dram.caching q) l.toNat v := by
  obtain ⟨hd, hw⟩ := replayWrite_single hb
  have hone := replayHome_single hb hf
  have hall : replayBuffers s = replayWrite s l v := by
    rw [← hone]
    refine foldl_replayHome_single (List.mem_range.2 (BitVec.isLt _)) (fun k hk => hothers k (List.mem_range.1 hk)) fun k hk => ?_
    rw [hone, hw]
    split
    · rfl
    · next hne => exact hothers k (List.mem_range.1 hk) hne
  rw [hall]
  exact ⟨(hw _).trans (if_pos rfl), hd⟩

/-! ### The switch-over (09 R294) -/

theorem AtWork.meetCommits {s : State} (h : AtWork s) : meetCommits s = s := by
  have hnone : ((mkeys s.gate.lanes).map (BitVec.ofNat 6)).filter (mayCommit s) = [] :=
    List.filter_eq_nil_iff.2 fun n _ => by simp [h.commit n]
  simp only [Machine.meetCommits, h.armed, Bool.false_eq_true, if_false, stopCommit, hnone]

/-- The log record of a channel's loss (15 R456 class 0x0F). -/
def lossOf (c : Oct) : LogIn := { cls := 0x0F, action := 4, ukind := 6, uindex := c.toNat, stallMax := 400000 }

/-- The device with a channel marked lost. -/
def marked (s : State) (c : Oct) : State :=
  let d := s.dram
  let day := d.losses.filter (fun r => r.1 == c && decide (s.qz.time < r.2 + 86400000000000))
  let out := s.policy 3 % 2 == 1 && decide (s.policy 3 / 256 % 256 ≤ day.length)
  { s with dram := { d with
      lost := some c, rebuild := none, losses := (c, s.qz.time) :: day ++ d.losses.filter (fun r => r.1 != c)
      leftOut := if out then d.leftOut ||| bitOf c.toNat else d.leftOut, due := d.due.filter (· != c) } }

theorem execChannelSwitchover_loses {s : State} {c : Oct} (hr : recovers s = true) (hg : s.gate.restart = false) (hl : s.dram.lost ≠ some c) :
    exec (.channelSwitchover c) s = .next (loseChannel s c) := by
  simp [exec, execChannelSwitchover, whenTrue, hr, hg, channelFault, hl]

/-- A loss that is hidden: the channel is marked lost, the buffers are replayed, the loss is recorded (09 R294). -/
theorem loseChannel_parity {s : State} {c : Oct} (ha : AtWork s) (hm : s.dram.mode = .parity) (hl : s.dram.lost = none) :
    loseChannel s c = enterRepair (recordFault (replayBuffers (marked s c)) (lossOf c) none) := by
  have hopen : (MemMode.parity == MemMode.open_) = false := rfl
  simp only [loseChannel, hm, hl, hopen, ha.awake, ha.meetCommits, Bool.or_false, Bool.false_eq_true, if_false, marked, lossOf]

/-- A loss that cannot be hidden (09 R296). -/
theorem loseChannel_belvedere {s : State} {c : Oct} (hr : recovers s = true)
    (h : s.dram.mode = .open_ ∧ s.dram.lost = none ∨ ∃ k, s.dram.lost = some k ∧ k ≠ c) : InBelvedere (loseChannel s c) := by
  have hc : loseChannel s c = enterBelvedere s { lossOf c with cls := 0x22 } none := by
    rcases h with ⟨hm, hl⟩ | ⟨k, hl, hk⟩
    · simp only [loseChannel, hm, beq_self_eq_true, Bool.true_or, if_true, lossOf]
    · simp only [loseChannel, hl, bne_iff_ne.2 hk, Bool.or_true, if_true, lossOf]
  rw [hc]
  exact enterBelvedere_inBelvedere hr _ _

/-! ### The rebuild (09 R296, R297) -/

theorem burstResult_clean {s : State} {own : Slot} {b : Burst} (h : eccAt s.dram (burstSlot s.dram own b) b = .clean) : burstResult s own b = s := by
  simp only [burstResult, h]

theorem burstResult_uncorrectable {s : State} {own : Slot} {b : Burst} (h : eccAt s.dram (burstSlot s.dram own b) b = .uncorrectable) :
    burstResult s own b = burstLost s (BitVec.ofNat 3 (burstSlot s.dram own b).c) (burstSlot s.dram own b).r := by
  simp only [burstResult, h]

theorem recovers_mode_ne {s : State} (h : recovers s = true) : s.mode ≠ .belvedere := by
  intro hm
  simp [recovers, hm] at h

/-- The bursts that the rebuild of a row reads have been met; which they are is a free value (09 R296, R297). -/
def rowMet (s : State) (k : Oct) (b : Nat) : State := burstResult s.free.2 { c := k.toNat, r := b } (Config.rebuildBurst s.fresh)

section
variable {s : State} {k : Oct} {b : Nat} (hl : s.dram.lost = some k) (hb : s.dram.rebuild = some b)
include hl hb

/-- The row at the rebuild pointer has a lost slot (09 R297). -/
theorem rowLost_rebuild : rowLost s.dram b = true := by
  refine List.any_eq_true.2 ⟨k.toNat, List.mem_range.2 k.isLt, ?_⟩
  simp [slotLost, hl, hb]

/-- The bursts of the row at the pointer are met first (09 R296, R297). -/
theorem execChannelRebuildRow_eq (hr : recovers s = true) (ha : AtWork s) (hlt : b < slotsPerChannel s.dram) :
    exec .channelRebuildRow s =
      if (rowMet s k b).mode == .belvedere || (rowMet s k b).dram.rebuild != some b then .next (rowMet s k b)
      else .next { rowMet s k b with dram := { rebuildRow (rowMet s k b).dram k.toNat b with rebuild := some (b + 1) } } := by
  have hgo : (recovers s && s.mode != .rest && decide (b < slotsPerChannel s.dram)) = true := by
    rw [hr, bne_iff_ne.2 ha.mode, decide_eq_true hlt]
    rfl
  show execChannelRebuildRow s = _
  simp only [execChannelRebuildRow, hl, hb, hgo, if_true]
  rfl

/-- A row of which a burst cannot be corrected is not hidden (09 R296). -/
theorem rowMet_uncorrectable (hr : recovers s = true)
    (he : eccAt s.dram (burstSlot s.dram { c := k.toNat, r := b } (Config.rebuildBurst s.fresh)) (Config.rebuildBurst s.fresh) = .uncorrectable) :
    InBelvedere (rowMet s k b) := by
  have hrow : (burstSlot s.dram { c := k.toNat, r := b } (Config.rebuildBurst s.fresh)).r = b := by
    unfold burstSlot
    split <;> rfl
  have hlost : rowLost s.free.2.dram (burstSlot s.dram { c := k.toNat, r := b } (Config.rebuildBurst s.fresh)).r = true := by
    rw [hrow]
    exact rowLost_rebuild hl hb
  rw [rowMet, burstResult_uncorrectable (s := s.free.2) he, burstLost, if_pos (by rw [Bool.or_eq_true]; exact .inr hlost)]
  exact enterBelvedere_inBelvedere (s := s.free.2) hr _ _

/-- One row is rebuilt where its bursts are clean (09 R296, R297). -/
theorem execChannelRebuildRow_rebuilds (hr : recovers s = true) (ha : AtWork s) (hlt : b < slotsPerChannel s.dram) :
    let u := Config.rebuildBurst s.fresh
    let e := eccAt s.dram (burstSlot s.dram { c := k.toNat, r := b } u) u
    ∃ t, exec .channelRebuildRow s = .next t
      ∧ (e = .clean → t.dram.rebuild = some (b + 1) ∧ t.dram.lost = some k ∧ t.dram.cells = (rebuildRow s.dram k.toNat b).cells)
      ∧ (e = .uncorrectable → InBelvedere t) := by
  intro u e
  rw [execChannelRebuildRow_eq hl hb hr ha hlt]
  cases he : e with
  | clean =>
    obtain ⟨m, hm⟩ := rebuildRow_holding s.dram k.toNat b
    have hmet : rowMet s k b = s.free.2 := burstResult_clean (s := s.free.2) he
    have hgo : (s.free.2.mode == .belvedere || s.free.2.dram.rebuild != some b) = false := by
      show (s.mode == .belvedere || s.dram.rebuild != some b) = false
      simp [recovers_mode_ne hr, hb]
    rw [hmet, hgo, if_neg Bool.false_ne_true]
    exact ⟨_, rfl, fun _ => ⟨rfl, (congrArg Dram.lost hm).trans hl, rfl⟩, nofun⟩
  | corrected i =>
    split
    · exact ⟨_, rfl, nofun, nofun⟩
    · exact ⟨_, rfl, nofun, nofun⟩
  | uncorrectable =>
    have hin := rowMet_uncorrectable hl hb hr he
    rw [hin.mode, beq_self_eq_true, Bool.true_or, if_pos rfl]
    exact ⟨_, rfl, nofun, fun _ => hin⟩

/-- Past the last row the channel is taken back (09 R298; 15 R470). -/
theorem execChannelRebuildEnd_returns (hr : recovers s = true) (ha : AtWork s) (hg : s.gate.restart = false) (hle : slotsPerChannel s.dram ≤ b) :
    ∃ t, exec .channelRebuildEnd s = .next t ∧ t.dram = { s.dram with lost := none, rebuild := none } ∧ Logged t 0x0F 0x0A 6 k.toNat := by
  let e : LogIn := { cls := 0x0F, action := 0x0A, ukind := 6, uindex := k.toNat }
  have hexec : exec .channelRebuildEnd s = .next (logEvent { s with dram := { s.dram with lost := none, rebuild := none } } e) := by
    simp [exec, execChannelRebuildEnd, hl, hb, hr, hg, ha.mode, hle, e]
  refine ⟨_, hexec, ?_, logEvent_logged (e := e) (by simp [e]) (by simp [e])⟩
  obtain ⟨_, _, _, _, _, h⟩ := logEvent_recorded { s with dram := { s.dram with lost := none, rebuild := none } } e
  rw [h]

end

/-! ### The clauses of O33 -/

/-- Entering REPAIR changes the mode alone (14 R431). -/
theorem enterRepair_frame (s : State) : (enterRepair s).dram = s.dram ∧ (enterRepair s).fab = s.fab
    ∧ (enterRepair s).mode = (if s.mode = .service then .repair else s.mode) := by
  unfold enterRepair
  by_cases hm : s.mode = .service
  · rw [if_pos (beq_iff_eq.2 hm), if_pos hm]
    exact ⟨rfl, rfl, rfl⟩
  · rw [if_neg (fun hb => hm (beq_iff_eq.1 hb)), if_neg hm]
    exact ⟨rfl, rfl, rfl⟩

theorem Recorded.dram {s t : State} (h : Recorded s t) : t.dram = s.dram := by
  obtain ⟨_, _, _, _, _, rfl⟩ := h
  rfl

/-- A recorded fault under which the device enters REPAIR (09 R294). -/
theorem repaired_frame (u : State) (e : LogIn) :
    (enterRepair (recordFault u e none)).dram = u.dram ∧ (enterRepair (recordFault u e none)).fab = u.fab
      ∧ (enterRepair (recordFault u e none)).mode = (if u.mode = .service then .repair else u.mode) := by
  obtain ⟨hdram, hfab, hmode⟩ := enterRepair_frame (recordFault u e none)
  have h := recordFault_recorded u e none
  exact ⟨hdram.trans h.dram, hfab.trans h.fab, by rw [hmode, h.mode]⟩

theorem enterRepair_logged {u : State} {cls action ukind : BitVec 8} {i : Nat} (h : Logged u cls action ukind i) : Logged (enterRepair u) cls action ukind i := by
  unfold enterRepair
  split <;> exact h

/-- In PARITY mode the loss of a channel is hidden (09 R294). -/
theorem execChannelSwitchover_hides {s : State} {c : Oct} (hr : recovers s = true) (ha : AtWork s) (hg : s.gate.restart = false)
    (hm : s.dram.mode = .parity) (hl : s.dram.lost = none) :
    ∃ t, exec (.channelSwitchover c) s = .next t ∧ t.dram.lost = some c ∧ t.dram.rebuild = none
      ∧ ((∀ h, h < 8 → (s.home h).wbuf = []) → t.dram.cells = s.dram.cells)
      ∧ (∀ l v, let h := s.homeNo l
        (s.home h).wbuf = [(l.toNat, v)] → (∀ k, k < 8 → k ≠ h → (s.home k).wbuf = []) → rowFilled s.dram l = true →
        (t.home h).wbuf = [] ∧ dramPeek t.dram l = v)
      ∧ t.dram.losses.head? = some (c, s.qz.time)
      ∧ t.mode = (if s.mode = .service then .repair else s.mode) ∧ Logged t 0x0F 4 6 c.toNat := by
  rw [execChannelSwitchover_loses hr hg (by simp [hl]), loseChannel_parity ha hm hl]
  obtain ⟨hdram, hfab, hmode⟩ := repaired_frame (replayBuffers (marked s c)) (lossOf c)
  have hlog : Logged (enterRepair (recordFault (replayBuffers (marked s c)) (lossOf c) none)) 0x0F 4 6 c.toNat :=
    enterRepair_logged (recordFault_logged (e := lossOf c) (by simp [lossOf]) (by simp [lossOf]))
  obtain ⟨_, _, _, _, _, _, hrep⟩ := replayBuffers_replayed (marked s c)
  refine ⟨_, rfl, ?_, ?_, fun hempty => ?_, fun l v hb hothers hf => ?_, ?_, ?_, hlog⟩
  · rw [hdram, hrep]
    rfl
  · rw [hdram, hrep]
    rfl
  · rw [hdram, replayBuffers_empty (s := marked s c) hempty]
    rfl
  · obtain ⟨hw, q, hq⟩ := replayBuffers_single (s := marked s c) hb hothers hf
    refine ⟨?_, ?_⟩
    · rw [State.home, hfab]
      exact hw
    · rw [hdram, hq]
      exact dramPeek_writeAfter (d := (marked s c).dram.caching q) (.inr ⟨hm, rfl⟩) hm l v
  · rw [hdram, hrep]
    rfl
  · rw [hmode, hrep]
    rfl

/-- A lost channel is retrained where the policy lets it (09 R297). -/
theorem execChannelRetrain_retrains {s : State} {c : Oct} (ok : Bool) (hr : recovers s = true) (ha : AtWork s) (hg : s.gate.restart = false)
    (hl : s.dram.lost = some c) (hb : s.dram.rebuild = none) (hp : s.policy 3 % 2 = 1)
    (hday : (s.dram.retrains.filter (fun r => r.1 == c && decide (s.qz.time < r.2 + 86400000000000))).length < s.policy 3 / 256 % 256)
    (hout : s.dram.leftOut.getLsbD c.toNat = false) :
    exec (.channelRetrain c ok) s = .next { s with dram := { s.dram with
      retrains := (c, s.qz.time) :: s.dram.retrains, rebuild := if ok then some 0 else none } } := by
  have hmode : (s.mode != .rest) = true := bne_iff_ne.2 ha.mode
  have hexec : exec (.channelRetrain c ok) s = execChannelRetrain c ok s := rfl
  simp only [hexec, execChannelRetrain, whenTrue, hr, hmode, hg, hl, hb, hp, hout, decide_eq_true hday, beq_self_eq_true, Option.isNone_none, Bool.not_false,
    Bool.and_true, if_true]

/-- Settles O33: the switch-over and the rebuild write nothing but cells, and a replayed line is read back from its slot or, lost, from its row. -/
theorem channelsAreLostAndRebuilt : Obligations.ChannelsAreLostAndRebuilt := by
  unfold Obligations.ChannelsAreLostAndRebuilt
  refine ⟨fun s c hr ha hg => ⟨execChannelSwitchover_hides hr ha hg, fun h => ?_⟩,
    fun s c ok hr ha hg hl hb hp hday hout => execChannelRetrain_retrains ok hr ha hg hl hb hp hday hout,
    fun s k b hr ha hg hl hb => ⟨execChannelRebuildRow_rebuilds hl hb hr ha, execChannelRebuildEnd_returns hl hb hr ha hg⟩⟩
  have hl : s.dram.lost ≠ some c := by
    rintro hc
    rcases h with ⟨-, hl⟩ | ⟨k, hl, hk⟩
    · simp [hl] at hc
    · exact hk (Option.some.inj (hl.symm.trans hc))
  exact ⟨_, execChannelSwitchover_loses hr hg hl, loseChannel_belvedere hr h⟩

end Sys2Proof.Machine
end
